-- ==== Sys2Proof/Word.lean ====
section
/-! DEFINITION. Sys2Proof/Word.lean: the word types of the machine (R4, R5). -/
namespace Sys2Proof

/-- One byte. -/
abbrev Byte := BitVec 8
/-- A fibre register (R22). -/
abbrev Word := BitVec 32
/-- A 64-bit value: an even-odd pair, a virtual address, a PC, a handler register (R5, R53). -/
abbrev W64 := BitVec 64
/-- A 128-bit value: a quad of registers or a haul word (R5, R69). -/
abbrev Quad := BitVec 128
/-- A register field of an instruction word (R241). -/
abbrev Reg := BitVec 8

end Sys2Proof
end

