-- ==== Sys2Proof/Syntax.lean ====
section
/-! DEFINITION. Sys2Proof/Syntax.lean: the steps of the machine. One constructor per row of spec/opcode_table.json: the
instructions carry the fields of their format (R243 to R250), the other rows (device steps, packets, commands, management
requests, errors) carry what names the place they act on. -/
namespace Sys2Proof

/-- Type code of a TY or TYS field (R242). -/
inductive Ty where
  | i8 | i16 | i32 | i64 | n8 | n16 | n32 | n64 | b128 | f16 | bf16 | f32 | f64 | e4m3 | e5m2 | q16n
  deriving DecidableEq, Repr

/-- The common header without OPC and FMT, which the constructor fixes (R236). -/
structure Hdr where
  gp : BitVec 4
  gn : Bool
  la : BitVec 4
  deriving DecidableEq, Repr

/-- Format 0: ALU (R243). -/
structure F0 where
  h : Hdr
  d : Reg
  a : Reg
  b : Reg
  c : Reg
  ty : Ty
  rm : BitVec 3
  mod : BitVec 8
  tys : Ty
  nan : Bool
  deriving DecidableEq, Repr

/-- Format 1: ALU with immediate (R244). -/
structure F1 where
  h : Hdr
  d : Reg
  a : Reg
  b : Reg
  ty : Ty
  rm : BitVec 3
  mod : BitVec 8
  imm : Word
  deriving DecidableEq, Repr

/-- Format 2: memory (R245). -/
structure F2 where
  h : Hdr
  d : Reg
  a : Reg
  b : Reg
  c : Reg
  ty : Ty
  sp : BitVec 2
  rd : BitVec 3
  pol : BitVec 2
  ord : BitVec 2
  sc : BitVec 2
  ix : Bool
  ixs : BitVec 2
  off : BitVec 24
  deriving DecidableEq, Repr

/-- Format 3: control (R247); fields B and C are always zero and are not kept. -/
structure F3 where
  h : Hdr
  d : Reg
  a : Reg
  mod : BitVec 8
  tline : BitVec 24
  tslot : BitVec 3
  deriving DecidableEq, Repr

/-- Format 4: engine (R248). -/
structure F4 where
  h : Hdr
  d : Reg
  a : Reg
  b : Reg
  c : Reg
  ty : Ty
  mod : BitVec 8
  deriving DecidableEq, Repr

/-- Format 5: transaction, sync, task and quarry (R249); `low` is bits 26:0, a target or an offset. -/
structure F5 where
  h : Hdr
  d : Reg
  a : Reg
  b : Reg
  c : Reg
  ord : BitVec 2
  sc : BitVec 2
  sp : BitVec 2
  mod : BitVec 8
  low : BitVec 27
  deriving DecidableEq, Repr

/-- Format 6: system (R250); field C is always zero and is not kept. -/
structure F6 where
  h : Hdr
  d : Reg
  a : Reg
  b : Reg
  sel : BitVec 12
  code : BitVec 16
  deriving DecidableEq, Repr

/-- The host-port registers whose store has no behaviour of its own (R413). -/
inductive HostReg where
  | dcrBase | dcrLog | frBase | frLog | frHead | dvec
  deriving DecidableEq, Repr

/-- Unit kinds of FENCESET and the error log (R435, R436). -/
inductive UnitKind where
  | core | cluster | home | loop | derrick
  deriving DecidableEq, Repr

/-- Where an uncorrectable error strikes data (R436): a physical address, a sector of a gang's scratchpad or shadow bank by offset, a sector of a
core's L1 or write-combining buffer or of a slab's core-side cache by context and sector number, a fibre register, or an accumulator tile. -/
inductive DataSite where
  | memory (pa : Nat)
  | scratch (gang off : Nat)
  | shadow (gang off : Nat)
  | l1 (core ctx sector : Nat)
  | buffer (core ctx sector : Nat)
  | slice (slab ctx sector : Nat)
  | register (gang fid n : Nat)
  | tile (cluster t : Nat)
  deriving DecidableEq, Repr

/-- The two kinds of link whose state PEERSET and TIERSET use (R421, R422). -/
inductive LinkKind where
  | peer | cxl
  deriving DecidableEq, Repr

/-- A delivery report (R107): the agent it is about, and the home it reaches, none for every home that can take it. -/
structure Delivery where
  agent : Nat
  home : Option Nat
  deriving DecidableEq, Repr

/-- One step of the machine, by its row of spec/opcode_table.json. -/
inductive Instr where
  /-- IADD (R257): Adds two register operands of the fibre and wraps the sum to the type's width. -/
  | iadd (f : F0)
  /-- IADD_IMM (R257): Adds a 32-bit immediate to a register operand and wraps the sum (format 1). -/
  | iaddImm (f : F1)
  /-- ISUB (R257): Subtracts one register operand from another and wraps the difference. -/
  | isub (f : F0)
  /-- ISUB_IMM (R257): Subtracts an immediate from a register operand and wraps the difference (format 1). -/
  | isubImm (f : F1)
  /-- IMUL (R257): Writes the low w bits of the product of two register operands. -/
  | imul (f : F0)
  /-- IMUL_IMM (R257): Writes the low w bits of the product of a register and an immediate (format 1). -/
  | imulImm (f : F1)
  /-- IMULH (R257): Writes the high w bits of the exact product of two register operands, by signedness. -/
  | imulh (f : F0)
  /-- IMULH_IMM (R257): Writes the high w bits of the exact product of a register and an immediate (format 1). -/
  | imulhImm (f : F1)
  /-- IMAD (R257): Computes A times B plus C with a single wrap. -/
  | imad (f : F0)
  /-- IMAD_IMM (R257): Computes A times B plus an immediate C with a single wrap (format 1). -/
  | imadImm (f : F1)
  /-- IDIV (R258): Writes the truncated quotient; on division by zero it writes all ones and sets DZI (long-latency). -/
  | idiv (f : F0)
  /-- IREM (R258): Writes the remainder with the sign of the dividend; on division by zero it writes the dividend and sets DZI (long-latency). -/
  | irem (f : F0)
  /-- IMIN (R259): Writes the lesser of two register operands, compared by signedness. -/
  | imin (f : F0)
  /-- IMIN_IMM (R259): Writes the lesser of a register and an immediate (format 1). -/
  | iminImm (f : F1)
  /-- IMAX (R259): Writes the greater of two register operands, compared by signedness. -/
  | imax (f : F0)
  /-- IMAX_IMM (R259): Writes the greater of a register and an immediate (format 1). -/
  | imaxImm (f : F1)
  /-- IABS (R259): Writes the absolute value wrapped to w bits; the most negative value returns itself. -/
  | iabs (f : F0)
  /-- INEG (R259): Writes the two's-complement negation wrapped to w bits. -/
  | ineg (f : F0)
  /-- AND (R261): Writes the bitwise AND of two register operands. -/
  | and_ (f : F0)
  /-- AND_IMM (R261): Writes the bitwise AND of a register and an immediate (format 1). -/
  | andImm (f : F1)
  /-- OR (R261): Writes the bitwise OR of two register operands. -/
  | or_ (f : F0)
  /-- OR_IMM (R261): Writes the bitwise OR of a register and an immediate (format 1). -/
  | orImm (f : F1)
  /-- XOR (R261): Writes the bitwise XOR of two register operands. -/
  | xor_ (f : F0)
  /-- XOR_IMM (R261): Writes the bitwise XOR of a register and an immediate (format 1). -/
  | xorImm (f : F1)
  /-- ANDN (R261): Writes A AND NOT B for two register operands. -/
  | andn (f : F0)
  /-- ANDN_IMM (R261): Writes A AND NOT immediate (format 1). -/
  | andnImm (f : F1)
  /-- NOT (R261): Writes the bitwise complement of A. -/
  | not_ (f : F0)
  /-- SHL (R262): Shifts A left by the register count modulo w, with zeros entering. -/
  | shl (f : F0)
  /-- SHL_IMM (R262): Shifts A left by an immediate count modulo w (format 1). -/
  | shlImm (f : F1)
  /-- SHR (R262): Shifts A right logically by the register count modulo w. -/
  | shr (f : F0)
  /-- SHR_IMM (R262): Shifts A right logically by an immediate count modulo w (format 1). -/
  | shrImm (f : F1)
  /-- SAR (R262): Shifts A right arithmetically by the register count modulo w. -/
  | sar (f : F0)
  /-- SAR_IMM (R262): Shifts A right arithmetically by an immediate count modulo w (format 1). -/
  | sarImm (f : F1)
  /-- ROL (R262): Rotates A left within w bits by the register count. -/
  | rol (f : F0)
  /-- ROL_IMM (R262): Rotates A left within w bits by an immediate count (format 1). -/
  | rolImm (f : F1)
  /-- ROR (R262): Rotates A right within w bits by the register count. -/
  | ror (f : F0)
  /-- ROR_IMM (R262): Rotates A right within w bits by an immediate count (format 1). -/
  | rorImm (f : F1)
  /-- BFE (R263): Extracts a bit field of A described by the register descriptor, sign- or zero-extended. -/
  | bfe (f : F0)
  /-- BFE_IMM (R263): Extracts a bit field of A described by an immediate descriptor (format 1). -/
  | bfeImm (f : F1)
  /-- BFI (R263): Inserts the low bits of B into A at the field given by the register descriptor C. -/
  | bfi (f : F0)
  /-- BFI_IMM (R263): Inserts the low bits of B into A at the field given by an immediate descriptor (format 1). -/
  | bfiImm (f : F1)
  /-- POPC (R264): Writes the count of set bits of A as a 32-bit value. -/
  | popc (f : F0)
  /-- CLZ (R264): Writes the count of leading zeros of A, or w for zero. -/
  | clz (f : F0)
  /-- CTZ (R264): Writes the count of trailing zeros of A, or w for zero. -/
  | ctz (f : F0)
  /-- BREV (R264): Writes A with its w bits reversed. -/
  | brev (f : F0)
  /-- LEA (R266): Forms the 64-bit address A plus the extended index B shifted left by s. -/
  | lea (f : F0)
  /-- MOV (R265): Copies A to D at the type's width, or an aligned quad with poison bits for .b128. -/
  | mov (f : F0)
  /-- MOVI (R265): Writes the 32-bit immediate, extended for 64-bit types. -/
  | movi (f : F1)
  /-- SEL (R267): Writes A when the named predicate is 1 and B otherwise. -/
  | sel (f : F0)
  /-- SEL_IMM (R267): Writes A when the named predicate is 1 and an immediate otherwise (format 1). -/
  | selImm (f : F1)
  /-- ICMP (R268): Writes to a predicate the truth of an integer comparison of two registers. -/
  | icmp (f : F0)
  /-- ICMP_IMM (R268): Writes to a predicate the truth of an integer comparison of a register with an immediate (format 1). -/
  | icmpImm (f : F1)
  /-- ISET (R268): Writes 1 or 0 to a register by an integer comparison of two registers. -/
  | iset (f : F0)
  /-- ISET_IMM (R268): Writes 1 or 0 to a register by an integer comparison with an immediate (format 1). -/
  | isetImm (f : F1)
  /-- PAND (R269): Writes the AND of two predicates. -/
  | pand (f : F0)
  /-- POR (R269): Writes the OR of two predicates. -/
  | por (f : F0)
  /-- PXOR (R269): Writes the XOR of two predicates. -/
  | pxor (f : F0)
  /-- PNOT (R269): Writes the complement of a predicate. -/
  | pnot (f : F0)
  /-- PMOV (R269): Copies one predicate to another (MOD 0). -/
  | pmov (f : F0)
  /-- PMOV_TO_REGISTER (R269): Writes the predicate word p0 to p15 into a register (MOD 1). -/
  | pmovToRegister (f : F0)
  /-- PMOV_FROM_REGISTER (R269): Loads p1 to p15 from bits of a register (MOD 2). -/
  | pmovFromRegister (f : F0)
  /-- IDOT4 (R260): Adds four byte products of A and B to the 32-bit register accumulator C. -/
  | idot4 (f : F0)
  /-- IDOT4_IMM (R260): Adds four byte products of A and B to an immediate accumulator (format 1). -/
  | idot4Imm (f : F1)
  /-- FADD (R276): Adds two FP32 registers with one rounding and sets flags. -/
  | fadd (f : F0)
  /-- FADD_IMM (R276): Adds an FP32 register and an FP32 immediate with one rounding (format 1). -/
  | faddImm (f : F1)
  /-- FSUB (R276): Subtracts two FP32 registers with one rounding. -/
  | fsub (f : F0)
  /-- FSUB_IMM (R276): Subtracts an FP32 immediate from a register with one rounding (format 1). -/
  | fsubImm (f : F1)
  /-- FMUL (R276): Multiplies two FP32 registers with one rounding. -/
  | fmul (f : F0)
  /-- FMUL_IMM (R276): Multiplies an FP32 register by an FP32 immediate with one rounding (format 1). -/
  | fmulImm (f : F1)
  /-- FFMA (R276): Computes A times B plus C in FP32 with a single rounding. -/
  | ffma (f : F0)
  /-- FFMA_IMM (R276): Computes A times B plus an FP32 immediate with a single rounding (format 1). -/
  | ffmaImm (f : F1)
  /-- FMIN (R277): Writes the minimumNumber of two FP32 registers. -/
  | fmin (f : F0)
  /-- FMIN_IMM (R277): Writes the minimumNumber of an FP32 register and an immediate (format 1). -/
  | fminImm (f : F1)
  /-- FMAX (R277): Writes the maximumNumber of two FP32 registers. -/
  | fmax (f : F0)
  /-- FMAX_IMM (R277): Writes the maximumNumber of an FP32 register and an immediate (format 1). -/
  | fmaxImm (f : F1)
  /-- FABS (R277): Clears bit 31 of A and sets no flag. -/
  | fabs (f : F0)
  /-- FNEG (R277): Inverts bit 31 of A and sets no flag. -/
  | fneg (f : F0)
  /-- FCMP (R278): Writes to a predicate an FP32 comparison of two registers under the condition. -/
  | fcmp (f : F0)
  /-- FCMP_IMM (R278): Writes to a predicate an FP32 comparison of a register with an immediate (format 1). -/
  | fcmpImm (f : F1)
  /-- FCLASS (R279): Writes a one-hot class mask of an FP32 value. -/
  | fclass (f : F0)
  /-- FDIV (R280): Divides two FP32 values with correct rounding (long-latency). -/
  | fdiv (f : F0)
  /-- FSQRT (R280): Writes the correctly rounded FP32 square root (long-latency). -/
  | fsqrt (f : F0)
  /-- FRSQ (R280): Writes the correctly rounded FP32 reciprocal square root (long-latency). -/
  | frsq (f : F0)
  /-- FRCP (R280): Writes the correctly rounded FP32 reciprocal (long-latency). -/
  | frcp (f : F0)
  /-- FEXP2 (R280): Writes the correctly rounded 2 to the power A (long-latency). -/
  | fexp2 (f : F0)
  /-- FLOG2 (R280): Writes the correctly rounded base-2 logarithm (long-latency). -/
  | flog2 (f : F0)
  /-- FRND (R281): Rounds A to an integral FP32 value in the direction of RM. -/
  | frnd (f : F0)
  /-- DADD (R282): Adds two FP64 pairs with one rounding (long-latency). -/
  | dadd (f : F0)
  /-- DMUL (R282): Multiplies two FP64 pairs with one rounding (long-latency). -/
  | dmul (f : F0)
  /-- DFMA (R282): Computes an FP64 fused multiply-add with one rounding (long-latency). -/
  | dfma (f : F0)
  /-- DDIV (R282): Divides two FP64 pairs with correct rounding (long-latency). -/
  | ddiv (f : F0)
  /-- DSQRT (R282): Writes the correctly rounded FP64 square root (long-latency). -/
  | dsqrt (f : F0)
  /-- DCMP (R278): Writes to a predicate an FP64 comparison under the condition (long-latency). -/
  | dcmp (f : F0)
  /-- DMIN (R282): Writes the minimumNumber of two FP64 pairs (long-latency). -/
  | dmin (f : F0)
  /-- DMAX (R282): Writes the maximumNumber of two FP64 pairs (long-latency). -/
  | dmax (f : F0)
  /-- HADD2 (R283): Adds two paired FP16 or BF16 elements independently. -/
  | hadd2 (f : F0)
  /-- HMUL2 (R283): Multiplies two paired FP16 or BF16 elements independently. -/
  | hmul2 (f : F0)
  /-- HFMA2 (R283): Computes a fused multiply-add on each element of a pair of FP16 values. -/
  | hfma2 (f : F0)
  /-- BFMA2 (R283): Computes a fused multiply-add on each element of a pair of BF16 values. -/
  | bfma2 (f : F0)
  /-- CVT (R284): Converts A from the source type to the result type, with FP8 saturation under R67. -/
  | cvt (f : F0)
  /-- QDEC (R286): Decodes one packed Q16N weight with its block scale and super-scale into a float. -/
  | qdec (f : F0)
  /-- HWCVT (R287): Converts a haul word in a quad to the target format under a directed rounding mode. -/
  | hwcvt (f : F0)
  /-- HWCVT_SR (R287): Converts a haul word to the target format by stochastic rounding with a seed and coordinates. -/
  | hwcvtSr (f : F0)
  /-- LSHFL (R290): Each participating lane reads A from the lane named by its register index. -/
  | lshfl (f : F0)
  /-- LSHFL_IMM (R290): Each participating lane reads A from the lane named by an immediate (IMM = 1). -/
  | lshflImm (f : F0)
  /-- LSHFU (R290): Each lane reads A from the lane n below it, by a register n. -/
  | lshfu (f : F0)
  /-- LSHFU_IMM (R290): Each lane reads A from the lane n below it, by an immediate n. -/
  | lshfuImm (f : F0)
  /-- LSHFD (R290): Each lane reads A from the lane n above it, by a register n. -/
  | lshfd (f : F0)
  /-- LSHFD_IMM (R290): Each lane reads A from the lane n above it, by an immediate n. -/
  | lshfdImm (f : F0)
  /-- LXOR (R290): Each lane reads A from the lane whose number is its own XOR a register n. -/
  | lxor (f : F0)
  /-- LXOR_IMM (R290): Each lane reads A from the lane whose number is its own XOR an immediate n. -/
  | lxorImm (f : F0)
  /-- LBCAST (R290): Broadcasts A of one lane, named by the elected fibre's register, to every lane. -/
  | lbcast (f : F0)
  /-- LBCAST_IMM (R290): Broadcasts A of the lane named by an immediate to every lane. -/
  | lbcastImm (f : F0)
  /-- LPFX (R291): Writes an inclusive or exclusive scan over the participating lanes in ascending lane order. -/
  | lpfx (f : F0)
  /-- LRED (R291): Writes the reduction over all participating lanes to every participating fibre. -/
  | lred (f : F0)
  /-- VOTE (R293): Writes an all, any or uniform vote of a predicate across the wave. -/
  | vote (f : F0)
  /-- BALLOT (R293): Writes the mask of participating lanes whose predicate is set. -/
  | ballot (f : F0)
  /-- MATCH (R293): Writes the mask of participating lanes whose A equals the fibre's own bit for bit. -/
  | match_ (f : F0)
  /-- ELECT (R293): Sets the predicate only in the fibre with the lowest participating lane. -/
  | elect (f : F0)
  /-- LGET (R295): In handler mode, reads a register, the predicate word or the PC item of a lane of the frozen wave. -/
  | lget (f : F0)
  /-- LPUT (R295): In handler mode, writes a register, the predicates or the PC item of a lane of the frozen wave. -/
  | lput (f : F0)
  /-- BRA (R297): Transfers control to a direct target and splits the wave if fibres diverge. -/
  | bra (f : F3)
  /-- BRX (R297): Transfers control to the PC held in a register pair. -/
  | brx (f : F3)
  /-- CALL (R297): Writes the return PC into a pair and transfers to a direct target. -/
  | call (f : F3)
  /-- RET (R297): Transfers control to the PC held in a pair, as a return hint. -/
  | ret (f : F3)
  /-- JOIN (R300): Waits until every member of the innermost join set arrives, then issues them onward. -/
  | join (f : F3)
  /-- SPAWN (R301): Creates a new fibre in the gang with the named window at the target and writes a success predicate. -/
  | spawn (f : F3)
  /-- QUIT (R302): Ends each executing fibre once its windows have closed. -/
  | quit (f : F3)
  /-- YIELD (R303): Returns the executing fibres to the fibre table and frees the wave slot. -/
  | yield (f : F3)
  /-- BAR (R304): Arrives at the gang barrier and waits for every live fibre of the gang. -/
  | bar (f : F3)
  /-- BARX (R305): Arrives at the crew barrier once the gang's HCHAINs have completed, and waits for the crew. -/
  | barx (f : F3)
  /-- LD (R314): Loads from global memory into registers, optionally with an acquire (long-latency). -/
  | ld (f : F2)
  /-- ST (R315): Stores registers to global memory under its RD and POL fields, optionally with a release. -/
  | st (f : F2)
  /-- LDS (R316): Loads from the gang's scratchpad (long-latency). -/
  | lds (f : F2)
  /-- STS (R316): Stores to the gang's scratchpad, optionally with a release. -/
  | sts (f : F2)
  /-- XST (R317): Writes data into a crew member's shadow bank, marked for the next swap, with no count. -/
  | xst (f : F2)
  /-- XST_COUNT (R318): Writes into a crew member's shadow bank and counts the bytes at a sync word at the swap (COUNT = 0b01). -/
  | xstCount (f : F2)
  /-- LDPL (R320): Rebuilds eight elements per lane from the bit planes of a scratchpad row (long-latency). -/
  | ldpl (f : F2)
  /-- STPL (R319): Writes eight elements per lane into the bit-plane form of a scratchpad row. -/
  | stpl (f : F2)
  /-- PREF (R321): Requests that the sector of the address be filled under RD and POL, or is dropped. -/
  | pref (f : F2)
  /-- FLUSHR (R322): Writes back the dirty bytes of a region in the gang's L1, leaving the sectors clean. -/
  | flushr (f : F2)
  /-- INVR (R323): Writes back and drops the L1 sectors of a region. -/
  | invr (f : F2)
  /-- AADD (R325): Adds an operand to a word at its home indivisibly and returns the old value. -/
  | aadd (f : F2)
  /-- AMIN (R325): Replaces a word at its home with the lesser of it and the operand, returning the old value. -/
  | amin (f : F2)
  /-- AMAX (R325): Replaces a word at its home with the greater of it and the operand, returning the old value. -/
  | amax (f : F2)
  /-- AAND (R325): ANDs the operand into a word at its home, returning the old value. -/
  | aand (f : F2)
  /-- AOR (R325): ORs the operand into a word at its home, returning the old value. -/
  | aor (f : F2)
  /-- AXOR (R325): XORs the operand into a word at its home, returning the old value. -/
  | axor (f : F2)
  /-- AXCHG (R325): Exchanges a word at its home with the operand, returning the old value. -/
  | axchg (f : F2)
  /-- ACAS (R325): Writes the operand at the home when the word equals the comparand, returning the old value. -/
  | acas (f : F2)
  /-- AINC (R325): Increments a word at its home indivisibly, returning the old value. -/
  | ainc (f : F2)
  /-- FENCE (R328): Acts as an acquire, release or acquire-release fence at its scope. -/
  | fence (f : F2)
  /-- FENCEX (R329): Orders observed class-A writes before later class-B accesses of the gang. -/
  | fencex (f : F2)
  /-- TBEGIN (R334): Opens a transaction level for the wave, pinning it when it starts the transaction. -/
  | tbegin (f : F5)
  /-- TEND (R335): Closes the innermost level once every pinned fibre reaches it, committing at the outermost. -/
  | tend (f : F5)
  /-- TABORT (R335): Aborts the transaction with cause TABORT and the given code. -/
  | tabort (f : F5)
  /-- TRETRY (R156): Takes the innermost untaken alternative, or registers the read set and sleeps when final. -/
  | tretry (f : F5)
  /-- TRETRYT (R160): Acts as TRETRY and, when final, sleeps for at most WAITLIMIT cycles. -/
  | tretryt (f : F5)
  /-- TORELSE (R156): Opens a level with an alternative label and checkpoints the write set. -/
  | torelse (f : F5)
  /-- SWINIT (R336): Sets a sync word's arrival and byte targets and clears its counts. -/
  | swinit (f : F5)
  /-- SWEXPECT (R336): Raises a sync word's byte target, saturating. -/
  | swexpect (f : F5)
  /-- SWARRIVE (R336): Adds the wave's arrivals to a sync word and ends the phase when both targets are met. -/
  | swarrive (f : F5)
  /-- TASKPOST (R340): Writes back the entry's regions and pushes the entry into a task queue, returning a status. -/
  | taskpost (f : F5)
  /-- TASKTAKE (R340): Pops an entry from a task queue into scratchpad and invalidates its regions, returning a status. -/
  | tasktake (f : F5)
  /-- TASKDONE (R341): Increments DONE of a task-queue header at its home. -/
  | taskdone (f : F5)
  /-- SBSET (R342): Performs a release at scope p and lets the task's stencil tile count as retired once every fibre has done so. -/
  | sbset (f : F5)
  /-- QKEY_PARENT (R345): Computes the parent key of a key from the descriptor's DIM and DEPTH. -/
  | qkeyParent (f : F5)
  /-- QKEY_CHILD (R345): Computes the key of child n of a key. -/
  | qkeyChild (f : F5)
  /-- QKEY_NBR (R345): Computes the same-level face neighbour of a key in direction n. -/
  | qkeyNbr (f : F5)
  /-- QFIND (R346): Finds the live block holding a key's first cell and its payload VA for a generation. -/
  | qfind (f : F5)
  /-- QOWNER (R346): Returns the owner cluster of a key under a generation. -/
  | qowner (f : F5)
  /-- QREFINE (R347): Replaces a live block by its children under R132 and returns a status. -/
  | qrefine (f : F5)
  /-- QCOARSEN (R347): Makes a block live in place of its children under R133 and returns a status. -/
  | qcoarsen (f : F5)
  /-- QCOST (R347): Adds a software amount to a block's cost accumulator. -/
  | qcost (f : F5)
  /-- QREBAL (R348): Rebalances kerfs by cost under R139, possibly starting a migration, and writes the result block. -/
  | qrebal (f : F5)
  /-- QGEN (R350): Writes the quarry's GEN and DONEGEN read in one step. -/
  | qgen (f : F5)
  /-- QSWEEP (R351): Releases at scope p, checks the kernel header and places a sweep of the quarry. -/
  | qsweep (f : F5)
  /-- MXCFG (R356): Replaces the gang's tile claim and operand formats, returning OK or BUSY. -/
  | mxcfg (f : F4)
  /-- MXOP (R357): Snapshots a parameter block and queues a matrix multiply-accumulate into a tile. -/
  | mxop (f : F4)
  /-- MXDRAIN (R358): Snapshots a drain block and queues a drain of a tile to scratchpad, memory or the haulway. -/
  | mxdrain (f : F4)
  /-- CPY (R205): Queues a strided block copy between global memory and scratchpad and writes its identifier. -/
  | cpy (f : F4)
  /-- CPYP (R207): Queues a copy of a row-major operand into bit-plane form in scratchpad. -/
  | cpyp (f : F4)
  /-- CPYG (R206): Queues a gather of indexed global elements into scratchpad. -/
  | cpyg (f : F4)
  /-- CPYS (R206): Queues a scatter of scratchpad elements to indexed global addresses. -/
  | cpys (f : F4)
  /-- CPYCAN (R364): Cancels a copy command of the gang and writes CANCELLED, DONE or UNKNOWN. -/
  | cpycan (f : F4)
  /-- HCHAIN (R360): Arms a haul handle's bins and publishes its route to the senders, returning OK or BUSY. -/
  | hchain (f : F4)
  /-- HSEND (R191): Queues an exact send of a tile to one bin of a haul handle. -/
  | hsend (f : F4)
  /-- HSENDV (R361): Sends one haul word per fibre to an element of a bin of a handle. -/
  | hsendv (f : F4)
  /-- HCAST (R191): Queues an exact send of a tile to a bin of every handle in a mask. -/
  | hcast (f : F4)
  /-- HDRAIN (R196): Drains a bin of an armed handle through the haulway port to scratchpad or memory. -/
  | hdrain (f : F4)
  /-- HFREE (R362): Makes an armed handle DRAINING, leaving its bins as plain scratchpad. -/
  | hfree (f : F4)
  /-- SPXI (R213): Writes the intersection mask, its count and the advanced value bases of two bitmap words. -/
  | spxi (f : F4)
  /-- SPXG (R214): Gathers the scratchpad values of matched pairs k onward and packs them into a pair. -/
  | spxg (f : F4)
  /-- TRAP (R373): Raises cause 15 for the executing lanes with its code in TRAPVAL. -/
  | trap (f : F6)
  /-- RETT (R375): Resolves every lane under R226 and resumes the wave from handler mode. -/
  | rett (f : F6)
  /-- CSRR (R369): Reads a CSR into registers. -/
  | csrr (f : F6)
  /-- CSRW (R369): Writes a CSR from registers, subject to its access. -/
  | csrw (f : F6)
  /-- CSRX (R369): Indivisibly updates the masked bits of a CSR and returns its old value. -/
  | csrx (f : F6)
  /-- SREAD (R372): Copies a special register into registers. -/
  | sread (f : F6)
  /-- NOP (R376): Uses its slot with no effect. -/
  | nop (f : F6)
  /-- BRK (R374): Raises BREAK, or halts the core when a debugger has claimed it. -/
  | brk (f : F6)
  /-- PERFR (R377): Reads a performance counter and CYCLE in the same cycle into a quad. -/
  | perfr (f : F6)
  /-- ILLEGAL_INSTRUCTION (R237): An instruction word that fails decode raises ILLEGAL for every lane of the wave. -/
  | illegalInstruction (w : BitVec 96)
  /-- ASYNC_TRAP (R224): A pending asynchronous cause is taken at the wave's next instruction boundary. -/
  | asyncTrap
  /-- FETCH_PARITY_MISMATCH (R234): A fetched line whose parity mismatches twice raises FETCH on the wave that needs it. -/
  | fetchParityMismatch
  /-- FETCH_PAGE_FAULT (R235): An instruction fetch that faults at the home parks the lanes and reports a PAGE fault. -/
  | fetchPageFault
  /-- WAVE_FILL (R35): The batcher fills a freed wave slot with the longest-waiting batch of ready fibres. -/
  | waveFill (core slot : Nat)
  /-- WAVE_MERGE (R36): The batcher merges two waves of one gang with equal PCs and disjoint lanes at an instruction boundary. -/
  | waveMerge (core a b : Nat)
  /-- WAVE_SLOT_TIMEOUT (R41): A wave that has held its slot 2,048 cycles while a ready fibre waits gives up its slot. -/
  | waveSlotTimeout (core slot : Nat)
  /-- REGISTER_COMPACTION (R33): The compactor moves a quiet fibre's window to another register block. -/
  | registerCompaction (gang fid base : Nat)
  /-- FUSED_MODE_CHANGE (R86): An empty cluster switches between fused and unfused L1, writing back and invalidating all lines. -/
  | fusedModeChange (cluster : Nat)
  /-- GANG_ADMIT (R29): A gang is admitted to a core once its windows and scratchpad block can be allocated, clearing the granules. -/
  | gangAdmit (task core : Nat)
  /-- CREW_ADMIT (R44): All gangs of a crew are admitted in one cycle on clusters of one slab. -/
  | crewAdmit (task : Nat) (cores : List Nat)
  /-- TASK_DISPATCH (R47): A grid task is dispatched in task-index order once its stencil predecessors have retired. -/
  | taskDispatch (launch : Nat)
  /-- SWEEP_TASK_DISPATCH (R141): A sweep task is dispatched to the owning cluster once its block's earlier-generation tasks and copy are done. -/
  | sweepTaskDispatch (launch index : Nat)
  /-- GANG_END (R28): A gang ends once its last fibre has quit and all its engine work has completed, freeing its resources. -/
  | gangEnd (gang : Nat)
  /-- TICK (R104): Every 128 cycles all agents advance the common tick and send tick markers behind their writes. -/
  | tick
  /-- DELIVERY_REPORT (R107): When every home has an agent's marker for t, the agent is reported delivered and homes raise their stable vectors. -/
  | deliveryReport (d : Delivery)
  /-- CORE_SIDE_FORWARD (R105): A core-side slice forwards a received write to its home with a stamp of the agent's vector. -/
  | coreSideForward (slab : Nat)
  /-- HOME_APPLY_WRITE (R108): A home applies a held write once its stable vector covers the stamp, incrementing the line version. -/
  | homeApplyWrite (home agent : Nat)
  /-- HOME_SERVE (R109): A home serves a read, atomic or validation once its stable vector covers the read vector. -/
  | homeServe (req : Nat) (evict : Option Nat)
  /-- CORE_SIDE_COPY_EXPIRY (R110): A core-side copy of a line homed elsewhere is discarded 64 ticks after its fill. -/
  | coreSideCopyExpiry (slab ctx line : Nat)
  /-- MEMORY_REPLY (R106): A load or atomic reply writes the registers, merges the write's stamp and frees the log entry. -/
  | memoryReply (req : Nat)
  /-- WRITE_PROBE_REPLY (R216): A write probe's reply confirms the sector and moves the lane's bytes into the L1. -/
  | writeProbeReply (req : Nat)
  /-- LOGGED_ACCESS_FAULT (R218): A logged access that faults at the home parks the faulting lanes and reports a PAGE fault. -/
  | loggedAccessFault (req : Nat)
  /-- TRANSACTION_REVALIDATE (R148): Every 4,096 cycles an open transaction revalidates its read set and aborts with CONFLICT on a difference. -/
  | transactionRevalidate (core slot : Nat)
  /-- TRETRYT_EXPIRY (R161): A timed retry's limit expires; the device revalidates and restarts with WOKEN or takes TIMEOUT. -/
  | tretrytExpiry (sleeper : Nat)
  /-- MATRIX_OPERATION_START (R170): The matrix engine starts the oldest operation of the next non-empty queue round-robin. -/
  | matrixOperationStart (cluster : Nat)
  /-- MXOP_COMPLETE (R186): An MXOP's sums are in the tile, and its sync word counts 65,536 bytes. -/
  | mxopComplete (cluster : Nat)
  /-- MATRIX_DRAIN_COMPLETE (R186): A store or add-on-store drain's writes are performed; it writes STATUS and counts its bytes. -/
  | matrixDrainComplete (op : Nat)
  /-- DRAIN_WRITE_FAULT (R187): A drain's global write faults, stalling its queue and reporting a DRAIN fault. -/
  | drainWriteFault (op : Nat)
  /-- HCHAIN_PUBLISHED (R189): Publication of an armed handle completes and HCHAIN's status is written. -/
  | hchainPublished (crew handle : Nat)
  /-- HAUL_PACKET_ARRIVAL (R192): A haul packet reaching the receiver's port is added into its bin, counted and acknowledged. -/
  | haulPacketArrival (packets : List Nat)
  /-- HAUL_ACKNOWLEDGEMENT (R192): An acknowledgement reaches the sender; a send drain counts its accepted bytes when all its packets are answered. -/
  | haulAcknowledgement (packet : Nat)
  /-- HAUL_DRAIN_COMPLETE (R196): An HDRAIN's writes are performed; it writes STATUS, counts its bytes and re-arms the bin. -/
  | haulDrainComplete (op : Nat)
  /-- COPY_COMMAND_START (R203): A copy command starts once every sector of its queue's previous command has landed. -/
  | copyCommandStart (core : Nat)
  /-- COPY_SECTOR_LAND (R208): A copy sector lands as one write and its bytes are counted at the sync word. -/
  | copySectorLand (core piece : Nat)
  /-- COPY_FAULT (R209): A copy's global access faults, stalling the command and reporting a COPY fault. -/
  | copyFault (core piece : Nat)
  /-- MIGRATION_COPY_START (R140): Once a migrating block's last g task retires, the quarry unit copies OLDPAY to PAY. -/
  | migrationCopyStart (quarry : Nat) (key : W64)
  /-- MIGRATION_COPY_LAND (R140): A migration copy lands, sets COPIED and releases at scope p. -/
  | migrationCopyLand (quarry : Nat) (key : W64)
  /-- MIGRATION_COMPLETE (R140): Once every g task has retired and every copy landed, the migration completes and DONEGEN advances. -/
  | migrationComplete (quarry : Nat)
  /-- QUARRY_ACCESS_FAULT (R143): A quarry-unit access faults, stalling the operation and reporting a QUARRY fault. -/
  | quarryAccessFault (quarry : Nat)
  /-- QUARRY_CORRUPTION (R126): A quarry operation meets a malformed structure, trapping QCORRUPT or stalling with a QUARRY report. -/
  | quarryCorruption (quarry : Nat)
  /-- GANG_SAVE (R228): During a drain, a quiescent gang is saved and leaves the core. -/
  | gangSave (gang : Nat)
  /-- DRAIN_COMPLETE (R415): When no gang of a draining context is resident, its state is written to the save area and the slot becomes FREE. -/
  | drainComplete (ctx : Nat)
  /-- DEADLINE_EXPIRY (R229): The context's deadline timer expires before the drain completes. -/
  | deadlineExpiry (ctx : Nat)
  /-- QUEUE_DOORBELL (R397): A host store to a queue's doorbell sets its write index and maps it to a Derrick thread. -/
  | queueDoorbell (queue : Nat) (w : W64)
  /-- QUEUE_MAP (R398): A waiting queue takes a freed Derrick thread slot by priority. -/
  | queueMap (queue : Nat)
  /-- QUEUE_IDLE_UNMAP (R398): A mapped queue that stays empty for IDLE microseconds is unmapped. -/
  | queueIdleUnmap (queue : Nat)
  /-- LAUNCH_PACKET (R402): Starts a launch: checks header and admission, then dispatches grid or sweep tasks. -/
  | launchPacket (queue : Nat)
  /-- COPY_PACKET (R399): Starts a host-queued copy of LEN bytes on the CPY path. -/
  | copyPacket (queue : Nat)
  /-- WAIT_PACKET (R401): Registers a word in a wake table and blocks the queue until the condition holds. -/
  | waitPacket (queue : Nat)
  /-- WAIT_PACKET_WAKE (R401): A change to the waited word is checked; the wait packet completes OK when its condition holds. -/
  | waitPacketWake (queue : Nat)
  /-- WAIT_PACKET_TIMEOUT (R401): A wait packet's TIMEOUT expires; it reads the word once more and completes OK or TIMEOUT. -/
  | waitPacketTimeout (queue : Nat)
  /-- SIGNAL_PACKET (R401): Performs a 64-bit exchange or add at the word's home. -/
  | signalPacket (queue : Nat)
  /-- GRAPH_PACKET (R408): Checks a graph image and starts its ENTRY node. -/
  | graphPacket (queue : Nat)
  /-- RECORD_PACKET (R399): Completes at once and writes a completion record. -/
  | recordPacket (queue : Nat)
  /-- PACKET_COMPLETE (R400): A packet completes, releases at its scope, writes its record if due and lets the next packet start. -/
  | packetComplete (queue : Nat) (index : W64)
  /-- NODE_START (R408): A graph node starts with an acquire once its arrivals reach NPRED. -/
  | nodeStart (queue node : Nat)
  /-- NODE_COMPLETE (R408): A node completes, releases, and adds arrivals to its successors, completing the graph when nothing remains. -/
  | nodeComplete (queue node : Nat)
  /-- DERRICK_ACCESS_FAULT (R440): A Derrick access for a queue faults, stalling the packet or node and reporting a QUEUE fault. -/
  | derrickAccessFault (queue : Nat)
  /-- COMPLETION_RECORD_WRITE (R405): A completion record is written at the event ring's TAIL once there is room, possibly raising an interrupt. -/
  | completionRecordWrite (ring : Nat)
  /-- EVENT_RING_TIME_EXPIRY (R405): TIME microseconds after the oldest pending record, the event ring sends an interrupt. -/
  | eventRingTimeExpiry (ring : Nat)
  /-- FAULT_RECORD_WRITE (R419): A fault record is written at FRTAIL once the fault ring has room, sending DVEC if it was empty. -/
  | faultRecordWrite
  /-- DCRDB (R413): A driver store to the command-ring write index hands commands to the Derrick complex, or is ignored and sets DCRERR. -/
  | dcrdb (w : W64)
  /-- DCRERR_READ (R413): A read of DCRERR returns its error bit and clears it. -/
  | dcrerrRead
  /-- HOST_REGISTER_WRITE (R413): A store to a host-port register without behaviour of its own, taking effect only while its ring is empty where so stated. -/
  | hostRegisterWrite (reg : HostReg) (v : W64)
  /-- COMMAND_START (R414): The next command starts once the host's earlier writes are stable. -/
  | commandStart
  /-- CTXCREATE (R414): Makes a FREE context slot LIVE with a PASID, root and deadline. -/
  | ctxcreate
  /-- CTXDESTROY (R412): Tears down a context's PASID, force-resets its gangs and writes a GONE record. -/
  | ctxdestroy
  /-- WINLOAD (R78): Loads or removes one range window of a context after checking it. -/
  | winload
  /-- QBIND (R124): Checks and binds a quarry descriptor to a slot, completing any migrations found. -/
  | qbind
  /-- QBIND_UNBIND (R414): Unbinds a quarry slot, BUSY while a migration is in progress. -/
  | qbindUnbind
  /-- QUEUESET (R396): Copies a queue descriptor image into a hardware queue. -/
  | queueset
  /-- EVRSET (R405): Sets an event ring's base, size, coalescing and vector. -/
  | evrset
  /-- DRAIN (R415): Starts draining a context for pre-emption and starts its deadline timer. -/
  | drain
  /-- RESTORE (R415): Reloads a save area into a FREE slot, making it LIVE. -/
  | restore
  /-- RESUME (R414): Makes a HELD context LIVE. -/
  | resume
  /-- DEADLINE (R416): Sets the deadline timer length, resetting the context at once if already elapsed. -/
  | deadline
  /-- TLBINV (R417): Writes back the range's dirty bytes and drops matching leaves, completing when old translations are drained. -/
  | tlbinv
  /-- FAULTANS_REPLAY (R420): Answers a pending fault with Replay, reissuing the faulted access. -/
  | faultansReplay
  /-- FAULTANS_REFLECT (R220): Answers a PAGE fault with Reflect, entering the handler with cause PAGE. -/
  | faultansReflect
  /-- FAULTANS_KILL (R220): Answers a fault with Kill, failing the task under R227. -/
  | faultansKill
  /-- FAULTANS_END (R420): Answers a COPY or QUEUE fault with End, ending the command, packet or record. -/
  | faultansEnd
  /-- PEERSET (R422): Sets the peer ports a context may reach and returns their link states. -/
  | peerset
  /-- TIERSET (R421): Declares or removes the PA range served by a CXL port. -/
  | tierset
  /-- KEYLOAD (R414): Loads the two XTS keys of a key index. -/
  | keyload
  /-- DEBUG_RELEASE (R414): Releases a debugger claim on a core. -/
  | debugRelease
  /-- DEBUG_CLAIM (R414): Claims a core for the debugger, so BRK halts it. -/
  | debugClaim
  /-- DEBUG_HALT (R232): Halts issue on a claimed core. -/
  | debugHalt
  /-- DEBUG_RESUME (R232): Resumes issue on a halted core. -/
  | debugResume
  /-- DEBUG_RESUME_PARKED (R226): Resumes lanes parked by a handler on a core. -/
  | debugResumeParked
  /-- PERFSEL (R414): Selects the event that a core's performance counter counts. -/
  | perfsel
  /-- PACKAGE_RESET (R426): Any reset starts the boot ROM, which scrubs if a lease is pending and then boots an image. -/
  | packageReset
  /-- MCTP_CONTROL_MESSAGE (R428): Answers an MCTP control message on the management port. -/
  | mctpControlMessage (msg : List Byte)
  /-- LEASERESET (R427): Stops outbound requests and issue, sets lease-pending and resets the package within 1 ms. -/
  | leasereset (nonce : BitVec 256) (flags : Byte)
  /-- STATUS (R428): Returns the state, lease-pending flag, lease count, scrub class and ROM failure code. -/
  | status
  /-- GETRECORD (R431): Returns bytes of the last stored scrub record. -/
  | getrecord (off len : Nat)
  /-- FENCEMAP (R435): Returns the current fence map. -/
  | fencemap
  /-- FENCESET_PIN (R435): Pins a unit fenced, taking effect at once. -/
  | fencesetPin (kind index : Nat)
  /-- FENCESET_UNPIN (R435): Unpins a unit, taking effect at the next scrub. -/
  | fencesetUnpin (kind index : Nat)
  /-- AGEREAD (R437): Returns a slab's ageing report with DAYS. -/
  | ageread (slab : Nat)
  /-- ERRLOG (R436): Returns one error-log entry. -/
  | errlog (index : Nat)
  /-- IDCERT (R432): Returns bytes of the identity key certificate chain. -/
  | idcert (off len : Nat)
  /-- OPIMAGE (R426): Writes 256 bytes of the slot-0 firmware image, effective at the next reset if its signature verifies. -/
  | opimage (off : Nat) (data : List Byte)
  /-- UNKNOWN_MANAGEMENT_COMMAND (R428): A vendor request with an unknown command or in the wrong state is answered BADCMD or WRONGSTATE. -/
  | unknownManagementCommand (cmd : Byte)
  /-- GET_VERSION (R433): Answers the SPDM GET_VERSION request. -/
  | getVersion (msg : List Byte)
  /-- GET_CAPABILITIES (R433): Answers the SPDM GET_CAPABILITIES request. -/
  | getCapabilities (msg : List Byte)
  /-- NEGOTIATE_ALGORITHMS (R433): Answers the SPDM NEGOTIATE_ALGORITHMS request. -/
  | negotiateAlgorithms (msg : List Byte)
  /-- GET_DIGESTS (R433): Answers the SPDM GET_DIGESTS request. -/
  | getDigests (msg : List Byte)
  /-- GET_CERTIFICATE (R433): Answers the SPDM GET_CERTIFICATE request. -/
  | getCertificate (msg : List Byte)
  /-- CHALLENGE (R433): Answers the SPDM CHALLENGE request with a signature by the attestation key. -/
  | challenge (msg : List Byte)
  /-- GET_MEASUREMENTS (R433): Returns the SHAKE256 measurements of ROM, image, fuses, scrub record and fence map. -/
  | getMeasurements (msg : List Byte)
  /-- CORRECTED_ERROR (R436): A single-bit ECC error is corrected and logged, fencing the unit if its rate exceeds 1,024 an hour. -/
  | correctedError (kind : UnitKind) (index : Nat) (pa : Nat)
  /-- UNCORRECTABLE_DATA_ERROR (R436): A double-bit data error poisons its 128-byte sector and is logged. -/
  | uncorrectableDataError (site : DataSite)
  /-- CONTROL_STATE_ERROR (R434): An uncorrectable error in a function's control state fences the function. -/
  | controlStateError (kind : UnitKind) (index : Nat)
  /-- PATROL_SCRUB (R436): Each home slice reads its whole channel every 24 hours and writes back corrected words. -/
  | patrolScrub (home : Nat)
  /-- AGEING_UPDATE (R437): Once an hour each slab recomputes DAYS from its monitors. -/
  | ageingUpdate (slab : Nat)
  /-- LONG_LATENCY_COMPLETION (R239): A long-latency ALU, floating-point, conversion or cross-lane operation completes and its result, poison and flags are written once its window has closed. -/
  | longLatencyCompletion (gang fid window : Nat)
  /-- WRITE_ACKNOWLEDGEMENT (R114): A home, the host, a second-tier device or a peer acknowledges a store, freeing its log entry or satisfying a pending release at scope y. -/
  | writeAcknowledgement (write : Nat)
  /-- HOST_MEMORY_WRITE (R105): A host write to device memory arrives at the weighbridge and leaves it for its home carrying the weighbridge's stamp. -/
  | hostMemoryWrite (pa : Nat) (data : List Byte)
  /-- TLBINV_COMPLETION (R417): A running TLBINV completes once the leaves are dropped, the old accesses are drained and the write-confirmed bits are cleared, and its reply is written. -/
  | tlbinvCompletion (index : W64)
  /-- EVENT_RING_HEAD_WRITE (R405): The host advances an event ring's HEAD, freeing room so that a waiting record and the work queued behind it proceed. -/
  | eventRingHeadWrite (ring : Nat) (head : W64)
  /-- LINK_STATE_CHANGE (R422): A peer or CXL port link trains or goes down, changing the link state that PEERSET reports and TIERSET checks. -/
  | linkStateChange (kind : LinkKind) (port : Nat) (up : Bool)
  deriving DecidableEq, Repr

end Sys2Proof
end

