-- ==== Sys2Proof/WellFormed.lean ====
section
/-! DEFINITION. Sys2Proof/WellFormed.lean: which instructions are legal (R237 steps 3 to 6), from the tables of the
instruction chapters. `Instr.wf v i` is for encoding version `v` (R384); a row without an encoding is always well-formed. -/
namespace Sys2Proof

namespace Ty

/-- The eight integer types ("int" of R253). -/
def isInt : Ty → Bool
  | .i8 | .i16 | .i32 | .i64 | .n8 | .n16 | .n32 | .n64 => true
  | _ => false

/-- Signed integer types. -/
def signed : Ty → Bool
  | .i8 | .i16 | .i32 | .i64 => true
  | _ => false

/-- The width of a type in bits; .q16n is carried as packed bytes (R242, R311). -/
def bits : Ty → Nat
  | .i8 | .n8 | .e4m3 | .e5m2 | .q16n => 8
  | .i16 | .n16 | .f16 | .bf16 => 16
  | .i32 | .n32 | .f32 => 32
  | .i64 | .n64 | .f64 => 64
  | .b128 => 128

/-- The type code of R242. -/
def code : Ty → BitVec 4
  | .i8 => 0 | .i16 => 1 | .i32 => 2 | .i64 => 3 | .n8 => 4 | .n16 => 5 | .n32 => 6 | .n64 => 7
  | .b128 => 8 | .f16 => 9 | .bf16 => 10 | .f32 => 11 | .f64 => 12 | .e4m3 => 13 | .e5m2 => 14 | .q16n => 15

/-- The type of a code of R242. -/
def ofCode (c : BitVec 4) : Ty :=
  match c.toNat with
  | 0 => .i8 | 1 => .i16 | 2 => .i32 | 3 => .i64 | 4 => .n8 | 5 => .n16 | 6 => .n32 | 7 => .n64
  | 8 => .b128 | 9 => .f16 | 10 => .bf16 | 11 => .f32 | 12 => .f64 | 13 => .e4m3 | 14 => .e5m2 | _ => .q16n

end Ty

/-- How an instruction uses a register field (R241). -/
inductive Use where
  | reg | pred | none
  deriving DecidableEq, Repr

/-- A register field against its use: a predicate needs bits 7:4 zero, an unused field is zero (R237 step 6, R241). -/
def Use.ok : Use → Reg → Bool
  | .reg, _ => true
  | .pred, r => r < 16
  | .none, r => r == 0

/-- Header legality (R237 steps 3 and 4): `ll` marks a long-latency instruction of R251. -/
def Hdr.ok (v : Nat) (ll : Bool) (h : Hdr) : Bool :=
  !(h.gn && h.gp == 0) && (h.la == 0 || (ll && v != 1))

/-- RM column: "any" is 0b000 to 0b100 or 0b111, otherwise 0b000 (R243, R272). -/
def rmOk (any : Bool) (rm : BitVec 3) : Bool :=
  if any then rm != 5 && rm != 6 else rm == 0

def intTys : List Ty := [.i8, .i16, .i32, .i64, .n8, .n16, .n32, .n64]
def wideTys : List Ty := [.i32, .n32, .i64, .n64]
def laneTys : List Ty := [.i32, .n32, .f32, .i64, .n64, .f64]
def memTys : List Ty := [.i8, .i16, .i32, .i64, .n8, .n16, .n32, .n64, .b128, .f16, .bf16, .f32, .f64, .e4m3, .e5m2]
def planeTys : List Ty := [.i8, .n8, .e4m3, .e5m2, .q16n]
def noTy : List Ty := [.i8]

/-- Format 0 with no source type and no NAN option. -/
def F0.ok (v : Nat) (f : F0) (ll : Bool) (tys : List Ty) (rmAny modOk : Bool) (d a b c : Use) : Bool :=
  f.h.ok v ll && tys.contains f.ty && rmOk rmAny f.rm && modOk && d.ok f.d && a.ok f.a && b.ok f.b && c.ok f.c
    && f.tys == .i8 && !f.nan

/-- Format 1. -/
def F1.ok (v : Nat) (f : F1) (tys : List Ty) (rmAny modOk : Bool) (d a b : Use) : Bool :=
  f.h.ok v false && tys.contains f.ty && rmOk rmAny f.rm && modOk && d.ok f.d && a.ok f.a && b.ok f.b

/-- The "RD, POL" column of R308. -/
inductive Pol where
  | used | ignored | zero
  deriving DecidableEq, Repr

/-- Format 2 against its row of R308: `c` says how field C is used when IX = 0. -/
def F2.ok (v : Nat) (f : F2) (ll : Bool) (sp : BitVec 2) (tys : List Ty) (ords : List (BitVec 2)) (scAny : Bool) (p : Pol)
    (ixOk : Bool) (d b c : Use) : Bool :=
  f.h.ok v ll && f.sp == sp && tys.contains f.ty && ords.contains f.ord && (scAny || f.sc == 0)
    && (p != .zero || (f.rd == 0 && f.pol == 0)) && (ixOk || !f.ix) && (f.ix || f.ixs == 0)
    && (f.ix || c.ok f.c) && d.ok f.d && b.ok f.b

/-- Format 3: a direct target has TSLOT 0 to 4, every other instruction a zero target (R247). -/
def F3.ok (v : Nat) (f : F3) (target modOk : Bool) (d a : Use) : Bool :=
  f.h.ok v false && (if target then f.tslot < 5 else f.tslot == 0 && f.tline == 0) && modOk && d.ok f.d && a.ok f.a

/-- Format 4 against its row of R352. -/
def F4.ok (v : Nat) (f : F4) (ll : Bool) (tys : List Ty) (modOk : Bool) (d a b c : Use) : Bool :=
  f.h.ok v ll && tys.contains f.ty && modOk && d.ok f.d && a.ok f.a && b.ok f.b && c.ok f.c

/-- What bits 26:0 of a format-5 word hold (R249, R332). -/
inductive Low where
  | target | memory | none
  deriving DecidableEq, Repr

def Low.ok : Low → BitVec 27 → Bool
  | .target, l => l.extractLsb' 0 3 < 5#3
  | .memory, l => l.extractLsb' 24 3 == 0#3
  | .none, l => l == 0

/-- Format 5 against its row of R332 or R343. -/
def F5.ok (v : Nat) (f : F5) (ll : Bool) (l : Low) (ords : List (BitVec 2)) (scAny : Bool) (sp : BitVec 2) (modOk : Bool)
    (d a b c : Use) : Bool :=
  f.h.ok v ll && l.ok f.low && ords.contains f.ord && (scAny || f.sc == 0) && f.sp == sp && modOk
    && d.ok f.d && a.ok f.a && b.ok f.b && c.ok f.c

/-- Format 6 against its row of R366. -/
def F6.ok (v : Nat) (f : F6) (selOk codeOk : Bool) (d a b : Use) : Bool :=
  f.h.ok v false && selOk && codeOk && d.ok f.d && a.ok f.a && b.ok f.b

/-- The CSR numbers of R368. -/
def csrNumberOk (s : BitVec 12) : Bool :=
  s ≤ 0x003 || (0x010 ≤ s && s ≤ 0x017) || (0x020 ≤ s && s ≤ 0x024) || s == 0x030 || s == 0x031 || (0x040 ≤ s && s ≤ 0x047)

/-- CVT's own conditions (R284): TY and TYS differ, neither is .b128 or .q16n, NAN only into FP8, RM zero between integers. -/
def F0.cvtOk (v : Nat) (f : F0) : Bool :=
  f.h.ok v (f.ty == .f64 || f.tys == .f64) && f.ty != .b128 && f.ty != .q16n && f.tys != .b128 && f.tys != .q16n
    && f.ty != f.tys && (!f.nan || f.ty == .e4m3 || f.ty == .e5m2) && rmOk (!(f.ty.isInt && f.tys.isInt)) f.rm
    && f.mod == 0 && f.b == 0 && f.c == 0

/-- HWCVT's own conditions (R287). -/
def F0.hwcvtOk (v : Nat) (f : F0) (sr : Bool) : Bool :=
  f.h.ok v false && [Ty.f32, .bf16, .f16, .e4m3, .e5m2, .i32].contains f.ty && f.tys == .i8
    && (!f.nan || f.ty == .e4m3 || f.ty == .e5m2)
    && (if sr then f.rm == 0 && f.mod == 1 else f.rm < 4 && f.mod == 0 && f.b == 0 && f.c == 0)

/-- A shuffle or broadcast (R289): `imm` is MOD bit 5. -/
def F0.shuffleOk (v : Nat) (f : F0) (imm : Bool) : Bool :=
  f.ok v true (.b128 :: laneTys) false
    (if imm then f.mod.extractLsb' 5 3 == 1#3 else f.mod == 0) .reg .reg (if imm then .none else .reg) .none

/-- A scan or reduction (R289). -/
def F0.scanOk (v : Nat) (f : F0) (exc : Bool) : Bool :=
  let op := f.mod.extractLsb' 0 3
  f.ok v true [.n32, .i32, .n64, .i64, .f32] (f.ty == .f32 && op == 0#3)
    ((if exc then f.mod.extractLsb' 4 4 == 0#4 else f.mod.extractLsb' 3 5 == 0#5) && op < (if f.ty == .f32 then 3#3 else 6#3))
    .reg .reg .none .none

/-- A load or store row of R308. -/
def F2.atomicOk (v : Nat) (f : F2) (b : Use) : Bool :=
  f.ok v true 0 wideTys [0, 1, 2, 3] true .zero true .reg b .none

/-- A QKEY form (R343): the form stands in MOD bits 1:0, its operand n in bits 4:2. -/
def F5.qkeyOk (v : Nat) (f : F5) (form : BitVec 2) (nOk : Bool) : Bool :=
  f.ok v false .none [0] false 0 (f.mod.extractLsb' 0 2 == form && f.mod.extractLsb' 5 3 == 0#3 && nOk) .reg .reg .reg .none

/-- A legal instruction of encoding version `v` (R237 steps 3 to 6, R252, R384). -/
def Instr.wf (v : Nat) : Instr → Bool
  -- integer, address and predicate instructions (R253)
  | .iadd f | .isub f | .imul f | .imulh f | .imin f | .imax f | .and_ f | .or_ f | .xor_ f | .andn f
  | .shl f | .shr f | .sar f | .rol f | .ror f | .bfe f => f.ok v false intTys false (f.mod == 0) .reg .reg .reg .none
  | .iaddImm f | .isubImm f | .imulImm f | .imulhImm f | .iminImm f | .imaxImm f | .andImm f | .orImm f | .xorImm f
  | .andnImm f | .shlImm f | .shrImm f | .sarImm f | .rolImm f | .rorImm f | .bfeImm f =>
    f.ok v intTys false (f.mod == 0) .reg .reg .none
  | .imad f | .bfi f => f.ok v false intTys false (f.mod == 0) .reg .reg .reg .reg
  | .imadImm f | .bfiImm f => f.ok v intTys false (f.mod == 0) .reg .reg .reg
  | .idiv f | .irem f => f.ok v true wideTys false (f.mod == 0) .reg .reg .reg .none
  | .iabs f => f.ok v false [.i8, .i16, .i32, .i64] false (f.mod == 0) .reg .reg .none .none
  | .ineg f | .not_ f | .popc f | .clz f | .ctz f | .brev f => f.ok v false intTys false (f.mod == 0) .reg .reg .none .none
  | .lea f => f.ok v false wideTys false (f.mod < 8) .reg .reg .reg .none
  | .mov f => f.ok v false (.b128 :: intTys) false (f.mod == 0) .reg .reg .none .none
  | .movi f => f.ok v intTys false (f.mod == 0) .reg .none .none
  | .sel f => f.ok v false intTys false (f.mod < 16) .reg .reg .reg .none
  | .selImm f => f.ok v intTys false (f.mod < 16) .reg .reg .none
  | .icmp f => f.ok v false intTys false (f.mod < 6) .pred .reg .reg .none
  | .icmpImm f => f.ok v intTys false (f.mod < 6) .pred .reg .none
  | .iset f => f.ok v false intTys false (f.mod < 6) .reg .reg .reg .none
  | .isetImm f => f.ok v intTys false (f.mod < 6) .reg .reg .none
  | .pand f | .por f | .pxor f => f.ok v false noTy false (f.mod == 0) .pred .pred .pred .none
  | .pnot f | .pmov f => f.ok v false noTy false (f.mod == 0) .pred .pred .none .none
  | .pmovToRegister f => f.ok v false noTy false (f.mod == 1) .reg .none .none .none
  | .pmovFromRegister f => f.ok v false noTy false (f.mod == 2) .none .reg .none .none
  | .idot4 f => f.ok v false [.i8, .n8] false (f.mod == 0) .reg .reg .reg .reg
  | .idot4Imm f => f.ok v [.i8, .n8] false (f.mod == 0) .reg .reg .reg
  -- floating point and conversion (R272)
  | .fadd f | .fsub f | .fmul f => f.ok v false [.f32] true (f.mod == 0) .reg .reg .reg .none
  | .faddImm f | .fsubImm f | .fmulImm f => f.ok v [.f32] true (f.mod == 0) .reg .reg .none
  | .ffma f => f.ok v false [.f32] true (f.mod == 0) .reg .reg .reg .reg
  | .ffmaImm f => f.ok v [.f32] true (f.mod == 0) .reg .reg .reg
  | .fmin f | .fmax f => f.ok v false [.f32] false (f.mod == 0) .reg .reg .reg .none
  | .fminImm f | .fmaxImm f => f.ok v [.f32] false (f.mod == 0) .reg .reg .none
  | .fabs f | .fneg f | .fclass f => f.ok v false [.f32] false (f.mod == 0) .reg .reg .none .none
  | .fcmp f => f.ok v false [.f32] false (f.mod < 8) .pred .reg .reg .none
  | .fcmpImm f => f.ok v [.f32] false (f.mod < 8) .pred .reg .none
  | .fdiv f => f.ok v true [.f32] true (f.mod == 0) .reg .reg .reg .none
  | .fsqrt f | .frsq f | .frcp f | .fexp2 f | .flog2 f => f.ok v true [.f32] true (f.mod == 0) .reg .reg .none .none
  | .frnd f => f.ok v false [.f32] true (f.mod == 0) .reg .reg .none .none
  | .dadd f | .dmul f | .ddiv f => f.ok v true [.f64] true (f.mod == 0) .reg .reg .reg .none
  | .dfma f => f.ok v true [.f64] true (f.mod == 0) .reg .reg .reg .reg
  | .dsqrt f => f.ok v true [.f64] true (f.mod == 0) .reg .reg .none .none
  | .dcmp f => f.ok v true [.f64] false (f.mod < 8) .pred .reg .reg .none
  | .dmin f | .dmax f => f.ok v true [.f64] false (f.mod == 0) .reg .reg .reg .none
  | .hadd2 f | .hmul2 f => f.ok v false [.f16, .bf16] true (f.mod == 0) .reg .reg .reg .none
  | .hfma2 f => f.ok v false [.f16] true (f.mod == 0) .reg .reg .reg .reg
  | .bfma2 f => f.ok v false [.bf16] true (f.mod == 0) .reg .reg .reg .reg
  | .cvt f => f.cvtOk v
  | .qdec f => f.ok v false [.f32, .bf16, .f16] true (f.mod < 8) .reg .reg .reg .reg
  | .hwcvt f => f.hwcvtOk v false
  | .hwcvtSr f => f.hwcvtOk v true
  -- cross-lane and lane access (R289, R295)
  | .lshfl f | .lshfu f | .lshfd f | .lxor f | .lbcast f => f.shuffleOk v false
  | .lshflImm f | .lshfuImm f | .lshfdImm f | .lxorImm f | .lbcastImm f => f.shuffleOk v true
  | .lpfx f => f.scanOk v true
  | .lred f => f.scanOk v false
  | .vote f => f.ok v false noTy false (f.mod < 3) .pred .pred .none .none
  | .ballot f => f.ok v false noTy false (f.mod == 0) .reg .pred .none .none
  | .match_ f => f.ok v true laneTys false (f.mod == 0) .reg .reg .none .none
  | .elect f => f.ok v false noTy false (f.mod == 0) .pred .none .none .none
  | .lget f => f.ok v false noTy false (f.mod == 0) .reg .reg .none .none
  | .lput f => f.ok v false noTy false (f.mod == 0) .none .reg .reg .none
  -- control (R296)
  | .bra f => f.ok v true (f.mod == 0) .none .none
  | .brx f | .ret f => f.ok v false (f.mod == 0) .none .reg
  | .call f => f.ok v true (f.mod == 0) .reg .none
  | .spawn f => f.ok v true (f.mod < 5) .pred .none
  | .join f | .quit f | .yield f | .bar f | .barx f => f.ok v false (f.mod == 0) .none .none
  -- memory, atomics, fences (R308)
  | .ld f => f.ok v true 0 memTys [0, 1] true .used true .reg .none .none
  | .st f => f.ok v false 0 memTys [0, 2] true .used true .none .reg .none
  | .lds f => f.ok v true 1 memTys [0, 1] true .ignored true .reg .none .none
  | .sts f => f.ok v false 1 memTys [0, 2] true .ignored true .none .reg .none
  | .xst f => f.ok v false 2 memTys [0] false .ignored true .none .reg .none
  | .xstCount f => f.ok v false 2 memTys [0] true .ignored true .reg .reg .none && f.sc == 1
  | .ldpl f => f.ok v true 1 planeTys [0] false .ignored true .reg .none .none
  | .stpl f => f.ok v false 1 planeTys [0] false .ignored true .none .reg .none
  | .pref f => f.ok v false 0 noTy [0] false .used true .none .none .none
  | .flushr f | .invr f => f.ok v false 0 noTy [0] true .zero true .none .reg .none
  | .aadd f | .amin f | .amax f | .aand f | .aor f | .axor f | .axchg f => f.atomicOk v .reg
  | .acas f => f.ok v true 0 wideTys [0, 1, 2, 3] true .zero false .reg .reg .reg
  | .ainc f => f.atomicOk v .none
  | .fence f => f.ok v false 0 noTy [1, 2, 3] true .zero false .none .none .none && f.a == 0 && f.off == 0
  | .fencex f => f.ok v false 0 noTy [0] true .zero false .none .none .none && f.a == 0
      && f.off.extractLsb' 0 3 < 5#3 && f.off.extractLsb' 4 3 < 5#3 && f.off.extractLsb' 3 1 == 0#1 && f.off.extractLsb' 7 17 == 0#17
  -- transactions, sync words, task queues (R332)
  | .tbegin f => f.ok v false .target [0] false 0 (f.mod == 0) .none .none .none .none
  | .tend f => f.ok v false .none [0] false 0 (f.mod == 0) .none .none .none .none && f.h.gp == 0
  | .tabort f => f.ok v false .none [0] false 0 true .none .none .none .none
  | .tretry f | .tretryt f => f.ok v false .none [0] false 0 (f.mod == 0) .none .none .none .none
  | .torelse f => v == 3 && f.ok v false .target [0] false 0 (f.mod == 0) .none .none .none .none && f.h.gp == 0
  | .swinit f => f.ok v false .memory [0] true 1 (f.mod == 0) .none .reg .reg .reg
  | .swexpect f => f.ok v false .memory [0] true 1 (f.mod == 0) .none .reg .reg .none
  | .swarrive f => f.ok v false .memory [0, 1, 2, 3] true 1 (f.mod == 0) .none .reg .none .none
  | .taskpost f => f.ok v true .memory [0, 2] true 0 (f.mod == 0) .reg .reg .reg .none
  | .tasktake f => f.ok v true .memory [0, 1] true 0 (f.mod == 0) .reg .reg .reg .none
  | .taskdone f => f.ok v false .memory [0, 2] true 0 (f.mod == 0) .none .reg .none .none
  | .sbset f => f.ok v false .none [0] false 0 (f.mod == 0) .none .none .none .none
  -- quarry (R343)
  | .qkeyParent f => f.qkeyOk v 0 (f.mod.extractLsb' 2 3 == 0#3)
  | .qkeyChild f => f.qkeyOk v 1 true
  | .qkeyNbr f => f.qkeyOk v 2 (f.mod.extractLsb' 2 3 < 6#3)
  | .qfind f | .qowner f => f.ok v true .none [0] false 0 (f.mod == 0) .reg .reg .reg .reg
  | .qrefine f | .qcoarsen f => f.ok v true .none [0] false 0 (f.mod == 0) .reg .reg .reg .none
  | .qcost f => f.ok v true .none [0] false 0 (f.mod == 0) .none .reg .reg .reg
  | .qrebal f => f.ok v true .none [0] false 0 (f.mod == 0) .reg .none .reg .none
  | .qgen f => f.ok v true .none [0] false 0 (f.mod == 0) .reg .none .none .none
  | .qsweep f => f.ok v false .none [0] false 0 (f.mod == 0) .none .reg .none .reg
  -- engines (R352)
  | .mxcfg f => f.ok v true noTy (f.mod == 0) .reg .reg .none .none
  | .mxop f | .mxdrain f | .hsend f | .hcast f | .hdrain f => f.ok v true noTy (f.mod == 0) .none .reg .none .none
  | .cpy f | .cpyp f | .cpyg f | .cpys f | .hchain f => f.ok v true noTy (f.mod == 0) .reg .reg .none .none
  | .cpycan f => f.ok v true noTy (f.mod == 0) .reg .none .reg .none
  | .hsendv f => f.ok v true noTy (f.mod == 0) .none .reg .reg .none
  | .hfree f => f.ok v true noTy (f.mod < 64) .none .none .none .none
  | .spxi f => f.ok v false noTy (f.mod == 0) .reg .reg .reg .reg
  | .spxg f => f.ok v true [.i8, .i16, .i32] (f.mod == 0) .reg .reg .reg .reg
  -- system (R366)
  | .trap f => f.ok v (f.sel == 0) true .none .none .none
  | .rett f | .nop f | .brk f => f.ok v (f.sel == 0) (f.code == 0) .none .none .none
  | .csrr f => f.ok v (csrNumberOk f.sel) (f.code == 0) .reg .none .none
  | .csrw f => f.ok v (csrNumberOk f.sel) (f.code == 0) .none .reg .none
  | .csrx f => f.ok v (csrNumberOk f.sel) (f.code == 0) .reg .reg .reg
  | .sread f => f.ok v (f.sel < 0x00F) (f.code == 0) .reg .none .none
  | .perfr f => f.ok v (f.sel < 8) (f.code == 0) .reg .none .none
  -- rows without an encoding
  | .illegalInstruction _ | .asyncTrap | .fetchParityMismatch | .fetchPageFault | .waveFill _ _ | .waveMerge _ _ _
  | .waveSlotTimeout _ _ | .registerCompaction _ _ _ | .fusedModeChange _ | .gangAdmit _ _ | .crewAdmit _ _
  | .taskDispatch _ | .sweepTaskDispatch _ _ | .gangEnd _ | .tick | .deliveryReport _ | .coreSideForward _
  | .homeApplyWrite _ _ | .homeServe _ _ | .coreSideCopyExpiry _ _ _ | .memoryReply _ | .writeProbeReply _
  | .loggedAccessFault _ | .transactionRevalidate _ _ | .tretrytExpiry _ | .matrixOperationStart _ | .mxopComplete _
  | .matrixDrainComplete _ | .drainWriteFault _ | .hchainPublished _ _ | .haulPacketArrival _ | .haulAcknowledgement _
  | .haulDrainComplete _ | .copyCommandStart _ | .copySectorLand _ _ | .copyFault _ _ | .migrationCopyStart _ _
  | .migrationCopyLand _ _ | .migrationComplete _ | .quarryAccessFault _ | .quarryCorruption _ | .gangSave _
  | .drainComplete _ | .deadlineExpiry _ | .queueDoorbell _ _ | .queueMap _ | .queueIdleUnmap _ | .launchPacket _
  | .copyPacket _ | .waitPacket _ | .waitPacketWake _ | .waitPacketTimeout _ | .signalPacket _ | .graphPacket _
  | .recordPacket _ | .packetComplete _ _ | .nodeStart _ _ | .nodeComplete _ _ | .derrickAccessFault _
  | .completionRecordWrite _ | .eventRingTimeExpiry _ | .faultRecordWrite | .dcrdb _ | .dcrerrRead
  | .hostRegisterWrite _ _ | .commandStart | .ctxcreate | .ctxdestroy | .winload | .qbind | .qbindUnbind | .queueset
  | .evrset | .drain | .restore | .resume | .deadline | .tlbinv | .faultansReplay | .faultansReflect | .faultansKill
  | .faultansEnd | .peerset | .tierset | .keyload | .debugRelease | .debugClaim | .debugHalt | .debugResume
  | .debugResumeParked | .perfsel | .packageReset | .mctpControlMessage _ | .leasereset _ _ | .status | .getrecord _ _
  | .fencemap | .fencesetPin _ _ | .fencesetUnpin _ _ | .ageread _ | .errlog _ | .idcert _ _ | .opimage _ _
  | .unknownManagementCommand _ | .getVersion _ | .getCapabilities _ | .negotiateAlgorithms _ | .getDigests _
  | .getCertificate _ | .challenge _ | .getMeasurements _ | .correctedError _ _ _ | .uncorrectableDataError _
  | .controlStateError _ _ | .patrolScrub _ | .ageingUpdate _ | .longLatencyCompletion _ _ _ | .writeAcknowledgement _
  | .hostMemoryWrite _ _ | .tlbinvCompletion _ | .eventRingHeadWrite _ _ | .linkStateChange _ _ _ => true

end Sys2Proof
end

