-- ==== Sys2Proof/Decode.lean ====
section
/-! DEFINITION. Sys2Proof/Decode.lean: from a 96-bit instruction word to an instruction or a named rejection (R236, R237, R243
to R252), and the encoder written from the same tables. -/
namespace Sys2Proof

/-- Why a word is no instruction (R237); every case raises ILLEGAL. -/
inductive DecodeError where
  /-- OPC is 0x00, 0xFE, 0xFF or unassigned (R237 step 1). -/
  | unassigned
  /-- FMT is 7 or not the family of OPC (R237 step 2). -/
  | format
  /-- A header field, a reserved field or a field value is illegal (R237 steps 3 to 6). -/
  | field
  deriving DecidableEq, Repr

/-- Bits `lo + n - 1 .. lo` of a word. -/
abbrev bitsAt (w : BitVec 96) (lo n : Nat) : BitVec n := w.extractLsb' lo n

/-- The common header (R236). -/
def Hdr.parse (w : BitVec 96) : Hdr := { gp := bitsAt w 84 4, gn := w.getLsbD 83, la := bitsAt w 76 4 }

/-- Bits 95:76 of a word: OPC, GP, GN, FMT, LA (R236). -/
def Hdr.pack (h : Hdr) (opc : BitVec 8) (fmt : BitVec 3) : BitVec 20 := opc ++ h.gp ++ BitVec.ofBool h.gn ++ fmt ++ h.la

def F0.parse (w : BitVec 96) : Option F0 :=
  if bitsAt w 0 24 == 0 then
    some { h := Hdr.parse w, d := bitsAt w 68 8, a := bitsAt w 60 8, b := bitsAt w 52 8, c := bitsAt w 44 8,
           ty := Ty.ofCode (bitsAt w 40 4), rm := bitsAt w 37 3, mod := bitsAt w 29 8, tys := Ty.ofCode (bitsAt w 25 4),
           nan := w.getLsbD 24 }
  else none

def F0.pack (opc : BitVec 8) (f : F0) : BitVec 96 :=
  f.h.pack opc 0 ++ f.d ++ f.a ++ f.b ++ f.c ++ f.ty.code ++ f.rm ++ f.mod ++ f.tys.code ++ BitVec.ofBool f.nan ++ 0#24

def F1.parse (w : BitVec 96) : Option F1 :=
  if bitsAt w 32 5 == 0 then
    some { h := Hdr.parse w, d := bitsAt w 68 8, a := bitsAt w 60 8, b := bitsAt w 52 8, ty := Ty.ofCode (bitsAt w 48 4),
           rm := bitsAt w 45 3, mod := bitsAt w 37 8, imm := bitsAt w 0 32 }
  else none

def F1.pack (opc : BitVec 8) (f : F1) : BitVec 96 :=
  f.h.pack opc 1 ++ f.d ++ f.a ++ f.b ++ f.ty.code ++ f.rm ++ f.mod ++ 0#5 ++ f.imm

def F2.parse (w : BitVec 96) : Option F2 :=
  if bitsAt w 24 2 == 0 then
    some { h := Hdr.parse w, d := bitsAt w 68 8, a := bitsAt w 60 8, b := bitsAt w 52 8, c := bitsAt w 44 8,
           ty := Ty.ofCode (bitsAt w 40 4), sp := bitsAt w 38 2, rd := bitsAt w 35 3, pol := bitsAt w 33 2, ord := bitsAt w 31 2,
           sc := bitsAt w 29 2, ix := w.getLsbD 28, ixs := bitsAt w 26 2, off := bitsAt w 0 24 }
  else none

def F2.pack (opc : BitVec 8) (f : F2) : BitVec 96 :=
  f.h.pack opc 2 ++ f.d ++ f.a ++ f.b ++ f.c ++ f.ty.code ++ f.sp ++ f.rd ++ f.pol ++ f.ord ++ f.sc ++ BitVec.ofBool f.ix
    ++ f.ixs ++ 0#2 ++ f.off

def F3.parse (w : BitVec 96) : Option F3 :=
  if bitsAt w 44 16 == 0 && bitsAt w 27 9 == 0 then
    some { h := Hdr.parse w, d := bitsAt w 68 8, a := bitsAt w 60 8, mod := bitsAt w 36 8, tline := bitsAt w 3 24,
           tslot := bitsAt w 0 3 }
  else none

def F3.pack (opc : BitVec 8) (f : F3) : BitVec 96 :=
  f.h.pack opc 3 ++ f.d ++ f.a ++ 0#16 ++ f.mod ++ 0#9 ++ f.tline ++ f.tslot

def F4.parse (w : BitVec 96) : Option F4 :=
  if bitsAt w 0 32 == 0 then
    some { h := Hdr.parse w, d := bitsAt w 68 8, a := bitsAt w 60 8, b := bitsAt w 52 8, c := bitsAt w 44 8,
           ty := Ty.ofCode (bitsAt w 40 4), mod := bitsAt w 32 8 }
  else none

def F4.pack (opc : BitVec 8) (f : F4) : BitVec 96 :=
  f.h.pack opc 4 ++ f.d ++ f.a ++ f.b ++ f.c ++ f.ty.code ++ f.mod ++ 0#32

def F5.parse (w : BitVec 96) : Option F5 :=
  if bitsAt w 27 3 == 0 then
    some { h := Hdr.parse w, d := bitsAt w 68 8, a := bitsAt w 60 8, b := bitsAt w 52 8, c := bitsAt w 44 8,
           ord := bitsAt w 42 2, sc := bitsAt w 40 2, sp := bitsAt w 38 2, mod := bitsAt w 30 8, low := bitsAt w 0 27 }
  else none

def F5.pack (opc : BitVec 8) (f : F5) : BitVec 96 :=
  f.h.pack opc 5 ++ f.d ++ f.a ++ f.b ++ f.c ++ f.ord ++ f.sc ++ f.sp ++ f.mod ++ 0#3 ++ f.low

def F6.parse (w : BitVec 96) : Option F6 :=
  if bitsAt w 44 8 == 0 && bitsAt w 0 16 == 0 then
    some { h := Hdr.parse w, d := bitsAt w 68 8, a := bitsAt w 60 8, b := bitsAt w 52 8, sel := bitsAt w 32 12,
           code := bitsAt w 16 16 }
  else none

def F6.pack (opc : BitVec 8) (f : F6) : BitVec 96 :=
  f.h.pack opc 6 ++ f.d ++ f.a ++ f.b ++ 0#8 ++ f.sel ++ f.code ++ 0#16

/-- Format 0 opcodes (R251). Opcodes that share a number are told apart by MOD, or by COUNT for XST. -/
def instrOf0 (opc : Nat) (f : F0) : Option Instr :=
  match opc with
  | 0x01 => some (.iadd f)
  | 0x02 => some (.isub f)
  | 0x03 => some (.imul f)
  | 0x04 => some (.imulh f)
  | 0x05 => some (.imad f)
  | 0x06 => some (.idiv f)
  | 0x07 => some (.irem f)
  | 0x08 => some (.imin f)
  | 0x09 => some (.imax f)
  | 0x0A => some (.iabs f)
  | 0x0B => some (.ineg f)
  | 0x0C => some (.and_ f)
  | 0x0D => some (.or_ f)
  | 0x0E => some (.xor_ f)
  | 0x0F => some (.andn f)
  | 0x10 => some (.not_ f)
  | 0x11 => some (.shl f)
  | 0x12 => some (.shr f)
  | 0x13 => some (.sar f)
  | 0x14 => some (.rol f)
  | 0x15 => some (.ror f)
  | 0x16 => some (.bfe f)
  | 0x17 => some (.bfi f)
  | 0x18 => some (.popc f)
  | 0x19 => some (.clz f)
  | 0x1A => some (.ctz f)
  | 0x1B => some (.brev f)
  | 0x1C => some (.lea f)
  | 0x1D => some (.mov f)
  | 0x1F => some (.sel f)
  | 0x20 => some (.icmp f)
  | 0x21 => some (.iset f)
  | 0x22 => some (.pand f)
  | 0x23 => some (.por f)
  | 0x24 => some (.pxor f)
  | 0x25 => some (.pnot f)
  | 0x26 => if f.mod == 0 then some (.pmov f) else if f.mod == 1 then some (.pmovToRegister f) else some (.pmovFromRegister f)
  | 0x27 => some (.idot4 f)
  | 0x40 => some (.fadd f)
  | 0x41 => some (.fsub f)
  | 0x42 => some (.fmul f)
  | 0x43 => some (.ffma f)
  | 0x44 => some (.fmin f)
  | 0x45 => some (.fmax f)
  | 0x46 => some (.fabs f)
  | 0x47 => some (.fneg f)
  | 0x48 => some (.fcmp f)
  | 0x49 => some (.fclass f)
  | 0x4A => some (.fdiv f)
  | 0x4B => some (.fsqrt f)
  | 0x4C => some (.frsq f)
  | 0x4D => some (.frcp f)
  | 0x4E => some (.fexp2 f)
  | 0x4F => some (.flog2 f)
  | 0x50 => some (.frnd f)
  | 0x58 => some (.dadd f)
  | 0x59 => some (.dmul f)
  | 0x5A => some (.dfma f)
  | 0x5B => some (.ddiv f)
  | 0x5C => some (.dsqrt f)
  | 0x5D => some (.dcmp f)
  | 0x5E => some (.dmin f)
  | 0x5F => some (.dmax f)
  | 0x60 => some (.hadd2 f)
  | 0x61 => some (.hmul2 f)
  | 0x62 => some (.hfma2 f)
  | 0x63 => some (.bfma2 f)
  | 0x68 => some (.cvt f)
  | 0x69 => some (.qdec f)
  | 0x6A => if f.mod == 1 then some (.hwcvtSr f) else some (.hwcvt f)
  | 0x70 => if f.mod.getLsbD 5 then some (.lshflImm f) else some (.lshfl f)
  | 0x71 => if f.mod.getLsbD 5 then some (.lshfuImm f) else some (.lshfu f)
  | 0x72 => if f.mod.getLsbD 5 then some (.lshfdImm f) else some (.lshfd f)
  | 0x73 => if f.mod.getLsbD 5 then some (.lxorImm f) else some (.lxor f)
  | 0x74 => if f.mod.getLsbD 5 then some (.lbcastImm f) else some (.lbcast f)
  | 0x75 => some (.lpfx f)
  | 0x76 => some (.lred f)
  | 0x77 => some (.vote f)
  | 0x78 => some (.ballot f)
  | 0x79 => some (.match_ f)
  | 0x7A => some (.elect f)
  | 0x7B => some (.lget f)
  | 0x7C => some (.lput f)
  | _ => none

/-- Format 1 opcodes (R251). Opcodes that share a number are told apart by MOD, or by COUNT for XST. -/
def instrOf1 (opc : Nat) (f : F1) : Option Instr :=
  match opc with
  | 0x01 => some (.iaddImm f)
  | 0x02 => some (.isubImm f)
  | 0x03 => some (.imulImm f)
  | 0x04 => some (.imulhImm f)
  | 0x05 => some (.imadImm f)
  | 0x08 => some (.iminImm f)
  | 0x09 => some (.imaxImm f)
  | 0x0C => some (.andImm f)
  | 0x0D => some (.orImm f)
  | 0x0E => some (.xorImm f)
  | 0x0F => some (.andnImm f)
  | 0x11 => some (.shlImm f)
  | 0x12 => some (.shrImm f)
  | 0x13 => some (.sarImm f)
  | 0x14 => some (.rolImm f)
  | 0x15 => some (.rorImm f)
  | 0x16 => some (.bfeImm f)
  | 0x17 => some (.bfiImm f)
  | 0x1E => some (.movi f)
  | 0x1F => some (.selImm f)
  | 0x20 => some (.icmpImm f)
  | 0x21 => some (.isetImm f)
  | 0x27 => some (.idot4Imm f)
  | 0x40 => some (.faddImm f)
  | 0x41 => some (.fsubImm f)
  | 0x42 => some (.fmulImm f)
  | 0x43 => some (.ffmaImm f)
  | 0x44 => some (.fminImm f)
  | 0x45 => some (.fmaxImm f)
  | 0x48 => some (.fcmpImm f)
  | _ => none

/-- Format 2 opcodes (R251). Opcodes that share a number are told apart by MOD, or by COUNT for XST. -/
def instrOf2 (opc : Nat) (f : F2) : Option Instr :=
  match opc with
  | 0x90 => some (.ld f)
  | 0x91 => some (.st f)
  | 0x92 => some (.lds f)
  | 0x93 => some (.sts f)
  | 0x94 => if f.sc == 1 then some (.xstCount f) else some (.xst f)
  | 0x95 => some (.ldpl f)
  | 0x96 => some (.stpl f)
  | 0x97 => some (.pref f)
  | 0x98 => some (.flushr f)
  | 0x99 => some (.invr f)
  | 0xA0 => some (.aadd f)
  | 0xA1 => some (.amin f)
  | 0xA2 => some (.amax f)
  | 0xA3 => some (.aand f)
  | 0xA4 => some (.aor f)
  | 0xA5 => some (.axor f)
  | 0xA6 => some (.axchg f)
  | 0xA7 => some (.acas f)
  | 0xA8 => some (.ainc f)
  | 0xB0 => some (.fence f)
  | 0xB1 => some (.fencex f)
  | _ => none

/-- Format 3 opcodes (R251). Opcodes that share a number are told apart by MOD, or by COUNT for XST. -/
def instrOf3 (opc : Nat) (f : F3) : Option Instr :=
  match opc with
  | 0x80 => some (.bra f)
  | 0x81 => some (.brx f)
  | 0x82 => some (.call f)
  | 0x83 => some (.ret f)
  | 0x84 => some (.join f)
  | 0x85 => some (.spawn f)
  | 0x86 => some (.quit f)
  | 0x87 => some (.yield f)
  | 0x88 => some (.bar f)
  | 0x89 => some (.barx f)
  | _ => none

/-- Format 4 opcodes (R251). Opcodes that share a number are told apart by MOD, or by COUNT for XST. -/
def instrOf4 (opc : Nat) (f : F4) : Option Instr :=
  match opc with
  | 0xE0 => some (.mxcfg f)
  | 0xE1 => some (.mxop f)
  | 0xE2 => some (.mxdrain f)
  | 0xE4 => some (.cpy f)
  | 0xE5 => some (.cpyp f)
  | 0xE6 => some (.cpyg f)
  | 0xE7 => some (.cpys f)
  | 0xE8 => some (.cpycan f)
  | 0xEA => some (.hchain f)
  | 0xEB => some (.hsend f)
  | 0xEC => some (.hsendv f)
  | 0xED => some (.hcast f)
  | 0xEE => some (.hdrain f)
  | 0xEF => some (.hfree f)
  | 0xF0 => some (.spxi f)
  | 0xF1 => some (.spxg f)
  | _ => none

/-- Format 5 opcodes (R251). Opcodes that share a number are told apart by MOD, or by COUNT for XST. -/
def instrOf5 (opc : Nat) (f : F5) : Option Instr :=
  match opc with
  | 0xC0 => some (.tbegin f)
  | 0xC1 => some (.tend f)
  | 0xC2 => some (.tabort f)
  | 0xC3 => some (.tretry f)
  | 0xC4 => some (.tretryt f)
  | 0xC5 => some (.torelse f)
  | 0xC8 => some (.swinit f)
  | 0xC9 => some (.swexpect f)
  | 0xCA => some (.swarrive f)
  | 0xCC => some (.taskpost f)
  | 0xCD => some (.tasktake f)
  | 0xCE => some (.taskdone f)
  | 0xCF => some (.sbset f)
  | 0xD0 => if f.mod.extractLsb' 0 2 == 0#2 then some (.qkeyParent f) else if f.mod.extractLsb' 0 2 == 1#2 then some (.qkeyChild f) else some (.qkeyNbr f)
  | 0xD1 => some (.qfind f)
  | 0xD2 => some (.qowner f)
  | 0xD3 => some (.qrefine f)
  | 0xD4 => some (.qcoarsen f)
  | 0xD5 => some (.qcost f)
  | 0xD6 => some (.qrebal f)
  | 0xD7 => some (.qgen f)
  | 0xD8 => some (.qsweep f)
  | _ => none

/-- Format 6 opcodes (R251). Opcodes that share a number are told apart by MOD, or by COUNT for XST. -/
def instrOf6 (opc : Nat) (f : F6) : Option Instr :=
  match opc with
  | 0xF4 => some (.trap f)
  | 0xF5 => some (.rett f)
  | 0xF6 => some (.csrr f)
  | 0xF7 => some (.csrw f)
  | 0xF8 => some (.csrx f)
  | 0xF9 => some (.sread f)
  | 0xFA => some (.nop f)
  | 0xFB => some (.brk f)
  | 0xFC => some (.perfr f)
  | _ => none

/-- An opcode of R251 assigned to some format (the table of version 3; TORELSE is checked by `Instr.wf`). -/
def opcodeAssigned (opc : Nat) : Bool :=
  (0x01 ≤ opc && opc ≤ 0x27)
  || (0x40 ≤ opc && opc ≤ 0x50)
  || (0x58 ≤ opc && opc ≤ 0x63)
  || (0x68 ≤ opc && opc ≤ 0x6A)
  || (0x70 ≤ opc && opc ≤ 0x7C)
  || (0x80 ≤ opc && opc ≤ 0x89)
  || (0x90 ≤ opc && opc ≤ 0x99)
  || (0xA0 ≤ opc && opc ≤ 0xA8)
  || (0xB0 ≤ opc && opc ≤ 0xB1)
  || (0xC0 ≤ opc && opc ≤ 0xC5)
  || (0xC8 ≤ opc && opc ≤ 0xCA)
  || (0xCC ≤ opc && opc ≤ 0xD8)
  || (0xE0 ≤ opc && opc ≤ 0xE2)
  || (0xE4 ≤ opc && opc ≤ 0xE8)
  || (0xEA ≤ opc && opc ≤ 0xF1)
  || (0xF4 ≤ opc && opc ≤ 0xFC)

/-- The word of an instruction; `none` for a row of the opcode table that has no encoding. -/
def encode : Instr → Option (BitVec 96)
  | .iadd f => some (f.pack 0x01)
  | .iaddImm f => some (f.pack 0x01)
  | .isub f => some (f.pack 0x02)
  | .isubImm f => some (f.pack 0x02)
  | .imul f => some (f.pack 0x03)
  | .imulImm f => some (f.pack 0x03)
  | .imulh f => some (f.pack 0x04)
  | .imulhImm f => some (f.pack 0x04)
  | .imad f => some (f.pack 0x05)
  | .imadImm f => some (f.pack 0x05)
  | .idiv f => some (f.pack 0x06)
  | .irem f => some (f.pack 0x07)
  | .imin f => some (f.pack 0x08)
  | .iminImm f => some (f.pack 0x08)
  | .imax f => some (f.pack 0x09)
  | .imaxImm f => some (f.pack 0x09)
  | .iabs f => some (f.pack 0x0A)
  | .ineg f => some (f.pack 0x0B)
  | .and_ f => some (f.pack 0x0C)
  | .andImm f => some (f.pack 0x0C)
  | .or_ f => some (f.pack 0x0D)
  | .orImm f => some (f.pack 0x0D)
  | .xor_ f => some (f.pack 0x0E)
  | .xorImm f => some (f.pack 0x0E)
  | .andn f => some (f.pack 0x0F)
  | .andnImm f => some (f.pack 0x0F)
  | .not_ f => some (f.pack 0x10)
  | .shl f => some (f.pack 0x11)
  | .shlImm f => some (f.pack 0x11)
  | .shr f => some (f.pack 0x12)
  | .shrImm f => some (f.pack 0x12)
  | .sar f => some (f.pack 0x13)
  | .sarImm f => some (f.pack 0x13)
  | .rol f => some (f.pack 0x14)
  | .rolImm f => some (f.pack 0x14)
  | .ror f => some (f.pack 0x15)
  | .rorImm f => some (f.pack 0x15)
  | .bfe f => some (f.pack 0x16)
  | .bfeImm f => some (f.pack 0x16)
  | .bfi f => some (f.pack 0x17)
  | .bfiImm f => some (f.pack 0x17)
  | .popc f => some (f.pack 0x18)
  | .clz f => some (f.pack 0x19)
  | .ctz f => some (f.pack 0x1A)
  | .brev f => some (f.pack 0x1B)
  | .lea f => some (f.pack 0x1C)
  | .mov f => some (f.pack 0x1D)
  | .movi f => some (f.pack 0x1E)
  | .sel f => some (f.pack 0x1F)
  | .selImm f => some (f.pack 0x1F)
  | .icmp f => some (f.pack 0x20)
  | .icmpImm f => some (f.pack 0x20)
  | .iset f => some (f.pack 0x21)
  | .isetImm f => some (f.pack 0x21)
  | .pand f => some (f.pack 0x22)
  | .por f => some (f.pack 0x23)
  | .pxor f => some (f.pack 0x24)
  | .pnot f => some (f.pack 0x25)
  | .pmov f => some (f.pack 0x26)
  | .pmovToRegister f => some (f.pack 0x26)
  | .pmovFromRegister f => some (f.pack 0x26)
  | .idot4 f => some (f.pack 0x27)
  | .idot4Imm f => some (f.pack 0x27)
  | .fadd f => some (f.pack 0x40)
  | .faddImm f => some (f.pack 0x40)
  | .fsub f => some (f.pack 0x41)
  | .fsubImm f => some (f.pack 0x41)
  | .fmul f => some (f.pack 0x42)
  | .fmulImm f => some (f.pack 0x42)
  | .ffma f => some (f.pack 0x43)
  | .ffmaImm f => some (f.pack 0x43)
  | .fmin f => some (f.pack 0x44)
  | .fminImm f => some (f.pack 0x44)
  | .fmax f => some (f.pack 0x45)
  | .fmaxImm f => some (f.pack 0x45)
  | .fabs f => some (f.pack 0x46)
  | .fneg f => some (f.pack 0x47)
  | .fcmp f => some (f.pack 0x48)
  | .fcmpImm f => some (f.pack 0x48)
  | .fclass f => some (f.pack 0x49)
  | .fdiv f => some (f.pack 0x4A)
  | .fsqrt f => some (f.pack 0x4B)
  | .frsq f => some (f.pack 0x4C)
  | .frcp f => some (f.pack 0x4D)
  | .fexp2 f => some (f.pack 0x4E)
  | .flog2 f => some (f.pack 0x4F)
  | .frnd f => some (f.pack 0x50)
  | .dadd f => some (f.pack 0x58)
  | .dmul f => some (f.pack 0x59)
  | .dfma f => some (f.pack 0x5A)
  | .ddiv f => some (f.pack 0x5B)
  | .dsqrt f => some (f.pack 0x5C)
  | .dcmp f => some (f.pack 0x5D)
  | .dmin f => some (f.pack 0x5E)
  | .dmax f => some (f.pack 0x5F)
  | .hadd2 f => some (f.pack 0x60)
  | .hmul2 f => some (f.pack 0x61)
  | .hfma2 f => some (f.pack 0x62)
  | .bfma2 f => some (f.pack 0x63)
  | .cvt f => some (f.pack 0x68)
  | .qdec f => some (f.pack 0x69)
  | .hwcvt f => some (f.pack 0x6A)
  | .hwcvtSr f => some (f.pack 0x6A)
  | .lshfl f => some (f.pack 0x70)
  | .lshflImm f => some (f.pack 0x70)
  | .lshfu f => some (f.pack 0x71)
  | .lshfuImm f => some (f.pack 0x71)
  | .lshfd f => some (f.pack 0x72)
  | .lshfdImm f => some (f.pack 0x72)
  | .lxor f => some (f.pack 0x73)
  | .lxorImm f => some (f.pack 0x73)
  | .lbcast f => some (f.pack 0x74)
  | .lbcastImm f => some (f.pack 0x74)
  | .lpfx f => some (f.pack 0x75)
  | .lred f => some (f.pack 0x76)
  | .vote f => some (f.pack 0x77)
  | .ballot f => some (f.pack 0x78)
  | .match_ f => some (f.pack 0x79)
  | .elect f => some (f.pack 0x7A)
  | .lget f => some (f.pack 0x7B)
  | .lput f => some (f.pack 0x7C)
  | .bra f => some (f.pack 0x80)
  | .brx f => some (f.pack 0x81)
  | .call f => some (f.pack 0x82)
  | .ret f => some (f.pack 0x83)
  | .join f => some (f.pack 0x84)
  | .spawn f => some (f.pack 0x85)
  | .quit f => some (f.pack 0x86)
  | .yield f => some (f.pack 0x87)
  | .bar f => some (f.pack 0x88)
  | .barx f => some (f.pack 0x89)
  | .ld f => some (f.pack 0x90)
  | .st f => some (f.pack 0x91)
  | .lds f => some (f.pack 0x92)
  | .sts f => some (f.pack 0x93)
  | .xst f => some (f.pack 0x94)
  | .xstCount f => some (f.pack 0x94)
  | .ldpl f => some (f.pack 0x95)
  | .stpl f => some (f.pack 0x96)
  | .pref f => some (f.pack 0x97)
  | .flushr f => some (f.pack 0x98)
  | .invr f => some (f.pack 0x99)
  | .aadd f => some (f.pack 0xA0)
  | .amin f => some (f.pack 0xA1)
  | .amax f => some (f.pack 0xA2)
  | .aand f => some (f.pack 0xA3)
  | .aor f => some (f.pack 0xA4)
  | .axor f => some (f.pack 0xA5)
  | .axchg f => some (f.pack 0xA6)
  | .acas f => some (f.pack 0xA7)
  | .ainc f => some (f.pack 0xA8)
  | .fence f => some (f.pack 0xB0)
  | .fencex f => some (f.pack 0xB1)
  | .tbegin f => some (f.pack 0xC0)
  | .tend f => some (f.pack 0xC1)
  | .tabort f => some (f.pack 0xC2)
  | .tretry f => some (f.pack 0xC3)
  | .tretryt f => some (f.pack 0xC4)
  | .torelse f => some (f.pack 0xC5)
  | .swinit f => some (f.pack 0xC8)
  | .swexpect f => some (f.pack 0xC9)
  | .swarrive f => some (f.pack 0xCA)
  | .taskpost f => some (f.pack 0xCC)
  | .tasktake f => some (f.pack 0xCD)
  | .taskdone f => some (f.pack 0xCE)
  | .sbset f => some (f.pack 0xCF)
  | .qkeyParent f => some (f.pack 0xD0)
  | .qkeyChild f => some (f.pack 0xD0)
  | .qkeyNbr f => some (f.pack 0xD0)
  | .qfind f => some (f.pack 0xD1)
  | .qowner f => some (f.pack 0xD2)
  | .qrefine f => some (f.pack 0xD3)
  | .qcoarsen f => some (f.pack 0xD4)
  | .qcost f => some (f.pack 0xD5)
  | .qrebal f => some (f.pack 0xD6)
  | .qgen f => some (f.pack 0xD7)
  | .qsweep f => some (f.pack 0xD8)
  | .mxcfg f => some (f.pack 0xE0)
  | .mxop f => some (f.pack 0xE1)
  | .mxdrain f => some (f.pack 0xE2)
  | .cpy f => some (f.pack 0xE4)
  | .cpyp f => some (f.pack 0xE5)
  | .cpyg f => some (f.pack 0xE6)
  | .cpys f => some (f.pack 0xE7)
  | .cpycan f => some (f.pack 0xE8)
  | .hchain f => some (f.pack 0xEA)
  | .hsend f => some (f.pack 0xEB)
  | .hsendv f => some (f.pack 0xEC)
  | .hcast f => some (f.pack 0xED)
  | .hdrain f => some (f.pack 0xEE)
  | .hfree f => some (f.pack 0xEF)
  | .spxi f => some (f.pack 0xF0)
  | .spxg f => some (f.pack 0xF1)
  | .trap f => some (f.pack 0xF4)
  | .rett f => some (f.pack 0xF5)
  | .csrr f => some (f.pack 0xF6)
  | .csrw f => some (f.pack 0xF7)
  | .csrx f => some (f.pack 0xF8)
  | .sread f => some (f.pack 0xF9)
  | .nop f => some (f.pack 0xFA)
  | .brk f => some (f.pack 0xFB)
  | .perfr f => some (f.pack 0xFC)
  | .illegalInstruction _ | .asyncTrap | .fetchParityMismatch | .fetchPageFault | .waveFill _ _ | .waveMerge _ _ _
  | .waveSlotTimeout _ _ | .registerCompaction _ _ _ | .fusedModeChange _ | .gangAdmit _ _ | .crewAdmit _ _
  | .taskDispatch _ | .sweepTaskDispatch _ _ | .gangEnd _ | .tick | .deliveryReport _ | .coreSideForward _
  | .homeApplyWrite _ _ | .homeServe _ _ | .coreSideCopyExpiry _ _ _ | .memoryReply _ | .writeProbeReply _
  | .loggedAccessFault _ | .transactionRevalidate _ _ | .tretrytExpiry _ | .matrixOperationStart _ | .mxopComplete _
  | .matrixDrainComplete _ | .drainWriteFault _ | .hchainPublished _ _ | .haulPacketArrival _ | .haulAcknowledgement _
  | .haulDrainComplete _ | .copyCommandStart _ | .copySectorLand _ _ | .copyFault _ _ | .migrationCopyStart _ _
  | .migrationCopyLand _ _ | .migrationComplete _ | .quarryAccessFault _ | .quarryCorruption _ | .gangSave _
  | .drainComplete _ | .deadlineExpiry _ | .queueDoorbell _ _ | .queueMap _ | .queueIdleUnmap _ | .launchPacket _
  | .copyPacket _ | .waitPacket _ | .waitPacketWake _ | .waitPacketTimeout _ | .signalPacket _ | .graphPacket _
  | .recordPacket _ | .packetComplete _ _ | .nodeStart _ _ | .nodeComplete _ _ | .derrickAccessFault _
  | .completionRecordWrite _ | .eventRingTimeExpiry _ | .faultRecordWrite | .dcrdb _ | .dcrerrRead
  | .hostRegisterWrite _ _ | .commandStart | .ctxcreate | .ctxdestroy | .winload | .qbind | .qbindUnbind | .queueset
  | .evrset | .drain | .restore | .resume | .deadline | .tlbinv | .faultansReplay | .faultansReflect | .faultansKill
  | .faultansEnd | .peerset | .tierset | .keyload | .debugRelease | .debugClaim | .debugHalt | .debugResume
  | .debugResumeParked | .perfsel | .packageReset | .mctpControlMessage _ | .leasereset _ _ | .status | .getrecord _ _
  | .fencemap | .fencesetPin _ _ | .fencesetUnpin _ _ | .ageread _ | .errlog _ | .idcert _ _ | .opimage _ _
  | .unknownManagementCommand _ | .getVersion _ | .getCapabilities _ | .negotiateAlgorithms _ | .getDigests _
  | .getCertificate _ | .challenge _ | .getMeasurements _ | .correctedError _ _ _ | .uncorrectableDataError _
  | .controlStateError _ _ | .patrolScrub _ | .ageingUpdate _ | .longLatencyCompletion _ _ _ | .writeAcknowledgement _
  | .hostMemoryWrite _ _ | .tlbinvCompletion _ | .eventRingHeadWrite _ _ | .linkStateChange _ _ _ => none

/-- The instruction a word's opcode, format and fields name, before `Instr.wf` judges the fields. -/
def candidate (w : BitVec 96) : Option Instr :=
  let opc := (bitsAt w 88 8).toNat
  match (bitsAt w 80 3).toNat with
  | 0 => (F0.parse w).bind (instrOf0 opc)
  | 1 => (F1.parse w).bind (instrOf1 opc)
  | 2 => (F2.parse w).bind (instrOf2 opc)
  | 3 => (F3.parse w).bind (instrOf3 opc)
  | 4 => (F4.parse w).bind (instrOf4 opc)
  | 5 => (F5.parse w).bind (instrOf5 opc)
  | 6 => (F6.parse w).bind (instrOf6 opc)
  | _ => none

/-- The formats an opcode accepts (FMT column of R251): opcodes below 0x80 take format 0 or 1. -/
def formatOk (opc fmt : Nat) : Bool :=
  if opc < 0x70 then fmt ≤ 1 else if opc < 0x80 then fmt == 0 else if opc < 0x90 then fmt == 3 else if opc < 0xC0 then fmt == 2
  else if opc < 0xE0 then fmt == 5 else if opc < 0xF4 then fmt == 4 else fmt == 6

/-- The decoder of encoding version `v`, total on any word (R237, R384). -/
def decode (v : Nat) (w : BitVec 96) : Except DecodeError Instr :=
  if !opcodeAssigned (bitsAt w 88 8).toNat then .error .unassigned
  else if !formatOk (bitsAt w 88 8).toNat (bitsAt w 80 3).toNat then .error .format
  else match candidate w with
    | some i => if i.wf v then .ok i else .error .field
    | none => .error .field

/-- A word from its bytes, the lowest address first (R5, R233). -/
def wordOfBytes : List Byte → Nat
  | [] => 0
  | b :: bs => b.toNat + 256 * wordOfBytes bs

/-- The decoder on an instruction's bytes. -/
def decodeBytes (v : Nat) (bs : List Byte) : Except DecodeError Instr := decode v (BitVec.ofNat 96 (wordOfBytes (bs.take 12)))

/-- `n` bytes of a number, the least significant first (R5). -/
def bytesOf : Nat → Nat → List Byte
  | 0, _ => []
  | n + 1, w => BitVec.ofNat 8 w :: bytesOf n (w / 256)

/-- The instruction decoded from an instruction whose bits are `w`, in encoding version 3. -/
def decodeTableWord (nbits w : Nat) : Option Instr :=
  match decodeBytes 3 (bytesOf 12 (w % 2 ^ nbits)) with
  | .ok i => some i
  | .error _ => none

end Sys2Proof
end

