-- ==== Sys2Proof/Config.lean ====
section
/-! DEFINITION. Sys2Proof/Config.lean: what an implementation fixes, and the free values: opaque constants without a body, so
that no proof can see what they are (DESIGN CHOICE log 4, DESIGN CHOICE log 14, DESIGN CHOICE log 17). The counter they are applied to is State.steps. -/
namespace Sys2Proof.Config

/-- Cycles that pass during a step, at most as many as are left of the tick (DESIGN CHOICE log 4). -/
opaque stepCycles : Nat → Nat

/-- The size of a context in a save area, by what of its content it depends on (R415, DESIGN CHOICE log 16). -/
opaque saveBytes : List Nat → Nat

/-- A value the manual leaves open, fresh at every use: step counter, use number, index (DESIGN CHOICE log 18). -/
opaque freeBits : Nat → Nat → Nat → BitVec 128

/-- SHAKE256 of a byte string, as that many bytes (R430 to R433, DESIGN CHOICE log 17). -/
opaque shake256 : List Byte → Nat → List Byte

/-- A Falcon-1024 or ECDSA signature over a byte string by key number `k` of the device (DESIGN CHOICE log 17). -/
opaque sign : Nat → List Byte → List Byte

/-- Whether a signed image verifies under the fused key hashes (R426, DESIGN CHOICE log 17). -/
opaque imageVerifies : List Byte → Bool

/-- Certificate chains and fuse contents of the package (R432, R433). -/
opaque certChain : Nat → List Byte
opaque fuses : List Byte
opaque romBytes : List Byte
opaque defaultImage : List Byte

/-- Units of a scrub class that do not verify, and words written again, by class code and lease count (R429, R430, DESIGN CHOICE log 41). -/
opaque scrubFailures : Nat → Nat → List Nat
opaque scrubRetries : Nat → Nat → Nat

/-- A key that the DRBG gives a key index, by lease count (R429). -/
opaque drbgKey : Nat → Nat → BitVec 512

/-- The framing of an MCTP or SPDM reply, which other standards give: message code, request, step (R428, R433, DESIGN CHOICE log 42). -/
opaque replyFrame : Nat → List Byte → Nat → List Byte

end Sys2Proof.Config
end

