-- ==== Sys2Proof/Machine/State.lean ====
section
/-! DEFINITION. Sys2Proof/Machine/State.lean: everything the manual gives the machine to remember, as plain data, and the
machine right after reset. Tables are lists of (key, value) with rising keys; an unlisted key has the default its readers
name. Log entries cited as "log n" stand in notes/assumptions. -/
namespace Sys2Proof.Machine

/-- A finite table: rising keys, read with a default (Machine/Maps.lean). -/
abbrev KMap (α : Type) := List (Nat × α)

/-- Bytes by address in canonical form: rising addresses, no entry equal to what an unlisted address reads as (zero). -/
abbrev Mem := List Host.Cell

/-! ### Fibres and waves (chapter 2, R239) -/

/-- An open lookahead window with its held result (R239): `regs` and `preds` list the destinations still to be written. -/
structure Window where
  id : Nat
  /-- Instructions the fibre may still issue inside the window. -/
  left : Nat
  /-- Register, value, poison. -/
  regs : List (Nat × Word × Bool)
  /-- Predicate, value, poison. -/
  preds : List (Nat × Bool × Bool)
  /-- FPMODE bits to OR at write-back (R66). -/
  flags : Word
  /-- The operation has completed. -/
  done : Bool
  /-- A memory or engine operation, completed by its own reply and not by LONG_LATENCY_COMPLETION. -/
  ext : Bool
  deriving DecidableEq, Repr

/-- Why a fibre is parked (R219, R226, R235). -/
inductive Park where
  | no
  /-- A page fault on an access or a fetch; `va` and the report's sequence number. -/
  | fault (seq : W64) (va : W64) (fetch : Bool)
  /-- Left at TRAPPC by RETT with its TRAPLANES bit clear (R226). -/
  | handler
  deriving DecidableEq, Repr

/-- A fibre (R22, R26, R39, R54). -/
structure Fibre where
  win : Nat
  pc : W64
  regs : KMap Word
  regPoison : BitVec 256
  preds : BitVec 16
  predPoison : BitVec 16
  fpmode : Word
  txstatus : Word
  waitlimit : W64
  windows : List Window
  progress : Nat
  /-- Open join sets, innermost first (R37). -/
  joins : List Nat
  /-- An SBSET has been performed since creation (R342). -/
  sbset : Bool
  park : Park
  /-- First register of its block of the register file (R33); not visible to programs. -/
  block : Nat
  /-- A release in progress: writes below this sequence number, and this tick, must be stable (R100, R112). -/
  relWait : Option (Nat × Nat)
  /-- Write-backs of an earlier FLUSHR or INVR that a later ordered access waits for, with their scope (R322, R323). -/
  flushWait : Option (Nat × BitVec 2)
  deriving DecidableEq, Repr

/-- What a batch of the fibre table waits for (R35, R41). -/
inductive Wait where
  | ready
  | bar
  | barx
  | join (set : Nat)
  | asleep (sleeper : Nat)
  | parked
  deriving DecidableEq, Repr

/-- Fibres of one gang with one PC in the core's fibre table (R35). -/
structure Batch where
  gang : Nat
  fids : List Nat
  wait : Wait
  since : Nat
  deriving DecidableEq, Repr

/-- An operand-log entry (R215): the fibres it applies to; it is freed when no request of it is left. -/
structure LogEntry where
  id : Nat
  gang : Nat
  fids : List Nat
  /-- IA sectors of the instruction's accesses (R217). -/
  sectors : List Nat
  deriving DecidableEq, Repr

/-- One line of a transaction's read set with its recorded version (R147, R148): a PA line, or a scratchpad line. -/
structure TxnRead where
  scratch : Bool
  line : Nat
  version : Word
  deriving DecidableEq, Repr

/-- Buffered transactional writes (R149): bytes by IA and by scratchpad offset, and the sectors marked poisoned. -/
structure TxnWrites where
  glob : KMap Byte
  /-- VA of the first store to each IA sector (R155). -/
  globVa : KMap W64
  globLines : List Nat
  globPoison : List Nat
  scr : KMap Byte
  scrLines : List Nat
  scrPoison : List Nat
  deriving DecidableEq, Repr

/-- An open level (R147, R156): its alternative, whether taken, and the write set to restore. -/
structure TxnLevel where
  alt : Option W64
  taken : Bool
  checkpoint : TxnWrites
  deriving DecidableEq, Repr

/-- The transaction of a wave (R146). -/
structure Txn where
  beginPc : W64
  abortPc : W64
  /-- Innermost first. -/
  levels : List TxnLevel
  reads : List TxnRead
  writes : TxnWrites
  /-- Fibres guarded off at the outermost TBEGIN. -/
  held : List Nat
  /-- Fibres of the path that is running (R146, R299). -/
  active : List Nat
  /-- Fibres that wait at a JOIN, TEND or TORELSE for the other paths. -/
  arrived : List Nat
  /-- Cycle of the last whole validation (R148). -/
  checked : Nat
  /-- Join sets opened inside the transaction. -/
  sets : List Nat
  deriving DecidableEq, Repr

/-- Handler-mode state of a wave slot (R53, R222, R271, R295). -/
structure Handler where
  k : KMap W64
  kPoison : BitVec 16
  preds : BitVec 16
  predPoison : BitVec 16
  pc : W64
  /-- HANDLERBASE at entry: handler code is the 1,024 lines from it (R307). -/
  base : W64
  /-- Lanes with a fibre in the wave at entry. -/
  lanes : Word
  /-- Lanes in TRAPLANES at entry. -/
  trapped : Word
  /-- PC items written by LPUT, by lane. -/
  items : KMap W64
  deriving DecidableEq, Repr

/-- A wave slot (R35, R53, R54, R215); it holds a wave when `fids` is not empty. -/
structure Slot where
  gang : Nat
  fids : List Nat
  log : List LogEntry
  /-- Cycle at which the wave took the slot (R41). -/
  since : Nat
  /-- Cycle since which the wave has been ready without issuing; none while it is not ready (R39). -/
  readySince : Option Nat
  /-- Cycle of its last issue, plus 1; 0 when it has not issued (R39). -/
  lastIssue : Nat
  trapcause : Word
  traplanes : Word
  trappc : W64
  trapval : W64
  handler : Option Handler
  txn : Option Txn
  /-- The core halted at a BRK of this wave, which retires when the debugger resumes it (R374). -/
  atBrk : Bool
  deriving DecidableEq, Repr

/-- A block of registers of a core held by a fibre (buddy system, R29). -/
structure RegBlock where
  base : Nat
  size : Nat
  gang : Nat
  fid : Nat
  deriving DecidableEq, Repr

/-! ### The copy engine (R203 to R211) -/

inductive CopyKind where
  | cpy | cpyp | cpyg | cpys
  deriving DecidableEq, Repr

/-- A copy command: its snapshotted block (R363) and its progress. -/
structure CopyCmd where
  id : Nat
  ident : Word
  gang : Nat
  kind : CopyKind
  /-- Scratchpad offset of the block, where STATUS is written, and the snapshot. -/
  block : Nat
  bytes : List Byte
  sync : Option Nat
  started : Bool
  /-- Indices of CPYG and CPYS, as the engine read them at the start. -/
  indices : List Nat
  /-- Pieces (destination sectors) sent to a home with their IA sectors, those whose write met a fault there with its WHY, and those
  landed. -/
  sent : List (Nat × Nat)
  lost : KMap Nat
  landed : List Nat
  /-- Bytes not yet counted. -/
  left : Nat
  poisoned : Bool
  /-- Sequence number of the report it stalls at (R209). -/
  stall : Option W64
  /-- Cancelled or ended by the driver: the STATUS bit to write once nothing sent is left on its way (R209, R210). -/
  ending : Option Nat
  deriving DecidableEq, Repr

/-- The copy queue of a core (R203); `recent` keeps ended identifiers with their STATUS for CPYCAN (R210, R364). -/
structure CopyQueue where
  cmds : List CopyCmd
  count : Nat
  recent : List (Word × Nat × Word)
  deriving DecidableEq, Repr

/-- A core (R31, R35, R39, R203, R232, R414). -/
structure Core where
  gangs : List Nat
  table : List Batch
  blocks : List RegBlock
  /-- Register frees on the core, for FREES of the allocator status word (R34). -/
  frees : Nat
  copyq : CopyQueue
  claimed : Bool
  halted : Bool
  perfCount : KMap W64
  perfSel : KMap Nat
  /-- Cycle of the last instruction sent to each of the six units of R39, plus 1, and the same as it stood before that cycle. -/
  unitUse : KMap (Nat × Nat)
  /-- Cycle of the last issue, plus 1, and the pipes in use in it: two in all (R39). -/
  issued : Nat × Nat
  /-- Cycle of the last QUIT, plus 1, and what fibres that ended in it held: free from the next cycle on (R27). -/
  justFreed : Nat × List RegBlock
  deriving DecidableEq, Repr

/-! ### Gangs, crews, tasks, launches (R26 to R50, R188, R389) -/

/-- A checked kernel header (R389, R391). -/
structure Kernel where
  va : W64
  version : Nat
  regs : Nat
  gang : Nat
  crew : Nat
  fused : Bool
  spad : Nat
  entry : W64
  handler : W64
  /-- 0 to 7, or 0xFF for none. -/
  qslot : Nat
  deriving DecidableEq, Repr

/-- A join set (R37): members that have not left, and those that wait at a JOIN. -/
structure JoinSet where
  members : List Nat
  waiting : List Nat
  deriving DecidableEq, Repr

/-- An asynchronous cause pending for a fibre's wave (R222, R224). -/
structure Async where
  fid : Nat
  cause : Nat
  val : W64
  lanes : Word
  /-- SEQ of the report that a Reflect answers, none for another cause: one handler entry of a wave takes all of one report (R220). -/
  seq : Option W64
  deriving DecidableEq, Repr

/-- A gang's matrix configuration (R172, R173). -/
structure MxCfg where
  afmt : Nat
  aprec : Nat
  bfmt : Nat
  bprec : Nat
  deriving DecidableEq, Repr

/-- A counted XST waiting for the swap (R200, R318): sync-word offset and bytes. -/
structure XCount where
  off : Nat
  bytes : Nat
  deriving DecidableEq, Repr

/-- A resident gang (R26 to R30, R34, R42, R54, R76, R169, R173, R199, R220). -/
structure Gang where
  ctx : Nat
  launch : Nat
  task : Nat
  crew : Nat
  gid : Nat
  core : Nat
  kernel : Kernel
  handlerBase : W64
  fibres : KMap Fibre
  joinSets : KMap JoinSet
  scratch : Mem
  scratchPoison : List Nat
  /-- Line versions of the scratchpad (R148). -/
  versions : KMap Word
  /-- Bytes of engine writes that a parameter block's snapshot does not see yet (R355): for each, the class of R115 of the writes above
  one another, last first, and the byte under each. -/
  unfenced : KMap (List (Nat × Byte))
  shadow : Mem
  shadowMarks : List Nat
  shadowPoison : List Nat
  xcounts : List XCount
  /-- First granule of its scratchpad block and of its shadow bank, and granules in each; no bank has its first granule 1,024
  (R29, R199). -/
  granule : Nat
  shadowGranule : Nat
  granules : Nat
  spfail : Word
  /-- Core frees at admission (FREES counts from admission, R34). -/
  frees0 : Nat
  allocVersion : Word
  /-- The allocator status word at its last version. -/
  allocWord : Quad
  mxQueue : Option Nat
  mxCfg : Option MxCfg
  asyncs : List Async
  /-- A lane of it has parked on a fault (R220). -/
  replayable : Bool
  admitted : Nat
  /-- The release of its last writes, at its end (R46): as Fibre.relWait. -/
  relWait : Option (Nat × Nat)
  deriving DecidableEq, Repr

inductive HandleState where
  | free | armed | draining
  deriving DecidableEq, Repr

/-- A haul handle of a crew (R188, R189). -/
structure Handle where
  st : HandleState
  gang : Nat
  base : Nat
  nb : Nat
  binexp : Nat
  mask : BitVec 16
  sync : Option Nat
  /-- Published to its senders (R189). -/
  published : Bool
  /-- The HCHAIN that waits for publication: fibres of the wave and their windows. -/
  waiters : List (Nat × Nat)
  received : KMap Nat
  ovf : List Nat
  poison : List Nat
  deriving DecidableEq, Repr

/-- A crew (R44, R45, R188): gang ids by `%gid`; an ended gang leaves `live`. -/
structure Crew where
  size : Nat
  gangs : List Nat
  live : List Nat
  handles : KMap Handle
  deriving DecidableEq, Repr

/-- A live block as a sweep found it (R49, R144). -/
structure SweepBlock where
  index : Nat
  key : W64
  pay : W64
  deriving DecidableEq, Repr

inductive TaskState where
  | admitting | running | retired
  deriving DecidableEq, Repr

/-- A dispatched task (R46 to R50, R140, R342). -/
structure Task where
  launch : Nat
  index : Nat
  ctx : Nat
  key : W64
  gen : Word
  pay : W64
  st : TaskState
  /-- Cluster a sweep task must run on (R49); none for a grid task. -/
  cluster : Option Nat
  crew : Nat
  gangsLeft : Nat
  failed : Bool
  /-- A fibre of it has performed an SBSET, and its tile counts as retired (R342). -/
  sbset : Bool
  released : Bool
  /-- Cores whose caches the retirement of the failed task releases, each with the point its release waits for once it has begun (R46,
  R227): as Fibre.relWait. -/
  flush : List (Nat × Option (Nat × Nat))
  /-- First quarry generation seen per quarry of the context when the task started (R140 step 1). -/
  startGens : KMap Word
  started : Nat
  deriving DecidableEq, Repr

inductive LaunchSrc where
  | packet (queue : Nat) (index : W64)
  | node (queue node : Nat)
  | qsweep (completion : W64)
  deriving DecidableEq, Repr

/-- A launch (R47 to R49, R351, R402). -/
structure Launch where
  ctx : Nat
  kernel : Kernel
  arg : W64
  sweep : Bool
  x : Nat
  y : Nat
  z : Nat
  stencil : Word
  /-- Next task index of a grid, or undispatched blocks of a sweep. -/
  next : Nat
  blocks : List SweepBlock
  left : Nat
  /-- The tasks of a sweep are known: its blocks have been read (R49). -/
  placed : Bool
  failed : Nat
  cause : Nat
  /-- QSLOT CSRs of the context when the launch began (R55). -/
  qslots : KMap W64
  src : LaunchSrc
  deriving DecidableEq, Repr

/-! ### Memory system (chapters 4, 5) -/

/-- What a translation gives (R81 to R83): the page's context, first IA and size, and for the address asked for its PA and the
attributes of the leaf, with the PA of the table entry. `held` says that a home held the leaf and did not walk for it (R417). -/
structure Leaf where
  ctx : Nat
  first : Nat
  log : Nat
  pa : Nat
  ca : Nat
  tier : Bool
  key : Nat
  u : Bool
  w : Bool
  entry : Nat
  held : Bool
  deriving DecidableEq, Repr

/-- One 128-byte sector of an L1 line (R85, R216): bytes present and dirty. -/
structure L1Sector where
  present : BitVec 128
  dirty : BitVec 128
  data : BitVec 1024
  confirmed : Bool
  poison : Bool
  deriving DecidableEq, Repr

/-- An L1 line (R85, R90). -/
structure L1Line where
  ctx : Nat
  line : Nat
  way : Nat
  rr : Nat
  lo : L1Sector
  hi : L1Sector
  deriving DecidableEq, Repr

/-- A write-combining entry (R92). -/
structure WcEntry where
  ctx : Nat
  sector : Nat
  mask : BitVec 128
  data : BitVec 1024
  poison : Bool
  /-- The core whose stores it gathers. -/
  core : Nat
  deriving DecidableEq, Repr

/-- What a write is for: it decides who hears of its application or of its fault (R216, R105). -/
inductive WKind where
  /-- Dirty or write-combining bytes: a fault discards them (R216). -/
  | writeBack
  /-- A store whose bytes travel; the request waits for the acknowledgement. -/
  | store (req : Nat)
  /-- Writes of an engine operation. -/
  | engine (op : Nat)
  /-- Buffered writes of a committed transaction: all of one commit are applied together (R151). -/
  | commit (id : Nat)
  /-- The sectors of an add-on-store, applied together as sums in a format (FMT of R358) under a mode (R119, R183). -/
  | addOn (op fmt mode : Nat)
  /-- An 8-byte word that its home adds to the one it holds: a sweep's completion and Derrick's signal (R351, R402). -/
  | sum
  /-- A word atomic or a queue operation: it carries no bytes and is performed at the home when its request is served (R105, R117). -/
  | op (req : Nat)
  /-- Host and other writes that nobody awaits. -/
  | plain
  deriving DecidableEq, Repr

/-- A write on its way to its home (R105): one sector's bytes. -/
structure WriteMsg where
  id : Nat
  /-- Agent 0 to 3 the slabs, 4 the weighbridge (R104). -/
  agent : Nat
  ctx : Nat
  /-- Sector number (address / 128): an IA, or a PA when `phys`. -/
  sector : Nat
  phys : Bool
  mask : BitVec 128
  data : BitVec 1024
  poison : Bool
  kind : WKind
  stamp : List Nat
  /-- Tick in which the slice received it (R105). -/
  tick : Nat
  /-- The leaf under which its home has checked it already, when it was locked or when its agent's step began (R151, R402). -/
  leaf : Option Leaf
  deriving DecidableEq, Repr

/-- A sector held by a core-side slice (R88, R90, R110), with the bytes that it holds: all of a sector that was filled, and those of a
store that took its place without a fill (R315). The sectors of a line have its way and its re-reference value. -/
structure SliceCopy where
  ctx : Nat
  sector : Nat
  way : Nat
  present : BitVec 128
  data : BitVec 1024
  poison : Bool
  stable : List Nat
  stamp : List Nat
  writer : Nat
  filled : Nat
  rr : Nat
  deriving DecidableEq, Repr

/-- A slab as an agent (R104, R105, R109). -/
structure Slab where
  v : List Nat
  lastLeft : Nat
  inq : List WriteMsg
  copies : List SliceCopy
  deriving DecidableEq, Repr

/-- What a memory request asks of the home. -/
inductive ReqKind where
  | load | txnRead | probe | store | atomic (op : Nat) | prefetch | post | take | done
  /-- A scratchpad load, served at its issue; and a value that waits only for its window (R316, R320). -/
  | scratch
  deriving DecidableEq, Repr

inductive ReqPhase where
  | toHome
  /-- Bytes of a store travel to the home and are awaited (R216). -/
  | sent
  | reply
  | faulted (why : Nat)
  | acked
  deriving DecidableEq, Repr

/-- One lane's access in flight (R215, R218): the recorded address, data and modifiers, and the home's answer. -/
structure Req where
  id : Nat
  kind : ReqKind
  phase : ReqPhase
  core : Nat
  slot : Nat
  /-- Operand-log entry, 0 for none. -/
  entry : Nat
  gang : Nat
  /-- The fibre; 1,024 stands for the slot's scalar unit (R331). -/
  fid : Nat
  pc : W64
  ctx : Nat
  va : W64
  ia : Nat
  bytes : Nat
  ty : Ty
  data : Quad
  cmp : Quad
  /-- The data register or an address register carried poison (R121, R313). -/
  poison : Bool
  d : Nat
  window : Nat
  rd : BitVec 3
  pol : BitVec 2
  /-- Its reply fills no L1 any more: the L1 has dropped the sector meanwhile (R101, R117, R323). -/
  noFill : Bool
  ord : BitVec 2
  sc : BitVec 2
  /-- Scratchpad offset of a task-queue image. -/
  image : Nat
  /-- Read vector (R109). -/
  q : List Nat
  -- the answer
  value : Quad
  sector : BitVec 1024
  sectorPoison : Bool
  stamp : List Nat
  writer : Nat
  version : Word
  ca : Nat
  status : Nat
  /-- VA of the fault, where that is not the access's own: a queue's ring entry (R339). -/
  fva : Option W64
  /-- Sequence number of the fault report that parked the lane. -/
  seq : W64
  /-- Fibres that its log entry applies to (R217). -/
  group : List Nat
  /-- Stores of higher lanes of its instruction to the same sector, with the bytes of its own that each writes over (R312). -/
  above : List (Nat × BitVec 128)
  deriving DecidableEq, Repr

/-- Where a wake-table registration stands (R157, R159). -/
inductive Place where
  | home (h : Nat)
  | cluster (c : Nat)
  deriving DecidableEq, Repr

inductive Waiter where
  | wave (sleeper : Nat)
  | queue (q : Nat)
  deriving DecidableEq, Repr

/-- A registration: one line, or coarse at a home or at a scratchpad bank (R159). -/
structure WakeReg where
  place : Place
  line : Option Nat
  bank : Nat
  gang : Nat
  who : Waiter
  deriving DecidableEq, Repr

/-- A wave asleep at a final retry (R157, R160). -/
structure Sleeper where
  core : Nat
  gang : Nat
  fids : List Nat
  beginPc : W64
  abortPc : W64
  reads : List TxnRead
  limit : Option Nat
  start : Nat
  coarse : Bool
  levels : Nat
  deriving DecidableEq, Repr

/-! ### Matrix engine and haulway (chapters 8, 9) -/

/-- Scale domain of a tile (R180). -/
inductive Dom where
  | none
  | plain
  | q16 (sb s : Word)
  deriving DecidableEq, Repr

/-- An accumulator tile (R180): element row·64 + column; an unlisted element is +0. -/
structure Tile where
  holder : Option Nat
  /-- Released by MXCFG with operations still queued; freed when they end (R173). -/
  releasing : Bool
  elems : KMap Quad
  ovf : Bool
  poison : Bool
  dom : Dom
  deriving DecidableEq, Repr

/-- The drain fields of a snapshotted block (R358). -/
structure DrainBlk where
  src : Nat
  disp : Nat
  fmt : Nat
  rnd : Nat
  nan : Bool
  keep : Bool
  sync : Option Nat
  bin : Nat
  dest : W64
  pitch : Nat
  seed : W64
  tx : Word
  ty : Word
  block : Nat
  /-- Super-scale of the tile at issue, none standing for a scale of 1 (R72, R180). -/
  scale : Option Word
  deriving DecidableEq, Repr

/-- A queued matrix operation (R170, R175). -/
inductive MxKind where
  | mul (tile aoff boff : Nat) (zero : Bool) (sync : Option Nat) (cfg : MxCfg)
  | drain (b : DrainBlk)
  deriving DecidableEq, Repr

structure MxOp where
  id : Nat
  gang : Nat
  /-- Participating fibres of the wave that issued it. -/
  fids : List Nat
  kind : MxKind
  deriving DecidableEq, Repr

/-- A drain whose delivery is under way (R182, R187): results, rows landed, and the stall. -/
structure Drain where
  id : Nat
  gang : Nat
  fids : List Nat
  cluster : Nat
  queue : Nat
  haulPath : Bool
  blk : DrainBlk
  /-- Result pieces of at most a sector with their destinations, and how many have been sent to memory. -/
  pieces : List (W64 × List Byte)
  next : Nat
  /-- Writes sent that met a fault at their home, each with its WHY (R187, R216). -/
  lost : List (WriteMsg × Nat)
  status : Word
  /-- Stalled at a sector: sequence number of the report (R187). -/
  stall : Option W64
  /-- Packets of a haul send not yet answered, and bytes accepted (R186). -/
  packets : Nat
  accepted : Nat
  poison : Bool
  deriving DecidableEq, Repr

/-- A cluster (R86, R168 to R187). -/
structure Cluster where
  fused : Bool
  tiles : KMap Tile
  queues : KMap (List MxOp)
  queueOwner : KMap Nat
  lastQueue : Nat
  running : Option MxOp
  /-- Sums of the running MXOP, to stand in the tile at completion. -/
  runTile : Option Tile
  /-- The core whose copy queue the copy engine served last, within the cluster (R203). -/
  copyTurn : Nat
  deriving DecidableEq, Repr

/-- A haul packet (R192, R193). -/
structure Packet where
  id : Nat
  crew : Nat
  handle : Nat
  bin : Nat
  first : Nat
  words : List Quad
  gang : Nat
  fids : List Nat
  /-- The sender's context and cluster. -/
  ctx : Nat
  cluster : Nat
  /-- The drain it belongs to, 0 for HSENDV. -/
  op : Nat
  deriving DecidableEq, Repr

/-- An answer on its way to the sender (R192, R194): 0 accepted, otherwise the trap cause. -/
structure HaulAck where
  id : Nat
  crew : Nat
  handle : Nat
  gang : Nat
  fids : List Nat
  ctx : Nat
  cluster : Nat
  op : Nat
  bytes : Nat
  cause : Nat
  deriving DecidableEq, Repr

/-! ### Quarries (chapter 6) -/

/-- The copy of a migrating block: sectors that have landed, and the SEQ of the report it stalls at (R140, R142). -/
structure MigCopy where
  key : W64
  done : Nat
  stall : Option W64
  deriving DecidableEq, Repr

/-- A migration in progress (R140, R349). -/
structure Migration where
  issuerGang : Nat
  issuerTask : Nat
  /-- Copies that have started and not landed. -/
  copying : List MigCopy
  /-- Kerfs of the previous generation, kerf 1 first (R138). -/
  oldKerfs : List Nat
  deriving DecidableEq, Repr

/-- The quarry instructions that take a place in the quarry order, QSWEEP apart (R343). -/
inductive QKind where
  | find | owner | refine | coarsen | cost | rebal | gen
  deriving DecidableEq, Repr

/-- A step waiting for its turn in the quarry order (R125). -/
inductive QOp where
  /-- One lane of an instruction: its fibre, its window, destination registers D and B, key, third operand, kernel version. -/
  | instr (kind : QKind) (gang fid window d b : Nat) (key arg : W64) (version : Nat)
  /-- The reply of such an instruction: the writes of its result, and the identifiers of the unit's own writes for it, which are stable at
  their homes before it returns (R125). -/
  | reply (gang fid window : Nat) (regs : List (Nat × Word × Bool)) (start upto : Nat)
  /-- The arrival at the sync word of a QREBAL's gang, behind the writes of a migration's completion (R140 step 4). -/
  | arrive (gang off start upto : Nat)
  /-- Cost of a retired sweep task (R137). -/
  | charge (key : W64) (amount : Nat)
  /-- The start of a sweep placed by a launch packet or node (R49). -/
  | place (launch : Nat)
  /-- The completion word of a QSWEEP (R351). -/
  | done (va : W64)
  /-- The place of a QSWEEP that its fibres wait for, with the headers it reads (R351). -/
  | sweep (gang : Nat) (fids : List Nat) (headers : List W64)
  /-- Steps of a migration (R140): the copy of a block's sector, and its completion. -/
  | copy (key : W64) (sector : Nat)
  | complete
  /-- The dispatch of a block's sweep task (R125, R141). -/
  | dispatch (launch index : Nat)
  deriving DecidableEq, Repr

/-- A bound quarry, keyed by 8·context + slot (R124 to R126, R138, R142, R143). -/
structure Quarry where
  desc : W64
  /-- DIM and DEPTH as bound, and what the unit itself keeps: GEN, DONEGEN and kerfs 1 to F − 1. -/
  dim : Nat
  depth : Nat
  gen : Word
  doneGen : Word
  kerfs : List Nat
  mig : Option Migration
  /-- Payload slots released by QREFINE and QCOARSEN since the last completion (R140 step 3). -/
  released : List Nat
  ops : List QOp
  /-- The step that has begun, with the tick in which it did and the vector of its first reads (R109): it is performed once every home
  serves it. -/
  begun : Option (QOp × Nat × List Nat)
  /-- The oldest step is stalled on an access or a malformed structure: VA, WHY, report sequence number. -/
  stall : Option (W64 × Nat × W64)
  deriving DecidableEq, Repr

/-! ### Queues, graphs, records (chapter 25) -/

/-- A queue descriptor's fields (R396). -/
structure QueueDesc where
  ring : W64
  rlog : Nat
  prio : Nat
  ctx : Nat
  evr : Nat
  idle : Nat
  deriving DecidableEq, Repr

/-- A stream copy under way (R410, R411): the descriptor as checked, and the positions the device keeps. -/
structure StreamRun where
  desc : List Byte
  moved : W64
  htail : W64
  landed : List Nat
  final : List Nat
  ended : Bool
  /-- SEQ of the ENDSTREAM record, from the moment at which the stream ends until the record may be written (R404, R424). -/
  record : Option W64
  /-- The closing entry is written, and HTAIL waits for its release at scope y (R411). -/
  closing : Bool
  /-- The driver has answered End: the copy stops with MALFORMED once HTAIL is written (R440). -/
  quit : Bool
  deriving DecidableEq, Repr

/-- A step of Derrick or of a quarry unit that has begun: the vector of its first reads (R109); it is performed once every home serves
it. -/
abbrev Begun := List Nat

/-- A packet or node that has started (R400, R408). -/
structure Job where
  /-- Its 64 bytes; empty until they have been read. -/
  bytes : List Byte
  /-- Its first action has been performed. -/
  begun : Bool
  /-- Its work is over: status and SUMMARY (R403). -/
  status : Option (Nat × W64)
  launch : Option Nat
  /-- Cycle at which a wait times out (R401). -/
  limit : Option Nat
  /-- Bytes a plain copy has landed. -/
  copied : Nat
  stream : Option StreamRun
  /-- SEQ of the record it waits for: its completion record, or one that it writes itself. -/
  record : Option W64
  /-- Sequence number of the report it stalls at (R440). -/
  stall : Option W64
  /-- Its next step has begun (R109). -/
  step : Option Begun
  deriving DecidableEq, Repr

/-- A graph node of a running graph packet (R408). -/
structure Node where
  bytes : List Byte
  arrivals : Nat
  passes : Nat
  /-- The successors a conditional chose. -/
  chosen : Option Nat
  job : Option Job
  deriving DecidableEq, Repr

/-- A graph packet in progress (R408): the node and status of GRAPHFAIL, and the node of LOOPLIMIT. -/
structure Graph where
  nodes : KMap Node
  fail : Option (Nat × Nat)
  loopLimit : Option Nat
  deriving DecidableEq, Repr

/-- A started packet (R400). -/
structure PacketRun where
  index : W64
  job : Job
  graph : Option Graph
  deriving DecidableEq, Repr

/-- A hardware queue (R396 to R398). -/
structure Queue where
  desc : Option QueueDesc
  /-- Number of the save that holds its context, while that is saved (R415). -/
  saved : Option Nat
  w : W64
  ridx : W64
  /-- Derrick thread slot 0 to 127. -/
  slot : Option Nat
  /-- Place among the queues that wait for a slot, and of its last doorbell store. -/
  waiting : Option Nat
  lastStore : Nat
  /-- Writes to words its waits have registered, not yet looked at (R401). -/
  signalled : Nat
  emptySince : Nat
  runs : List PacketRun
  deriving DecidableEq, Repr

/-- A completion record (R403) before it is written. -/
structure Record where
  seq : W64
  time : W64
  status : Nat
  type : Nat
  queue : Nat
  /-- The context through which it is written: that of its queue (R396). -/
  ctx : Nat
  tag : Word
  summary : W64
  urgent : Bool
  /-- It may be written: an ENDSTREAM record has its number before the stream's closing entry is released (R411, R424). -/
  ready : Bool
  /-- Sequence number of the report its write stalls at (R440). -/
  stall : Option W64
  deriving DecidableEq, Repr

/-- An event ring (R405). -/
structure EventRing where
  set : Bool
  ctx : Nat
  base : W64
  elog : Nat
  count : Nat
  time : Nat
  vector : Nat
  tail : W64
  head : W64
  pending : Nat
  oldest : Nat
  waiting : List Record
  /-- The writes of its oldest record, by their identifiers, are on their way to their homes (R105, R405). -/
  sent : Option (Nat × Nat)
  deriving DecidableEq, Repr

/-- What a pending fault refers to (R420). -/
inductive FaultRef where
  | lanes (core slot gang : Nat) (fids : List Nat) (fetch : Bool)
  | copy (core : Nat) (ident : Word)
  | quarry (q : Nat)
  | drain (op : Nat)
  | queue (q : Nat)
  | record (ring : Nat)
  /-- A report of kind 5, 6 or 7, which stays pending and accepts no answer. -/
  | noted
  /-- Nothing: the report was dropped on its way. -/
  | none
  deriving DecidableEq, Repr

/-- A fault report (R419), waiting for the ring or for its answer. -/
structure FaultRec where
  seq : W64
  kind : Nat
  why : Nat
  acc : Nat
  time : W64
  ctx : Nat
  slot : Nat
  unit : Nat
  data : Word
  ident : Word
  lanes : Word
  va : W64
  pc : W64
  ref : FaultRef
  deriving DecidableEq, Repr

/-! ### Contexts and the command ring (chapter 26) -/

inductive CtxState where
  | free | live | held
  deriving DecidableEq, Repr

/-- A drain in progress (R228, R229): its command, the save area and the start cycle. -/
structure DrainReq where
  cmd : W64
  save : Nat
  size : Nat
  start : Nat
  deriving DecidableEq, Repr

/-- A gang saved by a drain (R228): its place among the resident gangs, the batches of its fibres, their faulted accesses, the tiles it
holds with their places, and its pending fault reports (R420). -/
structure SavedGang where
  id : Nat
  gang : Gang
  batches : List Batch
  reqs : List Req
  tiles : KMap Tile
  /-- Faults of its lanes that went to a save area, and the answers to those that are pending while it is off its core (R420). -/
  faults : List FaultRec
  answers : List (FaultRec × Nat)
  deriving DecidableEq, Repr

/-- A context slot (R78, R415). -/
structure Ctx where
  st : CtxState
  pasid : BitVec 20
  root : Nat
  deadlog : Nat
  windows : KMap (W64 × W64 × W64)
  qslots : KMap W64
  peers : BitVec 18
  draining : Option DrainReq
  /-- Gangs saved so far during a drain, or not yet back on a core after one. -/
  saved : List SavedGang
  deriving DecidableEq, Repr

/-- A save area written by DRAIN (R415); its byte layout is not given, so its content is kept here, with the bytes that were written for it
(DESIGN CHOICE log 16). -/
structure Save where
  ctx : Ctx
  tasks : KMap Task
  launches : KMap Launch
  crews : KMap Crew
  quarries : KMap Quarry
  queues : KMap Queue
  rings : KMap EventRing
  /-- Records of the context's queues that have not been written, by ring. -/
  records : KMap (List Record)
  faults : List FaultRec
  image : List Byte
  deriving DecidableEq, Repr

/-- A command of the ring that has started and not completed (R414). -/
structure CmdRun where
  index : W64
  op : Nat
  ctx : Nat
  bytes : List Byte
  /-- Its effect has begun: a DRAIN, CTXDESTROY or TLBINV that runs. -/
  begun : Bool
  /-- Writes and accesses below this identifier are awaited by a TLBINV. -/
  mark : Nat
  /-- SEQ of the GONE record that a CTXDESTROY waits for. -/
  record : Option W64
  /-- Its accesses through the context have begun (R109). -/
  step : Option Begun
  /-- STATUS and DETAIL, while they wait for the release of the reply (R414). -/
  answer : Option (Nat × Nat)
  /-- Completed: STATUS and DETAIL written. -/
  done : Bool
  deriving DecidableEq, Repr

/-- Host-port registers (R413). -/
structure HostPort where
  dcrBase : W64
  dcrLog : W64
  dcrDb : W64
  dcrRd : W64
  dcrErr : Bool
  frBase : W64
  frLog : W64
  frHead : W64
  frTail : W64
  dvec : W64
  deriving DecidableEq, Repr

/-! ### Operator's view (chapter 28) -/

inductive PkgState where
  | rom | scrub | idle | leased
  deriving DecidableEq, Repr

/-- An error-log entry (R436). -/
structure ErrEntry where
  pa : Nat
  count : Nat
  unit : Nat
  kind : Nat
  event : Nat
  time : W64
  /-- Made since the last reset, which TIMER counts from (R54). -/
  fresh : Bool
  deriving DecidableEq, Repr

/-- Ageing report of a slab (R437). -/
structure Ageing where
  margin : Word
  lossRate : Word
  errors : Word
  refresh : Nat
  days : BitVec 16
  deriving DecidableEq, Repr

/-- The management block and always-on storage (R425 to R437). -/
structure Mgmt where
  pkg : PkgState
  leasePending : Bool
  nonce : BitVec 256
  leaseFlags : Byte
  leaseCount : W64
  scrubClass : Nat
  romFailure : Nat
  record : List Byte
  fenced : List (UnitKind × Nat)
  pinned : List (UnitKind × Nat)
  /-- Class and number of the units that the last scrub failed and that belong to no function of R434: they are held in reset (R430). -/
  failed : List (Nat × Nat)
  /-- Cycle at which the scrub under way began (R431). -/
  scrubStart : Nat
  errlog : List ErrEntry
  /-- Corrected errors counted in the current hour, by unit (R434). -/
  errCount : List (UnitKind × Nat × Nat × Nat)
  ageing : KMap Ageing
  slot0 : Mem
  tenant : KMap Mem
  selector : Nat
  measured : List (Nat × List Byte)
  /-- A scrub has written zero plaintext to HBM under these keys (R429). -/
  zeroed : Option (BitVec 512)
  /-- A LEASERESET has been accepted and the reset has not yet come (R427). -/
  resetting : Bool
  deriving DecidableEq, Repr

/-- What the machine has sent to the outside, oldest first. -/
inductive Output where
  | interrupt (vector : Nat)
  | management (bytes : List Byte)
  | dcrErr (bit : Bool)
  deriving DecidableEq, Repr

/-- Who moves next (DESIGN CHOICE log 1). -/
inductive Turn where
  | event (i : Instr)
  | wave (core slot : Nat)
  /-- The boot ROM goes on with its work (R426, R429). -/
  | rom
  /-- Firmware writes bytes of a tenant slot of flash, or the boot selector word (R426). -/
  | flash (slot off : Nat) (bytes : List Byte)
  | selector (n : Nat)
  deriving DecidableEq, Repr

/-- The whole machine. -/
structure State where
  /-- Turns chosen by the surroundings, first to last; empty leaves the choice to the default scheduler (DESIGN CHOICE log 1). -/
  agenda : List Turn
  /-- The wave that issues: core and slot. -/
  cur : Option (Nat × Nat)
  /-- Steps taken: the argument of every free value (DESIGN CHOICE log 14). -/
  steps : Nat
  /-- Main-clock cycles since reset are 128·tick + phase (R104, R54). -/
  tick : Nat
  phase : Nat
  /-- Next identifier of a dynamic object. -/
  ids : Nat
  /-- Next package sequence number (R404). -/
  seq : W64
  -- computing
  cores : KMap Core
  slots : KMap Slot
  clusters : KMap Cluster
  gangs : KMap Gang
  crews : KMap Crew
  tasks : KMap Task
  launches : KMap Launch
  sleepers : KMap Sleeper
  wakes : List WakeReg
  drains : KMap Drain
  packets : List Packet
  acks : List HaulAck
  quarries : KMap Quarry
  -- memory
  mem : Mem
  hostMem : Mem
  peerMem : Mem
  poison : List Nat
  /-- Poisoned sectors of the peer apertures (R96, R121). -/
  peerPoison : List Nat
  /-- The two keys under which a sector was written last, as loaded (R84). -/
  sectorKeys : KMap (BitVec 512)
  keys : KMap (BitVec 512)
  /-- Leaves that homes hold, each with the PA of its page's first byte (R417). -/
  leaves : List Leaf
  lines : KMap Word
  refill : KMap Word
  stamps : KMap (Nat × List Nat)
  l1 : KMap (List L1Line)
  wcb : KMap (List WcEntry)
  slabs : KMap Slab
  bridge : List Nat
  /-- Stable vector of every home; an unlisted home has 0 everywhere (R107). -/
  stable : KMap (List Nat)
  held : List WriteMsg
  applied : List WriteMsg
  reqs : List Req
  -- contexts, queues, firmware
  ctxs : KMap Ctx
  saves : KMap Save
  tiers : KMap (Nat × Nat)
  links : List (LinkKind × Nat)
  queues : KMap Queue
  rings : KMap EventRing
  port : HostPort
  cmds : List CmdRun
  faultsOut : List FaultRec
  faults : List FaultRec
  mgmt : Mgmt
  outputs : List Output
  /-- Far atomics and haul packets dropped by the forced reset in progress, by context (R230). -/
  dropped : KMap (Nat × Nat)
  deriving DecidableEq, Repr

/-- Why the machine stops. -/
inductive Fault where
  /-- Raised by a row of the opcode table whose condition does not hold in this state (an event that cannot happen here, or a
  wave instruction with no wave to issue it): the machine is stuck. Safe: the hardware never makes this step. -/
  | notEnabled
  deriving DecidableEq, Repr

/-- Why an instruction has no meaning here. -/
inductive Refusal where
  /-- Raised by an arm of `exec` for a row not yet modelled. Safe: nothing can be concluded about it. -/
  | notModelled (mnemonic : String)
  deriving DecidableEq, Repr

/-! ### Defaults of the tables, and reset -/

def Fibre.init : Fibre :=
  { win := 16, pc := 0, regs := [], regPoison := 0, preds := 1, predPoison := 0, fpmode := 0, txstatus := 0,
    waitlimit := 0xFFFFFFFFFFFFFFFF, windows := [], progress := 0, joins := [], sbset := false, park := .no, block := 0,
    relWait := none, flushWait := none }

def Slot.init : Slot :=
  { gang := 0, fids := [], log := [], since := 0, readySince := none, lastIssue := 0, trapcause := 0, traplanes := 0,
    trappc := 0, trapval := 0, handler := none, txn := none, atBrk := false }

def Core.init : Core :=
  { gangs := [], table := [], blocks := [], frees := 0, copyq := { cmds := [], count := 0, recent := [] }, claimed := false,
    halted := false, perfCount := [], perfSel := [], unitUse := [], issued := (0, 0),
    justFreed := (0, []) }

def Tile.init : Tile := { holder := none, releasing := false, elems := [], ovf := false, poison := false, dom := .none }

def Cluster.init : Cluster :=
  { fused := false, tiles := [], queues := [], queueOwner := [], lastQueue := 15, running := none, runTile := none, copyTurn := 3 }

def Kernel.init : Kernel :=
  { va := 0, version := 3, regs := 16, gang := 1, crew := 1, fused := false, spad := 0, entry := 0, handler := 0, qslot := 255 }

def Gang.init : Gang :=
  { ctx := 0, launch := 0, task := 0, crew := 0, gid := 0, core := 0, kernel := Kernel.init, handlerBase := 0, fibres := [],
    joinSets := [], scratch := [], scratchPoison := [], versions := [], unfenced := [], shadow := [], shadowMarks := [], shadowPoison := [],
    xcounts := [], granule := 0, shadowGranule := 1024, granules := 0, spfail := 0, frees0 := 0, allocVersion := 0, allocWord := 0, mxQueue := none,
    mxCfg := none, asyncs := [], replayable := false, admitted := 0, relWait := none }

def Handle.init : Handle :=
  { st := .free, gang := 0, base := 0, nb := 0, binexp := 0, mask := 0, sync := none, published := false, waiters := [],
    received := [], ovf := [], poison := [] }

def Crew.init : Crew := { size := 0, gangs := [], live := [], handles := [] }

def Task.init : Task :=
  { launch := 0, index := 0, ctx := 0, key := 0xFFFFFFFFFFFFFFFF, gen := 0, pay := 0, st := .retired, cluster := none,
    crew := 0, gangsLeft := 0, failed := false, sbset := false, released := false, flush := [], startGens := [], started := 0 }

def Launch.init : Launch :=
  { ctx := 0, kernel := Kernel.init, arg := 0, sweep := false, x := 1, y := 1, z := 1, stencil := 0, next := 0, blocks := [],
    left := 0, placed := true, failed := 0, cause := 0, qslots := [], src := .qsweep 0 }

def Slab.init : Slab := { v := [0, 0, 0, 0, 0], lastLeft := 0, inq := [], copies := [] }

def Quarry.init : Quarry :=
  { desc := 0, dim := 1, depth := 1, gen := 0, doneGen := 0, kerfs := [], mig := none, released := [], ops := [], begun := none, stall := none }

def Queue.init : Queue :=
  { desc := none, saved := none, w := 0, ridx := 0, slot := none, waiting := none, lastStore := 0, signalled := 0, emptySince := 0,
    runs := [] }

def EventRing.init : EventRing :=
  { set := false, ctx := 0, base := 0, elog := 4, count := 1, time := 1, vector := 0, tail := 0, head := 0, pending := 0,
    oldest := 0, waiting := [], sent := none }

def Ctx.init : Ctx :=
  { st := .free, pasid := 0, root := 0, deadlog := 10, windows := [], qslots := [], peers := 0, draining := none, saved := [] }

def HostPort.init : HostPort :=
  { dcrBase := 0, dcrLog := 4, dcrDb := 0, dcrRd := 0, dcrErr := false, frBase := 0, frLog := 4, frHead := 0, frTail := 0,
    dvec := 0 }

def Ageing.init : Ageing := { margin := 0, lossRate := 0, errors := 0, refresh := 1, days := 0xFFFF }

def Mgmt.init : Mgmt :=
  { pkg := .rom, leasePending := false, nonce := 0, leaseFlags := 0, leaseCount := 0, scrubClass := 0, romFailure := 0,
    record := [], fenced := [], pinned := [], failed := [], scrubStart := 0, errlog := [], errCount := [], ageing := [], slot0 := [], tenant := [],
    selector := 0, measured := [], zeroed := none, resetting := false }

/-- The machine right after reset: the boot ROM runs (R426), no context, gang, queue or ring exists, caches and memory list
nothing, counters are at their reset values; values the manual does not give are named in DESIGN CHOICE log 2 and DESIGN CHOICE log 3. -/
def State.reset : State :=
  { agenda := [], cur := none, steps := 0, tick := 0, phase := 0, ids := 1, seq := 1,
    cores := [], slots := [], clusters := [], gangs := [], crews := [], tasks := [], launches := [], sleepers := [], wakes := [],
    drains := [], packets := [], acks := [], quarries := [],
    mem := [], hostMem := [], peerMem := [], poison := [], peerPoison := [], sectorKeys := [], keys := [], leaves := [], lines := [], refill := [], stamps := [],
    l1 := [], wcb := [], slabs := [], bridge := [0, 0, 0, 0, 0], stable := [], held := [], applied := [], reqs := [],
    ctxs := [], saves := [], tiers := [], links := [], queues := [], rings := [], port := HostPort.init, cmds := [],
    faultsOut := [], faults := [], mgmt := Mgmt.init, outputs := [], dropped := [] }

end Sys2Proof.Machine
end

