-- ==== Sys2Proof/Machine/Maps.lean ====
section
/-! DEFINITION. Sys2Proof/Machine/Maps.lean: finite tables, byte memory in its canonical form, and the bit and byte helpers
of the other files. -/
namespace Sys2Proof.Machine

/-! ### Finite tables: rising keys -/

/-- The entry of a key. -/
def kget? {α : Type} : KMap α → Nat → Option α
  | [], _ => none
  | (k, v) :: m, n => if k = n then some v else kget? m n

/-- The entry of a key, or a default. -/
def kget {α : Type} (m : KMap α) (n : Nat) (d : α) : α := (kget? m n).getD d

/-- Set an entry, keeping the keys rising. -/
def kset {α : Type} : KMap α → Nat → α → KMap α
  | [], n, v => [(n, v)]
  | (k, w) :: m, n, v => if n < k then (n, v) :: (k, w) :: m else if k = n then (n, v) :: m else (k, w) :: kset m n v

/-- Remove an entry. -/
def kdel {α : Type} (m : KMap α) (n : Nat) : KMap α := m.filter (fun e => e.1 != n)

/-- Replace an entry by a function of it, the default standing for an unlisted one. -/
def kmod {α : Type} (m : KMap α) (n : Nat) (d : α) (f : α → α) : KMap α := kset m n (f (kget m n d))

/-- The listed keys. -/
def kkeys {α : Type} (m : KMap α) : List Nat := m.map (·.1)

/-- Keys rise strictly. -/
def keysRise {α : Type} : KMap α → Bool
  | [] => true
  | [_] => true
  | a :: b :: m => decide (a.1 < b.1) && keysRise (b :: m)

/-! ### Byte memory (DESIGN CHOICE log 3: an unlisted byte reads as zero) -/

/-- What an unlisted address reads as. -/
def memDefault : Byte := 0

/-- One byte. -/
def readByte : Mem → Nat → Byte
  | [], _ => memDefault
  | (a, b) :: m, n => if a = n then b else readByte m n

/-- Write one byte, keeping the canonical form: addresses rise, and no entry equals the default. -/
def writeByte : Mem → Nat → Byte → Mem
  | [], n, v => if v = memDefault then [] else [(n, v)]
  | (a, b) :: m, n, v =>
    if n < a then (if v = memDefault then (a, b) :: m else (n, v) :: (a, b) :: m)
    else if a = n then (if v = memDefault then m else (n, v) :: m)
    else (a, b) :: writeByte m n v

/-- The canonical form: addresses rise above `lo`, and no entry equals the default. -/
def memWfFrom (lo : Nat) : Mem → Bool
  | [] => true
  | (a, b) :: m => decide (lo ≤ a) && decide (b ≠ memDefault) && memWfFrom (a + 1) m

/-- The canonical form. -/
def Memory.wf (m : Mem) : Bool := memWfFrom 0 m

/-- `n` bytes from an address, lowest first. -/
def readBytes (m : Mem) (a : Nat) : Nat → List Byte
  | 0 => []
  | n + 1 => readByte m a :: readBytes m (a + 1) n

/-- Write bytes from an address, lowest first. -/
def writeBytes (m : Mem) (a : Nat) : List Byte → Mem
  | [] => m
  | b :: bs => writeBytes (writeByte m a b) (a + 1) bs

/-! ### Bytes and words, little-endian (R5) -/

/-- The number whose little-endian bytes these are. -/
def natOfBytes : List Byte → Nat
  | [] => 0
  | b :: bs => b.toNat + 256 * natOfBytes bs

/-- `n` little-endian bytes of a number. -/
def bytesOfNat : Nat → Nat → List Byte
  | 0, _ => []
  | n + 1, v => BitVec.ofNat 8 v :: bytesOfNat n (v / 256)

def readLE (m : Mem) (a n : Nat) : Nat := natOfBytes (readBytes m a n)
def writeLE (m : Mem) (a n v : Nat) : Mem := writeBytes m a (bytesOfNat n v)
def read32 (m : Mem) (a : Nat) : Word := BitVec.ofNat 32 (readLE m a 4)
def read64 (m : Mem) (a : Nat) : W64 := BitVec.ofNat 64 (readLE m a 8)

/-- Byte, 16-, 32- and 64-bit fields of a byte string. -/
def byteAt (bs : List Byte) (i : Nat) : Nat := (bs.getD i 0).toNat
def field (bs : List Byte) (lo n : Nat) : Nat := natOfBytes ((bs.drop lo).take n)
def allZero (bs : List Byte) : Bool := bs.all (· == 0)

/-! ### Sectors: 128 bytes as bits -/

/-- Byte `i` of a sector. -/
def sectorByte (d : BitVec 1024) (i : Nat) : Byte := d.extractLsb' (8 * i) 8

/-- Replace byte `i` of a sector. -/
def sectorSet (d : BitVec 1024) (i : Nat) (b : Byte) : BitVec 1024 :=
  (d &&& ~~~((0xFF : BitVec 1024) <<< (8 * i))) ||| (b.zeroExtend 1024 <<< (8 * i))

/-- The mask of `n` bytes from offset `o` of a sector. -/
def byteMask (o n : Nat) : BitVec 128 := BitVec.ofNat 128 ((2 ^ n - 1) * 2 ^ o)

/-- The byte mask widened to bits. -/
def bitMask (m : BitVec 128) : BitVec 1024 :=
  (List.range 128).foldl (fun acc i => if m.getLsbD i then acc ||| ((0xFF : BitVec 1024) <<< (8 * i)) else acc) 0

/-- Replace the bytes of `old` that `mask` names by those of `new`. -/
def sectorMerge (old new : BitVec 1024) (mask : BitVec 128) : BitVec 1024 :=
  let m := bitMask mask
  (old &&& ~~~m) ||| (new &&& m)

/-- A sector from memory, and the masked bytes of a sector into memory. -/
def readSector (m : Mem) (base : Nat) : BitVec 1024 := BitVec.ofNat 1024 (readLE m base 128)
def writeSector (m : Mem) (base : Nat) (mask : BitVec 128) (d : BitVec 1024) : Mem :=
  (List.range 128).foldl (fun acc i => if mask.getLsbD i then writeByte acc (base + i) (sectorByte d i) else acc) m

/-- `n` bytes of a sector from offset `o`, as a number. -/
def sectorNat (d : BitVec 1024) (o n : Nat) : Nat := (d.toNat >>> (8 * o)) % 2 ^ (8 * n)

/-- A number's bytes at offset `o` of an otherwise zero sector. -/
def natSector (v o n : Nat) : BitVec 1024 := BitVec.ofNat 1024 ((v % 2 ^ (8 * n)) <<< (8 * o))

def fullMask : BitVec 128 := BitVec.allOnes 128

/-! ### Lists as sets of numbers -/

def insertNat (n : Nat) (l : List Nat) : List Nat := if l.contains n then l else l ++ [n]
def without (l r : List Nat) : List Nat := l.filter (fun x => !r.contains x)

def allDistinct : List Nat → Bool
  | [] => true
  | x :: xs => !xs.contains x && allDistinct xs

/-- The least of a list by a measure, and the first with it. -/
def leastBy {α : Type} (f : α → Nat) : List α → Option α
  | [] => none
  | x :: xs =>
    match leastBy f xs with
    | none => some x
    | some y => if f x ≤ f y then some x else some y

/-- Insertion sort by a measure, stable. -/
def insertBy {α : Type} (f : α → Nat) (x : α) : List α → List α
  | [] => [x]
  | y :: ys => if f x ≤ f y then x :: y :: ys else y :: insertBy f x ys
def sortBy {α : Type} (f : α → Nat) : List α → List α
  | [] => []
  | x :: xs => insertBy f x (sortBy f xs)

/-! ### Vectors of sequence numbers (R104) -/

/-- Componentwise maximum. -/
def vmax : List Nat → List Nat → List Nat
  | [], b => b
  | a, [] => a
  | x :: xs, y :: ys => max x y :: vmax xs ys

/-- Componentwise at most, missing components being zero. -/
def vle : List Nat → List Nat → Bool
  | [], _ => true
  | x :: xs, [] => decide (x = 0) && vle xs []
  | x :: xs, y :: ys => decide (x ≤ y) && vle xs ys

/-- Replace component `i`. -/
def vset : List Nat → Nat → Nat → List Nat
  | [], _, _ => []
  | _ :: xs, 0, v => v :: xs
  | x :: xs, i + 1, v => x :: vset xs i v

def vget (l : List Nat) (i : Nat) : Nat := l.getD i 0

/-- Sign- or zero-extension of the low `w` bits to 64 bits (R56). -/
def ext64 (signed : Bool) (w : Nat) (v : Nat) : W64 :=
  if signed && decide (2 ^ (w - 1) ≤ v % 2 ^ w) then BitVec.ofInt 64 (Int.ofNat (v % 2 ^ w) - Int.ofNat (2 ^ w))
  else BitVec.ofNat 64 (v % 2 ^ w)

/-- The low `w` bits read as a two's-complement or unsigned integer (R74: sext, zext). -/
def asInt (signed : Bool) (w : Nat) (v : Nat) : Int :=
  if signed && decide (2 ^ (w - 1) ≤ v % 2 ^ w) then Int.ofNat (v % 2 ^ w) - Int.ofNat (2 ^ w) else Int.ofNat (v % 2 ^ w)

/-- An exact integer wrapped to `w` bits (R74: wrap). -/
def wrapInt (x : Int) (w : Nat) : Nat := (x % (2 ^ w : Int)).toNat

end Sys2Proof.Machine
end

