-- ==== Sys2Proof/Machine/Ops.lean ====
section
/-! DEFINITION. Sys2Proof/Machine/Ops.lean: the named operations the meanings share: time, places, fibre registers, lookahead
windows, guards, the issue of a wave instruction, taking a trap and returning from its handler, and the end of gangs and tasks. -/
namespace Sys2Proof.Machine

/-- The outcome of a step of this machine. -/
abbrev Out := Host.Outcome State Fault Refusal

/-! ### Time and places -/

/-- Main-clock cycles since reset (DESIGN CHOICE log 4). -/
def now (s : State) : Nat := 128 * s.tick + s.phase

/-- The common tick as agents and homes hold it: a 56-bit counter (R104). -/
def tick56 (s : State) : Nat := s.tick % 2 ^ 56

/-- The 100 MHz count of TIMER at 2.1 GHz (R54, DESIGN CHOICE log 4). -/
def timer (s : State) : W64 := BitVec.ofNat 64 (now s / 21)

/-- Microseconds as cycles of the 2.1 GHz clock. -/
def usCycles (us : Nat) : Nat := 2100 * us

def slotKey (core w : Nat) : Nat := core * 32 + w
def clusterOf (core : Nat) : Nat := core / 4
def slabOfCluster (c : Nat) : Nat := c / 36
def slabOf (core : Nat) : Nat := slabOfCluster (clusterOf core)
/-- The home slice of an IA or PA (R80), and its slab. -/
def homeOf (a : Nat) : Nat := a / 256 % 256
def slabOfHome (h : Nat) : Nat := h / 64

def getCore (s : State) (c : Nat) : Core := kget s.cores c Core.init
def setCore (s : State) (c : Nat) (v : Core) : State := { s with cores := kset s.cores c v }
def getSlot (s : State) (k : Nat) : Slot := kget s.slots k Slot.init
def setSlot (s : State) (k : Nat) (v : Slot) : State := { s with slots := kset s.slots k v }
def getGang (s : State) (g : Nat) : Gang := kget s.gangs g Gang.init
def setGang (s : State) (g : Nat) (v : Gang) : State := { s with gangs := kset s.gangs g v }
def getCrew (s : State) (c : Nat) : Crew := kget s.crews c Crew.init
def setCrew (s : State) (c : Nat) (v : Crew) : State := { s with crews := kset s.crews c v }
def getTask (s : State) (t : Nat) : Task := kget s.tasks t Task.init
def setTask (s : State) (t : Nat) (v : Task) : State := { s with tasks := kset s.tasks t v }
def getCluster (s : State) (c : Nat) : Cluster := kget s.clusters c Cluster.init
def setCluster (s : State) (c : Nat) (v : Cluster) : State := { s with clusters := kset s.clusters c v }
def getCtx (s : State) (c : Nat) : Ctx := kget s.ctxs c Ctx.init
def setCtx (s : State) (c : Nat) (v : Ctx) : State := { s with ctxs := kset s.ctxs c v }
def getSlab (s : State) (b : Nat) : Slab := kget s.slabs b Slab.init
def setSlab (s : State) (b : Nat) (v : Slab) : State := { s with slabs := kset s.slabs b v }
def getQuarry (s : State) (q : Nat) : Quarry := kget s.quarries q Quarry.init
def setQuarry (s : State) (q : Nat) (v : Quarry) : State := { s with quarries := kset s.quarries q v }
def getFibre (g : Gang) (fid : Nat) : Fibre := kget g.fibres fid Fibre.init

/-- A fresh identifier. -/
def takeId (s : State) : Nat × State := (s.ids, { s with ids := s.ids + 1 })

/-- A free value: use number `u` of this step, index `i` (DESIGN CHOICE log 18). -/
def free (s : State) (u i : Nat) : BitVec 128 := Config.freeBits s.steps u i

/-! ### Fibre registers, predicates (R22, R23) -/

def setBit {n : Nat} (v : BitVec n) (i : Nat) (b : Bool) : BitVec n :=
  if b then v ||| ((1 : BitVec n) <<< i) else v &&& ~~~((1 : BitVec n) <<< i)

/-- The home lane (R25). -/
def lane (fid : Nat) : Nat := fid % 32

/-- The lane mask of a set of fibres. -/
def laneMask (fids : List Nat) : Word := fids.foldl (fun m f => setBit m (lane f) true) 0

def readReg (f : Fibre) (n : Nat) : Word × Bool := (kget f.regs n 0, f.regPoison.getLsbD n)
/-- An even-odd pair, low word first (R5). -/
def readPair (f : Fibre) (n : Nat) : W64 × Bool :=
  ((kget f.regs (n + 1) 0) ++ (kget f.regs n 0), f.regPoison.getLsbD n || f.regPoison.getLsbD (n + 1))
/-- An aligned quad, lowest word first (R5). -/
def readQuad (f : Fibre) (n : Nat) : Quad × Bool :=
  ((readPair f (n + 2)).1 ++ (readPair f n).1, (readPair f n).2 || (readPair f (n + 2)).2)

/-- p0 reads 1 with its poison clear (R23). -/
def readPred (f : Fibre) (n : Nat) : Bool × Bool :=
  if n = 0 then (true, false) else (f.preds.getLsbD n, f.predPoison.getLsbD n)

/-- Write a register without touching windows. -/
def pokeReg (f : Fibre) (n : Nat) (v : Word) (p : Bool) : Fibre :=
  { f with regs := kset f.regs n v, regPoison := setBit f.regPoison n p }

/-- Write a predicate without touching windows; p0 keeps its value (R23). -/
def pokePred (f : Fibre) (n : Nat) (v : Bool) (p : Bool) : Fibre :=
  if n = 0 then f else { f with preds := setBit f.preds n v, predPoison := setBit f.predPoison n p }

/-- A younger write discards the held long-latency writes of the same destination (R239). -/
def discard (f : Fibre) (regs preds : List Nat) : Fibre :=
  { f with windows := f.windows.map (fun w =>
      { w with regs := w.regs.filter (fun e => !regs.contains e.1), preds := w.preds.filter (fun e => !preds.contains e.1) }) }

/-- What an instruction writes in one fibre. -/
structure Wr where
  regs : List (Nat × Word × Bool)
  preds : List (Nat × Bool × Bool)
  flags : Word
  deriving DecidableEq, Repr

def Wr.none : Wr := { regs := [], preds := [], flags := 0 }

/-- The bits of FPMODE that flags stand in (R64). -/
def flagMask : Word := 0x3F00

/-- OR flags into FPMODE (R66). -/
def orFlags (f : Fibre) (fl : Word) : Fibre := { f with fpmode := f.fpmode ||| (fl &&& flagMask) }

def pokeAll (f : Fibre) (w : Wr) : Fibre :=
  let f1 := w.regs.foldl (fun f e => pokeReg f e.1 e.2.1 e.2.2) f
  let f2 := w.preds.foldl (fun f e => pokePred f e.1 e.2.1 e.2.2) f1
  orFlags f2 w.flags

/-- An instruction's own write: it also discards held writes of the same destinations. -/
def writeAll (f : Fibre) (w : Wr) : Fibre := pokeAll (discard f (w.regs.map (·.1)) (w.preds.map (·.1))) w

/-- A 64-bit value as the writes of a pair, and a quad's. -/
def pairWr (n : Nat) (v : W64) (p : Bool) : List (Nat × Word × Bool) :=
  [(n, v.truncate 32, p), (n + 1, (v >>> 32).truncate 32, p)]
def quadWr (n : Nat) (v : Quad) (p : Bool) : List (Nat × Word × Bool) :=
  pairWr n (v.truncate 64) p ++ pairWr (n + 2) ((v >>> 64).truncate 64) p

/-! ### Lookahead windows (R239) -/

def applyWindow (f : Fibre) (w : Window) : Fibre := pokeAll f { regs := w.regs, preds := w.preds, flags := w.flags }

/-- Write the results of the windows that have closed and completed. -/
def settle (f : Fibre) : Fibre :=
  let fin := f.windows.filter (fun w => w.left == 0 && w.done)
  fin.foldl applyWindow { f with windows := f.windows.filter (fun w => !(w.left == 0 && w.done)) }

/-- One instruction of the fibre has issued: every open window counts it. -/
def tickWindows (f : Fibre) : Fibre :=
  settle { f with windows := f.windows.map (fun w => { w with left := w.left - 1 }) }

/-- Close every window whose operation has completed (R240). -/
def closeWindows (f : Fibre) : Fibre :=
  settle { f with windows := f.windows.map (fun w => { w with left := 0 }) }

/-- A window's operation has completed. -/
def finishWindow (f : Fibre) (id : Nat) : Fibre :=
  settle { f with windows := f.windows.map (fun w => if w.id = id then { w with done := true } else w) }

/-- Give the destinations still held by a window their values (a reply): register numbers with value and poison. -/
def fillWindow (f : Fibre) (id : Nat) (vals : List (Nat × Word × Bool)) (flags : Word) : Fibre :=
  finishWindow { f with windows := f.windows.map (fun w => if w.id = id then
      { w with flags := w.flags ||| flags,
               regs := w.regs.map (fun e => match vals.find? (fun v => v.1 == e.1) with | some v => v | none => e) }
    else w) } id

/-- The fibre must wait: a closed window whose operation runs, or any running one for an instruction of R240. -/
def mustWait (all : Bool) (f : Fibre) : Bool :=
  f.windows.any (fun w => !w.done && (all || w.left == 0))

/-! ### The issuing wave -/

/-- What an instruction sees of the wave that issues it. -/
structure Env where
  core : Nat
  key : Nat
  sl : Slot
  gid : Nat
  g : Gang
  /-- Fibres of the wave, or of the path that runs inside a transaction (R146). -/
  fids : List Nat
  pc : W64
  deriving DecidableEq, Repr

/-- The fibres that issue: inside a transaction those of the running path (R146). -/
def Slot.running (sl : Slot) : List Nat :=
  match sl.txn with
  | some t => t.active
  | none => sl.fids

/-- The issuing wave of the state, if there is one. -/
def envOf (s : State) : Option Env :=
  match s.cur with
  | none => none
  | some (c, w) =>
    let sl := getSlot s (slotKey c w)
    match sl.running with
    | [] => none
    | fid :: fids =>
      let g := getGang s sl.gang
      some { core := c, key := slotKey c w, sl := sl, gid := sl.gang, g := g, fids := fid :: fids,
             pc := match sl.handler with
                   | some h => h.pc
                   | none => (getFibre g fid).pc }

/-- The guard of a fibre: executes or not, and whether the guard carries poison (R236, R256). -/
def guard (h : Hdr) (f : Fibre) : Bool × Bool :=
  let p := readPred f h.gp.toNat
  (p.1 != h.gn, p.2)

/-- The executing fibres, by rising lane. -/
def executing (h : Hdr) (e : Env) : List Nat := e.fids.filter (fun fid => (guard h (getFibre e.g fid)).1)

/-- The slot that follows a PC (R235). -/
def nextPc (pc : W64) : W64 := if pc &&& 7 = 4 then (pc &&& ~~~63) + 64 else pc + 1

/-- The line of a PC. -/
def lineOf (pc : W64) : W64 := pc &&& ~~~63

/-- The direct target of a format-3 or format-5 instruction at `pc` (R247). -/
def directTarget (pc : W64) (tline : BitVec 24) (tslot : BitVec 3) : W64 :=
  (lineOf pc + (tline.signExtend 64 <<< 6)) ||| tslot.zeroExtend 64

/-- Update every fibre of a gang. -/
def mapFibres (g : Gang) (fn : Nat → Fibre → Fibre) : Gang := { g with fibres := g.fibres.map (fun e => (e.1, fn e.1 e.2)) }

/-- The least of the progress counts is 32 bits, saturating (R39). -/
def bumpProgress (f : Fibre) : Fibre := { f with progress := min (f.progress + 1) 0xFFFFFFFF }

/-- One fibre retires an instruction: its own write, then the count of the windows already open, then its own new window, then
the PC and the progress count. -/
def retireFibre (w : Wr) (win : Option Window) (pc : W64) (f : Fibre) : Fibre :=
  let f1 := match win with
    | none => writeAll f w
    | some v => discard f (v.regs.map (·.1)) (v.preds.map (·.1))
  let f2 := tickWindows f1
  let f3 := match win with
    | none => f2
    | some v => { f2 with windows := f2.windows ++ [v] }
  bumpProgress { f3 with pc := pc }

/-- A core's counters that count event `ev` go up by `n` (R414, PERFSEL). -/
def perfBump (ev n : Nat) (c : Core) : Core :=
  { c with perfCount := c.perfSel.foldl (fun m p => if p.2 = ev ∧ ev ≠ 0 then kset m p.1 (kget m p.1 0 + BitVec.ofNat 64 n) else m) c.perfCount }

def perfEvent (core ev n : Nat) (s : State) : State := setCore s core (perfBump ev n (getCore s core))

/-- The pipes of a core in use in this cycle (R39). -/
def pipesUsed (s : State) (core : Nat) : Nat := let i := (getCore s core).issued; if i.1 = now s + 1 then i.2 else 0

/-- A use of a unit in this cycle, beside the latest one before it (R39). -/
def usedNow (s : State) (u : Nat × Nat) : Nat × Nat := (now s + 1, if u.1 = now s + 1 then u.2 else u.1)

/-- Note the issue for R39 and the counters: the slot's last issue, the use of unit `u`, the pipe that the wave takes in this cycle, an
instruction retired. -/
def noteIssue (e : Env) (u : Nat) (s : State) : State :=
  let sl := getSlot s e.key
  let pipes := pipesUsed s e.core + (if sl.lastIssue = now s + 1 then 0 else 1)
  let s1 := setSlot s e.key { sl with lastIssue := now s + 1, readySince := none }
  let c := getCore s1 e.core
  setCore s1 e.core (perfBump 2 1 { c with unitUse := kset c.unitUse u (usedNow s (kget c.unitUse u (0, 0))), issued := (now s + 1, pipes) })

/-- The wave retires an instruction: each of its fibres with its own writes, window and next PC. -/
def retire (e : Env) (u : Nat) (wr : Nat → Wr) (win : Nat → Option Window) (pc : Nat → W64) (s : State) : State :=
  let g := getGang s e.gid
  noteIssue e u (setGang s e.gid (mapFibres g (fun fid f =>
    if e.fids.contains fid then retireFibre (wr fid) (win fid) (pc fid) f else f)))

/-- Retire with no register effect. -/
def retirePlain (e : Env) (u : Nat) (s : State) : State :=
  retire e u (fun _ => Wr.none) (fun _ => none) (fun _ => nextPc e.pc) s

/-! ### Batches of the fibre table (R35, R41) -/

/-- Put fibres into the core's fibre table. -/
def toTable (core gid : Nat) (fids : List Nat) (w : Wait) (s : State) : State :=
  if fids.isEmpty then s else
  let c := getCore s core
  setCore s core { c with table := c.table ++ [{ gang := gid, fids := fids, wait := w, since := now s }] }

/-- Group fibres by PC, keeping their order: the first group holds the lowest lane. -/
def groupByPc (pc : Nat → W64) : List Nat → List (List Nat)
  | [] => []
  | f :: fs =>
    let gs := groupByPc pc fs
    match gs.find? (fun grp => match grp with | x :: _ => pc x == pc f | [] => false) with
    | some grp => (f :: grp) :: gs.filter (fun x => x != grp)
    | none => [f] :: gs

/-- Take fibres out of a wave slot; a slot without fibres is free once its log is empty (R41, R215). -/
def leaveSlot (key : Nat) (fids : List Nat) (s : State) : State :=
  let sl := getSlot s key
  setSlot s key { sl with fids := without sl.fids fids }

/-- Split a wave whose fibres have different PCs: the group with the lowest lane keeps the slot (R36). -/
def regroup (core key gid : Nat) (s : State) : State :=
  let sl := getSlot s key
  let g := getGang s gid
  match groupByPc (fun f => (getFibre g f).pc) sl.fids with
  | [] => s
  | keep :: rest =>
    rest.foldl (fun s grp => toTable core gid grp .ready s) (setSlot s key { sl with fids := keep })

/-! ### Fault records (R404, R419) -/

/-- Queue a fault record with the next package sequence number. -/
def report (r : FaultRec) (s : State) : State :=
  { s with seq := s.seq + 1, faultsOut := s.faultsOut ++ [{ r with seq := s.seq, time := timer s }] }

def FaultRec.blank : FaultRec :=
  { seq := 0, kind := 0, why := 0, acc := 0, time := 0, ctx := 0, slot := 0, unit := 0, data := 0, ident := 0, lanes := 0,
    va := 0, pc := 0, ref := .none }

/-! ### Join sets (R37, R300) -/

/-- A fibre is pinned in an open transaction of a wave slot (R146). -/
def isPinned (s : State) (gid fid : Nat) : Bool :=
  s.slots.any (fun k => k.2.gang == gid && k.2.fids.contains fid && (match k.2.txn with | some t => !t.held.contains fid | none => false))

/-- Move the waiting batches of a closed set to ready, one batch for each PC, and pop the set from its members. A fibre pinned in a
transaction goes on in its wave. -/
def closeSet (gid set : Nat) (s : State) : State :=
  let g := getGang s gid
  let js := kget g.joinSets set { members := [], waiting := [] }
  let pop := fun (f : Fibre) => { f with joins := f.joins.filter (· != set) }
  let g1 := { mapFibres g (fun fid f => if js.members.contains fid then pop f else f) with joinSets := kdel g.joinSets set }
  let s1 := setGang s gid g1
  let c := getCore s1 g.core
  let s2 := setCore s1 g.core { c with table := c.table.filter (fun b => !(b.gang == gid && b.wait == .join set)) }
  (groupByPc (fun f => (getFibre g1 f).pc) (sortBy lane (js.waiting.filter (fun x => !isPinned s gid x)))).foldl
    (fun s grp => toTable g.core gid grp .ready s) s2

/-- Close a set of the gang when every member that is left waits; drop it when none is left. -/
def recount (gid set : Nat) (s : State) : State :=
  let g := getGang s gid
  match kget? g.joinSets set with
  | none => s
  | some js =>
    if js.members.isEmpty then setGang s gid { g with joinSets := kdel g.joinSets set }
    else if js.members.all (fun f => js.waiting.contains f) then closeSet gid set s
    else s

/-- A fibre leaves every join set it is in (R37, R226). -/
def leaveJoins (gid fid : Nat) (s : State) : State :=
  let g := getGang s gid
  let sets := (getFibre g fid).joins
  let drop := fun (js : JoinSet) => { members := js.members.filter (· != fid), waiting := js.waiting.filter (· != fid) : JoinSet }
  let g1 := { mapFibres g (fun i f => if i = fid then { f with joins := [] } else f) with
    joinSets := g.joinSets.map (fun e => if sets.contains e.1 then (e.1, drop e.2) else e) }
  sets.foldl (fun s k => recount gid k s) (setGang s gid g1)

/-! ### Waking a wave, and the allocator status word (R34, R153, R158) -/

/-- The TXSTATUS word. -/
def txWord (code : Nat) (co : Bool) (depth cause : Nat) : Word :=
  BitVec.ofNat 32 (code % 256 * 256 + (if co then 128 else 0) + depth % 8 * 16 + cause % 16)

/-- Wake a sleeping wave: it restarts at the outermost TBEGIN with cause WOKEN, and its other registrations are withdrawn. -/
def wakeSleeper (sid : Nat) (s : State) : State :=
  match kget? s.sleepers sid with
  | none => s
  | some p =>
    let woken := fun (g : Gang) => mapFibres g (fun fid f => if p.fids.contains fid then
      { f with pc := p.beginPc, txstatus := txWord 0 p.coarse 0 12 } else f)
    let c := getCore s p.core
    let c1 := { c with table := c.table.map (fun b => if b.wait == .asleep sid then { b with wait := .ready, since := now s } else b) }
    let s1 := setCore (match kget? s.gangs p.gang with | some g => setGang s p.gang (woken g) | none => s) p.core c1
    { s1 with sleepers := kdel s1.sleepers sid,
              wakes := s1.wakes.filter (fun w => match w.who with | .wave k => k != sid | .queue _ => true) }

/-- Wake whoever a list of registrations names; a queue's registration stays until its packet is checked (R401). -/
def wakeAll (ws : List WakeReg) (s : State) : State :=
  ws.foldl (fun s w => match w.who with
    | .wave k => wakeSleeper k s
    | .queue q => { s with queues := kmod s.queues q Queue.init (fun x => { x with signalled := x.signalled + 1 }) }) s

/-- A write was made to a scratchpad line of a gang; coarse registrations wait for the bank (R159). -/
def wakeScratch (gid off : Nat) (s : State) : State :=
  let c := clusterOf (getGang s gid).core
  wakeAll (s.wakes.filter (fun w => w.place == .cluster c &&
    (if w.line == none then w.bank == off / 256 % 16 else w.gang == gid && w.line == some (off / 256)))) s

/-- An aligned block of registers is free beside those that are held (R29). -/
def blockFree (held : List RegBlock) (base size : Nat) : Bool :=
  held.all (fun b => decide (b.base + b.size ≤ base) || decide (base + size ≤ b.base))

/-- The lowest free aligned block of a size (DESIGN CHOICE log 11). -/
def findBlock (held : List RegBlock) (size : Nat) : Option Nat :=
  match (List.range (131072 / size)).find? (fun i => blockFree held (i * size) size) with
  | some i => some (i * size)
  | none => none

/-- Windows of fibres that have ended in this cycle: a QUIT's window and index are taken again from the next cycle on (R27). -/
def freedNow (s : State) (core : Nat) : List RegBlock :=
  let c := getCore s core
  if c.justFreed.1 = now s + 1 then c.justFreed.2 else []

/-- What no window can be allocated over now. -/
def heldBlocks (s : State) (core : Nat) : List RegBlock := (getCore s core).blocks ++ freedNow s core

/-- Largest free block of a core, as the allocator status word has it (R34). -/
def largestFree (c : Core) : Nat :=
  match [256, 128, 64, 32, 16].find? (fun k => (findBlock c.blocks k).isSome) with
  | some k => k
  | none => 0

/-- The allocator status word of a gang. -/
def allocatorWord (s : State) (g : Gang) : Quad :=
  let c := getCore s g.core
  g.spfail ++ BitVec.ofNat 32 g.fibres.length ++ BitVec.ofNat 32 (largestFree c) ++ BitVec.ofNat 32 (c.frees - g.frees0)

/-- Bring every gang's allocator version up to date on a core, waking those registered on the word (R34). -/
def refreshAlloc (core : Nat) (s : State) : State :=
  (getCore s core).gangs.foldl (fun s gid =>
    match kget? s.gangs gid with
    | none => s
    | some g =>
      let w := allocatorWord s g
      if w = g.allocWord then s
      else wakeScratch gid 0xFFFFFFF0 (setGang s gid { g with allocWord := w, allocVersion := g.allocVersion + 1 })) s

/-! ### The end of gangs and tasks (R27, R28, R226, R230) -/

/-- A wave slot that is free: its trap CSRs keep what the last trap entry on it left (R371). -/
def freedSlot (sl : Slot) : Slot :=
  { Slot.init with trapcause := sl.trapcause, traplanes := sl.traplanes, trappc := sl.trappc, trapval := sl.trapval }

/-- Remove every trace of a gang from the core, its cluster, its crew and the units that work for it: commands that have not
started and running ones are discarded, packets to or from it are dropped, its tiles are armed and freed, sleeping waves and
their registrations go (R187, R198, R211, R230), and the core's allocator status words follow (R34). The second answer counts discarded atomics and dropped packets. -/
def endGangForced (gid : Nat) (s : State) : State × Nat × Nat :=
  let g := getGang s gid
  let c := getCore s g.core
  let freed := (c.blocks.filter (fun b => b.gang == gid)).length
  let c1 := { c with gangs := without c.gangs [gid], table := c.table.filter (fun b => b.gang != gid),
                     blocks := c.blocks.filter (fun b => b.gang != gid), frees := c.frees + freed,
                     copyq := { c.copyq with cmds := c.copyq.cmds.filter (fun k => k.gang != gid) } }
  let crew := getCrew s g.crew
  let crew1 := { crew with live := without crew.live [gid],
                           handles := crew.handles.map (fun e => if e.2.gang == gid && (e.2.st != HandleState.free) then (e.1, Handle.init) else e) }
  let cl := getCluster s (clusterOf g.core)
  let mine := fun (o : Option MxOp) => match o with | some op => op.gang == gid | none => false
  let cl1 := { cl with
    tiles := (cl.tiles.map (fun e => if e.2.holder == some gid then (e.1, Tile.init) else e)),
    queues := cl.queues.map (fun e => (e.1, e.2.filter (fun op => op.gang != gid)))
    queueOwner := cl.queueOwner.filter (fun e => e.2 != gid)
    running := if mine cl.running then none else cl.running
    runTile := if mine cl.running then none else cl.runTile }
  let hits := fun (p : Packet) => p.gang == gid ||
    (p.crew == g.crew && (kget crew.handles p.handle Handle.init).gang == gid)
  let slps := (s.sleepers.filter (fun e => e.2.gang == gid)).map (·.1)
  let atomics := (s.reqs.filter (fun r => r.gang == gid && (match r.kind with | .atomic _ => true | _ => false))).length
  let dead := (s.reqs.filter (fun r => r.gang == gid)).map (·.id)
  let stays := fun (m : WriteMsg) => match m.kind with | .op id => !dead.contains id | _ => true
  let s1 := { s with
    cores := kset s.cores g.core c1
    crews := kset s.crews g.crew crew1
    clusters := kset s.clusters (clusterOf g.core) cl1
    slots := s.slots.map (fun e => if e.2.gang == gid && !(e.2.fids.isEmpty && e.2.log.isEmpty) then (e.1, freedSlot e.2) else e)
    drains := s.drains.filter (fun e => e.2.gang != gid)
    packets := s.packets.filter (fun p => !hits p)
    acks := s.acks.filter (fun a => a.gang != gid)
    sleepers := s.sleepers.filter (fun e => e.2.gang != gid)
    wakes := s.wakes.filter (fun w => match w.who with | .wave k => !slps.contains k | .queue _ => true)
    reqs := s.reqs.filter (fun r => r.gang != gid)
    slabs := s.slabs.map (fun b => (b.1, { b.2 with inq := b.2.inq.filter stays }))
    held := s.held.filter stays
    gangs := kdel s.gangs gid }
  (refreshAlloc g.core s1, atomics, (s.packets.filter hits).length)

/-- End several gangs by force, adding up the counts of R230. -/
def endGangsForced : List Nat → State → State × Nat × Nat
  | [], s => (s, 0, 0)
  | g :: gs, s =>
    let r := endGangForced g s
    let t := endGangsForced gs r.1
    (t.1, r.2.1 + t.2.1, r.2.2 + t.2.2)

/-- The places that a QSWEEP of these fibres has in a quarry order are given up: it will issue afresh (R222, R351). -/
def dropSweeps (gid : Nat) (fids : List Nat) (s : State) : State :=
  let mine := fun (o : QOp) => match o with
    | .sweep g fs _ => g == gid && fs.any (fun f => fids.contains f)
    | _ => false
  if s.quarries.any (fun q => q.2.ops.any mine) then
    { s with quarries := s.quarries.map (fun q => (q.1, { q.2 with ops := q.2.ops.filter (fun o => !mine o) })) }
  else s

/-- A step joins the quarry order of a bound quarry (R125). -/
def pushQOp (q : Nat) (op : QOp) (s : State) : State :=
  match kget? s.quarries q with
  | none => s
  | some v => if v.desc = 0 then s else setQuarry s q { v with ops := v.ops ++ [op] }

/-- The quarry of a sweep launch. -/
def launchQuarry (l : Launch) : Nat := 8 * l.ctx + l.kernel.qslot

/-- A task retires (R46, R227): its launch counts it, and keeps the first failure's cause; a sweep task's cost is charged, and the
last task of a QSWEEP's sweep adds 1 to the completion word (R137, R351). -/
def retireTask (tid : Nat) (fail : Option Nat) (s : State) : State :=
  let t := getTask s tid
  let l := kget s.launches t.launch Launch.init
  let bad := t.failed || fail.isSome
  let l1 := { l with left := l.left - 1, failed := if bad then l.failed + 1 else l.failed,
                     cause := if bad && l.failed == 0 then fail.getD l.cause else l.cause }
  let s1 := { setTask s tid { t with st := .retired, failed := bad, gangsLeft := 0 } with launches := kset s.launches t.launch l1 }
  let s2 := if l.sweep then pushQOp (launchQuarry l) (.charge t.key (now s - t.started)) s1 else s1
  match l.src with
  | .qsweep va => if l1.left = 0 ∧ va ≠ 0 then pushQOp (launchQuarry l) (.done va) s2 else s2
  | _ => s2

/-- Fail a task (R227): every gang of it, and of its crew, ends as under a forced reset, and the task counts as retired. The release of
its writes (R46) begins with the end of the step (settleFlushes). -/
def failTask (tid cause : Nat) (s : State) : State :=
  let t := getTask s tid
  let x := getCtx s t.ctx
  let live := (getCrew s t.crew).live
  let cores := (live.filter (fun g => (kget? s.gangs g).isSome)).map (fun g => ((getGang s g).core, (none : Option (Nat × Nat))))
  let s1 := if x.saved.isEmpty then s else setCtx s t.ctx { x with saved := x.saved.filter (fun v => v.gang.task != tid) }
  let s2 := (endGangsForced live s1).1
  retireTask tid (some cause) (setTask s2 tid { getTask s2 tid with flush := cores })

/-- A trap failure of a wave with its TRAPFAIL record (R227). -/
def trapFailure (e : Env) (cause : Nat) (s : State) : State :=
  let sl := getSlot s e.key
  failTask e.g.task cause (report { FaultRec.blank with
    kind := 7, ref := .noted, ctx := e.g.ctx, slot := e.key % 32, unit := e.core,
    data := BitVec.ofNat 32 (cause + 256 * (sl.trapcause.toNat % 256)), lanes := sl.traplanes, pc := sl.trappc } s)

/-- A handler error (R225, R227). -/
def handlerError (e : Env) (s : State) : Out := .next (trapFailure e 32 s)

/-! ### Abort of a transaction (R153) -/

/-- The sets opened inside a transaction go, and its fibres no longer wait in one that was open before it (DEDUCED log 50). -/
def leaveTxnSets (mine : List Nat) (t : Txn) (g : Gang) : Gang :=
  { g with joinSets := (g.joinSets.filter (fun e => !t.sets.contains e.1)).map (fun e =>
      (e.1, { e.2 with waiting := without e.2.waiting mine })) }

/-- Close the transaction of a slot: `pc` for its fibres, TXSTATUS by `st`, and the held fibres go on as a wave of their own; they
are not in the transaction, and their TXSTATUS keeps its value (DEDUCED log 114). -/
def closeTxn (core key gid : Nat) (pc : Option W64) (st : Option (Word → Word)) (s : State) : State :=
  let sl := getSlot s key
  match sl.txn with
  | none => s
  | some t =>
    let g := getGang s gid
    let mine := without sl.fids t.held
    let g1 := mapFibres g (fun fid f => if mine.contains fid then
        let f1 := match st with | some w => { f with txstatus := w f.txstatus } | none => f
        let f2 := match pc with | some p => { f1 with pc := p, joins := without f1.joins t.sets } | none => f1
        f2 else f)
    let g2 := if pc.isSome then leaveTxnSets mine t g1 else g1
    let s1 := setGang (setSlot s key { sl with fids := mine, txn := none }) gid g2
    toTable core gid t.held .ready s1

/-- Abort with a cause: control passes to the abort label of the outermost TBEGIN (R153, R154). -/
def abortTxn (core key gid cause code : Nat) (s : State) : State :=
  match (getSlot s key).txn with
  | none => s
  | some t => closeTxn core key gid (some t.abortPc) (some (fun w => txWord code (w.getLsbD 7) t.levels.length cause)) s

/-! ### The error log (R436) -/

/-- A new entry; the log keeps the last 4,096. -/
def logError (kind : UnitKind) (unit event pa : Nat) (s : State) : State :=
  let kindCode := match kind with | .core => 0 | .cluster => 1 | .home => 2 | .loop => 3 | .derrick => 4
  let l := s.mgmt.errlog ++ [{ pa := pa, count := 1, unit := unit, kind := kindCode, event := event, time := timer s, fresh := true }]
  { s with mgmt := { s.mgmt with errlog := l.drop (l.length - 4096) } }

/-! ### Taking a trap (R222, R224) and returning (R226) -/

/-- The raised causes: fibre, cause, TRAPVAL. -/
abbrev Raised := List (Nat × Nat × W64)

/-- The lowest cause, the fibres that raised it, and the value of the lowest lane (R224). -/
def pickCause (r : Raised) : Option (Nat × List Nat × W64) :=
  match leastBy (fun x => x.2.1) r with
  | none => none
  | some x =>
    let rs := r.filter (fun y => y.2.1 == x.2.1)
    some (x.2.1, rs.map (·.1), match leastBy (fun y => lane y.1) rs with | some y => y.2.2 | none => 0)

/-- Enter the handler: the one description of R222. `pc` is what TRAPPC holds; the wave's slot and gang are as in the state.
A release that had begun begins anew, and so does a QSWEEP. Poison that is consumed is logged (R436). -/
def enterHandler (e : Env) (cause : Nat) (async : Bool) (lanes : Word) (val pc : W64) (s0 : State) : State :=
  let s := dropSweeps e.gid (getSlot s0 e.key).fids (if cause = 14 then logError .core e.core 3 0 s0 else s0)
  let sl := getSlot s e.key
  let g := mapFibres (getGang s e.gid) (fun fid f => if sl.fids.contains fid then { f with relWait := none } else f)
  let s1 := setSlot (setGang s e.gid g) e.key { sl with
    trapcause := BitVec.ofNat 32 (cause + if async then 256 else 0), traplanes := lanes, trappc := pc, trapval := val,
    handler := some { k := [], kPoison := 0, preds := 1, predPoison := 0, pc := lineOf g.handlerBase, base := lineOf g.handlerBase,
                      lanes := laneMask sl.fids, trapped := lanes, items := [] } }
  if g.handlerBase = 0 then trapFailure { e with g := g } 33 s1 else s1

/-- An operation of an open window of the wave still runs, and its lane has not parked (R239). -/
def windowsRunning (e : Env) : Bool :=
  e.sl.fids.any (fun fid => let f := getFibre e.g fid; f.park == .no && f.windows.any (fun w => !w.done))

/-- Poison consumed in handler mode: a handler error, and the error log has its entry (R225, R436). -/
def poisonError (e : Env) (s : State) : Out := handlerError e (logError .core e.core 3 0 s)

/-- A synchronous trap: no effect for any lane of the wave. Inside a transaction it aborts first and TRAPPC holds the abort
label (R155); in handler mode it is a handler error (R225). Entry waits for the operations of the open windows (R239). -/
def takeTrap (e : Env) (r : Raised) (s : State) : Out :=
  match pickCause r with
  | none => .next s
  | some (cause, fids, val) =>
    if e.sl.handler.isSome then (if cause = 14 then poisonError e s else handlerError e s)
    else if windowsRunning e then .next s
    else
      match e.sl.txn with
      | none => .next (enterHandler e cause false (laneMask fids) val e.pc s)
      | some t => .next (enterHandler e cause false (laneMask fids) val t.abortPc (abortTxn e.core e.key e.gid 8 0 s))

/-- The lanes of a mask as fibres of the wave. -/
def lanesIn (m : Word) (fids : List Nat) : List Nat := fids.filter (fun f => m.getLsbD (lane f))

/-- The resume PC of a lane: the value last written to its PC item, or TRAPPC (R226). -/
def resumePc (h : Handler) (sl : Slot) (fid : Nat) : W64 := (kget? h.items (lane fid)).getD sl.trappc

/-- A lane in TRAPLANES with a changed resume PC is a handler error (R226). -/
def returnError (h : Handler) (sl : Slot) : Bool :=
  sl.fids.any (fun fid => sl.traplanes.getLsbD (lane fid) && resumePc h sl fid != sl.trappc)

/-- The return from a handler (R226): lanes in TRAPLANES and bystanders resume at TRAPPC, trapping lanes outside it park there,
and lanes with a changed PC leave their join sets and go on as separate fibres. -/
def returnFromHandler (core key : Nat) (h : Handler) (s : State) : State :=
  let sl := getSlot s key
  let gid := sl.gang
  let g := getGang s gid
  let moved := fun fid => resumePc h sl fid != sl.trappc
  let parks := fun fid => !moved fid && !sl.traplanes.getLsbD (lane fid) && h.trapped.getLsbD (lane fid)
  let stay := sl.fids.filter (fun fid => !moved fid && !parks fid)
  let g1 := mapFibres g (fun fid f => if sl.fids.contains fid then
      { f with pc := resumePc h sl fid, park := if parks fid then .handler else f.park } else f)
  let s1 := setGang (setSlot s key { sl with fids := stay, handler := none }) gid g1
  let s2 := (sl.fids.filter moved).foldl (fun s fid => toTable core gid [fid] .ready (leaveJoins gid fid s)) s1
  toTable core gid (sl.fids.filter parks) .parked s2

/-! ### Issue (R237 to R240, R146) -/

/-- Fibres that cannot go on yet. -/
def stuckFids (all : Bool) (e : Env) : List Nat := e.fids.filter (fun fid => mustWait all (getFibre e.g fid))

/-- Nothing issues; lanes parked on a fault leave the wave and the rest runs on (R219). The frozen wave of a handler, and that of an open
transaction, stay whole. -/
def splitParked (e : Env) (stuck : List Nat) (s : State) : State :=
  let ps := stuck.filter (fun fid => (getFibre e.g fid).park != .no)
  if ps.isEmpty || e.sl.txn.isSome || e.sl.handler.isSome then s
  else toTable e.core e.gid ps .parked (leaveSlot e.key ps s)

/-- The handler of a slot waits for its own access (R331, R240). -/
def scalarBusy (s : State) (key : Nat) : Bool := s.reqs.any (fun r => r.fid == 1024 && r.core * 32 + r.slot == key)

/-- The wave and the machine once the open windows of the wave's fibres, whose operations have completed, have closed (R240). -/
def closedEnv (e : Env) : Env := { e with g := mapFibres e.g (fun fid f => if e.fids.contains fid then closeWindows f else f) }
def closedState (e : Env) (s : State) : State := setGang s e.gid (closedEnv e).g

/-- The form of a meaning: what it does in handler mode (R225), and what it does for the executing fibres of a wave. -/
def issue (h : Hdr) (waits : Bool) (s : State) (scalar : Env → Handler → Out) (body : Env → List Nat → State → Out) : Out :=
  match envOf s with
  | none => .fault .notEnabled
  | some e =>
    match e.sl.handler with
    | some hd => if scalarBusy s e.key then .next s else scalar e hd
    | none =>
      match stuckFids waits e with
      | [] =>
        if waits then
          let e1 := closedEnv e
          body e1 (executing h e1) (closedState e s)
        else body e (executing h e) s
      | stuck => .next (splitParked e stuck s)

/-- An instruction that handler mode does not have (R225). -/
def noScalar (s : State) (e : Env) (_ : Handler) : Out := handlerError e s

/-! ### Register checks (R24) -/

/-- A register operand: its number and how many registers it names (1, 2 or 4). -/
abbrev RegUse := Nat × Nat

/-- The first operand that breaks R24, if any. -/
def badReg (win : Nat) : List RegUse → Option Nat
  | [] => none
  | (n, k) :: rest => if n % k ≠ 0 ∨ win ≤ n then some n else badReg win rest

/-- The traps of R24 among the executing fibres: cause ILLEGAL with the register number. -/
def regTraps (e : Env) (act : List Nat) (uses : List RegUse) : Raised :=
  act.filterMap (fun fid =>
    match badReg (getFibre e.g fid).win uses with
    | some n => some (fid, 2, BitVec.ofNat 64 n)
    | none => none)

/-- An instruction of R150 that some fibre executes inside a transaction aborts it; otherwise go on. -/
def forbidInTxn (e : Env) (act : List Nat) (s : State) (k : Out) : Out :=
  match e.sl.txn, act with
  | some _, _ :: _ => .next (abortTxn e.core e.key e.gid 6 0 s)
  | _, _ => k

/-- Raise the first non-empty list of traps, or go on. -/
def orTrap (e : Env) (r : Raised) (s : State) (k : Out) : Out :=
  match r with
  | [] => k
  | _ => takeTrap e r s

end Sys2Proof.Machine
end

