-- ==== Sys2Proof/Machine/Flags.lean ====
section
/-! DEFINITION. Sys2Proof/Machine/Flags.lean: FPMODE, the binary floating-point formats, and every rounding and flag rule of
chapter 3. A finite value is a sign, a natural `m` and an exponent `e`, meaning m·2^e; an inexact tail is jammed into the lowest
bit of an `m` that has more bits than any format keeps, so that one rounding of it is right. -/
namespace Sys2Proof.Machine

/-! ### FPMODE (R64) -/

def flNV : Word := 0x100
def flDZ : Word := 0x200
def flOF : Word := 0x400
def flUF : Word := 0x800
def flNX : Word := 0x1000
def flDZI : Word := 0x2000

/-- FPMODE.FTZ. -/
def ftzOn (fpmode : Word) : Bool := fpmode.getLsbD 3

/-- The rounding mode of an RM field: DYN takes FPMODE.RM (R63). -/
def rmOf (rm : BitVec 3) (fpmode : Word) : Nat := if rm = 7 then fpmode.toNat % 8 else rm.toNat

/-- The written FPMODE: reserved bits are zero, and RM keeps its value for 0b101 to 0b111 (R64). -/
def fpmodeWrite (old new : Word) : Word :=
  let m := new &&& 0x3F0F
  if new.toNat % 8 ≥ 5 then (m &&& ~~~7) ||| (old &&& 7) else m

/-! ### Formats and classes (R59) -/

/-- A floating-point format: exponent bits, fraction bits, bias; E4M3 has no infinity. -/
structure Fmt where
  eb : Nat
  fb : Nat
  bias : Nat
  e4m3 : Bool
  deriving DecidableEq, Repr

def fp64 : Fmt := { eb := 11, fb := 52, bias := 1023, e4m3 := false }
def fp32 : Fmt := { eb := 8, fb := 23, bias := 127, e4m3 := false }
def fp16 : Fmt := { eb := 5, fb := 10, bias := 15, e4m3 := false }
def bf16 : Fmt := { eb := 8, fb := 7, bias := 127, e4m3 := false }
def e4m3 : Fmt := { eb := 4, fb := 3, bias := 7, e4m3 := true }
def e5m2 : Fmt := { eb := 5, fb := 2, bias := 15, e4m3 := false }

/-- The format of a floating-point type. -/
def fmtOf : Ty → Fmt
  | .f64 => fp64
  | .f16 => fp16
  | .bf16 => bf16
  | .e4m3 => e4m3
  | .e5m2 => e5m2
  | _ => fp32

/-- FP8 formats follow R67, and an FP8 operand is never flushed (R65). -/
def isFp8 (f : Fmt) : Bool := f.fb ≤ 3

inductive Cls where
  | nan (signalling : Bool)
  | inf (neg : Bool)
  | zero (neg : Bool)
  | fin (neg : Bool) (m : Nat) (e : Int)
  deriving DecidableEq, Repr

def expOnes (f : Fmt) : Nat := 2 ^ f.eb - 1
def signBit (f : Fmt) (neg : Bool) : Nat := if neg then 2 ^ (f.eb + f.fb) else 0

/-- The value of an encoding (R59: exact). -/
def classify (f : Fmt) (bits : Nat) : Cls :=
  let neg := bits / 2 ^ (f.eb + f.fb) % 2 == 1
  let ex := bits / 2 ^ f.fb % 2 ^ f.eb
  let fr := bits % 2 ^ f.fb
  if f.e4m3 then
    if ex == 15 && fr == 7 then .nan false
    else if ex == 0 then (if fr == 0 then .zero neg else .fin neg fr (1 - (f.bias : Int) - f.fb))
    else .fin neg (2 ^ f.fb + fr) ((ex : Int) - f.bias - f.fb)
  else if ex == expOnes f then (if fr == 0 then .inf neg else .nan (fr / 2 ^ (f.fb - 1) == 0))
  else if ex == 0 then (if fr == 0 then .zero neg else .fin neg fr (1 - (f.bias : Int) - f.fb))
  else .fin neg (2 ^ f.fb + fr) ((ex : Int) - f.bias - f.fb)

/-- A subnormal encoding: exponent field zero, fraction not. -/
def isSub (f : Fmt) (bits : Nat) : Bool := bits / 2 ^ f.fb % 2 ^ f.eb == 0 && bits % 2 ^ f.fb != 0

/-- R65: a subnormal operand reads as a zero of its sign. -/
def ftzIn (ftz : Bool) (f : Fmt) (bits : Nat) : Cls :=
  if ftz && !isFp8 f && isSub f bits then .zero (bits / 2 ^ (f.eb + f.fb) % 2 == 1) else classify f bits

def canonNan (f : Fmt) : Nat := if f.e4m3 then 0x7F else expOnes f * 2 ^ f.fb + 2 ^ (f.fb - 1)
def infBits (f : Fmt) (neg : Bool) : Nat := signBit f neg + expOnes f * 2 ^ f.fb
def largest (f : Fmt) (neg : Bool) : Nat :=
  signBit f neg + if f.e4m3 then 0x7E else (expOnes f - 1) * 2 ^ f.fb + (2 ^ f.fb - 1)

/-! ### Rounding (R63) -/

/-- m·2^-sh as an integer under a mode, and whether it was inexact. -/
def roundAt (mode : Nat) (neg : Bool) (m sh : Nat) : Nat × Bool :=
  let n := m / 2 ^ sh
  let r := m % 2 ^ sh
  let up := match mode with
    | 0 => decide (2 ^ sh < 2 * r) || (decide (2 * r = 2 ^ sh) && n % 2 == 1)
    | 1 => false
    | 2 => !neg && r != 0
    | 3 => neg && r != 0
    | _ => decide (2 ^ sh ≤ 2 * r)
  if r = 0 then (n, false) else (if up then n + 1 else n, true)

/-- What one rounding to the format's precision gives, with no bound on the exponent above: units `n` of 2^q, inexact, tiny after
rounding (DEDUCED log 19). -/
def roundUnits (f : Fmt) (mode : Nat) (neg : Bool) (m : Nat) (e : Int) : Nat × Int × Bool × Bool :=
  let emsb : Int := e + Nat.log2 m
  let emin : Int := 1 - f.bias
  let q : Int := max emsb emin - f.fb
  let d : Int := q - e
  let (n, x) := if d ≤ 0 then (m * 2 ^ (-d).toNat, false) else roundAt mode neg m d.toNat
  let d0 : Int := emsb - f.fb - e
  let tiny := if emin ≤ emsb then false
    else if emsb < emin - 1 then true
    else (if d0 ≤ 0 then m * 2 ^ (-d0).toNat else (roundAt mode neg m d0.toNat).1) != 2 ^ (f.fb + 1)
  if n = 2 ^ (f.fb + 1) then (2 ^ f.fb, q + 1, x, tiny) else (n, q, x, tiny)

/-- The encoding of n·2^q when it is in range; the second answer says the magnitude is above the largest finite value. -/
def packUnits (f : Fmt) (neg : Bool) (n : Nat) (q : Int) : Nat × Bool :=
  if n < 2 ^ f.fb then (signBit f neg + n, false) else
  let ex := (q + f.fb + f.bias).toNat
  let big := if f.e4m3 then decide (15 < ex) || (ex == 15 && n - 2 ^ f.fb == 7) else decide (expOnes f ≤ ex)
  (signBit f neg + ex * 2 ^ f.fb + (n - 2 ^ f.fb), big)

/-- Overflow to infinity or to the largest finite value, by mode (R63). -/
def overflow (f : Fmt) (mode : Nat) (neg : Bool) : Nat :=
  let toInf := match mode with
    | 1 => false
    | 2 => !neg
    | 3 => neg
    | _ => true
  if toInf then infBits f neg else largest f neg

/-- The magnitude m·2^e is above lm·2^le. -/
def above (m : Nat) (e : Int) (lm : Nat) (le : Int) : Bool :=
  if le ≤ e then decide (lm < m * 2 ^ (e - le).toNat) else decide (lm * 2 ^ (le - e).toNat < m)

/-- The exact magnitude m/den·2^e exceeds the largest finite value of a format (OF of R64, SAT of R185). -/
def exceeds (f : Fmt) (m den : Nat) (e : Int) : Bool :=
  match classify f (largest f false) with
  | .fin _ lm le => above m e (lm * den) le
  | _ => false

/-- A finite non-zero exact value rounded into FP64, FP32, FP16 or BF16 with its flags (R63 to R65). OF is a matter of the exact value:
one that exceeds the largest finite value and rounds to it sets OF too (R64, DEDUCED log 120). -/
def roundFin (f : Fmt) (mode : Nat) (ftz neg : Bool) (m : Nat) (e : Int) : Nat × Word :=
  let (n, q, x, tiny) := roundUnits f mode neg m e
  let (bits, big) := packUnits f neg n q
  if big then (overflow f mode neg, flOF ||| flNX)
  else if ftz && n < 2 ^ f.fb && n != 0 then (signBit f neg, flUF ||| flNX)
  else (bits, (if x then flNX else 0) ||| (if x && tiny then flUF else 0) ||| (if exceeds f m 1 e then flOF else 0))

/-- A finite non-zero exact value into FP8 (R67). A value that the mode rounds back to the largest finite one keeps it, and only NX is set
(DESIGN CHOICE log 136). -/
def roundFp8 (f : Fmt) (nan : Bool) (mode : Nat) (neg : Bool) (m : Nat) (e : Int) : Nat × Word :=
  let (n, q, x, tiny) := roundUnits f mode neg m e
  let (bits, big) := packUnits f neg n q
  if big then (if nan then canonNan f else largest f neg, flOF ||| flNX)
  else (bits, (if x then flNX else 0) ||| (if x && tiny then flUF else 0))

/-- A class rounded into a format (R74: to_fmt for floating-point targets). -/
def finish (f : Fmt) (nan : Bool) (mode : Nat) (ftz : Bool) : Cls → Nat × Word
  | .nan _ => (canonNan f, 0)
  | .inf neg =>
    if isFp8 f then
      if nan then (if f.e4m3 then (canonNan f, flNV) else (infBits f neg, 0)) else (largest f neg, flOF ||| flNX)
    else (infBits f neg, 0)
  | .zero neg => (signBit f neg, 0)
  | .fin neg m e => if isFp8 f then roundFp8 f nan mode neg m e else roundFin f mode ftz neg m e

/-! ### Exact arithmetic on classes -/

/-- A signed finite value as an integer at exponent `e0`, at most its own exponent. -/
def atExp (neg : Bool) (m : Nat) (e e0 : Int) : Int :=
  let v : Int := (m * 2 ^ (e - e0).toNat : Nat)
  if neg then -v else v

def ofInt (v : Int) (e : Int) (z : Bool) : Cls := if v = 0 then .zero z else .fin (v < 0) v.natAbs e

def isSnan : Cls → Bool
  | .nan s => s
  | _ => false
def isNan : Cls → Bool
  | .nan _ => true
  | _ => false
def negOf : Cls → Bool
  | .nan _ => false
  | .inf n => n
  | .zero n => n
  | .fin n _ _ => n
def negCls : Cls → Cls
  | .nan s => .nan s
  | .inf n => .inf (!n)
  | .zero n => .zero (!n)
  | .fin n m e => .fin (!n) m e

/-- The exact sum (R62 for zeros); the second answer is an invalid operation. -/
def addCls (mode : Nat) : Cls → Cls → Cls × Bool
  | .nan _, _ => (.nan false, false)
  | _, .nan _ => (.nan false, false)
  | .inf a, .inf b => if a = b then (.inf a, false) else (.nan false, true)
  | .inf a, _ => (.inf a, false)
  | _, .inf b => (.inf b, false)
  | .zero a, .zero b => (.zero (if a = b then a else mode == 3), false)
  | .zero _, .fin n m e => (.fin n m e, false)
  | .fin n m e, .zero _ => (.fin n m e, false)
  | .fin n m e, .fin n' m' e' =>
    let e0 := min e e'
    (ofInt (atExp n m e e0 + atExp n' m' e' e0) e0 (mode == 3), false)

/-- The exact product. -/
def mulCls : Cls → Cls → Cls × Bool
  | .nan _, _ => (.nan false, false)
  | _, .nan _ => (.nan false, false)
  | .inf _, .zero _ => (.nan false, true)
  | .zero _, .inf _ => (.nan false, true)
  | .inf a, y => (.inf (a != negOf y), false)
  | x, .inf b => (.inf (negOf x != b), false)
  | .zero a, y => (.zero (a != negOf y), false)
  | x, .zero b => (.zero (negOf x != b), false)
  | .fin n m e, .fin n' m' e' => (.fin (n != n') (m * m') (e + e'), false)

/-- A rational num/den·2^e with its tail jammed, to at least 70 significant bits more than any format keeps. -/
def quotient (neg : Bool) (num den : Nat) (e : Int) : Cls :=
  if num = 0 then .zero neg else
  let k := 130 + Nat.log2 den
  let n := num * 2 ^ k
  .fin neg (2 * (n / den) + if n % den = 0 then 0 else 1) (e - k - 1)

/-- The quotient with its flags (R280). -/
def divCls : Cls → Cls → Cls × Word
  | .nan _, _ => (.nan false, 0)
  | _, .nan _ => (.nan false, 0)
  | .inf _, .inf _ => (.nan false, flNV)
  | .zero _, .zero _ => (.nan false, flNV)
  | .inf a, y => (.inf (a != negOf y), 0)
  | x, .inf b => (.zero (negOf x != b), 0)
  | .zero a, y => (.zero (a != negOf y), 0)
  | .fin n _ _, .zero b => (.inf (n != b), flDZ)
  | .fin n m e, .fin n' m' e' => (quotient (n != n') m m' (e - e'), 0)

/-- The integer square root, by bits from 2^k downward. -/
def isqrtLoop : Nat → Nat → Nat → Nat
  | 0, _, r => r
  | k + 1, n, r => if (r + 2 ^ k) * (r + 2 ^ k) ≤ n then isqrtLoop k n (r + 2 ^ k) else isqrtLoop k n r
def isqrt (n : Nat) : Nat := isqrtLoop (Nat.log2 n / 2 + 1) n 0

/-- √(num/den·2^e), jammed. -/
def rootOf (num den : Nat) (e : Int) : Cls :=
  let k := 260 + 2 * Nat.log2 den
  let odd := (e - k) % 2
  let n := num * 2 ^ k * (if odd = 0 then 1 else 2)
  let e' := (e - k - odd) / 2
  let t := n / den
  let r := isqrt t
  .fin false (2 * r + if r * r * den = n then 0 else 1) (e' - 1)

/-- √a with its flags (R280). -/
def sqrtCls : Cls → Cls × Word
  | .nan _ => (.nan false, 0)
  | .inf n => if n then (.nan false, flNV) else (.inf false, 0)
  | .zero n => (.zero n, 0)
  | .fin n m e => if n then (.nan false, flNV) else (rootOf m 1 e, 0)

/-- 1/√a (R280). -/
def rsqCls : Cls → Cls × Word
  | .nan _ => (.nan false, 0)
  | .inf n => if n then (.nan false, flNV) else (.zero false, 0)
  | .zero n => (.inf n, flDZ)
  | .fin n m e => if n then (.nan false, flNV) else (rootOf 1 m (-e), 0)

/-- 1/a (R280). -/
def rcpCls : Cls → Cls × Word
  | .nan _ => (.nan false, 0)
  | .inf n => (.zero n, 0)
  | .zero n => (.inf n, flDZ)
  | .fin n m e => (quotient n 1 m (-e), 0)

/-- ⌊ln 2 · 2^256⌋. -/
def ln2 : Nat := 0xb17217f7d1cf79abc9e3b39803f2f6af40f343267298b62d8a0d175b8baafa2b

/-- Σ y^k/k! in 256-bit fixed point: `n` further terms after the term `t` of number `k`. -/
def expSeries : Nat → Nat → Nat → Nat → Nat → Nat
  | 0, _, _, _, acc => acc
  | n + 1, k, t, y, acc =>
    let t' := t * y / 2 ^ 256 / (k + 1)
    expSeries n (k + 1) t' y (acc + t')

/-- 2^a, correctly rounded once by its caller: the tail of an inexact value is jammed (R280, DEDUCED log 20). -/
def exp2Cls : Cls → Cls × Word
  | .nan _ => (.nan false, 0)
  | .inf n => (if n then .zero false else .inf false, 0)
  | .zero _ => (.fin false 1 0, 0)
  | .fin n m e =>
    if 8 ≤ e + Nat.log2 m then (if n then .fin false 3 (-400) else .fin false 3 400, 0) else
    let fx : Int := atExp n m e (-256)   -- exact: every FP32 exponent is at least -149
    let i := fx / 2 ^ 256
    let fr := (fx % 2 ^ 256).toNat
    if fr = 0 then (.fin false 1 i, 0)
    else (.fin false (2 * expSeries 60 0 (2 ^ 256) (fr * ln2 / 2 ^ 256) (2 ^ 256) + 1) (i - 257), 0)

/-- Bits of log2 of a value in [1, 2), in 400-bit fixed point, by squaring. -/
def logBits : Nat → Nat → Nat → Nat
  | 0, _, acc => acc
  | n + 1, t, acc =>
    let t2 := t * t / 2 ^ 400
    if 2 ^ 401 ≤ t2 then logBits n (t2 / 2) (2 * acc + 1) else logBits n t2 (2 * acc)

/-- log2 a (R280, DEDUCED log 20). -/
def log2Cls : Cls → Cls × Word
  | .nan _ => (.nan false, 0)
  | .inf n => if n then (.nan false, flNV) else (.inf false, 0)
  | .zero _ => (.inf true, flDZ)
  | .fin n m e =>
    if n then (.nan false, flNV) else
    let l := Nat.log2 m
    let k : Int := e + l
    if m = 2 ^ l then (ofInt k 0 false, 0) else
    let t : Int := k * 2 ^ 160 + (logBits 160 (m * 2 ^ (400 - l)) 0 : Nat)
    (if 0 ≤ t then .fin false (2 * t.toNat + 1) (-161) else .fin true (2 * t.natAbs - 1) (-161), 0)

/-! ### Comparison and choice (R61, R277, R278) -/

/-- Order of two values that are not NaN; zeros are equal. -/
def cmpCls (x y : Cls) : Ordering :=
  match x, y with
  | .inf a, .inf b => if a = b then .eq else if a then .lt else .gt
  | .inf a, _ => if a then .lt else .gt
  | _, .inf b => if b then .gt else .lt
  | _, _ =>
    let val := fun c e0 => match c with | .fin n m e => atExp n m e e0 | _ => 0
    let ex := fun (c : Cls) => match c with | .fin _ _ e => some e | _ => none
    let e0 := match ex x, ex y with
      | some a, some b => min a b
      | some a, none => a
      | none, some b => b
      | none, none => 0
    compare (val x e0) (val y e0)

/-- minimumNumber or maximumNumber: −0 below +0; the other operand of one NaN (R61). -/
def minMax (isMax : Bool) (x y : Cls) : Cls :=
  match x, y with
  | .nan _, .nan _ => .nan false
  | .nan _, _ => y
  | _, .nan _ => x
  | _, _ =>
    let xLess := match cmpCls x y with
      | .lt => true
      | .gt => false
      | .eq => negOf x || !negOf y
    if xLess != isMax then x else y

/-- The compare conditions of R278, with NV. -/
def fcmpCond (c : Nat) (x y : Cls) : Bool × Word :=
  let un := isNan x || isNan y
  let o := cmpCls x y
  let nv := isSnan x || isSnan y || (un && decide (2 ≤ c) && decide (c ≤ 5))
  let r := match c with
    | 0 => !un && o == .eq
    | 1 => un || o != .eq
    | 2 => !un && o == .lt
    | 3 => !un && o != .gt
    | 4 => !un && o == .gt
    | 5 => !un && o != .lt
    | 6 => un
    | _ => !un
  (r, if nv then flNV else 0)

/-- The class mask of R279. -/
def classMask (f : Fmt) (bits : Nat) : Nat :=
  match classify f bits with
  | .nan s => if s then 0x100 else 0x200
  | .inf n => if n then 1 else 0x80
  | .zero n => if n then 8 else 0x10
  | .fin n _ _ => match n, isSub f bits with
    | true, false => 2
    | true, true => 4
    | false, true => 0x20
    | false, false => 0x40

def nvIf (b : Bool) : Word := if b then flNV else 0

/-- One addition, product or fused sum in a format (R276). -/
def addBits (f : Fmt) (mode : Nat) (ftz : Bool) (x y : Cls) : Nat × Word :=
  let r := addCls mode x y
  let o := finish f false mode ftz r.1
  (o.1, o.2 ||| nvIf (isSnan x || isSnan y || r.2))
def mulBits (f : Fmt) (mode : Nat) (ftz : Bool) (x y : Cls) : Nat × Word :=
  let r := mulCls x y
  let o := finish f false mode ftz r.1
  (o.1, o.2 ||| nvIf (isSnan x || isSnan y || r.2))
def fmaBits (f : Fmt) (mode : Nat) (ftz : Bool) (x y z : Cls) : Nat × Word :=
  let p := mulCls x y
  let r := addCls mode p.1 z
  let o := finish f false mode ftz r.1
  (o.1, o.2 ||| nvIf (isSnan x || isSnan y || isSnan z || p.2 || r.2))

/-- A function of one or two classes with its own flags, rounded once. -/
def roundRes (f : Fmt) (mode : Nat) (ftz : Bool) (sn : Bool) (r : Cls × Word) : Nat × Word :=
  let o := finish f false mode ftz r.1
  (o.1, o.2 ||| r.2 ||| nvIf sn)

/-- FRND (R281). -/
def frndBits (f : Fmt) (mode : Nat) (x : Cls) : Nat × Word :=
  match x with
  | .fin n m e =>
    if 0 ≤ e then finish f false mode false x
    else
      let r := (roundAt mode n m (-e).toNat).1
      ((if r = 0 then signBit f n else (finish f false 1 false (.fin n r 0)).1), 0)
  | _ => ((finish f false mode false x).1, nvIf (isSnan x))

/-- A float to an integer type (R284). -/
def floatToInt (signed : Bool) (w mode : Nat) (x : Cls) : Nat × Word :=
  let hi : Int := if signed then 2 ^ (w - 1) - 1 else 2 ^ w - 1
  let lo : Int := if signed then -(2 ^ (w - 1)) else 0
  match x with
  | .nan _ => (0, flNV)
  | .inf n => (wrapInt (if n then lo else hi) w, flNV)
  | .zero _ => (0, 0)
  | .fin n m e =>
    let r := if 0 ≤ e then (m * 2 ^ e.toNat, false) else roundAt mode n m (-e).toNat
    let v : Int := if n then -(r.1 : Int) else r.1
    if hi < v then (wrapInt hi w, flNV) else if v < lo then (wrapInt lo w, flNV)
    else (wrapInt v w, if r.2 then flNX else 0)

/-- An exact integer into a float format (R284). -/
def intToFloat (f : Fmt) (nan : Bool) (mode : Nat) (ftz : Bool) (v : Int) : Nat × Word := finish f nan mode ftz (ofInt v 0 false)

/-- A float into another float format (R284). -/
def floatToFloat (f : Fmt) (nan : Bool) (mode : Nat) (ftz : Bool) (x : Cls) : Nat × Word :=
  let o := finish f nan mode ftz x
  (o.1, o.2 ||| nvIf (isSnan x))

end Sys2Proof.Machine
end

