-- ==== Sys2Proof/Machine/Operands.lean ====
section
/-! DEFINITION. Sys2Proof/Machine/Operands.lean: every operand form of formats 0 and 1, read from a fibre or, in handler mode, from
the k-registers (R241, R244, R254, R255, R270, R271), and the one executor of the instructions that only compute. -/
namespace Sys2Proof.Machine

/-- A source operand. -/
inductive Src where
  /-- One register, zero-extended; in handler mode the low 32 bits of a k-register. -/
  | reg (n : Nat)
  /-- An even-odd pair; in handler mode one k-register. -/
  | pair (n : Nat)
  | quad (n : Nat)
  | pred (n : Nat)
  /-- The predicate word as `pmov vD, pw` forms it (R269). -/
  | predWord
  | imm (v : W64)
  deriving DecidableEq, Repr

/-- A destination. -/
inductive Dst where
  | reg (n : Nat)
  | pair (n : Nat)
  | quad (n : Nat)
  | pred (n : Nat)
  /-- p1 to p15 (R269, PMOV MOD 2). -/
  | predWord
  deriving DecidableEq, Repr

/-- Registers a source or a destination names, for R24. -/
def srcUse : Src → List RegUse
  | .reg n => [(n, 1)]
  | .pair n => [(n, 2)]
  | .quad n => [(n, 4)]
  | _ => []
def dstUse : Dst → List RegUse
  | .reg n => [(n, 1)]
  | .pair n => [(n, 2)]
  | .quad n => [(n, 4)]
  | _ => []

/-- What a computation answers: the value (extended to 64 bits for a register), the flags it raises, and its poison. -/
structure Res where
  val : Quad
  flags : Word
  poison : Bool
  deriving DecidableEq, Repr

/-- A computation: FPMODE at issue, and the sources with their poison. -/
abbrev AluFn := Word → List (Quad × Bool) → Res

/-- An instruction that only computes. -/
structure AluSpec where
  h : Hdr
  /-- Long-latency (R251). -/
  ll : Bool
  srcs : List Src
  dst : Dst
  fn : AluFn
  /-- Handler mode has it (R225). -/
  scalar : Bool

def predWordOf (preds : BitVec 16) : Quad := ((preds ||| 1).zeroExtend 128)

/-- A source in a fibre. -/
def readSrc (f : Fibre) : Src → Quad × Bool
  | .reg n => ((readReg f n).1.zeroExtend 128, (readReg f n).2)
  | .pair n => ((readPair f n).1.zeroExtend 128, (readPair f n).2)
  | .quad n => readQuad f n
  | .pred n => ((BitVec.ofBool (readPred f n).1).zeroExtend 128, (readPred f n).2)
  | .predWord => (predWordOf f.preds, decide (f.predPoison &&& 0xFFFE ≠ 0))
  | .imm v => (v.zeroExtend 128, false)

/-- Writes of the predicate word: p1 to p15 with one poison (R269). -/
def predWordWr (v : Quad) (p : Bool) : List (Nat × Bool × Bool) :=
  (List.range 15).map (fun i => (i + 1, v.getLsbD (i + 1), p))

/-- A result as the writes of its destination. -/
def dstWr (d : Dst) (r : Res) : Wr :=
  match d with
  | .reg n => { regs := [(n, r.val.truncate 32, r.poison)], preds := [], flags := r.flags }
  | .pair n => { regs := pairWr n (r.val.truncate 64) r.poison, preds := [], flags := r.flags }
  | .quad n => { regs := quadWr n r.val r.poison, preds := [], flags := r.flags }
  | .pred n => { regs := [], preds := [(n, r.val.getLsbD 0, r.poison)], flags := r.flags }
  | .predWord => { regs := [], preds := predWordWr r.val r.poison, flags := r.flags }

/-- A poisoned guard poisons everything the fibre writes (R256). -/
def taint (p : Bool) (w : Wr) : Wr :=
  if p then { w with regs := w.regs.map (fun e => (e.1, e.2.1, true)), preds := w.preds.map (fun e => (e.1, e.2.1, true)) } else w

/-- What the instruction writes in one fibre. FPMODE is read at issue, FTZ as well as RM, also by a long-latency instruction
(R63, R65, DESIGN CHOICE log 122). -/
def aluWr (sp : AluSpec) (f : Fibre) : Wr :=
  taint (guard sp.h f).2 (dstWr sp.dst (sp.fn f.fpmode (sp.srcs.map (readSrc f))))

def aluUses (sp : AluSpec) : List RegUse := dstUse sp.dst ++ (sp.srcs.map srcUse).flatten

/-- A new window holding what an instruction will write (R239). -/
def newWindow (id la : Nat) (w : Wr) (ext : Bool) : Window :=
  { id := id, left := la, regs := w.regs, preds := w.preds, flags := w.flags, done := false, ext := ext }

/-- Retire a computing instruction: at once, or through a window when it is long-latency. -/
def retireWr (h : Hdr) (ll : Bool) (e : Env) (u : Nat) (act : List Nat) (wr : Nat → Wr) (s : State) : State :=
  if ll then
    retire e u (fun _ => Wr.none)
      (fun fid => if act.contains fid then some (newWindow s.ids h.la.toNat (wr fid) false) else none)
      (fun _ => nextPc e.pc) { s with ids := s.ids + 1 }
  else retire e u (fun fid => if act.contains fid then wr fid else Wr.none) (fun _ => none) (fun _ => nextPc e.pc) s

/-! ### Handler mode (R225, R270, R271) -/

/-- A source among the k-registers and handler predicates. -/
def readSrcK (h : Handler) : Src → Quad × Bool
  | .reg n => ((kget h.k n 0).zeroExtend 128 &&& 0xFFFFFFFF, h.kPoison.getLsbD n)
  | .pair n => ((kget h.k n 0).zeroExtend 128, h.kPoison.getLsbD n)
  | .quad n => ((kget h.k n 0).zeroExtend 128, h.kPoison.getLsbD n)
  | .pred n => if n = 0 then (1, false) else ((BitVec.ofBool (h.preds.getLsbD n)).zeroExtend 128, h.predPoison.getLsbD n)
  | .predWord => (predWordOf h.preds, decide (h.predPoison &&& 0xFFFE ≠ 0))
  | .imm v => (v.zeroExtend 128, false)

def writeK (h : Handler) (n : Nat) (v : W64) (p : Bool) : Handler := { h with k := kset h.k n v, kPoison := setBit h.kPoison n p }
def writeKPred (h : Handler) (n : Nat) (v p : Bool) : Handler :=
  if n = 0 then h else { h with preds := setBit h.preds n v, predPoison := setBit h.predPoison n p }

/-- A result into a k-register (all 64 bits) or the handler predicates. -/
def writeDstK (h : Handler) (d : Dst) (v : Quad) (p : Bool) : Handler :=
  match d with
  | .reg n => writeK h n (v.truncate 64) p
  | .pair n => writeK h n (v.truncate 64) p
  | .quad n => writeK h n (v.truncate 64) p
  | .pred n => writeKPred h n (v.getLsbD 0) p
  | .predWord => (predWordWr v p).foldl (fun h e => writeKPred h e.1 e.2.1 e.2.2) h

/-- The guard of a handler instruction (R271). -/
def guardK (hd : Hdr) (h : Handler) : Bool × Bool :=
  let p := readSrcK h (.pred hd.gp.toNat)
  (p.1.getLsbD 0 != hd.gn, p.2)

/-- The handler goes on at a PC. -/
def handlerAt (e : Env) (h : Handler) (pc : W64) (s : State) : State :=
  setSlot s e.key { getSlot s e.key with handler := some { h with pc := pc } }

/-- The handler goes on at the next slot. -/
def handlerNext (e : Env) (h : Handler) (s : State) : State := handlerAt e h (nextPc h.pc) s

/-- A k-register field above 15 is a handler error (R241). -/
def badK (uses : List RegUse) : Bool := uses.any (fun u => decide (16 ≤ u.1))

/-- A computing instruction on the scalar unit. -/
def aluScalar (sp : AluSpec) (s : State) (e : Env) (h : Handler) : Out :=
  if !sp.scalar then handlerError e s
  else if badK (aluUses sp) then handlerError e s
  else
    let g := guardK sp.h h
    if g.1 then
      let r := sp.fn 0 (sp.srcs.map (readSrcK h))
      .next (handlerNext e (writeDstK h sp.dst r.val (r.poison || g.2)) s)
    else .next (handlerNext e h s)

/-- The one executor of computing instructions: R24, then the computation in every executing fibre. -/
def execAlu (sp : AluSpec) (s : State) : Out :=
  issue sp.h false s (aluScalar sp s) (fun e act s =>
    orTrap e (regTraps e act (aluUses sp)) s
      (.next (retireWr sp.h sp.ll e 0 act (fun fid => aluWr sp (getFibre e.g fid)) s)))

/-! ### Operands by type -/

/-- A register operand of a type: a pair for 64-bit types. -/
def tySrc (t : Ty) (n : Reg) : Src := if t.bits = 64 then .pair n.toNat else .reg n.toNat
def tyDst (t : Ty) (n : Reg) : Dst := if t.bits = 64 then .pair n.toNat else .reg n.toNat

/-- The immediate read at a type (R244): sign-extended for .i64, zero-extended otherwise. -/
def immAt (t : Ty) (imm : Word) : W64 := if t = .i64 then imm.signExtend 64 else imm.zeroExtend 64

/-- The `i`-th source as a number. -/
def arg (l : List (Quad × Bool)) (i : Nat) : Nat := (l.getD i (0, false)).1.toNat
def argPoison (l : List (Quad × Bool)) : Bool := l.any (·.2)

/-- A computation on numbers whose poison is that of any source (R256, R274). -/
def strict (fn : Word → List (Quad × Bool) → Nat × Word) : AluFn := fun m l =>
  let r := fn m l
  { val := BitVec.ofNat 128 r.1, flags := r.2, poison := argPoison l }

end Sys2Proof.Machine
end

