-- ==== Sys2Proof/Machine/Int.lean ====
section
/-! DEFINITION. Sys2Proof/Machine/Int.lean: integer, address and predicate instructions (chapter 12). -/
namespace Sys2Proof.Machine

/-! ### Shared shapes -/

/-- get(X) of R255. -/
def getTy (t : Ty) (n : Nat) : Int := asInt t.signed t.bits n
/-- put(D, x) of R255: wrapped, then extended under R56 (R270 in handler mode). -/
def putTy (t : Ty) (x : Int) : Nat := (ext64 t.signed t.bits (wrapInt x t.bits)).toNat

/-- Sources A and B at the type, result at the type. -/
def intBin (h : Hdr) (t : Ty) (d a : Reg) (b : Src) (op : Int → Int → Int) : AluSpec :=
  { h := h, ll := false, srcs := [tySrc t a, b], dst := tyDst t d, scalar := true
    fn := strict (fun _ l => (putTy t (op (getTy t (arg l 0)) (getTy t (arg l 1))), 0)) }

/-- Source A at the type and a 32-bit count or descriptor. -/
def intCount (h : Hdr) (t : Ty) (d a : Reg) (b : Src) (op : Nat → Nat → Nat → Int) : AluSpec :=
  { h := h, ll := false, srcs := [tySrc t a, b], dst := tyDst t d, scalar := true
    fn := strict (fun _ l => (putTy t (op t.bits (arg l 0 % 2 ^ t.bits) (arg l 1 % 2 ^ 32)), 0)) }

/-- A bitwise operation at the type's width (R261). -/
def intLogic (h : Hdr) (t : Ty) (d a : Reg) (b : Src) (op : Nat → Nat → Nat → Nat) : AluSpec :=
  { h := h, ll := false, srcs := [tySrc t a, b], dst := tyDst t d, scalar := true
    fn := strict (fun _ l => (putTy t (op t.bits (arg l 0 % 2 ^ t.bits) (arg l 1 % 2 ^ t.bits) : Nat), 0)) }

/-- Source A at the type, result at the type. -/
def intUn (h : Hdr) (t : Ty) (d a : Reg) (op : Nat → Nat → Int) : AluSpec :=
  { h := h, ll := false, srcs := [tySrc t a], dst := tyDst t d, scalar := true
    fn := strict (fun _ l => (putTy t (op t.bits (arg l 0 % 2 ^ t.bits)), 0)) }

/-- Source A at the type, a 32-bit count in one register. -/
def intCnt (h : Hdr) (t : Ty) (d a : Reg) (op : Nat → Nat → Nat) : AluSpec :=
  { h := h, ll := false, srcs := [tySrc t a], dst := .reg d.toNat, scalar := true
    fn := strict (fun _ l => (op t.bits (arg l 0 % 2 ^ t.bits), 0)) }

/-- Three sources. -/
def intTri (h : Hdr) (t : Ty) (d a b : Reg) (c : Src) (op : Int → Int → Int → Int) : AluSpec :=
  { h := h, ll := false, srcs := [tySrc t a, tySrc t b, c], dst := tyDst t d, scalar := true
    fn := strict (fun _ l => (putTy t (op (getTy t (arg l 0)) (getTy t (arg l 1)) (getTy t (arg l 2))), 0)) }

def immSrc (f : F1) : Src := .imm (immAt f.ty f.imm)
/-- The 32 bits of the immediate as given (R254). -/
def rawImm (f : F1) : Src := .imm (f.imm.zeroExtend 64)

/-! ### Arithmetic (R257 to R260) -/

/-- The high half of the exact product. -/
def mulHigh (t : Ty) (a b : Int) : Int := a * b / 2 ^ t.bits

/-- Quotient truncated toward zero, by R57; DZI on a zero divisor. -/
def divide (t : Ty) (a b : Int) : Nat × Word := if b = 0 then (putTy t (-1), flDZI) else (putTy t (Int.tdiv a b), 0)
/-- Remainder with the sign of the dividend, by R57. -/
def remainder (t : Ty) (a b : Int) : Nat × Word := if b = 0 then (putTy t a, flDZI) else (putTy t (Int.tmod a b), 0)

def divSpec (f : F0) (op : Ty → Int → Int → Nat × Word) : AluSpec :=
  { h := f.h, ll := true, srcs := [tySrc f.ty f.a, tySrc f.ty f.b], dst := tyDst f.ty f.d, scalar := true
    fn := strict (fun _ l => op f.ty (getTy f.ty (arg l 0)) (getTy f.ty (arg l 1))) }

/-- The four byte products of IDOT4 over an accumulator (R260). -/
def dot4 (signed : Bool) (a b c : Nat) : Int :=
  (List.range 4).foldl (fun acc i => acc + asInt signed 8 (a / 2 ^ (8 * i)) * asInt signed 8 (b / 2 ^ (8 * i))) (c : Int)

def dotSpec (h : Hdr) (t : Ty) (d a b : Reg) (c : Src) : AluSpec :=
  { h := h, ll := false, srcs := [.reg a.toNat, .reg b.toNat, c], dst := .reg d.toNat, scalar := true
    fn := strict (fun _ l => ((ext64 t.signed 32 (wrapInt (dot4 t.signed (arg l 0) (arg l 1) (arg l 2)) 32)).toNat, 0)) }

/-! ### Shifts and bit fields (R262, R263) -/

def shlOp (w a n : Nat) : Int := (a * 2 ^ (n % w) : Nat)
def shrOp (w a n : Nat) : Int := (a / 2 ^ (n % w) : Nat)
def sarOp (w a n : Nat) : Int := asInt true w a / (2 ^ (n % w) : Int)
def rolOp (w a n : Nat) : Int := (a * 2 ^ (n % w) + a / 2 ^ (w - n % w) : Nat)
def rorOp (w a n : Nat) : Int := (a / 2 ^ (n % w) + a * 2 ^ (w - n % w) : Nat)

/-- Position and effective length of a field descriptor (R263). -/
def fieldPos (desc : Nat) : Nat := desc % 256
def fieldLen (w desc : Nat) : Nat := if fieldPos desc < w then min (desc / 256 % 256) (w - fieldPos desc) else 0

def bfeOp (t : Ty) (w a desc : Nat) : Int :=
  let len := fieldLen w desc
  if len = 0 then 0 else asInt t.signed len (a / 2 ^ fieldPos desc % 2 ^ len)

def bfiOp (w a b desc : Nat) : Int :=
  let len := fieldLen w desc
  let pos := fieldPos desc
  if len = 0 then a
  else ((a / 2 ^ (pos + len) * 2 ^ (pos + len) + b % 2 ^ len * 2 ^ pos + a % 2 ^ pos : Nat) : Int)

def bfiSpec (h : Hdr) (t : Ty) (d a b : Reg) (c : Src) : AluSpec :=
  { h := h, ll := false, srcs := [tySrc t a, tySrc t b, c], dst := tyDst t d, scalar := true
    fn := strict (fun _ l => (putTy t (bfiOp t.bits (arg l 0 % 2 ^ t.bits) (arg l 1) (arg l 2)), 0)) }

/-! ### Counts (R264) -/

def popcount (w a : Nat) : Nat := (List.range w).foldl (fun c i => c + a / 2 ^ i % 2) 0
def clzCount (w a : Nat) : Nat := if a = 0 then w else w - 1 - Nat.log2 a
def ctzCount (w a : Nat) : Nat := ((List.range w).find? (fun i => a / 2 ^ i % 2 == 1)).getD w
def bitReverse (w a : Nat) : Nat := (List.range w).foldl (fun acc i => acc + a / 2 ^ i % 2 * 2 ^ (w - 1 - i)) 0

/-! ### Compares (R268), selection (R267), predicates (R269) -/

def icond (c : Nat) (a b : Int) : Bool :=
  match c with
  | 0 => a == b
  | 1 => a != b
  | 2 => decide (a < b)
  | 3 => decide (a ≤ b)
  | 4 => decide (b < a)
  | _ => decide (b ≤ a)

def cmpSpec (h : Hdr) (t : Ty) (a : Reg) (b : Src) (c : BitVec 8) (dst : Dst) : AluSpec :=
  { h := h, ll := false, srcs := [tySrc t a, b], dst := dst, scalar := true
    fn := strict (fun _ l => ((icond (c.toNat % 8) (getTy t (arg l 0)) (getTy t (arg l 1))).toNat, 0)) }

/-- The chosen operand and the selecting predicate are the sources read (R256). -/
def selFn (t : Ty) : AluFn := fun _ l =>
  let p := l.getD 2 (0, false)
  let x := if p.1.getLsbD 0 then l.getD 0 (0, false) else l.getD 1 (0, false)
  { val := BitVec.ofNat 128 (putTy t (getTy t x.1.toNat)), flags := 0, poison := x.2 || p.2 }

def selSpec (h : Hdr) (t : Ty) (d a : Reg) (b : Src) (n : BitVec 8) : AluSpec :=
  { h := h, ll := false, srcs := [tySrc t a, b, .pred (n.toNat % 16)], dst := tyDst t d, scalar := true, fn := selFn t }

def predBin (f : F0) (op : Bool → Bool → Bool) : AluSpec :=
  { h := f.h, ll := false, srcs := [.pred f.a.toNat, .pred f.b.toNat], dst := .pred f.d.toNat, scalar := true
    fn := strict (fun _ l => ((op (arg l 0 == 1) (arg l 1 == 1)).toNat, 0)) }

def predUn (f : F0) (op : Bool → Bool) : AluSpec :=
  { h := f.h, ll := false, srcs := [.pred f.a.toNat], dst := .pred f.d.toNat, scalar := true
    fn := strict (fun _ l => ((op (arg l 0 == 1)).toNat, 0)) }

/-- Pass the one source on. -/
def passFn : AluFn := strict (fun _ l => (arg l 0, 0))

/-- `mov.b128` copies four registers with their own poison bits (R265). -/
def quadMove (f : F0) (x : Fibre) : Wr :=
  taint (guard f.h x).2
    { regs := (List.range 4).map (fun i => (f.d.toNat + i, (readReg x (f.a.toNat + i)).1, (readReg x (f.a.toNat + i)).2)),
      preds := [], flags := 0 }

/-- Handler mode does not have it (R270), whatever its guard (DESIGN CHOICE log 32). -/
def quadMoveIssue (f : F0) (s : State) : Out :=
  issue f.h false s (noScalar s) (fun e act s =>
    orTrap e (regTraps e act [(f.d.toNat, 4), (f.a.toNat, 4)]) s
      (.next (retireWr f.h false e 0 act (fun fid => quadMove f (getFibre e.g fid)) s)))

/-- LEA (R266). -/
def leaFn (t : Ty) (sh : Nat) : AluFn := strict (fun _ l =>
  let x : Int := if t.bits = 64 then (arg l 1 : Int) else asInt t.signed 32 (arg l 1)
  (wrapInt ((arg l 0 : Int) + x * 2 ^ sh) 64, 0))

/-! ### The meanings -/

/-- IADD (R257). -/
def execIadd (f : F0) (s : State) : Out := execAlu (intBin f.h f.ty f.d f.a (tySrc f.ty f.b) (fun a b => a + b)) s
/-- IADD (R257). The immediate is the last source (R254). -/
def execIaddImm (f : F1) (s : State) : Out := execAlu (intBin f.h f.ty f.d f.a (immSrc f) (fun a b => a + b)) s
/-- ISUB (R257). -/
def execIsub (f : F0) (s : State) : Out := execAlu (intBin f.h f.ty f.d f.a (tySrc f.ty f.b) (fun a b => a - b)) s
/-- ISUB (R257). The immediate is the last source (R254). -/
def execIsubImm (f : F1) (s : State) : Out := execAlu (intBin f.h f.ty f.d f.a (immSrc f) (fun a b => a - b)) s
/-- IMUL (R257). -/
def execImul (f : F0) (s : State) : Out := execAlu (intBin f.h f.ty f.d f.a (tySrc f.ty f.b) (fun a b => a * b)) s
/-- IMUL (R257). The immediate is the last source (R254). -/
def execImulImm (f : F1) (s : State) : Out := execAlu (intBin f.h f.ty f.d f.a (immSrc f) (fun a b => a * b)) s
/-- IMULH (R257). -/
def execImulh (f : F0) (s : State) : Out := execAlu (intBin f.h f.ty f.d f.a (tySrc f.ty f.b) (mulHigh f.ty)) s
/-- IMULH (R257). The immediate is the last source (R254). -/
def execImulhImm (f : F1) (s : State) : Out := execAlu (intBin f.h f.ty f.d f.a (immSrc f) (mulHigh f.ty)) s
/-- IMAD (R257). -/
def execImad (f : F0) (s : State) : Out := execAlu (intTri f.h f.ty f.d f.a f.b (tySrc f.ty f.c) (fun a b c => a * b + c)) s
/-- IMAD with an immediate C (R257). -/
def execImadImm (f : F1) (s : State) : Out := execAlu (intTri f.h f.ty f.d f.a f.b (immSrc f) (fun a b c => a * b + c)) s
/-- IDIV (R258). -/
def execIdiv (f : F0) (s : State) : Out := execAlu (divSpec f divide) s
/-- IREM (R258). -/
def execIrem (f : F0) (s : State) : Out := execAlu (divSpec f remainder) s
/-- IMIN (R259). -/
def execImin (f : F0) (s : State) : Out := execAlu (intBin f.h f.ty f.d f.a (tySrc f.ty f.b) (fun a b => min a b)) s
/-- IMIN (R259). The immediate is the last source (R254). -/
def execIminImm (f : F1) (s : State) : Out := execAlu (intBin f.h f.ty f.d f.a (immSrc f) (fun a b => min a b)) s
/-- IMAX (R259). -/
def execImax (f : F0) (s : State) : Out := execAlu (intBin f.h f.ty f.d f.a (tySrc f.ty f.b) (fun a b => max a b)) s
/-- IMAX (R259). The immediate is the last source (R254). -/
def execImaxImm (f : F1) (s : State) : Out := execAlu (intBin f.h f.ty f.d f.a (immSrc f) (fun a b => max a b)) s
/-- IABS (R259). -/
def execIabs (f : F0) (s : State) : Out := execAlu (intUn f.h f.ty f.d f.a (fun w a => ((asInt true w a).natAbs : Int))) s
/-- INEG (R259). -/
def execIneg (f : F0) (s : State) : Out := execAlu (intUn f.h f.ty f.d f.a (fun _ a => -(a : Int))) s
/-- AND (R261). -/
def execAnd (f : F0) (s : State) : Out := execAlu (intLogic f.h f.ty f.d f.a (tySrc f.ty f.b) (fun _ a b => a &&& b)) s
/-- AND (R261). The immediate is the last source (R254). -/
def execAndImm (f : F1) (s : State) : Out := execAlu (intLogic f.h f.ty f.d f.a (immSrc f) (fun _ a b => a &&& b)) s
/-- OR (R261). -/
def execOr (f : F0) (s : State) : Out := execAlu (intLogic f.h f.ty f.d f.a (tySrc f.ty f.b) (fun _ a b => a ||| b)) s
/-- OR (R261). The immediate is the last source (R254). -/
def execOrImm (f : F1) (s : State) : Out := execAlu (intLogic f.h f.ty f.d f.a (immSrc f) (fun _ a b => a ||| b)) s
/-- XOR (R261). -/
def execXor (f : F0) (s : State) : Out := execAlu (intLogic f.h f.ty f.d f.a (tySrc f.ty f.b) (fun _ a b => a ^^^ b)) s
/-- XOR (R261). The immediate is the last source (R254). -/
def execXorImm (f : F1) (s : State) : Out := execAlu (intLogic f.h f.ty f.d f.a (immSrc f) (fun _ a b => a ^^^ b)) s
/-- ANDN: A and not B (R261). -/
def execAndn (f : F0) (s : State) : Out := execAlu (intLogic f.h f.ty f.d f.a (tySrc f.ty f.b) (fun _ a b => a ^^^ (a &&& b))) s
/-- ANDN: A and not B (R261). The immediate is the last source (R254). -/
def execAndnImm (f : F1) (s : State) : Out := execAlu (intLogic f.h f.ty f.d f.a (immSrc f) (fun _ a b => a ^^^ (a &&& b))) s
/-- NOT (R261). -/
def execNot (f : F0) (s : State) : Out := execAlu (intUn f.h f.ty f.d f.a (fun w a => ((2 ^ w - 1 - a : Nat) : Int))) s
/-- SHL (R262). -/
def execShl (f : F0) (s : State) : Out := execAlu (intCount f.h f.ty f.d f.a (.reg f.b.toNat) shlOp) s
/-- SHL (R262). The immediate is the last source (R254). -/
def execShlImm (f : F1) (s : State) : Out := execAlu (intCount f.h f.ty f.d f.a (rawImm f) shlOp) s
/-- SHR (R262). -/
def execShr (f : F0) (s : State) : Out := execAlu (intCount f.h f.ty f.d f.a (.reg f.b.toNat) shrOp) s
/-- SHR (R262). The immediate is the last source (R254). -/
def execShrImm (f : F1) (s : State) : Out := execAlu (intCount f.h f.ty f.d f.a (rawImm f) shrOp) s
/-- SAR (R262). -/
def execSar (f : F0) (s : State) : Out := execAlu (intCount f.h f.ty f.d f.a (.reg f.b.toNat) sarOp) s
/-- SAR (R262). The immediate is the last source (R254). -/
def execSarImm (f : F1) (s : State) : Out := execAlu (intCount f.h f.ty f.d f.a (rawImm f) sarOp) s
/-- ROL (R262). -/
def execRol (f : F0) (s : State) : Out := execAlu (intCount f.h f.ty f.d f.a (.reg f.b.toNat) rolOp) s
/-- ROL (R262). The immediate is the last source (R254). -/
def execRolImm (f : F1) (s : State) : Out := execAlu (intCount f.h f.ty f.d f.a (rawImm f) rolOp) s
/-- ROR (R262). -/
def execRor (f : F0) (s : State) : Out := execAlu (intCount f.h f.ty f.d f.a (.reg f.b.toNat) rorOp) s
/-- ROR (R262). The immediate is the last source (R254). -/
def execRorImm (f : F1) (s : State) : Out := execAlu (intCount f.h f.ty f.d f.a (rawImm f) rorOp) s
/-- BFE (R263). -/
def execBfe (f : F0) (s : State) : Out := execAlu (intCount f.h f.ty f.d f.a (.reg f.b.toNat) (bfeOp f.ty)) s
/-- BFE (R263). The immediate is the last source (R254). -/
def execBfeImm (f : F1) (s : State) : Out := execAlu (intCount f.h f.ty f.d f.a (rawImm f) (bfeOp f.ty)) s
/-- BFI (R263). -/
def execBfi (f : F0) (s : State) : Out := execAlu (bfiSpec f.h f.ty f.d f.a f.b (.reg f.c.toNat)) s
/-- BFI with an immediate descriptor (R263). -/
def execBfiImm (f : F1) (s : State) : Out := execAlu (bfiSpec f.h f.ty f.d f.a f.b (rawImm f)) s
/-- POPC (R264). -/
def execPopc (f : F0) (s : State) : Out := execAlu (intCnt f.h f.ty f.d f.a popcount) s
/-- CLZ (R264). -/
def execClz (f : F0) (s : State) : Out := execAlu (intCnt f.h f.ty f.d f.a clzCount) s
/-- CTZ (R264). -/
def execCtz (f : F0) (s : State) : Out := execAlu (intCnt f.h f.ty f.d f.a ctzCount) s
/-- BREV (R264). -/
def execBrev (f : F0) (s : State) : Out := execAlu (intUn f.h f.ty f.d f.a (fun w a => (bitReverse w a : Int))) s
/-- LEA (R266). -/
def execLea (f : F0) (s : State) : Out := execAlu
  { h := f.h, ll := false, srcs := [.pair f.a.toNat, tySrc f.ty f.b], dst := .pair f.d.toNat, scalar := true
    fn := leaFn f.ty (f.mod.toNat % 8) } s
/-- MOV (R265). -/
def execMov (f : F0) (s : State) : Out := if f.ty = .b128 then quadMoveIssue f s
  else execAlu (intUn f.h f.ty f.d f.a (fun _ a => (a : Int))) s
/-- MOVI (R265). -/
def execMovi (f : F1) (s : State) : Out := execAlu
  { h := f.h, ll := false, srcs := [immSrc f], dst := tyDst f.ty f.d, scalar := true
    fn := strict (fun _ l => (putTy f.ty (arg l 0 : Int), 0)) } s
/-- SEL (R267). -/
def execSel (f : F0) (s : State) : Out := execAlu (selSpec f.h f.ty f.d f.a (tySrc f.ty f.b) f.mod) s
/-- SEL (R267). The immediate is the last source (R254). -/
def execSelImm (f : F1) (s : State) : Out := execAlu (selSpec f.h f.ty f.d f.a (immSrc f) f.mod) s
/-- ICMP (R268). -/
def execIcmp (f : F0) (s : State) : Out := execAlu (cmpSpec f.h f.ty f.a (tySrc f.ty f.b) f.mod (.pred f.d.toNat)) s
/-- ICMP (R268). The immediate is the last source (R254). -/
def execIcmpImm (f : F1) (s : State) : Out := execAlu (cmpSpec f.h f.ty f.a (immSrc f) f.mod (.pred f.d.toNat)) s
/-- ISET (R268). -/
def execIset (f : F0) (s : State) : Out := execAlu (cmpSpec f.h f.ty f.a (tySrc f.ty f.b) f.mod (.reg f.d.toNat)) s
/-- ISET (R268). The immediate is the last source (R254). -/
def execIsetImm (f : F1) (s : State) : Out := execAlu (cmpSpec f.h f.ty f.a (immSrc f) f.mod (.reg f.d.toNat)) s
/-- PAND (R269). -/
def execPand (f : F0) (s : State) : Out := execAlu (predBin f (· && ·)) s
/-- POR (R269). -/
def execPor (f : F0) (s : State) : Out := execAlu (predBin f (· || ·)) s
/-- PXOR (R269). -/
def execPxor (f : F0) (s : State) : Out := execAlu (predBin f (· != ·)) s
/-- PNOT (R269). -/
def execPnot (f : F0) (s : State) : Out := execAlu (predUn f (fun p => !p)) s
/-- PMOV pD, pA (R269). -/
def execPmov (f : F0) (s : State) : Out := execAlu (predUn f (fun p => p)) s
/-- PMOV vD, pw (R269). -/
def execPmovToRegister (f : F0) (s : State) : Out := execAlu
  { h := f.h, ll := false, srcs := [.predWord], dst := .reg f.d.toNat, scalar := true, fn := passFn } s
/-- PMOV pw, vA (R269). -/
def execPmovFromRegister (f : F0) (s : State) : Out := execAlu
  { h := f.h, ll := false, srcs := [.reg f.a.toNat], dst := .predWord, scalar := true, fn := passFn } s
/-- IDOT4 (R260). -/
def execIdot4 (f : F0) (s : State) : Out := execAlu (dotSpec f.h f.ty f.d f.a f.b (.reg f.c.toNat)) s
/-- IDOT4 with an immediate accumulator (R260). -/
def execIdot4Imm (f : F1) (s : State) : Out := execAlu (dotSpec f.h f.ty f.d f.a f.b (rawImm f)) s

end Sys2Proof.Machine
end

