-- ==== Sys2Proof/Machine/Lane.lean ====
section
/-! DEFINITION. Sys2Proof/Machine/Lane.lean: cross-lane instructions, and lane access in handler mode (R288 to R295). -/
namespace Sys2Proof.Machine

/-! ### Shared shapes -/

/-- A cross-lane instruction: what each participating fibre writes, from the participating fibres by rising lane. -/
def execCross (h : Hdr) (ll : Bool) (uses : List RegUse) (fn : Env → List Nat → Nat → Wr) (s : State) : Out :=
  issue h false s (noScalar s) (fun e act s =>
    orTrap e (regTraps e act uses) s
      (.next (retireWr h ll e 0 act (fun fid => taint (guard h (getFibre e.g fid)).2 (fn e (sortBy lane act) fid)) s)))

/-- A register operand at a type: one register, a pair or a quad. -/
def laneSrc (t : Ty) (n : Reg) : Src := if t = .b128 then .quad n.toNat else tySrc t n
def laneDst (t : Ty) (n : Reg) : Dst := if t = .b128 then .quad n.toNat else tyDst t n

/-- The participating fibre of a lane. -/
def atLane (act : List Nat) (l : Nat) : Option Nat := act.find? (fun fid => lane fid == l)

def valRes (x : Quad × Bool) (p : Bool) : Res := { val := x.1, flags := 0, poison := x.2 || p }

/-- A shuffle (R290): `src` names the source lane from the fibre's lane and its n; `n` gives n with its poison. -/
def shuffle (t : Ty) (d a : Reg) (n : Env → List Nat → Nat → Nat × Bool) (src : Int → Int → Int) : Env → List Nat → Nat → Wr :=
  fun e act fid =>
    let k := n e act fid
    let l := src (lane fid) k.1
    let own := readSrc (getFibre e.g fid) (laneSrc t a)
    let x := if 0 ≤ l ∧ l ≤ 31 then
        match atLane act l.toNat with
        | some g => readSrc (getFibre e.g g) (laneSrc t a)
        | none => own
      else own
    dstWr (laneDst t d) (valRes x k.2)

/-- n from MOD bits 4:0. -/
def immN (f : F0) : Env → List Nat → Nat → Nat × Bool := fun _ _ _ => (f.mod.toNat % 32, false)
/-- n from bits 4:0 of the fibre's own B. -/
def regN (f : F0) : Env → List Nat → Nat → Nat × Bool := fun e _ fid =>
  let r := readReg (getFibre e.g fid) f.b.toNat
  (r.1.toNat % 32, r.2)
/-- n from B of the fibre that ELECT would choose (LBCAST). -/
def electN (f : F0) : Env → List Nat → Nat → Nat × Bool := fun e act _ =>
  let r := readReg (getFibre e.g (act.headD 0)) f.b.toNat
  (r.1.toNat % 32, r.2)

def shufUses (f : F0) (imm : Bool) : List RegUse :=
  dstUse (laneDst f.ty f.d) ++ srcUse (laneSrc f.ty f.a) ++ (if imm then [] else [(f.b.toNat, 1)])

def shuf (f : F0) (imm : Bool) (n : Env → List Nat → Nat → Nat × Bool) (src : Int → Int → Int) (s : State) : Out :=
  execCross f.h true (shufUses f imm) (shuffle f.ty f.d f.a n src) s

/-- The lane whose number is the exclusive or. -/
def xorLane (l n : Int) : Int := ((l.toNat ^^^ n.toNat : Nat) : Int)

/-! ### Scans and reductions (R291, R292) -/

/-- An integer step. -/
def scanInt (t : Ty) (op : Nat) (a b : Nat) : Nat :=
  let x := getTy t a
  let y := getTy t b
  match op with
  | 0 => wrapInt (x + y) t.bits
  | 1 => wrapInt (min x y) t.bits
  | 2 => wrapInt (max x y) t.bits
  | 3 => a &&& b
  | 4 => a ||| b
  | _ => a ^^^ b

/-- The identity of an operation (R291). -/
def scanIdentity (t : Ty) (op : Nat) : Nat :=
  if t = .f32 then (match op with | 1 => infBits fp32 false | 2 => infBits fp32 true | _ => 0)
  else
    let hi := if t.signed then 2 ^ (t.bits - 1) - 1 else 2 ^ t.bits - 1
    let lo := if t.signed then 2 ^ (t.bits - 1) else 0
    match op with
    | 1 => hi
    | 2 => lo
    | 3 => 2 ^ t.bits - 1
    | _ => 0

/-- An FP32 step with its flags (R292). -/
def scanFlt (op mode : Nat) (ftz : Bool) (acc x : Nat) : Nat × Word :=
  let a := classify fp32 acc
  let b := ftzIn ftz fp32 x
  if op = 0 then addBits fp32 mode ftz a b
  else ((finish fp32 false 0 false (minMax (op == 2) a b)).1, nvIf (isSnan a || isSnan b))

/-- The first lane of an FP32 fold: its own value, a NaN made canonical (R292). -/
def scanFirst (ftz : Bool) (x : Nat) : Nat × Word :=
  let c := ftzIn ftz fp32 x
  ((finish fp32 false 0 false c).1, nvIf (isSnan c))

/-- The inclusive folds of a list of values, with all flags ORed. -/
def scanFold (t : Ty) (op mode : Nat) (ftz : Bool) : Option Nat → List Nat → List Nat × Word
  | _, [] => ([], 0)
  | none, x :: xs =>
    let y := if t = .f32 then scanFirst ftz x else (x, 0)
    let r := scanFold t op mode ftz (some y.1) xs
    (y.1 :: r.1, y.2 ||| r.2)
  | some a, x :: xs =>
    let y := if t = .f32 then scanFlt op mode ftz a x else (scanInt t op a x, 0)
    let r := scanFold t op mode ftz (some y.1) xs
    (y.1 :: r.1, y.2 ||| r.2)

/-- The write of LPFX or LRED in one fibre. `pick` chooses from the inclusive folds by the fibre's place. -/
def scanWr (f : F0) (pick : List Nat → Nat → Nat) (upto : List Nat → Nat → List Nat) : Env → List Nat → Nat → Wr :=
  fun e act fid =>
    let op := f.mod.toNat % 8
    let lead := (getFibre e.g (act.headD 0)).fpmode
    let vals := act.map (fun i => (readSrc (getFibre e.g i) (laneSrc f.ty f.a)).1.toNat)
    let r := scanFold f.ty op (rmOf f.rm lead) (ftzOn lead) none vals
    let place := act.idxOf fid
    let p := (upto act place).any (fun i => (readSrc (getFibre e.g i) (laneSrc f.ty f.a)).2)
    dstWr (laneDst f.ty f.d) { val := BitVec.ofNat 128 (pick r.1 place), flags := r.2, poison := p }

/-- LPFX: exclusive when MOD bit 3 is set. -/
def pfxWr (f : F0) : Env → List Nat → Nat → Wr :=
  if f.mod.getLsbD 3 then
    scanWr f (fun l i => if i = 0 then scanIdentity f.ty (f.mod.toNat % 8) else l.getD (i - 1) 0) (fun act i => act.take i)
  else scanWr f (fun l i => l.getD i 0) (fun act i => act.take (i + 1))

/-- LRED: the last fold. -/
def redWr (f : F0) : Env → List Nat → Nat → Wr := scanWr f (fun l _ => l.getLastD 0) (fun act _ => act)

/-! ### Votes (R293, R294) -/

def predsOf (e : Env) (act : List Nat) (n : Reg) : List (Bool × Bool) := act.map (fun i => readPred (getFibre e.g i) n.toNat)

def voteWr (f : F0) : Env → List Nat → Nat → Wr := fun e act _ =>
  let ps := predsOf e act f.a
  let v := match f.mod.toNat % 4 with
    | 0 => ps.all (·.1)
    | 1 => ps.any (·.1)
    | _ => ps.all (·.1) || !ps.any (·.1)
  { regs := [], preds := [(f.d.toNat, v, ps.any (·.2))], flags := 0 }

def ballotWr (f : F0) : Env → List Nat → Nat → Wr := fun e act _ =>
  { regs := [(f.d.toNat, laneMask (act.filter (fun i => (readPred (getFibre e.g i) f.a.toNat).1)), (predsOf e act f.a).any (·.2))],
    preds := [], flags := 0 }

def matchWr (f : F0) : Env → List Nat → Nat → Wr := fun e act fid =>
  let v := fun i => readSrc (getFibre e.g i) (laneSrc f.ty f.a)
  { regs := [(f.d.toNat, laneMask (act.filter (fun i => (v i).1 == (v fid).1)), act.any (fun i => (v i).2))], preds := [], flags := 0 }

def electWr (f : F0) : Env → List Nat → Nat → Wr := fun _ act fid =>
  { regs := [], preds := [(f.d.toNat, act.headD 0 == fid, false)], flags := 0 }

/-! ### Lane access in handler mode (R295) -/

/-- TRAPVAL of an illegal instruction: bits 95:32 of its word (R223, R237). -/
def illegalVal (i : Instr) : W64 := ((encode i).getD 0).extractLsb' 32 64

/-- ILLEGAL for every lane of the wave, whatever the guard (R237). -/
def illegalAll (i : Instr) (e : Env) (s : State) : Out := takeTrap e (e.fids.map (fun fid => (fid, 2, illegalVal i))) s

/-- A selector: the lane's fibre, the kind and the register; none breaks R295. -/
def selector (e : Env) (h : Handler) (v : W64) : Option (Nat × Nat × Nat) :=
  let l := v.toNat % 32
  let kind := v.toNat / 2 ^ 16 % 4
  let reg := v.toNat / 2 ^ 8 % 2 ^ 8
  if v &&& ~~~0x3FF1F ≠ 0 ∨ kind = 3 ∨ (kind ≠ 0 ∧ reg ≠ 0) ∨ !h.lanes.getLsbD l then none
  else
    match e.sl.fids.find? (fun fid => lane fid == l) with
    | none => none
    | some fid => if kind = 0 ∧ (getFibre e.g fid).win ≤ reg then none else some (fid, kind, reg)

def lgetScalar (f : F0) (s : State) (e : Env) (h : Handler) : Out :=
  if badK [(f.d.toNat, 1), (f.a.toNat, 1)] then handlerError e s
  else if !(guardK f.h h).1 then .next (handlerNext e h s)
  else
    match selector e h (kget h.k f.a.toNat 0) with
    | none => handlerError e s
    | some (fid, kind, reg) =>
      let x := getFibre e.g fid
      let r : W64 × Bool := match kind with
        | 0 => ((readReg x reg).1.zeroExtend 64, (readReg x reg).2)
        | 1 => ((readSrc x .predWord).1.truncate 64, (readSrc x .predWord).2)
        | _ => (resumePc h e.sl fid, false)
      .next (handlerNext e (writeK h f.d.toNat r.1 (r.2 || (guardK f.h h).2)) s)

def lputScalar (f : F0) (s : State) (e : Env) (h : Handler) : Out :=
  if badK [(f.a.toNat, 1), (f.b.toNat, 1)] then handlerError e s
  else if !(guardK f.h h).1 then .next (handlerNext e h s)
  else
    match selector e h (kget h.k f.a.toNat 0) with
    | none => handlerError e s
    | some (fid, kind, reg) =>
      let v := kget h.k f.b.toNat 0
      let p := h.kPoison.getLsbD f.b.toNat || (guardK f.h h).2
      let put := fun (w : Wr) => setGang s e.gid (mapFibres e.g (fun i x => if i = fid then writeAll x w else x))
      match kind with
      | 0 => .next (handlerNext e h (put { regs := [(reg, v.truncate 32, p)], preds := [], flags := 0 }))
      | 1 => .next (handlerNext e h (put { regs := [], preds := predWordWr (v.zeroExtend 128) p, flags := 0 }))
      | _ =>
        if v &&& 0x38 ≠ 0 ∨ 4 < v.toNat % 8 ∨ 2 ^ 57 ≤ v.toNat then handlerError e s
        else .next (handlerNext e { h with items := kset h.items (lane fid) v } s)

/-! ### The meanings -/

/-- LSHFL reads the lane n, n from the fibre's own B (R290). -/
def execLshfl (f : F0) (s : State) : Out :=
  shuf f false (regN f) (fun _ n => n) s
/-- LSHFL reads the lane n, n from MOD (R290). -/
def execLshflImm (f : F0) (s : State) : Out :=
  shuf f true (immN f) (fun _ n => n) s
/-- LSHFU reads the lane n below, n from the fibre's own B (R290). -/
def execLshfu (f : F0) (s : State) : Out :=
  shuf f false (regN f) (fun l n => l - n) s
/-- LSHFU reads the lane n below, n from MOD (R290). -/
def execLshfuImm (f : F0) (s : State) : Out :=
  shuf f true (immN f) (fun l n => l - n) s
/-- LSHFD reads the lane n above, n from the fibre's own B (R290). -/
def execLshfd (f : F0) (s : State) : Out :=
  shuf f false (regN f) (fun l n => l + n) s
/-- LSHFD reads the lane n above, n from MOD (R290). -/
def execLshfdImm (f : F0) (s : State) : Out :=
  shuf f true (immN f) (fun l n => l + n) s
/-- LXOR reads the lane l xor n, n from the fibre's own B (R290). -/
def execLxor (f : F0) (s : State) : Out :=
  shuf f false (regN f) xorLane s
/-- LXOR reads the lane l xor n, n from MOD (R290). -/
def execLxorImm (f : F0) (s : State) : Out :=
  shuf f true (immN f) xorLane s
/-- LBCAST: n from B of the elected fibre (R290). -/
def execLbcast (f : F0) (s : State) : Out :=
  shuf f false (electN f) (fun _ n => n) s
/-- LBCAST: n from MOD (R290). -/
def execLbcastImm (f : F0) (s : State) : Out :=
  shuf f true (immN f) (fun _ n => n) s
/-- LPFX (R291). -/
def execLpfx (f : F0) (s : State) : Out :=
  execCross f.h true (shufUses f true) (pfxWr f) s
/-- LRED (R291). -/
def execLred (f : F0) (s : State) : Out :=
  execCross f.h true (shufUses f true) (redWr f) s
/-- VOTE (R293). -/
def execVote (f : F0) (s : State) : Out :=
  execCross f.h false [] (voteWr f) s
/-- BALLOT (R293). -/
def execBallot (f : F0) (s : State) : Out :=
  execCross f.h false [(f.d.toNat, 1)] (ballotWr f) s
/-- MATCH (R293): a pair for 64-bit types, the mask in one register. -/
def execMatch (f : F0) (s : State) : Out :=
  execCross f.h true ((f.d.toNat, 1) :: srcUse (laneSrc f.ty f.a)) (matchWr f) s
/-- ELECT (R293). -/
def execElect (f : F0) (s : State) : Out :=
  execCross f.h false [] (electWr f) s
/-- LGET (R295); ILLEGAL outside handler mode (R252). -/
def execLget (f : F0) (s : State) : Out :=
  issue f.h false s (lgetScalar f s) (fun e _ s => illegalAll (.lget f) e s)
/-- LPUT (R295); ILLEGAL outside handler mode (R252). -/
def execLput (f : F0) (s : State) : Out :=
  issue f.h false s (lputScalar f s) (fun e _ s => illegalAll (.lput f) e s)

end Sys2Proof.Machine
end

