-- ==== Sys2Proof/Machine/Numbers.lean ====
section
/-! DEFINITION. Sys2Proof/Machine/Numbers.lean: Q16N, the haul word, exact sums, drains and stochastic rounding (R68 to R73). -/
namespace Sys2Proof.Machine

/-- The Q16N codebook (R68). -/
def codebook : List Int := [-127, -94, -73, -57, -43, -30, -18, 0, 9, 19, 30, 42, 55, 71, 92, 127]
def codeOf (i : Nat) : Int := codebook.getD i 0

/-- HF and HV of a haul word (R69). -/
def haulF (h : Quad) : Nat := (h.extractLsb' 126 2).toNat
def haulV (h : Quad) : Int := (h.extractLsb' 0 126).toInt

/-- A haul word of HF and an integer HV, modulo 2^126. -/
def haulOf (f : Nat) (v : Int) : Quad := BitVec.ofNat 2 f ++ BitVec.ofInt 126 v

/-- haul_add and its overflow (R71). -/
def haulAdd (a b : Quad) : Quad × Bool :=
  let s := haulV a + haulV b
  (haulOf (haulF a ||| haulF b) s, decide (s < -(2 ^ 125)) || decide ((2 ^ 125 : Int) ≤ s))

/-- The exact haul word of a product of two values (R70). -/
def haulMul (x y : Cls) : Quad :=
  match mulCls x y with
  | (.nan _, _) => haulOf 3 0
  | (.inf n, _) => haulOf (if n then 2 else 1) 0
  | (.zero _, _) => 0
  | (.fin n m e, _) =>
    let v : Int := (m * 2 ^ (e + 56).toNat : Nat)
    haulOf 0 (if n then -v else v)

/-- A drain target (R72): a floating-point format, or INT32. -/
inductive Target where
  | flt (f : Fmt)
  | i32
  deriving DecidableEq, Repr

/-- The target of a type, for HWCVT. -/
def targetOf : Ty → Target
  | .i32 => .i32
  | t => .flt (fmtOf t)

/-- Bytes of one result. -/
def targetBytes : Target → Nat
  | .i32 => 4
  | .flt f => (1 + f.eb + f.fb) / 8

def nanOrZero : Target → Nat
  | .i32 => 0
  | .flt f => canonNan f

/-- An integer saturated to 32 bits, and whether it saturated. -/
def satI32 (v : Int) : Nat × Bool :=
  (wrapInt (max (-(2 ^ 31)) (min (2 ^ 31 - 1) v)) 32, decide (v < -(2 ^ 31)) || decide ((2 ^ 31 - 1 : Int) < v))

/-- The bits of a format are a finite value. -/
def isFiniteBits (f : Fmt) (bits : Nat) : Bool :=
  match classify f bits with
  | .nan _ => false
  | .inf _ => false
  | _ => true

/-- A value into a target under a mode 0 to 3 (R74: to_fmt); the second answer is SAT of R185: delivered as a finite value although
the exact value lies beyond the target's range (DEDUCED log 120). -/
def toTarget (t : Target) (mode : Nat) (nan : Bool) (x : Cls) : Nat × Bool :=
  match t with
  | .flt f =>
    let r := finish f nan mode false x
    (r.1, isFiniteBits f r.1 && (match x with
      | .inf _ => true
      | .fin _ m e => exceeds f m 1 e
      | _ => false))
  | .i32 =>
    match x with
    | .nan _ => (0, false)
    | .inf n => satI32 (if n then -(2 ^ 31) - 1 else 2 ^ 31)
    | .zero _ => (0, false)
    | .fin n m e =>
      let r := if 0 ≤ e then m * 2 ^ e.toNat else (roundAt mode n m (-e).toNat).1
      let v := satI32 (if n then -(r : Int) else r)
      (v.1, v.2 || above m e (if n then 2 ^ 31 else 2 ^ 31 - 1) 0)

/-- The largest finite value of a sign (R72). -/
def largestOf (t : Target) (neg : Bool) : Nat :=
  match t with
  | .flt f => largest f neg
  | .i32 => (satI32 (if neg then -(2 ^ 31) else 2 ^ 31)).1

/-- The draw of R73. -/
def srHash (seed : W64) (tx ty e : Nat) : Nat :=
  let h0 := seed ^^^ (BitVec.ofNat 64 tx * 0x9E3779B97F4A7C15) ^^^ (BitVec.ofNat 64 ty * 0xC2B2AE3D27D4EB4F)
    ^^^ (BitVec.ofNat 64 e * 0x165667B19E3779F9)
  let h1 := h0 ^^^ (h0 >>> 33)
  let h2 := h1 * 0xFF51AFD7ED558CCD
  let h3 := h2 ^^^ (h2 >>> 33)
  let h4 := h3 * 0xC4CEB9FE1A85EC53
  let h5 := h4 ^^^ (h4 >>> 33)
  (h5 >>> 32).toNat

/-- num·2^s as a fraction's numerator and denominator, for a fraction num/den·2^s. -/
def scaleFrac (num den : Nat) (s : Int) : Nat × Nat :=
  if 0 ≤ s then (num * 2 ^ s.toNat, den) else (num, den * 2 ^ (-s).toNat)

/-- The exponent of the leading bit of num/den·2^e. -/
def leadExp (num den : Nat) (e : Int) : Int :=
  let l : Int := (Nat.log2 num : Int) - Nat.log2 den
  let (a, b) := scaleFrac num den (-l)
  (if a < b then l - 1 else l) + e

/-- Stochastic rounding of the non-zero exact value ±num/den·2^e (R73). One unit past the largest finite value gives an infinity,
saturates, or follows R67; the second answer is SAT of R185 (DEDUCED log 120). -/
def srRound (t : Target) (nan neg : Bool) (num den : Nat) (e : Int) (draw : Nat) : Nat × Bool :=
  match t with
  | .flt f =>
    let q : Int := max (leadExp num den e) (1 - f.bias) - f.fb
    let (a, b) := scaleFrac num den (e - q)
    let n := a / b
    let r := a % b
    let above_ := exceeds f num den e
    let beyond := if isFp8 f then (if nan then (canonNan f, false) else (largest f neg, true)) else (infBits f neg, false)
    let pack := fun n => let p := if n = 2 ^ (f.fb + 1) then packUnits f neg (2 ^ f.fb) (q + 1) else packUnits f neg n q
      if p.2 then beyond else (p.1, above_)
    if (packUnits f neg n q).2 then beyond
    else if r = 0 then pack n
    else
      let th := if neg then (b - r) * 2 ^ 32 / b else r * 2 ^ 32 / b
      if neg then (if draw < th then pack n else pack (n + 1)) else (if draw < th then pack (n + 1) else pack n)
  | .i32 =>
    let (a, b) := scaleFrac num den e
    let n := a / b
    let r := a % b
    let put := fun n : Nat =>
      let v := satI32 (if neg then -(n : Int) else n)
      (v.1, v.2 || above num e ((if neg then 2 ^ 31 else 2 ^ 31 - 1) * den) 0)
    if r = 0 then put n
    else
      let th := if neg then (b - r) * 2 ^ 32 / b else r * 2 ^ 32 / b
      if neg then (if draw < th then put n else put (n + 1)) else (if draw < th then put (n + 1) else put n)

/-- How a drain rounds. -/
structure DrainMode where
  /-- 0 RNE, 1 RTZ, 2 RUP, 3 RDN, 4 SR. -/
  mode : Nat
  nan : Bool
  seed : W64
  tx : Nat
  ty : Nat
  deriving DecidableEq, Repr

/-- drain_element (R72): `k` is the super-scale of a Q16N tile, none standing for a scale of 1. The second answer is SAT of R185. -/
def drainElement (h : Quad) (t : Target) (m : DrainMode) (k : Option Cls) (ovf : Bool) (e : Nat) : Nat × Bool :=
  let kc := k.getD (.fin false 1 0)
  let f := haulF h
  let kneg := negOf kc
  let kzero := match kc with | .zero _ => true | _ => false
  let kinf := match kc with | .inf _ => true | _ => false
  let zero := match t with | .flt f => signBit f false | .i32 => 0
  if f = 3 ∨ isNan kc then (nanOrZero t, false)
  else if f = 1 ∨ f = 2 then
    if kzero then (nanOrZero t, false) else toTarget t (m.mode % 4) m.nan (.inf ((f == 2) != kneg))
  else if ovf then (largestOf t (h.getLsbD 125), true)
  else
    let v := haulV h
    if kinf then (if v = 0 then (nanOrZero t, false) else toTarget t (m.mode % 4) m.nan (.inf (decide (v < 0) != kneg)))
    else
      match kc with
      | .fin _ km ke =>
        if v = 0 then (zero, false)
        else
          let neg := decide (v < 0) != kneg
          let num := v.natAbs * km
          let den := if k.isSome then 32385 else 1
          if m.mode = 4 then srRound t m.nan neg num den (ke - 56) (srHash m.seed m.tx m.ty e)
          else toTarget t m.mode m.nan (if den = 1 then .fin neg num (ke - 56) else quotient neg num den (ke - 56))
      | _ => (zero, false)

/-- QDEC (R286): the value and flags of element `j`. -/
def qdecBits (f : Fmt) (mode : Nat) (ftz : Bool) (a b c : Nat) (j : Nat) : Nat × Word :=
  let i := a / 2 ^ (4 * j) % 16
  let s8 := b % 256
  let cc := codeOf i
  match ftzIn ftz fp32 c with
  | .nan s => (canonNan f, nvIf s)
  | .inf n => if cc = 0 ∨ s8 = 0 then (canonNan f, flNV) else finish f false mode ftz (.inf (n != decide (cc < 0)))
  | .zero n => finish f false mode ftz (.zero (n != decide (cc < 0)))
  | .fin n m e =>
    let neg := n != decide (cc < 0)
    if cc = 0 ∨ s8 = 0 then finish f false mode ftz (.zero neg)
    else finish f false mode ftz (quotient neg (cc.natAbs * s8 * m) 32385 e)

end Sys2Proof.Machine
end

