-- ==== Sys2Proof/Machine/Cipher.lean ====
section
/-! DEFINITION. Sys2Proof/Machine/Cipher.lean: AES-256-XTS over a 128-byte sector (R84), as FIPS 197 and IEEE 1619 define the cipher that
the manual names (PRESUMED log 8). Bytes are numbers below 256; a block is a list of 16, columns in order. -/
namespace Sys2Proof.Machine

/-! ### The field and the substitution boxes -/

/-- Double in the field of AES. -/
def aesDouble (b : Nat) : Nat := if b < 128 then 2 * b else (2 * b) ^^^ 0x11B

/-- The product by a factor of at most four bits. -/
def aesMul (k b : Nat) : Nat :=
  let b2 := aesDouble b
  let b4 := aesDouble b2
  let b8 := aesDouble b4
  (if k.testBit 0 then b else 0) ^^^ (if k.testBit 1 then b2 else 0) ^^^ (if k.testBit 2 then b4 else 0) ^^^ (if k.testBit 3 then b8 else 0)

/-- The substitution box and its inverse: entry b in bits 8b + 7 to 8b. -/
def aesBox : Nat := 0x16bb54b00f2d99416842e6bf0d89a18cdf2855cee9871e9b948ed9691198f8e19e1dc186b95735610ef6034866b53e708a8bbd4b1f74dde8c6b4a61c2e2578ba08ae7a65eaf4566ca94ed58d6d37c8e779e4959162acd3c25c2406490a3a32e0db0b5ede14b8ee4688902a22dc4f816073195d643d7ea7c41744975fec130ccdd2f3ff1021dab6bcf5389d928f40a351a89f3c507f02f94585334d43fbaaefd0cf584c4a39becb6a5bb1fc20ed00d153842fe329b3d63b52a05a6e1b1a2c830975b227ebe28012079a059618c323c7041531d871f1e5a534ccf73f362693fdb7c072a49cafa2d4adf04759fa7dc982ca76abd7fe2b670130c56f6bf27b777c63
def aesUnbox : Nat := 0x7d0c2155631469e126d677ba7e042b17619953833cbbebc8b0f52aae4d3be0a0ef9cc9939f7ae52d0d4ab519a97f51605fec8027591012b131c7078833a8dd1ff45acd78fec0db9a2079d2c64b3e56fc1bbe18aa0e62b76f89c5291d711af1476edf751ce837f9e28535ade72274ac9673e6b4f0cecff297eadc674f4111913a6b8a130103bdafc1020f3fca8f1e2cd00645b3b80558e4f70ad3bc8c00abd890849d8da75746155edab9edfd5048706c92b6655dcc5ca4d41698688664f6f87225d18b6d49a25b76b224d92866a12e084ec3fa420b954cee3d23c2a632947b54cbe9dec444438e3487ff2f9b8239e37cfbd7f3819ea340bf38a53630d56a0952

def boxAt (box b : Nat) : Nat := box >>> (8 * b) &&& 255

/-! ### The round functions -/

def xorBytes (a b : List Nat) : List Nat := List.zipWith (· ^^^ ·) a b

/-- ShiftRows, and its inverse: the byte that row r of column c takes. -/
def aesShift (s : List Nat) : List Nat := (List.range 16).map (fun i => s.getD ((i + 4 * (i % 4)) % 16) 0)
def aesUnshift (s : List Nat) : List Nat := (List.range 16).map (fun i => s.getD ((i + 12 * (i % 4)) % 16) 0)

/-- MixColumns with a row of coefficients. -/
def aesMix (k : List Nat) (s : List Nat) : List Nat :=
  (List.range 16).map (fun i =>
    (List.range 4).foldl (fun x j => x ^^^ aesMul (k.getD ((j + 4 - i % 4) % 4) 0) (s.getD (i / 4 * 4 + j) 0)) 0)

/-- The next word of the key schedule, from the last one and the one eight words back. -/
def aesNextWord (i : Nat) (last back : List Nat) : List Nat :=
  let t := if i % 8 = 0 then
      match last with
      | [a, b, c, d] => [boxAt aesBox b ^^^ 2 ^ (i / 8 - 1), boxAt aesBox c, boxAt aesBox d, boxAt aesBox a]
      | x => x
    else if i % 8 = 4 then last.map (boxAt aesBox) else last
  xorBytes t back

/-- Words i, i + 1, ... of the schedule, newest first, before those that stand. -/
def aesSchedule : Nat → Nat → List (List Nat) → List (List Nat)
  | 0, _, ws => ws
  | n + 1, i, ws => aesSchedule n (i + 1) (aesNextWord i (ws.getD 0 []) (ws.getD 7 []) :: ws)

/-- The fifteen round keys of a 32-byte key. -/
def aesKeys (key : List Nat) : List (List Nat) :=
  let ws := (aesSchedule 52 8 ((List.range 8).map (fun i => (List.range 4).map (fun j => key.getD (4 * i + j) 0))).reverse).reverse
  (List.range 15).map (fun r => ((List.range 4).map (fun j => ws.getD (4 * r + j) [])).flatten)

/-- AES-256 on a block, with the round keys. -/
def aesEncrypt (ks : List (List Nat)) (b : List Nat) : List Nat :=
  let first := xorBytes b (ks.getD 0 [])
  let mid := (List.range 13).foldl (fun s r =>
    xorBytes (aesMix [2, 3, 1, 1] (aesShift (s.map (boxAt aesBox)))) (ks.getD (r + 1) [])) first
  xorBytes (aesShift (mid.map (boxAt aesBox))) (ks.getD 14 [])

/-- Its inverse. -/
def aesDecrypt (ks : List (List Nat)) (b : List Nat) : List Nat :=
  let first := (aesUnshift (xorBytes b (ks.getD 14 []))).map (boxAt aesUnbox)
  let mid := (List.range 13).foldl (fun s r =>
    (aesUnshift (aesMix [14, 11, 13, 9] (xorBytes s (ks.getD (13 - r) [])))).map (boxAt aesUnbox)) first
  xorBytes mid (ks.getD 0 [])

/-! ### XTS over a sector -/

/-- Little-endian bytes of a number below 2^(8n), as numbers. -/
def lowBytes (n v : Nat) : List Nat := (List.range n).map (fun i => v >>> (8 * i) &&& 255)

/-- The tweak of the next block: times two in the field of 128 bits. -/
def xtsNext (t : Nat) : Nat := if t < 2 ^ 127 then 2 * t else (2 * t - 2 ^ 128) ^^^ 0x87

/-- The number that bytes stand for, low byte first. -/
def bytesNum (bs : List Nat) : Nat := bs.foldr (fun b v => b + 256 * v) 0

/-- XTS over the blocks of a list, from a tweak on. -/
def xtsBlocks (cipher : List Nat → List Nat) : Nat → Nat → List Nat → List Nat
  | 0, _, _ => []
  | n + 1, t, bs =>
    let tw := lowBytes 16 t
    xorBytes (cipher (xorBytes (bs.take 16) tw)) tw ++ xtsBlocks cipher n (xtsNext t) (bs.drop 16)

/-- A sector encrypted or decrypted under the two keys of an index, the data key in the low half (DEDUCED log 8); the data unit is the
sector and its number, PA bits 47:7, the tweak (R84). -/
def xtsSector (decrypt : Bool) (keys : BitVec 512) (pas : Nat) (d : BitVec 1024) : BitVec 1024 :=
  let k1 := aesKeys (lowBytes 32 (keys.toNat % 2 ^ 256))
  let k2 := aesKeys (lowBytes 32 (keys.toNat / 2 ^ 256))
  let t := bytesNum (aesEncrypt k2 (lowBytes 16 pas))
  BitVec.ofNat 1024 (bytesNum (xtsBlocks (if decrypt then aesDecrypt k1 else aesEncrypt k1) 8 t (lowBytes 128 d.toNat)))

end Sys2Proof.Machine
end

