-- ==== Sys2Proof/Machine/Mem.lean ====
section
/-! DEFINITION. Sys2Proof/Machine/Mem.lean: the operations over global memory: range windows, page walks, the L1, the
write-combining buffer, the core-side slices, the homes with their versions and stamps, and wake-ups (chapters 4 and 5). -/
namespace Sys2Proof.Machine

/-! ### Range windows (R78, R79) -/

/-- The window that holds a VA: base, IA base, size and the third word. -/
def findWindow (c : Ctx) (va : Nat) : Option (Nat × Nat × W64) :=
  match c.windows.find? (fun e =>
    let w0 := e.2.1
    let sz := w0.toNat % 64
    let base := (w0.extractLsb' 21 36).toNat * 2 ^ 21
    w0.getLsbD 63 && decide (base ≤ va) && decide (va < base + 2 ^ sz)) with
  | none => none
  | some e => some ((e.2.1.extractLsb' 21 36).toNat * 2 ^ 21, (e.2.2.1.extractLsb' 21 31).toNat * 2 ^ 21, e.2.2.2)

/-- Path classes (R115), as the PATHS bits number them. -/
def pathVec : Nat := 0
def pathCpy : Nat := 1
def pathMxd : Nat := 2
def pathHaul : Nat := 3
def pathXch : Nat := 4

/-- The peer aperture (R96). -/
def isPeer (ia : Nat) : Bool := ia.testBit 51
def peerPort (ia : Nat) : Nat := ia / 2 ^ 46 % 32
/-- Key of a peer byte in peerMem. -/
def peerKey (ia : Nat) : Nat := ia % 2 ^ 51

/-- The check of R75 and R79 on one access: the IA, or the trap cause 5 RANGE or 6 PERM. `perm` holds the needed bits R 1, W 2, X 4.
IAs are 52 bits wide: a sum of 2^52 or more keeps its low 52 bits (DESIGN CHOICE log 111). -/
def checkWindow (s : State) (ctx : Nat) (va : W64) (path perm : Nat) : Except Nat Nat :=
  if 2 ^ 57 ≤ va.toNat then .error 5
  else
    let c := getCtx s ctx
    match findWindow c va.toNat with
    | none => .error 5
    | some (base, ia, w2) =>
      if !w2.getLsbD (8 + path) then .error 6
      else if w2.toNat % 8 &&& perm ≠ perm then .error 6
      else
        let a := (ia + (va.toNat - base)) % 2 ^ 52
        if isPeer a && (decide (17 < peerPort a) || !c.peers.getLsbD (peerPort a)) then .error 5
        else .ok a

/-! ### Page translation at the home (R80 to R83, R95) -/

/-- Walk a level: index shift, index bits, alignment of the next table; the last level's entry is always a leaf. WHY codes: 1 not
present, 2 malformed, 3 permission (R419). -/
def walkFrom (m : Mem) (ia : Nat) : List (Nat × Nat × Nat) → Bool → Nat → Except Nat Leaf
  | [], _, _ => .error 2
  | (sh, nb, align) :: rest, top, table =>
    let at_ := table + 8 * (ia / 2 ^ sh % 2 ^ nb)
    let e := read64 m at_
    let addr := (e.extractLsb' 8 40).toNat * 256
    if !e.getLsbD 0 then .error 1
    else if e.extractLsb' 61 3 ≠ 0 then .error 2
    else if e.getLsbD 1 || rest.isEmpty then
      if top then .error 2
      else if e.extractLsb' 5 2 = 3 then .error 2
      else if addr % 2 ^ sh ≠ 0 then .error 2
      else .ok { ctx := 0, first := ia / 2 ^ sh * 2 ^ sh, log := sh, held := false, pa := addr + ia % 2 ^ sh, ca := (e.extractLsb' 5 2).toNat, tier := e.getLsbD 7, key := (e.extractLsb' 48 13).toNat,
                 u := e.getLsbD 3, w := e.getLsbD 2, entry := at_ }
    else if e.extractLsb' 48 13 ≠ 0 || e.extractLsb' 2 6 ≠ 0 then .error 2
    else if addr % align ≠ 0 then .error 2
    else walkFrom m ia rest false addr

def walkLevels : List (Nat × Nat × Nat) := [(39, 13, 4096), (30, 9, 4096), (21, 9, 256), (16, 5, 256)]

/-- A PA is in an attached second-tier range (R95). -/
def inTier (s : State) (pa : Nat) : Bool := s.tiers.any (fun t => decide (t.2.1 ≤ pa) && decide (pa < t.2.1 + t.2.2))

/-- A walk of the context's table as memory holds it now. -/
def walk (s : State) (ctx ia : Nat) : Except Nat Leaf :=
  match walkFrom s.mem ia walkLevels true (getCtx s ctx).root with
  | .error y => .error y
  | .ok l => .ok { l with ctx := ctx }

/-- The leaves for an address that homes hold and that a walk would no longer give (R417). -/
def staleLeaves (s : State) (ctx ia : Nat) (new : Except Nat Leaf) : List Leaf :=
  ((s.leaves.filter (fun l => l.ctx == ctx && decide (l.first ≤ ia) && decide (ia < l.first + 2 ^ l.log))).map (fun l =>
    { l with pa := l.pa + (ia - l.first) })).filter (fun l =>
      match new with
      | .ok n => n != { l with held := false }
      | .error _ => true)

/-- The translation that an access uses: the new one, or one that a home still holds, as a free value says (R417). -/
def chooseLeaf (s : State) (ctx ia : Nat) : Except Nat Leaf :=
  let new := walk s ctx ia
  match staleLeaves s ctx ia new with
  | [] => new
  | old :: olds =>
    match (old :: olds)[(free s 20 (ctx * 2 ^ 36 + ia / 2 ^ 16)).toNat % (olds.length + 2)]? with
    | some l => .ok l
    | none => new

/-- The checks of a leaf that is used for an access (R83, R95). -/
def leafAllows (s : State) (kernel write : Bool) (l : Leaf) : Except Nat Leaf :=
  if l.tier && !inTier s l.pa then .error 1
  else if (kernel && !l.u) || (write && !l.w) then .error 3
  else .ok l

/-- Translate an IA for a context: `kernel` accesses check U, writes check W. A leaf of the second tier outside every attached range is
not-present before U and W are looked at (R95, DESIGN CHOICE log 130). -/
def translate (s : State) (ctx ia : Nat) (kernel write : Bool) : Except Nat Leaf :=
  match chooseLeaf s ctx ia with
  | .error y => .error y
  | .ok l => leafAllows s kernel write l

/-- An IA sector of a TLBINV's range (R417). -/
def inRange (c : CmdRun) (sector : Nat) : Bool := sector * 128 / 2 ^ byteAt c.bytes 24 == field c.bytes 16 8 / 2 ^ byteAt c.bytes 24

/-- A TLBINV of the context that covers a sector is at work (R417). -/
def invalidating (s : State) (ctx sector : Nat) : Bool :=
  s.cmds.any (fun c => c.op == 11 && c.begun && !c.done && c.ctx == ctx && inRange c sector)

/-- The leaf under which a home applies a write-back: while a TLBINV covers it, one that the home still holds (R417). -/
def translateBack (s : State) (ctx ia : Nat) : Except Nat Leaf :=
  match if invalidating s ctx (ia / 128) then staleLeaves s ctx ia (walk s ctx ia) else [] with
  | l :: _ => leafAllows s true true l
  | [] => translate s ctx ia true true

/-- The leaf under which a home applies a write: the one that it has checked already, else what it translates now. -/
def leafOf (s : State) (m : WriteMsg) : Except Nat Leaf :=
  match m.leaf with
  | some l => .ok l
  | none => if m.kind = .writeBack then translateBack s m.ctx (m.sector * 128) else translate s m.ctx (m.sector * 128) true true

/-- The home slice of a PA sector is fenced: its loads return poison and its writes are discarded (R434). -/
def homeFenced (s : State) (pas : Nat) : Bool := s.mgmt.fenced.contains (.home, homeOf (pas * 128))

/-- A walk sets A in the leaf, and the home holds the leaf from then on (R83, R417); a fenced home of the entry discards the bit (R434). -/
def setAccessed (l : Leaf) (s : State) : State :=
  if l.held then s
  else
    let page := { l with pa := l.pa / 2 ^ l.log * 2 ^ l.log, held := true }
    { s with
      mem := if homeFenced s (l.entry / 128) then s.mem else writeByte s.mem l.entry (readByte s.mem l.entry ||| 0x10)
      leaves := if s.leaves.contains page then s.leaves else s.leaves ++ [page] }

/-- The homes drop some leaves. -/
def dropLeaves (p : Leaf → Bool) (s : State) : State := { s with leaves := s.leaves.filter (fun l => !p l) }

/-! ### Wake tables (R157 to R159) -/

/-- A write was applied to a line at a home. -/
def wakeLine (home line : Nat) (s : State) : State :=
  wakeAll (s.wakes.filter (fun w => w.place == .home home && (w.line == none || w.line == some line))) s

/-! ### Versions (R88, R89) -/

/-- The version of a PA line: the refill version while it is not resident. -/
def lineVersion (s : State) (line : Nat) : Word := (kget? s.lines line).getD (kget s.refill (homeOf (line * 256)) 0)

/-- Lines that a commit holds locked until its writes are applied, with the commit's agent: the lines of the leaves under which it took
its locks (R151). -/
def commitLocks (s : State) : List (Nat × Nat) :=
  ((s.slabs.map (fun b => b.2.inq.map (fun m => (b.1, m)))).flatten ++ s.held.map (fun m => (m.agent, m))).filterMap (fun x =>
    match x.2.kind with
    | .commit _ => x.2.leaf.map (fun l => (l.pa / 256, x.1))
    | _ => none)

def commitHolds (s : State) (line : Nat) : Bool := (commitLocks s).any (fun l => l.1 == line)

/-- Evict a line from its memory-side cache (R89). -/
def evictLine (line : Nat) (s : State) : State :=
  match kget? s.lines line with
  | none => s
  | some v =>
    if commitHolds s line then s else
    let h := homeOf (line * 256)
    let f := kget s.refill h 0
    let f1 := if (v + 1 - f).toNat < 2 ^ 31 then v + 1 else f
    let regs := s.wakes.filter (fun w => w.place == .home h && w.line == some line)
    let s1 := wakeAll regs { s with lines := kdel s.lines line, refill := kset s.refill h f1 }
    { s1 with wakes := s1.wakes.filter (fun w => !(w.place == .home h && w.line == some line && (match w.who with | .wave _ => true | .queue _ => false))) }

/-- Lines that a memory-side cache of 512 KiB holds (R88). -/
def homeLines : Nat := 2048

/-- Resident lines of a home that it may evict: a locked line stays (R89). -/
def evictable (s : State) (home : Nat) : List Nat :=
  ((s.lines.filter (fun e => homeOf (e.1 * 256) == home)).map (·.1)).filter (fun l => !commitHolds s l)

/-- Room for a line at its home: a full memory-side cache evicts a line that is not locked, which one being a free value (R88,
DESIGN CHOICE log 10). -/
def makeRoom (line : Nat) (s : State) : State :=
  let h := homeOf (line * 256)
  if (kget? s.lines line).isSome || decide ((s.lines.filter (fun e => homeOf (e.1 * 256) == h)).length < homeLines) then s
  else
    let ls := evictable s h
    match ls[(free s 21 line).toNat % ls.length]? with
    | some v => evictLine v s
    | none => s

/-- The line is resident from now on. -/
def touchLine (line : Nat) (s0 : State) : State :=
  let s := makeRoom line s0
  { s with lines := kset s.lines line (lineVersion s line) }

/-- A write is applied to the line. -/
def bumpLine (line : Nat) (s0 : State) : State :=
  let s := makeRoom line s0
  wakeLine (homeOf (line * 256)) line { s with lines := kset s.lines line (lineVersion s line + 1) }

/-! ### Stored bytes: encryption and poison (R84, R121) -/

/-- The two XTS keys of an index (R84, KEYLOAD of R414); a failed unit of the store is held in reset (R430, DESIGN CHOICE log 141). -/
def keysAt (s : State) (k : Nat) : BitVec 512 := if s.mgmt.failed.contains (16, k) then 0 else kget s.keys k 0

/-- The keys under which a PA sector was written; after a scrub HBM stands under those of index 0 (R429). -/
def sectorTag (s : State) (pas : Nat) : Option (BitVec 512) :=
  match kget? s.sectorKeys pas with
  | some t => some t
  | none => if pas * 128 < 2 ^ 39 then s.mgmt.zeroed else none

/-- A PA sector as read under some keys (R84): memory holds what the writer's keys gave, and the reader's keys decrypt it. A sector that
nothing has written reads as it stands (DESIGN CHOICE log 8). -/
def sectorUnder (s : State) (keys : BitVec 512) (pas : Nat) : BitVec 1024 :=
  let raw := readSector s.mem (pas * 128)
  match sectorTag s pas with
  | none => raw
  | some k => if k = keys then raw else xtsSector true keys pas (xtsSector false k pas raw)

/-- A PA sector reads as poisoned (R121, R434). -/
def poisonedAt (s : State) (pas : Nat) : Bool := s.poison.contains pas || homeFenced s pas

/-- A sector's bytes for an access. -/
def homeSector (s : State) (l : Leaf) : BitVec 1024 := sectorUnder s (keysAt s l.key) (l.pa / 128)

/-- A slab's core-side copies of a PA sector go. Pages are 64 KiB or more, so a copy of it has its line and sector within 64 KiB (R80);
a copy that goes is read again at its home. -/
def dropCopies (slab pas : Nat) (s : State) : State :=
  { s with slabs := s.slabs.map (fun e =>
      if e.1 = slab then (e.1, { e.2 with copies := e.2.copies.filter (fun c => c.sector % 512 != pas % 512) }) else e) }

/-- Write bytes of a PA sector under some keys, with the poison rule of R121, the version, the stamp and the agent. A write by another
agent ends the core-side copy in the home's own slab (R110). -/
def storeSector (keys : BitVec 512) (pas : Nat) (mask : BitVec 128) (d : BitVec 1024) (poison : Bool) (agent : Nat) (stamp : List Nat)
    (s : State) : State :=
  let merged := sectorMerge (sectorUnder s keys pas) d mask
  let tagged := sectorTag s pas == some keys
  let s1 := { s with
    mem := writeSector s.mem (pas * 128) (if tagged then mask else fullMask) merged
    sectorKeys := kset s.sectorKeys pas keys
    poison := if poison then insertNat pas s.poison else if mask = fullMask then without s.poison [pas] else s.poison
    stamps := kset s.stamps pas (agent, vmax (kget s.stamps pas (0, [])).2 stamp) }
  let b := slabOfHome (homeOf (pas * 128))
  if homeFenced s pas then s else bumpLine (pas / 2) (if b = agent then s1 else dropCopies b pas s1)

/-! ### Writes on their way (R104, R105, R108) -/

/-- The stable vector of a home (R107). -/
def stableOf (s : State) (home : Nat) : List Nat := kget s.stable home [0, 0, 0, 0, 0]

/-- The vector of a slab: its own entry is the current tick. -/
def vOf (s : State) (slab : Nat) : List Nat := vset (getSlab s slab).v slab (tick56 s)

/-- A write whose new bytes the home alone knows: a sum, or what an atomic or a queue operation stores. -/
def WKind.computed : WKind → Bool
  | .addOn _ _ _ => true
  | .op _ => true
  | .sum => true
  | _ => false

/-- The message of an operation that its home serves (HOME_SERVE). -/
def isOp : WKind → Bool
  | .op _ => true
  | _ => false

/-- The poison mark of a sector after a write: a clean write of all 128 bytes clears it (R121). -/
def poisonAfter (old : Bool) (m : WriteMsg) : Bool := m.poison || (old && m.mask != fullMask)

/-- The copies of a slice after it receives a write: its own copy of the sector takes the bytes (R105); where only the home knows them,
or may turn the write away (`hides`), the copy goes and the next read finds the home's bytes. A write takes no line of its own here, a
write-back of the L1 as little as a store that went into the L1 (R91, DESIGN CHOICE log 142). -/
def updateCopies (m : WriteMsg) (hides : Bool) (cs : List SliceCopy) : List SliceCopy :=
  let mine := fun (c : SliceCopy) => !m.phys && c.ctx == m.ctx && c.sector == m.sector
  if m.kind.computed || hides then cs.filter (fun c => !mine c)
  else cs.map (fun c => if mine c then { c with
    data := sectorMerge c.data m.data m.mask, present := c.present ||| m.mask, poison := poisonAfter c.poison m } else c)

/-- A store with a release, which its home turns away when the sector is poisoned (R313). -/
def mayReturn (s : State) (m : WriteMsg) : Bool :=
  match m.kind with
  | .store id => s.reqs.any (fun r => r.id == id && r.ord != 0)
  | _ => false

/-- The core-side slice of a slab receives a write: its own copy is kept up to date (R105). -/
def pushWrite (slab : Nat) (m : WriteMsg) (s : State) : State :=
  let b := getSlab s slab
  let s1 := setSlab s slab { b with inq := b.inq ++ [{ m with id := s.ids, agent := slab, tick := s.tick }],
                                    copies := updateCopies m (mayReturn s m) b.copies }
  { s1 with ids := s1.ids + 1 }

def WriteMsg.blank : WriteMsg :=
  { id := 0, agent := 0, ctx := 0, sector := 0, phys := false, mask := 0, data := 0, poison := false, kind := .plain, stamp := [],
    tick := 0, leaf := none }

/-- The home of a write. -/
def homeOfMsg (m : WriteMsg) : Nat := homeOf (m.sector * 128)

/-- A held write may be applied: S covers its stamp, the own entry waived at a home of its own slab (R108). -/
def stableAt (s : State) (home agent : Nat) (w : List Nat) : Bool :=
  vle (if slabOfHome home = agent then vset w agent 0 else w) (stableOf s home)

/-- The oldest held write of an agent at a home. -/
def firstHeld (s : State) (home agent : Nat) : Option WriteMsg :=
  s.held.find? (fun m => homeOfMsg m == home && m.agent == agent)

/-- Writes that travel and are applied together: those of one commit, and those of one add-on-store (R119, R151). -/
def WKind.grouped : WKind → Bool
  | .commit _ => true
  | .addOn _ _ _ => true
  | _ => false

/-- All writes of a group lead their queues and are stable. -/
def groupReady (s : State) (k : WKind) : Bool :=
  (s.held.filter (fun m => m.kind == k)).all (fun m =>
    (match firstHeld s (homeOfMsg m) m.agent with
     | some f => f.kind == k
     | none => true) && stableAt s (homeOfMsg m) m.agent m.stamp)

/-- Another agent's commit locks the line of a write. -/
def lockedOut (s : State) (m : WriteMsg) : Bool :=
  match if m.phys then some (m.sector / 2) else (leafOf s m).toOption.map (fun l => l.pa / 256) with
  | none => false
  | some line => (commitLocks s).any (fun l => l.1 == line && l.2 != m.agent)

/-- The write can be applied now. -/
def applicable (s : State) (m : WriteMsg) : Bool :=
  match m.kind with
  | .commit _ => groupReady s m.kind
  | .addOn _ _ _ => groupReady s m.kind && (s.held.filter (fun x => x.kind == m.kind)).all (fun x => !lockedOut s x)
  | _ => !lockedOut s m && (match firstHeld s (homeOfMsg m) m.agent with | some f => f.id == m.id | none => false) &&
         stableAt s (homeOfMsg m) m.agent m.stamp

/-- No stable write stands before a read at the home, whether it can be applied now or waits for the rest of its group or for a lock: what
has seen a later write sees it too (R108, R109, R111). -/
def homeQuiet (s : State) (home : Nat) : Bool := !s.held.any (fun m => homeOfMsg m == home && stableAt s home m.agent m.stamp)

/-- The held message of an atomic or a queue operation. -/
def opMsg (s : State) (rid : Nat) : Option WriteMsg := s.held.find? (fun m => m.kind == .op rid)

/-- Nothing stands before an operation at a home: no write that could be applied, and nothing older that is stable (R105, R108, R109). -/
def opQuiet (s : State) (home : Nat) (m : WriteMsg) : Bool :=
  !s.held.any (fun x => homeOfMsg x == home && x.id != m.id &&
    (if x.id < m.id then stableAt s home x.agent x.stamp else !isOp x.kind && applicable s x))

/-- Writes of the slab to a sector that are on their way have been applied, so that a load finds its fibre's stores there whoever wrote
them back (R102, R109). -/
def ownApplied (s : State) (slab ctx sector : Nat) : Bool :=
  !((getSlab s slab).inq ++ s.held).any (fun m => m.agent == slab && m.ctx == ctx && !m.phys && m.sector == sector)

/-- The slab's own writes to a sector that are on their way, in the order in which its slice received them (R105). -/
def ownPending (s : State) (slab ctx sector : Nat) : List WriteMsg :=
  sortBy (fun (m : WriteMsg) => m.id) (((getSlab s slab).inq ++ s.held).filter (fun m =>
    m.agent == slab && m.ctx == ctx && !m.phys && m.sector == sector))

/-- A sector's bytes and poison with those writes over what its home holds, as the slab's core-side slice has them (R102, R105). -/
def overPending (ms : List WriteMsg) (d : BitVec 1024 × Bool) : BitVec 1024 × Bool :=
  ms.foldl (fun d m => (sectorMerge d.1 m.data m.mask, poisonAfter d.2 m)) d

/-- The read vector of a slab (R109). -/
def readVector (s : State) (slab : Nat) : List Nat := vset (getSlab s slab).v slab (getSlab s slab).lastLeft

/-- The home may serve a read with vector `q` (R109). -/
def readStable (s : State) (slab home : Nat) (q : List Nat) : Bool :=
  vle (if slabOfHome home = slab then vset q slab 0 else q) (stableOf s home)

/-- What a home has applied of its own slab's writes to a PA sector may be seen by another slab: no earlier than two ticks after it left
its slice (R111). -/
def shownTo (s : State) (slab pas : Nat) : Bool :=
  let h := homeOf (pas * 128)
  let b := slabOfHome h
  b == slab || decide (vget (kget s.stamps pas (0, [])).2 b ≤ vget (stableOf s h) b)

/-- The reading slab merges a stamp (R106). -/
def mergeStamp (slab : Nat) (w : List Nat) (s : State) : State :=
  let b := getSlab s slab
  setSlab s slab { b with v := vset (vmax b.v w) slab (vget b.v slab) }

/-- A format of the drain block's FMT codes (R358); 6 is INT32. -/
def drainFmt : Nat → Fmt
  | 2 => bf16
  | 3 => fp16
  | 4 => e4m3
  | 5 => e5m2
  | _ => fp32

/-- One element of an add-on-store (R183): the sum rounded once, or INT32 saturated. -/
def addOnElem (fmt mode old d : Nat) : Nat :=
  if fmt = 6 then wrapInt (max (-(2 ^ 31)) (min (2 ^ 31 - 1) (asInt true 32 old + asInt true 32 d))) 32
  else (addBits (drainFmt fmt) mode false (classify (drainFmt fmt) old) (classify (drainFmt fmt) d)).1

/-- The masked elements of a sector with the drained values added. -/
def addOnSector (fmt mode : Nat) (old d : BitVec 1024) (mask : BitVec 128) : BitVec 1024 :=
  let n := if fmt = 1 ∨ fmt = 6 then 4 else 2
  (List.range (128 / n)).foldl (fun acc i =>
    if mask.getLsbD (i * n) then sectorMerge acc (natSector (addOnElem fmt mode (sectorNat old (i * n) n) (sectorNat d (i * n) n)) (i * n) n) (byteMask (i * n) n)
    else acc) old

/-- The 8-byte word under a mask with the addend's word added, wrapping (R351, R402). -/
def sumSector (old d : BitVec 1024) (mask : BitVec 128) : BitVec 1024 :=
  match (List.range 16).find? (fun i => mask.getLsbD (8 * i)) with
  | some i => sectorMerge old (natSector ((sectorNat old (8 * i) 8 + sectorNat d (8 * i) 8) % 2 ^ 64) (8 * i) 8) (byteMask (8 * i) 8)
  | none => old

/-- The bytes a message writes over a sector's old ones. -/
def msgData (m : WriteMsg) (old : BitVec 1024) : BitVec 1024 :=
  match m.kind with
  | .addOn _ fmt mode => addOnSector fmt mode old m.data m.mask
  | .sum => sumSector old m.data m.mask
  | _ => m.data

/-- A sum with a poisoned sector is poisoned. -/
def msgPoison (m : WriteMsg) (old : Bool) : Bool := m.poison || (m.kind.grouped && (match m.kind with | .addOn _ _ _ => old | _ => false))

/-- The poison mark of a peer's sector after a write (R121). -/
def peerMark (sec : Nat) (mask : BitVec 128) (poison : Bool) (s : State) : State :=
  { s with peerPoison := if poison then insertNat sec s.peerPoison else if mask = fullMask then without s.peerPoison [sec] else s.peerPoison }

/-- Apply a held write at its home: under its leaf, or by PA for the host. A write-back whose page has gone is discarded
(R216); the answer says whether the bytes were applied, with the WHY of a fault. A leaf that was checked before has its A bit. -/
def applyMsg (m : WriteMsg) (s : State) : Except Nat State :=
  let ia := m.sector * 128
  if m.phys then
    let pas := m.sector
    .ok (storeSector ((sectorTag s pas).getD (keysAt s 0)) pas m.mask m.data m.poison m.agent m.stamp s)
  else if isPeer ia then .ok (peerMark (peerKey ia / 128) m.mask (msgPoison m (s.peerPoison.contains (peerKey ia / 128)))
    { s with peerMem := writeSector s.peerMem (peerKey ia) m.mask (msgData m (readSector s.peerMem (peerKey ia))) })
  else
    match leafOf s m with
    | .error y => .error y
    | .ok l => .ok ((if m.leaf.isSome then id else setAccessed l) (storeSector (keysAt s l.key) (l.pa / 128) m.mask (msgData m (homeSector s l))
        (msgPoison m (poisonedAt s (l.pa / 128))) m.agent m.stamp s))

/-! ### The L1 (R85 to R87, R90) -/

def L1Sector.blank : L1Sector := { present := 0, dirty := 0, data := 0, confirmed := false, poison := false }

def isFused (s : State) (core : Nat) : Bool := (getCluster s (clusterOf core)).fused

/-- The L1 that holds an IA for a core: in a fused cluster, core n of it for bits 9:8 = n (R86). -/
def l1Key (s : State) (core ia : Nat) : Nat := if isFused s core then clusterOf core * 4 + ia / 256 % 4 else core

/-- The L1s a gang of the core uses. -/
def l1Cores (s : State) (core : Nat) : List Nat :=
  if isFused s core then (List.range 4).map (fun i => clusterOf core * 4 + i) else [core]

/-- The set of a line (DESIGN CHOICE log 7). -/
def l1Set (s : State) (core line : Nat) : Nat := if isFused s core then line / 4 % 64 else line % 64

/-- Granules held in a cluster, as (first, count): scratchpad blocks and shadow banks. -/
def granulesHeld (s : State) (cluster : Nat) : List (Nat × Nat) :=
  ((s.gangs.filter (fun e => clusterOf e.2.core == cluster && e.2.granules != 0)).map (fun e =>
    (e.2.granule, e.2.granules) :: (if e.2.shadowGranule < 1024 then [(e.2.shadowGranule, e.2.granules)] else []))).flatten

/-- A run of granules is free. -/
def granulesFree (s : State) (cluster lo n : Nat) : Bool :=
  (granulesHeld s cluster).all (fun h => decide (h.1 + h.2 ≤ lo) || decide (lo + n ≤ h.1))

/-- Ways of an L1: 16 and one for every free aligned 64 KiB run of the cluster's scratchpad (R85, R87). -/
def l1Ways (s : State) (core : Nat) : Nat :=
  16 + ((List.range 64).filter (fun r => granulesFree s (clusterOf core) (r * 16) 16)).length

def l1Find (s : State) (core ctx ia : Nat) : Option L1Line :=
  (kget s.l1 (l1Key s core ia) []).find? (fun l => l.ctx == ctx && l.line == ia / 256)

def sectorOfLine (l : L1Line) (ia : Nat) : L1Sector := if ia / 128 % 2 = 0 then l.lo else l.hi
def setSectorOfLine (l : L1Line) (ia : Nat) (v : L1Sector) : L1Line := if ia / 128 % 2 = 0 then { l with lo := v } else { l with hi := v }

/-- The sector of an address in the L1, blank when the line is absent. -/
def l1Sector (s : State) (core ctx ia : Nat) : L1Sector :=
  match l1Find s core ctx ia with
  | some l => sectorOfLine l ia
  | none => L1Sector.blank

/-- Replace a line that is in the L1. -/
def l1Put (core ia : Nat) (l : L1Line) (s : State) : State :=
  { s with l1 := kmod s.l1 (l1Key s core ia) [] (fun ls => ls.map (fun x => if x.ctx = l.ctx ∧ x.line = l.line then l else x)) }

def l1Remove (core ctx ia : Nat) (s : State) : State :=
  { s with l1 := kmod s.l1 (l1Key s core ia) [] (fun ls => ls.filter (fun x => !(x.ctx == ctx && x.line == ia / 256))) }

/-- Send the dirty bytes of a sector to the core-side slice (R85). -/
def sendDirty (core ctx sector : Nat) (v : L1Sector) (s : State) : State :=
  if v.dirty = 0 then s
  else pushWrite (slabOf core) { WriteMsg.blank with
    ctx := ctx, sector := sector, mask := v.dirty, data := v.data, poison := v.poison, kind := .writeBack } s

/-- The bytes of an L1 sector that a load may take: what its gang has stored, and what its earlier loads have seen (R102). An uncached
load takes the dirty ones only, and so does one with an acquire of scope s or wider: clean ones may be older than what it is promised
(R111, DEDUCED log 132). -/
def ownBytes (pol : BitVec 2) (ord sc : BitVec 2) (v : L1Sector) : BitVec 128 :=
  if pol == 3 || (ord.getLsbD 0 && sc != 0) then v.dirty else v.present

/-- Loads of an L1 whose value a home has fixed take their bytes of a sector that the L1 is about to lose, or to hold clean (R102). -/
def handOver (k ctx sector : Nat) (v : L1Sector) (s : State) : State :=
  if v.present = 0 then s else
  { s with reqs := s.reqs.map (fun r =>
      if r.kind == .load && r.phase == .reply && r.ca % 8 != 4 && r.ctx == ctx && r.ia / 128 == sector && l1Key s r.core r.ia == k then
        let mask := ownBytes r.pol r.ord r.sc v
        { r with sector := sectorMerge r.sector v.data mask, sectorPoison := r.sectorPoison || (v.poison && mask != 0) }
      else r) }

/-- Write back both sectors of a line. -/
def sendLine (core : Nat) (l : L1Line) (s : State) : State :=
  sendDirty core l.ctx (l.line * 2 + 1) l.hi (sendDirty core l.ctx (l.line * 2) l.lo s)

/-- An L1 loses a line, or keeps it clean: its dirty bytes are written back. -/
def loseLine (k : Nat) (l : L1Line) (s : State) : State :=
  sendLine k l (handOver k l.ctx (l.line * 2 + 1) l.hi (handOver k l.ctx (l.line * 2) l.lo s))

/-- A transaction whose buffered line is evicted from the L1 that its core uses aborts with WCAP (R147). -/
def evictBuffered (core ctx line : Nat) (s : State) : State :=
  (l1Cores s core).foldl (fun s c => (List.range 32).foldl (fun s w =>
    let k := slotKey c w
    let sl := getSlot s k
    match sl.txn with
    | some t => if t.writes.globLines.contains line && (getGang s sl.gang).ctx == ctx then abortTxn c k sl.gang 4 0 s else s
    | none => s) s) s

/-- A line of the L1 holds buffered writes of an open transaction of a core that uses the L1 (R149): it stays until they end. -/
def isBuffered (s : State) (core ctx line : Nat) : Bool :=
  (l1Cores s core).any (fun c => (List.range 32).any (fun w =>
    let sl := getSlot s (slotKey c w)
    match sl.txn with
    | some t => t.writes.globLines.contains line && (getGang s sl.gang).ctx == ctx
    | none => false))

/-- Re-reference values of a full set: raised together until one is 7; the victim is the lowest way with 7 (R90). -/
def victimOf (ls : List L1Line) : Option L1Line × Nat :=
  let top := ls.foldl (fun m l => max m l.rr) 0
  (leastBy (fun l => l.way) (ls.filter (fun l => l.rr == top)), 7 - top)

/-- Bring a line into the L1 with an insertion value, evicting as R90 says; a line that is there keeps its value when its second sector
is filled. An empty way is filled before any victim is chosen, the lowest first (DESIGN CHOICE log 112). -/
def l1Alloc (core ctx ia rr : Nat) (s : State) : State :=
  match l1Find s core ctx ia with
  | some _ => s
  | none =>
    let k := l1Key s core ia
    let line := ia / 256
    let ls := kget s.l1 k []
    let set := ls.filter (fun l => l1Set s core l.line == l1Set s core line)
    let fresh := fun way => { ctx := ctx, line := line, way := way, rr := rr, lo := L1Sector.blank, hi := L1Sector.blank : L1Line }
    match (List.range (l1Ways s core)).find? (fun w => !set.any (fun l => l.way == w)) with
    | some w => { s with l1 := kset s.l1 k (ls ++ [fresh w]) }
    | none =>
      match victimOf set with
      | (none, _) => s
      | (some v, up) =>
        let aged := ls.map (fun l => if set.contains l then { l with rr := l.rr + up } else l)
        let kept := aged.filter (fun l => !(l.ctx == v.ctx && l.line == v.line))
        loseLine k v (evictBuffered core v.ctx v.line { s with l1 := kset s.l1 k (kept ++ [fresh v.way]) })

/-- The insertion value of RD and POL (R90, R91). -/
def insertion (rd : BitVec 3) (pol : BitVec 2) : Nat :=
  if pol = 1 then 7 else
  match rd.toNat with
  | 1 => 0
  | 2 => 2
  | 3 => 4
  | 4 => 7
  | _ => 6

/-- RD and POL let a load allocate in the L1, and in the core-side slice: POL stream does whatever RD says (R90, R91). -/
def allocL1 (rd : BitVec 3) (pol : BitVec 2) : Bool := pol == 1 || (rd != 5 && pol == 0)
def allocSlice (rd : BitVec 3) (pol : BitVec 2) : Bool := pol == 1 || (rd != 5 && pol != 3)

/-- A hit sets the line's re-reference value to 0 (R90). -/
def l1Hit (core ctx ia : Nat) (s : State) : State :=
  match l1Find s core ctx ia with
  | some l => l1Put core ia { l with rr := 0 } s
  | none => s

/-- A line that a store must hold: a line that is there is hit, otherwise it is allocated (R90, R149). -/
def l1Reserve (core ctx ia rr : Nat) (s : State) : State :=
  if (l1Find s core ctx ia).isSome then l1Hit core ctx ia s else l1Alloc core ctx ia rr s

/-- Fill the bytes of a sector that the L1 does not hold: what it holds is a store's, or was seen by a load (R102, R314). The sector becomes write-confirmed when the leaf allows writes (R216). -/
def l1Fill (core ctx ia rr : Nat) (d : BitVec 1024) (poison confirmed : Bool) (s : State) : State :=
  let s1 := l1Alloc core ctx ia rr s
  match l1Find s1 core ctx ia with
  | none => s1
  | some l =>
    let v := sectorOfLine l ia
    l1Put core ia (setSectorOfLine l ia { v with
      data := sectorMerge d v.data v.present, present := fullMask,
      poison := v.poison || (poison && v.present != fullMask), confirmed := v.confirmed || confirmed }) s1

/-- Write the bytes of a mask into an L1 sector, dirty or clean. -/
def l1Merge (core ctx ia : Nat) (mask : BitVec 128) (d : BitVec 1024) (poison dirty : Bool) (s : State) : State :=
  match l1Find s core ctx ia with
  | none => s
  | some l =>
    let v := sectorOfLine l ia
    l1Put core ia (setSectorOfLine l ia { v with
      data := sectorMerge v.data d mask, present := v.present ||| mask, poison := v.poison || poison,
      dirty := if dirty then v.dirty ||| mask else v.dirty &&& ~~~mask }) s

/-- Write bytes into an L1 sector, dirty or clean. -/
def l1Write (core ctx ia n : Nat) (d : Nat) (poison dirty : Bool) (s : State) : State :=
  l1Merge core ctx ia (byteMask (ia % 128) n) (natSector d (ia % 128) n) poison dirty s

/-- The clean bytes of a mask go: a store that wrote them has not been performed. -/
def l1Forget (core ctx ia : Nat) (mask : BitVec 128) (s : State) : State :=
  match l1Find s core ctx ia with
  | none => s
  | some l =>
    let v := sectorOfLine l ia
    l1Put core ia (setSectorOfLine l ia { v with present := v.present &&& ~~~(mask &&& ~~~v.dirty) }) s

/-- Mark a sector write-confirmed. -/
def l1Confirm (core ctx ia : Nat) (s : State) : State :=
  match l1Find s core ctx ia with
  | none => s
  | some l => l1Put core ia (setSectorOfLine l ia { sectorOfLine l ia with confirmed := true }) s

/-- The bytes of an access are all in the L1. -/
def l1Has (s : State) (core ctx ia n : Nat) : Bool :=
  let m := byteMask (ia % 128) n
  (l1Sector s core ctx ia).present &&& m == m

/-- Write back a sector and leave it clean, or drop it when `drop`. -/
def cleanSector (core ctx ia : Nat) (drop : Bool) (s : State) : State :=
  match l1Find s core ctx ia with
  | none => s
  | some l =>
    let v := sectorOfLine l ia
    let s1 := sendDirty core ctx (ia / 128) v (handOver (l1Key s core ia) ctx (ia / 128) v s)
    let l1 := setSectorOfLine l ia (if drop then L1Sector.blank else { v with dirty := 0 })
    if l1.lo.present = 0 ∧ l1.hi.present = 0 ∧ !isBuffered s core ctx (ia / 256) then l1Remove core ctx ia s1 else l1Put core ia l1 s1

/-- A sector keeps its dirty bytes only; loads that it has served its other bytes to keep them (R102). -/
def dropClean (core ctx ia : Nat) (s : State) : State :=
  match l1Find s core ctx ia with
  | none => s
  | some l =>
    let v := sectorOfLine l ia
    let l1 := setSectorOfLine l ia (if v.dirty = 0 then L1Sector.blank else { v with present := v.dirty })
    let s1 := handOver (l1Key s core ia) ctx (ia / 128) v s
    if l1.lo.present = 0 ∧ l1.hi.present = 0 ∧ !isBuffered s core ctx (ia / 256) then l1Remove core ctx ia s1 else l1Put core ia l1 s1

/-- Loads and prefetches in flight that a test names no longer fill the core's L1. -/
def blockIf (core : Nat) (p : Req → Bool) (s : State) : State :=
  { s with reqs := s.reqs.map (fun r => if (r.kind == .load || r.kind == .prefetch) && (l1Cores s core).contains r.core && p r
      then { r with noFill := true } else r) }

/-- All whose value is fixed, or every one of a sector that is dropped. -/
def blockFills (core : Nat) (sector : Option (Nat × Nat)) (s : State) : State :=
  blockIf core (fun r => match sector with | none => r.phase == .reply | some (c, x) => r.ctx == c && r.ia / 128 == x) s

/-- Write back every dirty byte of the L1s the core's gangs use; with `drop`, every sector then goes (R101). -/
def cleanAll (core : Nat) (drop : Bool) (s : State) : State :=
  let one := fun (s : State) (k : Nat) =>
    let ls := kget s.l1 k []
    let s1 := ls.foldl (fun s l => loseLine k l s) s
    { s1 with l1 := kset s1.l1 k (if drop
        then (ls.filter (fun l => isBuffered s core l.ctx l.line)).map (fun l => { l with lo := L1Sector.blank, hi := L1Sector.blank })
        else ls.map (fun l => { l with lo := { l.lo with dirty := 0 }, hi := { l.hi with dirty := 0 } })) }
  let s2 := (l1Cores s core).foldl one s
  if drop then blockFills core none s2 else s2

/-! ### The write-combining buffer (R92) -/

def wcSend (core : Nat) (w : WcEntry) (s : State) : State :=
  pushWrite (slabOf core) { WriteMsg.blank with
    ctx := w.ctx, sector := w.sector, mask := w.mask, data := w.data, poison := w.poison, kind := .writeBack } s

/-- Send the buffered sectors that a test names. -/
def wcFlush (core : Nat) (p : WcEntry → Bool) (s : State) : State :=
  let ws := kget s.wcb core []
  let s1 := (ws.filter p).foldl (fun s w => wcSend core w s) s
  { s1 with wcb := kset s1.wcb core (ws.filter (fun w => !p w)) }

/-- A store gathers in the buffer of eight entries; a store that finds no free entry sends the oldest first, and one that fills the
buffer sends all (R92). -/
def wcStore (core ctx ia n d : Nat) (poison : Bool) (s : State) : State :=
  let sec := ia / 128
  let mask := byteMask (ia % 128) n
  let dat := natSector d (ia % 128) n
  let ws := kget s.wcb core []
  if ws.any (fun w => w.ctx == ctx && w.sector == sec) then
    { s with wcb := kset s.wcb core (ws.map (fun w => if w.ctx == ctx && w.sector == sec then
        { w with mask := w.mask ||| mask, data := sectorMerge w.data dat mask, poison := w.poison || poison } else w)) }
  else
    let s1 := if ws.length < 8 then s else
      match ws with
      | w :: rest => wcSend core w { s with wcb := kset s.wcb core rest }
      | [] => s
    let s2 := { s1 with wcb := kmod s1.wcb core [] (fun l => l ++ [⟨ctx, sec, mask, dat, poison, core⟩]) }
    if (kget s2.wcb core []).length < 8 then s2 else wcFlush core (fun _ => true) s2

/-! ### Release and acquire (R100, R101, R112 to R114) -/

/-- Write back the L1 and send the write-combining buffer (R101). -/
def releaseCaches (core : Nat) (s : State) : State := wcFlush core (fun _ => true) (cleanAll core false s)

/-- The fibre has an access that has not been performed: a request in flight. -/
def hasReq (s : State) (gid fid : Nat) : Bool := s.reqs.any (fun r => r.gang == gid && r.fid == fid && r.kind != .prefetch)

/-- An acquire of the fibre has not been performed, or what acts like one: a TASKTAKE, whose regions go before any later access, and a
quarry instruction (R125, R167). -/
def acquirePending (s : State) (gid fid : Nat) : Bool :=
  s.reqs.any (fun r => r.gang == gid && r.fid == fid && (r.ord.getLsbD 0 || r.kind == .take)) ||
  s.quarries.any (fun q => q.2.ops.any (fun o => match o with
    | .instr _ g x _ _ _ _ _ _ => g == gid && x == fid
    | .reply g x _ _ _ _ => g == gid && x == fid
    | _ => false))

/-- The writes of a slab below an identifier, and those that left it up to a tick, are performed at a scope: at s they have reached the
core-side slice; at p they are applied, which takes at least two ticks; at y they are acknowledged as well (R112, R114). -/
def writesPerformed (s : State) (slab : Nat) (sc : BitVec 2) (upto tick : Nat) : Bool :=
  let early := fun (m : WriteMsg) => decide (m.id < upto)
  let left := fun (m : WriteMsg) => m.agent == slab && (early m || decide (m.tick ≤ tick))
  if sc.toNat < 2 then true
  else !(getSlab s slab).inq.any early && !s.held.any left && decide (tick + 2 ≤ s.tick) &&
    (sc.toNat == 2 || !s.applied.any left)

/-- The FLUSHRs and INVRs of some fibres have been performed at their scopes (R322). -/
def flushDone (s : State) (g : Gang) (slab : Nat) (fids : List Nat) : Bool :=
  !fids.any (fun fid => match (getFibre g fid).flushWait with
    | some (n, sc) => !writesPerformed s slab sc n 0
    | none => false)

/-- A release of some fibres at a scope (R100, R101): whether it has been performed, and the state. The first attempt writes back
and notes the point that scopes p and y wait for. Lanes parked on a fault that it waits for leave the wave (R219). -/
def release (e : Env) (fids : List Nat) (sc : BitVec 2) (s : State) : Bool × State :=
  let g := getGang s e.gid
  let slab := slabOf e.core
  if fids.isEmpty then (true, s)
  else if fids.any (fun fid => hasReq s e.gid fid) then (false, splitParked e fids s)
  else if !flushDone s g slab fids then (false, s)
  else if sc = 0 then (true, wcFlush e.core (fun _ => true) s)
  else
    let ws := fids.filterMap (fun fid => (getFibre g fid).relWait)
    if ws.length = fids.length then
      if ws.all (fun w => writesPerformed s slab sc w.1 w.2) then
        (true, setGang s e.gid (mapFibres g (fun fid f => if fids.contains fid then { f with relWait := none, flushWait := none } else f)))
      else (false, s)
    else
      let s1 := releaseCaches e.core s
      if sc.toNat < 2 then (true, s1)
      else (false, setGang s1 e.gid (mapFibres (getGang s1 e.gid) (fun fid f =>
        if fids.contains fid then { f with relWait := some (s1.ids, s1.tick) } else f)))

/-- The cache and vector effect of an acquire once its load is performed (R101, R113). -/
def acquireEffect (core : Nat) (sc : BitVec 2) (s : State) : State :=
  if sc = 0 then s
  else
    let s1 := cleanAll core true s
    if sc.toNat < 2 then s1
    else
      let b := slabOf core
      mergeStamp b (List.replicate 5 (tick56 s1 - 1)) s1

/-! ### Core-side copies (R88, R110) -/

/-- A copy that may satisfy a read of some bytes of a sector: homed in the slab, or filled under a stable vector that covers Q, and not 64
ticks old. A home of the slab must have applied what the reader may know of, as for a read that it serves (R109, R111, DEDUCED log
131). -/
def sliceHit (s : State) (slab ctx sector : Nat) (mask : BitVec 128) : Option SliceCopy :=
  match (getSlab s slab).copies.find? (fun c => c.ctx == ctx && c.sector == sector && c.present &&& mask == mask) with
  | none => none
  | some c =>
    let h := homeOf (sector * 128)
    if slabOfHome h = slab then if homeQuiet s h && readStable s slab h (readVector s slab) then some c else none
    else if vle (readVector s slab) c.stable && decide (s.tick < c.filled + 64) then some c else none

/-- Ways and sets of a slab's slices: 48 MiB of 256-byte lines (R88, DESIGN CHOICE log 9). -/
def sliceWays : Nat := 16
def sliceSet (line : Nat) : Nat := line % 12288

/-- A hit sets the re-reference value of the slab's line to 0 (R90). -/
def sliceTouch (slab ctx sector : Nat) (s : State) : State :=
  let b := getSlab s slab
  setSlab s slab { b with copies := b.copies.map (fun c => if c.ctx == ctx && c.sector / 2 == sector / 2 then { c with rr := 0 } else c) }

/-- The way that a line takes in its set, and the copies that stay: the line's own way, the lowest empty one, or that of the victim
of R90. -/
def sliceRoom (ctx sector : Nat) (cs : List SliceCopy) : Nat × List SliceCopy :=
  let line := sector / 2
  let inSet := fun (c : SliceCopy) => sliceSet (c.sector / 2) == sliceSet line
  match cs.find? (fun c => c.ctx == ctx && c.sector / 2 == line) with
  | some c => (c.way, cs)
  | none =>
    match (List.range sliceWays).find? (fun w => !cs.any (fun c => inSet c && c.way == w)) with
    | some w => (w, cs)
    | none =>
      let top := (cs.filter inSet).foldl (fun m c => max m c.rr) 0
      match leastBy (fun (c : SliceCopy) => c.way) (cs.filter (fun c => inSet c && c.rr == top)) with
      | none => (0, cs)
      | some v => (v.way, (cs.filter (fun c => !(inSet c && c.way == v.way))).map (fun c =>
          (if inSet c then { c with rr := c.rr + (7 - top) } else c)))

/-- A unit without a function of R434 that the last scrub failed: it is held in reset (R430, DESIGN CHOICE log 141). -/
def unitFailed (s : State) (c i : Nat) : Bool := s.mgmt.failed.contains (c, i)

/-- Put a copy into the slab's slice, in place of one of the same sector. A line that is there keeps its re-reference value when its
second sector comes (R90, DESIGN CHOICE log 112). -/
def slicePut (slab : Nat) (c : SliceCopy) (s : State) : State :=
  let b := getSlab s slab
  let rr := match b.copies.find? (fun x => x.ctx == c.ctx && x.sector / 2 == c.sector / 2) with | some x => x.rr | none => c.rr
  let (way, cs) := sliceRoom c.ctx c.sector b.copies
  if unitFailed s 3 slab then s
  else setSlab s slab { b with copies := cs.filter (fun x => !(x.ctx == c.ctx && x.sector == c.sector)) ++ [{ c with way := way, rr := rr }] }

/-- Fill the slab's copy with what the home served, brought up to date with the slab's own writes on their way; while one of them
is known to its home alone, the slice keeps no copy (R105). -/
def sliceFill (slab ctx sector : Nat) (d : BitVec 1024) (poison : Bool) (stamp : List Nat) (writer rr : Nat) (s : State) : State :=
  let mine := ownPending s slab ctx sector
  if mine.any (fun m => m.kind.computed || mayReturn s m) then s
  else
    let v := overPending mine (d, poison)
    slicePut slab {
      ctx := ctx, sector := sector, way := 0, present := fullMask, data := v.1, poison := v.2,
      stable := stableOf s (homeOf (sector * 128)), stamp := stamp, writer := writer, filled := s.tick, rr := rr } s

/-- A keep-in-slab store whose sector the slice does not hold takes its place there with the bytes that it writes (R91, R315). -/
def sliceStore (slab ctx sector : Nat) (mask : BitVec 128) (d : BitVec 1024) (poison : Bool) (rr : Nat) (s : State) : State :=
  if (getSlab s slab).copies.any (fun c => c.ctx == ctx && c.sector == sector) then sliceTouch slab ctx sector s
  else slicePut slab {
      ctx := ctx, sector := sector, way := 0, present := mask, data := d, poison := poison,
      stable := stableOf s (homeOf (sector * 128)), stamp := [0, 0, 0, 0, 0], writer := slab, filled := s.tick, rr := rr } s

/-- A slab's slice forwards everything that it has received (R105): the writes leave for their homes with its vector now. -/
def drainSlice (slab : Nat) (s : State) : State :=
  let b := getSlab s slab
  if b.inq.isEmpty then s
  else { setSlab s slab { b with inq := [], lastLeft := tick56 s } with
    held := s.held ++ b.inq.map (fun x => { x with stamp := vOf s slab, tick := s.tick }) }

/-! ### Scratchpad (R30, R34, R76, R148) -/

/-- The allocator status word stands at the top of the offset space (R34). -/
def isAllocWord (off : Nat) : Bool := decide (0xFFFFFFF0 ≤ off)

/-- Bytes of a gang's scratchpad, the allocator word included. -/
def scratchRead (s : State) (gid off n : Nat) : Nat :=
  let g := getGang s gid
  if isAllocWord off then (allocatorWord s g).toNat / 2 ^ (8 * (off - 0xFFFFFFF0)) % 2 ^ (8 * n) else readLE g.scratch off n

/-- Version of a scratchpad line. -/
def scratchVersion (s : State) (gid line : Nat) : Word :=
  let g := getGang s gid
  if line = 0xFFFFFF then g.allocVersion else kget g.versions line 0

/-- Write bytes of a scratchpad: the version of every line touched rises, and waiters wake. -/
def scratchWrite (gid off : Nat) (bs : List Byte) (s : State) : State :=
  let g := getGang s gid
  let lines := (List.range ((off % 256 + bs.length + 255) / 256)).map (fun i => off / 256 + i)
  let s1 := setGang s gid { g with scratch := writeBytes g.scratch off bs,
                                   unfenced := g.unfenced.filter (fun e => decide (e.1 < off) || decide (off + bs.length ≤ e.1)),
                                   versions := lines.foldl (fun m l => kset m l (kget m l 0 + 1)) g.versions }
  lines.foldl (fun s l => wakeScratch gid (l * 256) s) s1

/-- An engine of a class writes over a byte of a bank: the layers under it (R355). -/
def overLayer (cls : Nat) (old : Byte) : List (Nat × Byte) → List (Nat × Byte)
  | [] => [(cls, old)]
  | l :: ls => if l.1 = cls then l :: ls else (cls, old) :: l :: ls

/-- Bytes of a bank that an engine has written lie over what a parameter block's snapshot sees until a fence; marks and counts are not
held back (R115, R355, DESIGN CHOICE log 108). -/
def noteEngine (cls gid off n : Nat) (before : Gang) (s : State) : State :=
  let g := getGang s gid
  setGang s gid { g with unfenced := ((List.range n).map (off + ·)).foldl (fun m a =>
    kset m a (overLayer cls (readByte before.scratch a) (kget before.unfenced a []))) g.unfenced }

/-- A write of an engine class to a scratchpad. -/
def engineWrite (cls gid off : Nat) (bs : List Byte) (s : State) : State :=
  noteEngine cls gid off bs.length (getGang s gid) (scratchWrite gid off bs s)

/-- A FENCEX from an engine class to VEC: the class's writes so far are seen (R115, R116). -/
def seeEngine (cls gid : Nat) (s : State) : State :=
  let g := getGang s gid
  setGang s gid { g with unfenced := (g.unfenced.map (fun e => (e.1, e.2.takeWhile (fun l => l.1 != cls)))).filter (fun e => !e.2.isEmpty) }

/-- Bytes of a scratchpad as a parameter block's snapshot reads them (R355). -/
def snapshot (g : Gang) (off n : Nat) : List Byte :=
  (List.range n).map (fun i => match (kget g.unfenced (off + i) []).getLast? with
    | some l => l.2
    | none => readByte g.scratch (off + i))

/-- A range of a scratchpad is inside the need (R30). -/
def inNeed (g : Gang) (off n : Nat) : Bool := decide (off + n ≤ g.kernel.spad)

/-- Poison marks of scratchpad sectors (R121): set by poisoned data, cleared by a clean write of the whole sector. -/
def scratchPoisonAt (g : Gang) (off : Nat) : Bool := g.scratchPoison.contains (off / 128)
def scratchMark (gid off n : Nat) (poison : Bool) (s : State) : State :=
  let g := getGang s gid
  setGang s gid { g with scratchPoison :=
    if poison then insertNat (off / 128) g.scratchPoison
    else if off % 128 = 0 ∧ 128 ≤ n then without g.scratchPoison ((List.range (n / 128)).map (fun i => off / 128 + i))
    else g.scratchPoison }

/-! ### Sync words (R163, R164) -/

/-- A landing or an arrival may end the phase; a phase's end resets both counts. -/
def endPhase (w : Quad) : Quad :=
  let gen := w.extractLsb' 0 32
  let at_ := w.extractLsb' 32 16
  let ac := w.extractLsb' 48 16
  let bt := w.extractLsb' 64 32
  let bc := w.extractLsb' 96 32
  if at_ ≤ ac ∧ bt ≤ bc then (0 : Word) ++ bt ++ (0 : BitVec 16) ++ at_ ++ (gen + 1) else w

def syncRead (s : State) (gid off : Nat) : Quad := BitVec.ofNat 128 (readLE (getGang s gid).scratch off 16)
def syncWrite (gid off : Nat) (w : Quad) (s : State) : State := scratchWrite gid off (bytesOfNat 16 w.toNat) s

def satAdd (w a b : Nat) : Nat := min (a + b) (2 ^ w - 1)

/-- An engine landing counts bytes (R164); a gang that has ended counts nothing. -/
def syncBytes (gid : Nat) (sync : Option Nat) (n : Nat) (s : State) : State :=
  match sync, kget? s.gangs gid with
  | some off, some _ =>
    let w := syncRead s gid off
    let bc := BitVec.ofNat 32 (satAdd 32 (w.extractLsb' 96 32).toNat n)
    syncWrite gid off (endPhase (bc ++ w.extractLsb' 0 96)) s
  | _, _ => s

end Sys2Proof.Machine
end

