-- ==== Sys2Proof/Machine/Txn.lean ====
section
/-! DEFINITION. Sys2Proof/Machine/Txn.lean: fetch targets, transactions, and the instructions TBEGIN to TORELSE (chapters 7, 16). -/
namespace Sys2Proof.Machine

/-! ### Fetch lines and targets (R233 to R235) -/

/-- The 64 bytes of a fetch line as the home or the peer serves them, or the WHY of a page fault. -/
def lineBits (s : State) (ctx ia : Nat) : Except Nat (BitVec 512) :=
  if isPeer ia then .ok (BitVec.ofNat 512 (readLE s.peerMem (peerKey ia) 64))
  else match translate s ctx ia true false with
  | .error y => .error y
  | .ok l => .ok ((homeSector s l).extractLsb' (8 * (ia % 128)) 512)

def lineWord (l : BitVec 512) : Word := l.extractLsb' 480 32
def slotWord (l : BitVec 512) (i : Nat) : BitVec 96 := l.extractLsb' (96 * i) 96

/-- PAR matches the instruction bits (R233). -/
def parityOk (l : BitVec 512) : Bool :=
  (List.range 16).all (fun j =>
    (List.range 30).foldl (fun b i => b != l.getLsbD (30 * j + i)) false == (lineWord l).getLsbD (16 + j))

/-- A fetch of the line of a PC sets A in the leaf that translates it (R83). -/
def touchFetchAt (ctx : Nat) (pc : W64) (s : State) : State :=
  match checkWindow s ctx (lineOf pc) pathVec 4 with
  | .error _ => s
  | .ok ia =>
    if isPeer ia then s
    else match translate s ctx ia true false with
      | .ok l => setAccessed l s
      | .error _ => s

/-- The WHY of the page fault that the line of a target meets at its home, once the target has passed its window. -/
def targetPage (s : State) (ctx : Nat) (t : W64) : Option Nat :=
  if t &&& 0x38 ≠ 0 ∨ 4 < t.toNat % 8 then none
  else
    match checkWindow s ctx (lineOf t) pathVec 4 with
    | .error _ => none
    | .ok ia => match lineBits s ctx ia with | .error y => some y | .ok _ => none

/-- The trap a transfer to `t` raises when it issues: 3 TARGET, 5 RANGE or 6 PERM (R235). A line that faults at its home is not such
a trap: its lanes park (targetPage). RANGE and PERM have the target PC as TRAPVAL, its slot bits among it (DESIGN CHOICE log 152). -/
def targetTrap (s : State) (ctx : Nat) (t : W64) : Option (Nat × W64) :=
  if t &&& 0x38 ≠ 0 ∨ 4 < t.toNat % 8 then some (3, t)
  else
    match checkWindow s ctx (lineOf t) pathVec 4 with
    | .error c => some (c, t)
    | .ok ia =>
      match lineBits s ctx ia with
      | .error _ => none
      | .ok l => if (lineWord l).getLsbD (t.toNat % 8) then none else some (3, t)

/-- PAIR bit of the slot of a PC, in the line as its home holds it (R17). -/
def pairBit (s : State) (ctx : Nat) (pc : W64) : Bool :=
  match checkWindow s ctx (lineOf pc) pathVec 4 with
  | .error _ => false
  | .ok ia => match lineBits s ctx ia with
    | .error _ => false
    | .ok l => decide (pc.toNat % 8 < 4) && (lineWord l).getLsbD (5 + pc.toNat % 8)

/-- The line of a target that its TGT bits turn away has been fetched through its page all the same (R83, R235). -/
def touchTarget (e : Env) (t : W64) (s : State) : State :=
  if t &&& 0x38 ≠ 0 ∨ 4 < t.toNat % 8 ∨ targetTrap s e.g.ctx t = none then s else touchFetchAt e.g.ctx t s
def touchTargets (e : Env) (ts : List W64) (s : State) : State := ts.foldl (fun s t => touchTarget e t s) s

/-- Lanes whose guard carries poison, raising POISON with TRAPVAL 0 (R298, R333). -/
def guardPoison (h : Hdr) (e : Env) : Raised :=
  (e.fids.filter (fun fid => (guard h (getFibre e.g fid)).2)).map (fun fid => (fid, 14, 0))

/-- A fault of a transactional access is reported for the lanes that met it, and the aborted wave waits parked for the driver's
service (R155). -/
def txnFault (core key gid : Nat) (lanes : List Nat) (pc va : W64) (why acc : Nat) (s : State) : State :=
  let s1 := abortTxn core key gid 7 0 s
  let fids := (getSlot s1 key).fids
  let g := getGang s gid
  let seq := s1.seq
  let s2 := report { FaultRec.blank with
    kind := 1, why := why, acc := acc, ctx := g.ctx, slot := key % 32, unit := core, lanes := laneMask lanes, va := va,
    pc := pc, ref := .lanes core (key % 32) gid fids false } s1
  let s3 := setGang s2 gid { mapFibres (getGang s2 gid) (fun fid f => if fids.contains fid then { f with park := .fault seq va false } else f) with
    replayable := true }
  toTable core gid fids .parked (leaveSlot key fids s3)

/-- A fetch faults at the line's home (R235): the lanes that need the line park at the PC they were about to issue, and the fault is
reported with ACC 3 and the line's VA; inside a transaction R155 applies, and on a handler line the trap fails. -/
def parkFetch (e : Env) (fids : List Nat) (va : W64) (why : Nat) (s : State) : Out :=
  if e.sl.handler.isSome then .next (trapFailure e 34 s)
  else if e.sl.txn.isSome then .next (txnFault e.core e.key e.gid fids e.pc va why 3 s)
  else
    let seq := s.seq
    let s1 := report { FaultRec.blank with
      kind := 1, why := why, acc := 3, ctx := e.g.ctx, slot := e.key % 32, unit := e.core, lanes := laneMask fids, va := va,
      pc := e.pc, ref := .lanes e.core (e.key % 32) e.gid fids true } s
    let s2 := setGang s1 e.gid { mapFibres (getGang s1 e.gid) (fun fid f =>
      if fids.contains fid then { f with park := .fault seq va true } else f) with replayable := true }
    .next (toTable e.core e.gid fids .parked (leaveSlot e.key fids s2))

/-- A transfer needs the lines of its targets, whose TGT bits it checks: lanes whose target line faults park at the transfer itself,
which issues again after the service (R235, DEDUCED log 115). -/
def needTargets (e : Env) (act : List Nat) (t : Nat → W64) (s : State) (k : State → Out) : Out :=
  match act.find? (fun fid => (targetPage s e.g.ctx (t fid)).isSome) with
  | none => k (act.foldl (fun s fid => touchFetchAt e.g.ctx (t fid) s) s)
  | some a => parkFetch e (act.filter (fun fid => lineOf (t fid) == lineOf (t a))) (lineOf (t a)) ((targetPage s e.g.ctx (t a)).getD 1) s

/-! ### The running path of a transaction (R146, R299, R300, R335) -/

def TxnWrites.empty : TxnWrites := { glob := [], globVa := [], globLines := [], globPoison := [], scr := [], scrLines := [], scrPoison := [] }

def getTxn (s : State) (key : Nat) (t : Txn) : Txn := ((getSlot s key).txn).getD t
def setTxn (key : Nat) (t : Txn) (s : State) : State := setSlot s key { getSlot s key with txn := some t }

/-- The pinned fibres of a wave. -/
def pinned (sl : Slot) (t : Txn) : List Nat := without sl.fids t.held

/-- Fibres that wait at a JOIN. -/
def joinWaiting (g : Gang) (fid : Nat) : Bool := g.joinSets.any (fun e => e.2.waiting.contains fid)

/-- Choose the path that runs next: the lowest next PC among the fibres that can go on; when all wait at one TEND or TORELSE they go
on together, and at different ones the transaction aborts with FORBIDDEN. While some wait at a JOIN and the rest wait too, none runs. -/
def pickPath (core key gid : Nat) (s : State) : State :=
  let sl := getSlot s key
  let g := getGang s gid
  match sl.txn with
  | none => s
  | some t =>
    let ps := pinned sl t
    let can := ps.filter (fun f => !t.arrived.contains f && !joinWaiting g f)
    let pcOf := fun f => (getFibre g f).pc.toNat
    match leastBy pcOf can with
    | some f => setTxn key { t with active := can.filter (fun x => pcOf x == pcOf f) } s
    | none =>
      if t.arrived.length = ps.length then
        match ps with
        | f :: _ =>
          if ps.all (fun x => pcOf x == pcOf f) then setTxn key { t with active := ps, arrived := [] } s
          else abortTxn core key gid 6 0 s
        | [] => s
      else setTxn key { t with active := [] } s

/-- The running fibres reach a TEND or TORELSE before the rest. -/
def arriveTxn (e : Env) (t : Txn) (s : State) : State :=
  pickPath e.core e.key e.gid (setTxn e.key { t with arrived := t.arrived ++ e.fids, active := [] } s)

/-! ### Opening and closing levels -/

/-- ILLEGAL for the executing lanes when no transaction is open (R335). -/
def illegalHere (i : Instr) (e : Env) (act : List Nat) (s : State) : Out :=
  takeTrap e (act.map (fun fid => (fid, 2, illegalVal i))) s

/-- The same as raised causes, beside those of the guards: the lowest code is taken (R224). -/
def outsideTxn (i : Instr) (e : Env) (act : List Nat) : Raised :=
  if e.sl.txn.isSome then [] else act.map (fun fid => (fid, 2, illegalVal i))

/-- Open a level, or abort with NEST at the fifth (R147, R334). -/
def openLevel (e : Env) (t : Txn) (alt : Option W64) (s : State) : Out :=
  if 4 ≤ t.levels.length then .next (abortTxn e.core e.key e.gid 5 0 s)
  else .next (setTxn e.key { t with levels := { alt := alt, taken := false, checkpoint := t.writes } :: t.levels }
    (retirePlain e 5 s))

/-- Start a transaction for the executing fibres; the others are held after the TBEGIN (R146, R334). -/
def startTxn (e : Env) (act : List Nat) (target : W64) (s : State) : Out :=
  let s1 := retirePlain e 5 s
  .next (setTxn e.key {
    beginPc := e.pc, abortPc := target, levels := [{ alt := none, taken := false, checkpoint := TxnWrites.empty }],
    reads := [], writes := TxnWrites.empty, held := without e.fids act, active := act, arrived := [], checked := now s, sets := [] } s1)

/-- Current version of a read-set line. -/
def readVersion (s : State) (gid : Nat) (r : TxnRead) : Word :=
  if r.scratch then scratchVersion s gid r.line else lineVersion s r.line

/-- Every version is as recorded (R151 step 2). -/
def validates (s : State) (gid : Nat) (t : Txn) : Bool := t.reads.all (fun r => readVersion s gid r == r.version)

/-- Home of a read-set line can serve a validation of the slab (R109, R151): nothing applicable is waiting, S covers Q, no other
commit holds the line, and the slab's own earlier writes to it, which would be applied before the commit's, have been applied. -/
def readsServed (s : State) (slab : Nat) (rs : List TxnRead) : Bool :=
  rs.all (fun r => r.scratch ||
    (let h := homeOf (r.line * 256)
     homeQuiet s h && readStable s slab h (readVector s slab) && !commitHolds s r.line &&
       shownTo s slab (r.line * 2) && shownTo s slab (r.line * 2 + 1) &&
       !((getSlab s slab).inq ++ s.held).any (fun m => m.agent == slab && m.sector / 2 % 256 == r.line % 256)))

def validationServed (s : State) (slab : Nat) (t : Txn) : Bool := readsServed s slab t.reads

/-- The slab's earlier writes to the homes of the write set have been applied: the lock of a line is taken behind them (R105, R151). -/
def locksServed (s : State) (slab : Nat) (ms : List WriteMsg) : Bool :=
  ms.all (fun m => !((getSlab s slab).inq ++ s.held).any (fun x => x.agent == slab && homeOfMsg x == homeOfMsg m))

/-- The buffered global writes as one message for each sector. -/
def commitMsgs (ctx id : Nat) (w : TxnWrites) : List WriteMsg :=
  let secs := w.glob.foldl (fun l e => insertNat (e.1 / 128) l) []
  secs.map (fun sec =>
    let bs := w.glob.filter (fun e => e.1 / 128 == sec)
    { WriteMsg.blank with
      ctx := ctx, sector := sec, kind := .commit id, poison := w.globPoison.contains sec,
      mask := bs.foldl (fun m e => setBit m (e.1 % 128) true) 0,
      data := bs.foldl (fun d e => sectorSet d (e.1 % 128) e.2) 0 })

/-- The buffered scratchpad writes, each line's version rising once for each write (R151). -/
def commitScratch (gid : Nat) (w : TxnWrites) (s : State) : State :=
  w.scrLines.foldl (fun s line =>
    let bs := w.scr.filter (fun e => e.1 / 256 == line)
    let g := getGang s gid
    wakeScratch gid (line * 256) (setGang s gid { g with
      scratch := bs.foldl (fun m e => writeByte m e.1 e.2) g.scratch
      unfenced := g.unfenced.filter (fun x => !bs.any (fun b => b.1 == x.1))
      scratchPoison := w.scrPoison.foldl (fun l p => if p / 2 == line then insertNat p l else l) g.scratchPoison
      versions := kset g.versions line (kget g.versions line 0 + 1) })) s

/-- The writes of a commit with what the walk of each one's page gives when its line is locked (R151). -/
def commitLooks (s : State) (ctx id : Nat) (w : TxnWrites) : List (WriteMsg × Except Nat Leaf) :=
  (commitMsgs ctx id w).map (fun m => (m, translate s ctx (m.sector * 128) true true))

/-- The walks of a commit's pages set A in their leaves (R83). -/
def walkLooks (looks : List (WriteMsg × Except Nat Leaf)) (s : State) : State :=
  looks.foldl (fun s x => match x.2 with | .ok l => setAccessed l s | .error _ => s) s

/-- Commit at the outermost TEND (R151, R152). A page that no longer allows a write when its lines are locked faults as the store would
have (R155, DESIGN CHOICE log 145): none of the commit's writes is made. -/
def commit (e : Env) (t : Txn) (s : State) : Out :=
  let ps := pinned e.sl t
  let r := release e ps 1 s
  if !r.1 then .next r.2
  else
    let s1 := r.2
    if !t.writes.globPoison.isEmpty || !t.writes.scrPoison.isEmpty then takeTrap e (ps.map (fun f => (f, 14, 0))) s1
    else if !validationServed s1 (slabOf e.core) t || !locksServed s1 (slabOf e.core) (commitMsgs e.g.ctx 0 t.writes) then .next s1
    else
      let looks := commitLooks s1 e.g.ctx s1.ids t.writes
      if looks.any (fun x => match x.2 with | .ok l => commitHolds s1 (l.pa / 256) | .error _ => false) then .next s1
      else
      let seen := walkLooks looks s1
      match looks.findSome? (fun x => match x.2 with | .error y => some (kget t.writes.globVa x.1.sector 0, y) | .ok _ => none) with
      | some (va, why) => .next (txnFault e.core e.key e.gid ps e.pc va why 1 seen)
      | none =>
      if !validates seen e.gid t then .next (abortTxn e.core e.key e.gid 1 0 seen)
      else
      let s2 := looks.foldl (fun s x => pushWrite (slabOf e.core) { x.1 with leaf := x.2.toOption } s) { seen with ids := seen.ids + 1 }
      let s3 := commitScratch e.gid t.writes s2
      let s4 := acquireEffect e.core 1 s3
      .next (closeTxn e.core e.key e.gid none none (retirePlain { e with fids := ps } 5 s4))

/-! ### Retry (R156 to R160) -/

/-- The levels from the innermost one whose alternative has not been taken. -/
def dropToAlternative : List TxnLevel → List TxnLevel
  | [] => []
  | l :: ls => if l.alt.isSome && !l.taken then l :: ls else dropToAlternative ls

/-- Register the read set, one registration for a line, or coarsely where a table is full (R157, R159). -/
def registerReads (cluster gid sid : Nat) : List TxnRead → State → Bool → State × Bool
  | [], s, co => (s, co)
  | r :: rs, s, co =>
    let place := if r.scratch then Place.cluster cluster else Place.home (homeOf (r.line * 256))
    let cap := if r.scratch then 256 else 1024
    let full := decide (cap ≤ (s.wakes.filter (fun w => w.place == place && w.line.isSome)).length)
    let w : WakeReg := { place := place, line := if full then none else some r.line, bank := r.line % 16, gang := gid, who := .wave sid }
    let s1 := { s with wakes := s.wakes ++ [w] }
    registerReads cluster gid sid rs (if full then perfEvent (getGang s gid).core 7 1 s1 else s1) (co || full)

/-- A read-set line is homed at a fenced home, whose wake registrations wake at once (R434). -/
def readsFenced (s : State) (t : Txn) : Bool := t.reads.any (fun r => !r.scratch && homeFenced s (r.line * 2))

/-- A final retry: the wave is woken at once when a version has changed or a home is fenced, otherwise it sleeps. A wave woken at once was never registered:
its TXSTATUS has CO 0 (DEDUCED log 113). -/
def finalRetry (e : Env) (t : Txn) (limit : Option Nat) (s0 : State) : Out :=
  let ps := pinned e.sl t
  let s := noteIssue e 5 s0
  if t.reads.isEmpty then .next (abortTxn e.core e.key e.gid 13 0 s)
  else if !validationServed s (slabOf e.core) t then .next s0
  else if !validates s e.gid t || readsFenced s t then
    .next (closeTxn e.core e.key e.gid (some t.beginPc) (some (fun _ => txWord 0 false 0 12)) s)
  else
    let sid := s.ids
    let r := registerReads (clusterOf e.core) e.gid sid t.reads { s with ids := s.ids + 1 } false
    let s1 := closeTxn e.core e.key e.gid (some t.beginPc) none r.1
    let s2 := toTable e.core e.gid ps (.asleep sid) (leaveSlot e.key ps s1)
    .next { s2 with sleepers := kset s2.sleepers sid { core := e.core, gang := e.gid, fids := ps, beginPc := t.beginPc, abortPc := t.abortPc, reads := t.reads, limit := limit.map (· + now s), start := now s, coarse := r.2, levels := t.levels.length } }

/-- TRETRY and TRETRYT for a wave with an open transaction. -/
def retry (e : Env) (t : Txn) (limit : Option Nat) (s : State) : Out :=
  match dropToAlternative t.levels with
  | l :: ls =>
    let ps := pinned e.sl t
    let g := getGang s e.gid
    let g1 := mapFibres g (fun fid f => if ps.contains fid then
      bumpProgress { f with pc := l.alt.getD f.pc, joins := without f.joins t.sets } else f)
    let s1 := setGang (noteIssue e 5 s) e.gid (leaveTxnSets ps t g1)
    .next (setTxn e.key { t with
      levels := { l with taken := true } :: ls, writes := l.checkpoint, active := ps, arrived := [], sets := [] } s1)
  | [] => finalRetry e t limit s

/-! ### The meanings -/

/-- The label of a format-5 target form. -/
def target5 (pc : W64) (f : F5) : W64 := directTarget pc (f.low.extractLsb' 3 24) (f.low.extractLsb' 0 3)

/-- TBEGIN (R334). -/
def execTbegin (f : F5) (s : State) : Out :=
  issue f.h true s (noScalar s) (fun e act s =>
    let label := if act.isEmpty then none else targetTrap s e.g.ctx (target5 e.pc f)
    orTrap e ((match label with | some (c, v) => act.map (fun fid => (fid, c, v)) | none => []) ++ guardPoison f.h e)
      (touchTargets e (act.map (fun _ => target5 e.pc f)) s)
      (if act.isEmpty then .next (retirePlain e 5 s)
       else needTargets e act (fun _ => target5 e.pc f) s (fun s =>
        match e.sl.txn with
        | none => startTxn e act (target5 e.pc f) s
        | some t => openLevel e t none s)))

/-- TEND (R335, R151). -/
def execTend (f : F5) (s : State) : Out :=
  issue f.h true s (noScalar s) (fun e act s =>
    match e.sl.txn with
    | none => illegalHere (.tend f) e act s
    | some t =>
      if e.fids.length < (pinned e.sl t).length then .next (arriveTxn e t s)
      else
        match t.levels with
        | _ :: l :: ls => .next (setTxn e.key { t with levels := l :: ls } (retirePlain e 5 s))
        | _ => commit e t s)

/-- TABORT (R335, R153). -/
def execTabort (f : F5) (s : State) : Out :=
  issue f.h true s (noScalar s) (fun e act s =>
    orTrap e (outsideTxn (.tabort f) e act ++ guardPoison f.h e) s
      (if act.isEmpty then .next (retirePlain e 5 s)
       else
        match e.sl.txn with
        | none => .next s
        | some _ => .next (abortTxn e.core e.key e.gid 10 f.mod.toNat (noteIssue e 5 s))))

/-- TRETRY (R335, R156). -/
def execTretry (f : F5) (s : State) : Out :=
  issue f.h true s (noScalar s) (fun e act s =>
    orTrap e (outsideTxn (.tretry f) e act ++ guardPoison f.h e) s
      (if act.isEmpty then .next (retirePlain e 5 s)
       else
        match e.sl.txn with
        | none => .next s
        | some t => retry e t none s))

/-- TRETRYT (R160): the limit is WAITLIMIT of the fibre ELECT would choose. -/
def execTretryt (f : F5) (s : State) : Out :=
  issue f.h true s (noScalar s) (fun e act s =>
    orTrap e (outsideTxn (.tretryt f) e act ++ guardPoison f.h e) s
      (if act.isEmpty then .next (retirePlain e 5 s)
       else
        match e.sl.txn with
        | none => .next s
        | some t => retry e t (some (getFibre e.g ((sortBy lane act).headD 0)).waitlimit.toNat) s))

/-- TORELSE (R335, R156). -/
def execTorelse (f : F5) (s : State) : Out :=
  issue f.h true s (noScalar s) (fun e act s =>
    match e.sl.txn with
    | none => illegalHere (.torelse f) e act s
    | some t =>
      if e.fids.length < (pinned e.sl t).length then .next (arriveTxn e t s)
      else
        match targetTrap s e.g.ctx (target5 e.pc f) with
        | some (c, v) => takeTrap e (act.map (fun fid => (fid, c, v))) (touchTarget e (target5 e.pc f) s)
        | none => needTargets e e.fids (fun _ => target5 e.pc f) s (fun s => openLevel e t (some (target5 e.pc f)) s))

/-- TRETRYT_EXPIRY (R161): the device revalidates when the limit has run out, and a change wins over the timeout. -/
def execTretrytExpiry (sid : Nat) (s : State) : Out :=
  match kget? s.sleepers sid with
  | none => .fault .notEnabled
  | some p =>
    match p.limit with
    | none => .fault .notEnabled
    | some l =>
      if now s < l || !readsServed s (slabOf p.core) p.reads then .fault .notEnabled
      else if p.reads.all (fun r => readVersion s p.gang r == r.version) then
        let s1 := wakeSleeper sid s
        .next (setGang s1 p.gang (mapFibres (getGang s1 p.gang) (fun fid f => if p.fids.contains fid then
          { f with pc := p.abortPc, txstatus := txWord 0 p.coarse p.levels 11 } else f)))
      else .next (wakeSleeper sid s)

/-- TRANSACTION_REVALIDATE (R148): every 4,096 cycles an open transaction revalidates its read set. -/
def execTransactionRevalidate (core w : Nat) (s : State) : Out :=
  let key := slotKey core w
  let sl := getSlot s key
  match sl.txn with
  | none => .fault .notEnabled
  | some t =>
    if now s < t.checked + 4096 then .fault .notEnabled
    else if !validationServed s (slabOf core) t then .fault .notEnabled
    else if validates s sl.gang t then .next (setTxn key { t with checked := now s } s)
    else .next (abortTxn core key sl.gang 1 0 s)

end Sys2Proof.Machine
end

