-- ==== Sys2Proof/Machine/Memory.lean ====
section
/-! DEFINITION. Sys2Proof/Machine/Memory.lean: loads, stores, plane moves, prefetch, region maintenance, word atomics and fences
(chapter 15), outside and inside transactions and in handler mode. What a home does with the requests is in MemEvents. -/
namespace Sys2Proof.Machine

/-! ### Addresses (R310) -/

def scaleOf (f : F2) : Nat := match f.ixs.toNat with | 0 => 1 | 1 => 4 | 2 => 8 | _ => 16

/-- The index of a fibre, sign-extended and scaled. -/
def indexOf (f : F2) (x : Fibre) : W64 × Bool :=
  if f.ix then
    let r := readReg x f.c.toNat
    (r.1.signExtend 64 * BitVec.ofNat 64 (scaleOf f), r.2)
  else (0, false)

/-- A global address, with the poison of the registers it comes from. -/
def globalAddr (f : F2) (x : Fibre) : W64 × Bool :=
  let b := readPair x f.a.toNat
  let i := indexOf f x
  (b.1 + i.1 + f.off.signExtend 64, b.2 || i.2)

/-- A scratchpad or exchange address. -/
def shortAddr (f : F2) (x : Fibre) : Word × Bool :=
  let b := readReg x f.a.toNat
  let i := indexOf f x
  (b.1 + i.1.truncate 32 + f.off.signExtend 32, b.2 || i.2)

/-- Bytes of a lane access. -/
def accBytes (t : Ty) : Nat := t.bits / 8

def idxUse (f : F2) : List RegUse := if f.ix then [(f.c.toNat, 1)] else []
def dataSrc (t : Ty) (b : Reg) : Src := laneSrc t b

/-- The lowest of the causes a lane meets. -/
def lowest (fid : Nat) (cs : List (Nat × W64)) : Option (Nat × Nat × W64) := (leastBy (·.1) cs).map (fun c => (fid, c.1, c.2))

/-- The checks of a global lane access at issue: alignment, window and, for an ordered access, poison (R75, R79, R313). -/
def globalFaults (s : State) (ctx : Nat) (va : W64) (n perm : Nat) (poisoned : Bool) : List (Nat × W64) :=
  (if va.toNat % n ≠ 0 then [(4, va)] else []) ++
  (match checkWindow s ctx va pathVec perm with | .error c => [(c, va)] | .ok _ => []) ++
  (if poisoned then [(14, 0)] else [])

/-- The IA of an access that has passed its checks. -/
def iaOf (s : State) (ctx : Nat) (va : W64) (perm : Nat) : Nat :=
  match checkWindow s ctx va pathVec perm with
  | .ok ia => ia
  | .error _ => 0

/-- The offset of a scratchpad sector, as TRAPVAL of a poisoned one (R122, R333). -/
def sectorOff (off : Nat) : W64 := BitVec.ofNat 64 (off / 128 * 128)

/-- The checks of a scratchpad lane access: alignment and bounds; the allocator status word is readable (R30, R34). -/
def scratchFaults (g : Gang) (off n : Nat) (write poisoned : Bool) : List (Nat × W64) :=
  (if off % n ≠ 0 then [(4, BitVec.ofNat 64 off)] else []) ++
  (if isAllocWord off && !write then [] else if inNeed g off n then [] else [(7, BitVec.ofNat 64 off)]) ++
  (if poisoned then [(14, 0)] else [])

/-! ### The operand log (R215, R217) -/

/-- A logged access that applies to some fibres, to one of the sectors, is outstanding. Its entry's slot does not show it once the gang
has been saved and restored (R217). -/
def accessLeft (s : State) (gid : Nat) (fids sectors : List Nat) : Bool :=
  s.reqs.any (fun r => r.gang == gid && (fids.contains r.fid || r.group.any (fun x => fids.contains x)) && r.kind != .txnRead && r.kind != .scratch && sectors.contains (r.ia / 128))

/-- No entry of this slot, and none that applies to one of the fibres, covers one of the sectors; and there is room. -/
def logReady (s : State) (e : Env) (act : List Nat) (ctx : Nat) (sectors : List Nat) : Bool :=
  decide (e.sl.log.length < 8) &&
  s.slots.all (fun k => k.2.log.all (fun l =>
    !((k.1 == e.key || (l.gang == e.gid && act.any (fun f => l.fids.contains f))) &&
      (getGang s l.gang).ctx == ctx && l.sectors.any (fun x => sectors.contains x)))) &&
  !accessLeft s e.gid act sectors

/-- The instruction is not ready: a full log counts a stall, and lanes parked on a fault leave the wave, whose rest goes on (R219). -/
def logStall (s : State) (e : Env) (act : List Nat) : State :=
  splitParked e act (if e.sl.log.length < 8 then s else perfEvent e.core 6 1 s)

/-- No logged access of the fibres covers one of the sectors: what a transactional access waits for (R215). -/
def fibresClear (s : State) (e : Env) (act sectors : List Nat) : Bool :=
  s.slots.all (fun k => k.2.log.all (fun l =>
    !(l.gang == e.gid && act.any (fun x => l.fids.contains x) && l.sectors.any (fun x => sectors.contains x)))) &&
  !accessLeft s e.gid act sectors

/-- A later access waits for an acquire of its fibre (R100). -/
def acquiresDone (s : State) (gid : Nat) (act : List Nat) : Bool := !act.any (fun f => acquirePending s gid f)

/-- Open a log entry. -/
def openEntry (e : Env) (act sectors : List Nat) (s : State) : Nat × State :=
  let id := s.ids
  let sl := getSlot s e.key
  (id, setSlot { s with ids := id + 1 } e.key { sl with log := sl.log ++ [{ id := id, gang := e.gid, fids := act, sectors := sectors }] })

/-- Close a log entry when no request of it is left (R215, R216). -/
def closeEntry (key entry : Nat) (s : State) : State :=
  if s.reqs.any (fun r => r.entry == entry) then s
  else let sl := getSlot s key
       setSlot s key { sl with log := sl.log.filter (fun l => l.id != entry) }

def Req.blank : Req :=
  { id := 0, kind := .load, phase := .toHome, core := 0, slot := 0, entry := 0, gang := 0, fid := 0, pc := 0, ctx := 0, va := 0, ia := 0,
    bytes := 0, ty := .n32, data := 0, cmp := 0, poison := false, d := 0, window := 0, rd := 0, pol := 0, noFill := false, ord := 0, sc := 0, image := 0,
    q := [], value := 0, sector := 0, sectorPoison := false, stamp := [], writer := 0, version := 0, ca := 0, status := 0, fva := none, seq := 0,
    group := [], above := [] }

/-- The parts of a request that every lane of an instruction has alike. -/
def baseReq (e : Env) (f : F2) (entry window : Nat) (s : State) : Req :=
  { Req.blank with
    core := e.core, slot := e.key % 32, entry := entry, gang := e.gid, pc := e.pc, ctx := e.g.ctx, bytes := accBytes f.ty, ty := f.ty,
    d := f.d.toNat, window := window, rd := f.rd, pol := f.pol, ord := f.ord, sc := f.sc, q := readVector s (slabOf e.core) }

/-- Add a request with a fresh identifier. -/
def addReq (r : Req) (s : State) : State := { s with reqs := s.reqs ++ [{ r with id := s.ids }], ids := s.ids + 1 }

/-! ### Values (R311) -/

/-- A loaded value as the writes of its destination: integers extend, floating-point values stand in the low bits. -/
def loadWr (t : Ty) (d : Nat) (raw : Quad) (p : Bool) : Wr :=
  match t with
  | .b128 => dstWr (.quad d) { val := raw, flags := 0, poison := p }
  | _ =>
    let v := ext64 t.signed t.bits raw.toNat
    dstWr (if t.bits = 64 then .pair d else .reg d) { val := v.zeroExtend 128, flags := 0, poison := p }

/-! ### Loads -/

/-- The bytes of a sector that a slab's copy must hold to serve a load: all of it where the reply fills the L1. -/
def wanted (r : Req) : BitVec 128 := if allocL1 r.rd r.pol then fullMask else byteMask (r.ia % 128) r.bytes

/-- A load or a prefetch leaves its core: from the L1, from the slab's copy, or on its way to the home (R90 to R92, R314). A load with
an acquire of scope s or wider hits only what its L1 holds dirty (R111, DEDUCED log 132). -/
def startLoad (r : Req) (s : State) : State :=
  let sec := r.ia / 128
  let o := r.ia % 128
  let l1 := l1Sector s r.core r.ctx r.ia
  let mask := byteMask o r.bytes
  if !isPeer r.ia && r.pol != 3 && ownBytes r.pol r.ord r.sc l1 &&& mask == mask then
    addReq { r with phase := .reply, value := BitVec.ofNat 128 (sectorNat l1.data o r.bytes), sectorPoison := l1.poison, ca := 4 }
      (l1Hit r.core r.ctx r.ia s)
  else
    let s1 := perfEvent r.core 5 1 (if r.kind = .prefetch then s else wcFlush r.core (fun w => w.ctx == r.ctx && w.sector == sec) s)
    match if isPeer r.ia || r.pol == 3 then none else sliceHit s1 (slabOf r.core) r.ctx sec (wanted r) with
    | some c => addReq { r with phase := .reply, sector := c.data,
                                sectorPoison := c.poison, stamp := c.stamp, writer := c.writer } (sliceTouch (slabOf r.core) r.ctx sec s1)
    | none => addReq r s1

/-- The windows of the executing fibres for results that replies will write. -/
def loadWindow (f : F2) (id : Nat) (act : List Nat) : Nat → Option Window := fun fid =>
  if act.contains fid then some (newWindow id f.h.la.toNat (loadWr f.ty f.d.toNat 0 false) true) else none

/-- A clean write of a whole sector, which clears its mark (R121), is on its way to its home: in the core's buffer, in a slice or held.
Pages are 64 KiB or more, so an alias of the sector, or a write by PA, lies at the same place within 64 KiB (R80). -/
def clearSent (s : State) (core ctx sector : Nat) : Bool :=
  (kget s.wcb core []).any (fun w => w.ctx == ctx && w.sector == sector && w.mask == fullMask && !w.poison) ||
    ((s.slabs.map (fun b => b.2.inq)).flatten ++ s.held).any (fun m => m.sector % 512 == sector % 512 && m.mask == fullMask && !m.poison)

/-- The place of an access is poisoned as its home holds it now. -/
def homePoison (s : State) (ctx ia : Nat) (write : Bool) : Bool :=
  if isPeer ia then s.peerPoison.contains (peerKey ia / 128)
  else match translate s ctx ia true write with
    | .ok l => poisonedAt s (l.pa / 128)
    | .error _ => false

/-- The sector that an access reaches at its home carries poison, as the core learns when it issues the access: its own dirty bytes bring
their mark with them, and the home's mark stays unless a clean write of the whole sector precedes the access (R121, R122). -/
def homeSeen (s : State) (core ctx ia : Nat) (write : Bool) : Bool :=
  let v := l1Sector s core ctx ia
  (v.dirty != 0 && v.poison) || (v.dirty != fullMask && !clearSent s core ctx (ia / 128) && homePoison s ctx ia write)

/-- The same of a load or a store, which the L1 or the slab's copy may serve; a load's modifiers say what it may take of the L1. -/
def seenPoison (s : State) (core ctx ia n : Nat) (pol ord sc : BitVec 2) (write : Bool) : Bool :=
  let v := l1Sector s core ctx ia
  let mask := byteMask (ia % 128) n
  let own := if write then v.present else ownBytes pol ord sc v
  if isPeer ia || pol == 3 then homeSeen s core ctx ia write
  else if own &&& mask == mask then v.poison
  else (own != 0 && v.poison) ||
    (match if write then none else sliceHit s (slabOf core) ctx (ia / 128) (byteMask (ia % 128) n) with
     | some c => c.poison
     | none => homeSeen s core ctx ia write)

/-- An access that comes to nothing has been translated at its home all the same (R83). -/
def touchPage (ctx ia : Nat) (write : Bool) (s : State) : State :=
  if isPeer ia then s
  else match translate s ctx ia true write with
    | .ok l => setAccessed l s
    | .error _ => s

/-- The lanes among some accesses (lane, VA, IA) that raise POISON with the VA of their sector (R122). -/
def poisonAt (p : Nat → Bool) (accs : List (Nat × W64 × Nat)) : Raised :=
  (accs.filter (fun a => p a.2.2)).map (fun a => (a.1, 14, a.2.1 &&& ~~~127))

/-- The state in which those lanes trap. -/
def touched (e : Env) (p : Nat → Bool) (write : Bool) (accs : List (Nat × W64 × Nat)) (s : State) : State :=
  (accs.filter (fun a => p a.2.2)).foldl (fun s a => touchPage e.g.ctx a.2.2 write s) s

/-- Go on unless lanes meet a poisoned sector at once (R122). -/
def orPoison (e : Env) (p : Nat → Bool) (write : Bool) (accs : List (Nat × W64 × Nat)) (s : State) (k : Out) : Out :=
  orTrap e (poisonAt p accs) (touched e p write accs s) k

/-- LD outside a transaction, once its lanes have passed their checks. -/
def loadGlobal (f : F2) (e : Env) (act : List Nat) (s : State) : Out :=
  let accs := act.map (fun fid =>
    let x := getFibre e.g fid
    let a := globalAddr f x
    (fid, a.1, iaOf s e.g.ctx a.1 1, a.2 || (guard f.h x).2))
  let sectors := accs.map (fun a => a.2.2.1 / 128)
  if !logReady s e act e.g.ctx sectors || !acquiresDone s e.gid act then .next (logStall s e act)
  else if f.ord ≠ 0 ∧ !flushDone s e.g (slabOf e.core) act then .next s
  else orPoison e (fun ia => f.ord != 0 && seenPoison s e.core e.g.ctx ia (accBytes f.ty) f.pol f.ord f.sc false) false (accs.map (fun a => (a.1, a.2.1, a.2.2.1))) s (
    let (entry, s1) := openEntry e act sectors s
    let wid := s1.ids
    let s2 := retire e 1 (fun _ => Wr.none) (loadWindow f wid act) (fun _ => nextPc e.pc) { s1 with ids := wid + 1 }
    let b := { baseReq e f entry wid s2 with group := act }
    .next (closeEntry e.key entry
      (accs.foldl (fun s a => startLoad { b with fid := a.1, va := a.2.1, ia := a.2.2.1, poison := a.2.2.2 } s) s2)))

/-! ### Transactional accesses (R147 to R150, R330) -/

/-- Note lines in a list, and say whether the limit is exceeded. -/
def noteLines (new old : List Nat) : List Nat := new.foldl (fun l x => insertNat x l) old

/-- A scratchpad read joins the read set; a changed version is a conflict (R148). Answers an abort cause, or the transaction. -/
def noteRead (t : Txn) (scratch : Bool) (line : Nat) (version : Word) : Except Nat Txn :=
  match t.reads.find? (fun r => r.scratch == scratch && r.line == line) with
  | some r => if r.version = version then .ok t else .error 1
  | none =>
    let n := (t.reads.filter (fun r => r.scratch == scratch)).length
    if (if scratch then 16 else 32) ≤ n then .error (if scratch then 3 else 2)
    else .ok { t with reads := t.reads ++ [{ scratch := scratch, line := line, version := version }] }

def noteReads (scratch : Bool) : List (Nat × Word) → Txn → Except Nat Txn
  | [], t => .ok t
  | (l, v) :: rest, t =>
    match noteRead t scratch l v with
    | .error c => .error c
    | .ok t1 => noteReads scratch rest t1

/-- Bytes as the wave sees them: its own buffered ones over what memory holds (R149). -/
def overlay (w : KMap Byte) (a : Nat) (n v : Nat) : Nat :=
  natOfBytes ((bytesOfNat n v).zipIdx.map (fun b => (kget? w (a + b.2)).getD b.1))

/-- The wave's own buffered bytes of an access, and the bit of each: what a transactional read sees of them is fixed when it issues
(R149). -/
def bufferedBytes (w : KMap Byte) (a n : Nat) : Quad × Quad :=
  (BitVec.ofNat 128 (natOfBytes ((List.range n).map (fun i => (kget? w (a + i)).getD 0))),
   (List.range n).foldl (fun m i => setBit m i (kget? w (a + i)).isSome) 0)

/-- Those bytes over what the home has served. -/
def overBuffered (r : Req) : Nat :=
  natOfBytes ((bytesOfNat r.bytes r.value.toNat).zipIdx.map (fun b => if r.cmp.getLsbD b.2 then BitVec.ofNat 8 (r.data.toNat / 2 ^ (8 * b.2)) else b.1))

/-- Buffer written bytes; more than 8 lines written abort with WCAP. -/
def bufferWrites (scratch : Bool) (accs : List (Nat × List Byte × Bool)) (t : Txn) : Option Txn :=
  let put := fun (m : KMap Byte) (a : Nat × List Byte × Bool) => a.2.1.zipIdx.foldl (fun m b => kset m (a.1 + b.2) b.1) m
  let bytes := accs.foldl put (if scratch then t.writes.scr else t.writes.glob)
  let lines := noteLines (accs.map (fun a => a.1 / 256)) (if scratch then t.writes.scrLines else t.writes.globLines)
  let pois := noteLines ((accs.filter (fun a => a.2.2)).map (fun a => a.1 / 128)) (if scratch then t.writes.scrPoison else t.writes.globPoison)
  let w : TxnWrites := if scratch then { t.writes with scr := bytes, scrLines := lines, scrPoison := pois }
    else { t.writes with glob := bytes, globLines := lines, globPoison := pois }
  if 8 < w.globLines.length + w.scrLines.length then none else some { t with writes := w }

/-- The VA of a buffered sector is that of its first store, which a fault at the commit reports (R155). -/
def noteVa (sector : Nat) (va : W64) (w : TxnWrites) : TxnWrites :=
  if (kget? w.globVa sector).isSome then w else { w with globVa := kset w.globVa sector va }

/-- LD inside a transaction: served by the home, never from a cache; the core's own dirty bytes go first (R148). It takes no log
entry, but waits for logged accesses of its fibres to the same sectors (R215). -/
def loadTxn (f : F2) (e : Env) (t : Txn) (act : List Nat) (s : State) : Out :=
  let accs := act.map (fun fid =>
    let x := getFibre e.g fid
    let a := globalAddr f x
    (fid, a.1, iaOf s e.g.ctx a.1 1, a.2 || (guard f.h x).2))
  if !fibresClear s e act (accs.map (fun a => a.2.2.1 / 128)) then .next s
  else if accs.any (fun a => isPeer a.2.2.1) then .next (abortTxn e.core e.key e.gid 6 0 s)
  else orPoison e (fun ia => t.writes.globPoison.contains (ia / 128) || homeSeen s e.core e.g.ctx ia false) false
      (accs.map (fun a => (a.1, a.2.1, a.2.2.1))) s (
    let wid := s.ids
    let s2 := retire e 1 (fun _ => Wr.none) (loadWindow f wid act) (fun _ => nextPc e.pc) { s with ids := wid + 1 }
    let b := { baseReq e f 0 wid s2 with kind := .txnRead, ord := 0, sc := 0 }
    .next (accs.foldl (fun s a =>
      let own := bufferedBytes t.writes.glob a.2.2.1 (accBytes f.ty)
      addReq { b with fid := a.1, va := a.2.1, ia := a.2.2.1, poison := a.2.2.2, data := own.1, cmp := own.2 }
        (cleanSector e.core e.g.ctx a.2.2.1 false s)) s2))

/-- ST inside a transaction: buffered, after the page's check (R149, R150). The window must allow what the commit needs, reading and
writing (R79, DEDUCED log 116). The L1 must hold its line: RD 5 inserts it as RD 0 does (DESIGN CHOICE log 112). -/
def storeTxn (f : F2) (e : Env) (t : Txn) (act : List Nat) (s : State) : Out :=
  let accs := (sortBy lane act).map (fun fid =>
    let x := getFibre e.g fid
    let a := globalAddr f x
    let d := readSrc x (dataSrc f.ty f.b)
    (fid, a.1, iaOf s e.g.ctx a.1 3, bytesOfNat (accBytes f.ty) d.1.toNat, a.2 || d.2))
  let look := accs.map (fun a => (a.1, a.2.1, a.2.2.1, translate s e.g.ctx a.2.2.1 true true))
  let faulty := look.filter (fun l => match l.2.2.2 with | .error _ => !isPeer l.2.2.1 | .ok _ => false)
  let seen := look.foldl (fun s l => match l.2.2.2 with | .ok x => if isPeer l.2.2.1 then s else setAccessed x s | .error _ => s) s
  if !fibresClear s e act (accs.map (fun a => a.2.2.1 / 128)) then .next s
  else match faulty with
  | l :: _ => .next (txnFault e.core e.key e.gid (faulty.map (·.1)) e.pc l.2.1 (match l.2.2.2 with | .error y => y | .ok _ => 0) 1 seen)
  | [] =>
    if look.any (fun l => isPeer l.2.2.1 || (match l.2.2.2 with | .ok x => x.ca != 0 | .error _ => false)) then
      .next (abortTxn e.core e.key e.gid 6 0 seen)
    else
      match bufferWrites false (accs.map (fun a => (a.2.2.1, a.2.2.2.1, a.2.2.2.2))) t with
      | none => .next (abortTxn e.core e.key e.gid 4 0 seen)
      | some t1 =>
        let t2 := { t1 with writes := accs.foldl (fun w a => noteVa (a.2.2.1 / 128) a.2.1 w) t1.writes }
        let s1 := retirePlain e 1 (setTxn e.key t2 seen)
        .next (accs.foldl (fun s a => l1Reserve e.core e.g.ctx a.2.2.1 (insertion f.rd f.pol) s) s1)

/-! ### Stores (R216, R312, R315) -/

/-- The bytes that a store still has to write: those that no higher lane of its instruction has written over (R312). A higher lane's store
that waits at a fault will be made again after it. -/
def storeMask (s : State) (r : Req) : BitVec 128 :=
  r.above.foldl (fun m a => if s.reqs.any (fun x => x.id == a.1 && !(x.kind == .store && x.phase == .sent)) then m else m &&& ~~~a.2)
    (byteMask (r.ia % 128) r.bytes)

/-- What the stores of one log entry write over one another in a sector, a higher lane over a lower one (R312). -/
def layerStores (entry : Nat) (s : State) : State :=
  let mine := s.reqs.filter (fun r => r.entry == entry && (r.kind == .store || r.kind == .probe))
  let higher := fun (r : Req) => mine.filterMap (fun x =>
    let m := byteMask (x.ia % 128) x.bytes &&& byteMask (r.ia % 128) r.bytes
    if decide (r.id < x.id) && x.ia / 128 == r.ia / 128 && m != 0 then some (x.id, m) else none)
  { s with reqs := s.reqs.map (fun r => if mine.contains r then { r with above := higher r } else r) }

/-- The bytes of a travelling store that the L1 holds too are updated and left clean, and no older fill brings them back (R315). -/
def storeClean (r : Req) (s : State) : State :=
  let s1 := blockFills r.core (some (r.ctx, r.ia / 128)) s
  if (l1Sector s1 r.core r.ctx r.ia).present = 0 then s1
  else l1Hit r.core r.ctx r.ia (l1Merge r.core r.ctx r.ia (storeMask s r) (natSector r.data.toNat (r.ia % 128) r.bytes) r.poison false s1)

/-- A keep-in-slab store to a write-back page may stand in the slab's slice from now on (R91). -/
def keepsCopy (s : State) (r : Req) : Bool :=
  r.pol == 2 && allocSlice r.rd r.pol && !isPeer r.ia &&
  (match translate s r.ctx r.ia true true with | .ok l => l.ca == 0 | .error _ => false)

/-- The slice of the slab takes the bytes of such a store. -/
def keepCopy (r : Req) (s : State) : State :=
  sliceStore (slabOf r.core) r.ctx (r.ia / 128) (storeMask s r) (natSector r.data.toNat (r.ia % 128) r.bytes) r.poison
    (insertion r.rd r.pol) s

/-- A store's bytes leave for their home through the core-side slice, at its issue, after its probe, or again from its log entry. The L1
and the slice take them as R315 and R91 say, and with RD 5 a line that the slice holds is hit (R90). The home may turn a store with a
release away, which then has had no effect (R313): its core gives up the sector, the bytes there going first, and the slice takes the
store's when it has been applied (DEDUCED log 143). -/
def sendStore (r : Req) (s : State) : State :=
  let slab := slabOf r.core
  let sec := r.ia / 128
  let s1 := if r.ord = 0 then
      let a := storeClean r s
      if keepsCopy s r then keepCopy r a else a
    else blockFills r.core (some (r.ctx, sec)) (cleanSector r.core r.ctx r.ia true s)
  let s2 := if r.rd = 5 ∧ r.pol ≠ 3 ∧ !isPeer r.ia then sliceTouch slab r.ctx sec s1 else s1
  pushWrite slab { WriteMsg.blank with
    ctx := r.ctx, sector := sec, mask := storeMask s r, data := natSector r.data.toNat (r.ia % 128) r.bytes,
    poison := r.poison, kind := .store r.id } s2

/-- One lane of a store: into a write-confirmed L1 sector, as a write probe, or with its bytes on their way to the home. -/
def startStore (r : Req) (s0 : State) : State :=
  let sec := l1Sector s0 r.core r.ctx r.ia
  let s := if sec.present = 0 then perfEvent r.core 5 1 s0 else s0
  let travels := isPeer r.ia || r.pol == 2 || r.pol == 3 || (r.rd == 5 && sec.present == 0)
  if travels then sendStore { r with id := s.ids } (addReq { r with kind := .store, phase := .sent } s)
  else if sec.confirmed then l1Hit r.core r.ctx r.ia (l1Write r.core r.ctx r.ia r.bytes r.data.toNat r.poison true s)
  else addReq { r with kind := .probe } s

/-- ST outside a transaction, once its lanes have passed their checks: the release first, then the lanes in rising lane order. The
release does not write back the bytes of this store (R101, DESIGN CHOICE log 65). -/
def storeGlobal (f : F2) (e : Env) (act : List Nat) (s : State) : Out :=
  let accs := (sortBy lane act).map (fun fid =>
    let x := getFibre e.g fid
    let a := globalAddr f x
    let d := readSrc x (dataSrc f.ty f.b)
    (fid, a.1, iaOf s e.g.ctx a.1 2, d.1, a.2 || d.2))
  let sectors := accs.map (fun a => a.2.2.1 / 128)
  if !logReady s e act e.g.ctx sectors || !acquiresDone s e.gid act then .next (logStall s e act)
  else orPoison e (fun ia => f.ord != 0 && seenPoison s e.core e.g.ctx ia (accBytes f.ty) f.pol f.ord f.sc true) true (accs.map (fun a => (a.1, a.2.1, a.2.2.1))) s (
    let r := if f.ord = 0 then (true, s) else release e act f.sc s
    if !r.1 then .next r.2
    else
      let (entry, s1) := openEntry e act sectors r.2
      let s2 := retirePlain e 1 s1
      let b := { baseReq e f entry 0 s2 with group := act }
      let s3 := accs.foldl (fun s a => startStore { b with fid := a.1, va := a.2.1, ia := a.2.2.1, data := a.2.2.2.1, poison := a.2.2.2.2 } s) s2
      .next (closeEntry e.key entry (layerStores entry s3)))

/-! ### Scratchpad (R316, R319, R320) -/

/-- Results that are known at issue and written through a reply. -/
def scratchReply (e : Env) (f : F2) (d : Ty × Nat) (vals : List (Nat × Quad × Bool)) (wr : Nat → Wr) (act : List Nat) (s : State) : State :=
  let wid := s.ids
  let s1 := retire e 1 (fun _ => Wr.none)
    (fun fid => if act.contains fid then some (newWindow wid f.h.la.toNat (wr fid) true) else none)
    (fun _ => nextPc e.pc) { s with ids := wid + 1 }
  let b := { baseReq e f 0 wid s1 with kind := .scratch, phase := .reply, ty := d.1, d := d.2 }
  vals.foldl (fun s v => addReq { b with fid := v.1, value := v.2.1, poison := v.2.2 } s) s1

/-- The value of a scratchpad load for the wave, its own buffered bytes included inside a transaction. -/
def scratchValue (s : State) (gid : Nat) (t : Option Txn) (off n : Nat) : Nat :=
  match t with
  | some x => overlay x.writes.scr off n (scratchRead s gid off n)
  | none => scratchRead s gid off n

/-- The open transaction has buffered a poisoned store to the sector, which its later reads see (R149). -/
def bufferedPoison (t : Option Txn) (off : Nat) : Bool :=
  match t with
  | some x => x.writes.scrPoison.contains (off / 128)
  | none => false

/-- LDS once its lanes have passed their checks. What a haul bin has taken in is seen without FENCEX.HAUL.VEC too, where R115 leaves either
value open (R190, DESIGN CHOICE log 108). -/
def loadScratch (f : F2) (e : Env) (act : List Nat) (s : State) : Out :=
  let n := accBytes f.ty
  let accs := act.map (fun fid =>
    let x := getFibre e.g fid
    let a := shortAddr f x
    (fid, a.1.toNat, a.2 || (guard f.h x).2 || scratchPoisonAt e.g a.1.toNat))
  if !acquiresDone s e.gid act || (f.ord != 0 && e.sl.txn.isNone && !flushDone s e.g (slabOf e.core) act) then .next (splitParked e act s)
  else
    let vals := accs.map (fun a => (a.1, BitVec.ofNat 128 (scratchValue s e.gid e.sl.txn a.2.1 n), a.2.2))
    let go := fun (f : F2) (s : State) =>
      Host.Outcome.next (scratchReply e f (f.ty, f.d.toNat) vals (fun _ => loadWr f.ty f.d.toNat 0 false) act s)
    match e.sl.txn with
    | none => go f s
    | some t =>
      match noteReads true (accs.map (fun a => (a.2.1 / 256, scratchVersion s e.gid (a.2.1 / 256)))) t with
      | .error c => .next (abortTxn e.core e.key e.gid c 0 s)
      | .ok t1 => go { f with ord := 0 } (setTxn e.key t1 s)

/-- A scratchpad access as a release toward the fibre's global accesses: scopes s, p and y act at s (R316, R337). -/
def scratchRelease (e : Env) (act : List Nat) (sc : BitVec 2) (s : State) : Bool × State := release e act (if sc = 0 then 0 else 1) s

/-- STS once its lanes have passed their checks. -/
def storeScratch (f : F2) (e : Env) (act : List Nat) (s : State) : Out :=
  let accs := (sortBy lane act).map (fun fid =>
    let x := getFibre e.g fid
    let a := shortAddr f x
    let d := readSrc x (dataSrc f.ty f.b)
    (a.1.toNat, bytesOfNat (accBytes f.ty) d.1.toNat, a.2 || d.2))
  match e.sl.txn with
  | some t =>
    match bufferWrites true accs t with
    | none => .next (abortTxn e.core e.key e.gid 4 0 s)
    | some t1 => .next (retirePlain e 1 (setTxn e.key t1 s))
  | none =>
    if !acquiresDone s e.gid act then .next (splitParked e act s)
    else
      let r := if f.ord = 0 then (true, s) else scratchRelease e act f.sc s
      if !r.1 then .next r.2
      else .next (accs.foldl (fun s a => scratchMark e.gid a.1 a.2.1.length a.2.2 (scratchWrite e.gid a.1 a.2.1 s)) (retirePlain e 1 r.2))

/-! ### Plane moves (R319, R320) -/

def planes (t : Ty) : Nat := if t = .q16n then 4 else 8

/-- The byte of plane `p` from eight packed elements. -/
def planeByte (v : W64) (p : Nat) : Byte :=
  (List.range 8).foldl (fun b i => setBit b i (v.getLsbD (8 * i + p))) 0

/-- Eight packed elements from the bytes of the planes. -/
def unplane (bs : List Byte) : W64 :=
  bs.zipIdx.foldl (fun v b => (List.range 8).foldl (fun v i => setBit v (8 * i + b.2) (b.1.getLsbD i)) v) 0

def planeFaults (g : Gang) (t : Ty) (off : Nat) : List (Nat × W64) :=
  (if off % 32 ≠ 0 then [(4, BitVec.ofNat 64 off)] else []) ++
  (if off + (planes t - 1) * 2048 + 31 < g.kernel.spad then [] else [(7, BitVec.ofNat 64 off)])

/-- The first poisoned sector among a lane's bytes of the planes, which a transactional read raises (R122). -/
def planePoison (g : Gang) (x : Option Txn) (t : Ty) (at_ : Nat) : List (Nat × W64) :=
  (((List.range (planes t)).map (fun p => at_ + p * 2048)).filter (fun o => scratchPoisonAt g o || bufferedPoison x o)).map (fun o => (14, sectorOff o))

/-! ### Handler mode (R331) -/

/-- The address of a handler access. -/
def handlerAddr (f : F2) (h : Handler) : W64 :=
  kget h.k f.a.toNat 0 + (if f.ix then ((kget h.k f.c.toNat 0).truncate 32).signExtend 64 * BitVec.ofNat 64 (scaleOf f) else 0)
    + f.off.signExtend 64

def handlerUses (f : F2) (isLoad : Bool) : List RegUse := [(if isLoad then f.d.toNat else f.b.toNat, 1), (f.a.toNat, 1)] ++ idxUse f

/-- The common checks of a handler access: a trap is a handler error; the guard may skip it. -/
def handlerMem (f : F2) (isLoad : Bool) (faults : List (Nat × W64)) (go : State → Out) (s : State) (e : Env) (h : Handler) : Out :=
  if badK (handlerUses f isLoad) || f.ty == .b128 then handlerError e s
  else if !(guardK f.h h).1 then .next (handlerNext e h s)
  else if !faults.isEmpty then (if faults.all (fun x => 14 ≤ x.1) then poisonError e s else handlerError e s)
  else go s

/-- Poison among the address registers of a handler access. -/
def handlerAddrPoison (f : F2) (h : Handler) : Bool := h.kPoison.getLsbD f.a.toNat || (f.ix && h.kPoison.getLsbD f.c.toNat)

/-- A handler access waits for a logged access of its wave slot, or of its wave's fibres, to the same sector (R217). -/
def slotClear (s : State) (e : Env) (ia : Nat) : Bool :=
  s.slots.all (fun k => k.2.log.all (fun l =>
    !((k.1 == e.key || (l.gang == e.gid && e.sl.fids.any (fun x => l.fids.contains x))) &&
      (getGang s l.gang).ctx == e.g.ctx && l.sectors.contains (ia / 128)))) &&
  !accessLeft s e.gid e.sl.fids [ia / 128]

/-- A handler access waits for the acquires of its wave's fibres, and an ordered one for their FLUSHRs and INVRs (R100, R322). -/
def scalarReady (s : State) (e : Env) (f : F2) : Bool :=
  acquiresDone s e.gid e.sl.fids && (f.ord == 0 || flushDone s e.g (slabOf e.core) e.sl.fids)

/-- The sector that an ordered handler access reaches is poisoned, once the access is ready to leave. -/
def scalarPoison (s : State) (e : Env) (f : F2) (va : W64) (perm : Nat) : List (Nat × W64) :=
  let ia := iaOf s e.g.ctx va perm
  if f.ord ≠ 0 ∧ slotClear s e ia ∧ acquiresDone s e.gid e.sl.fids ∧ seenPoison s e.core e.g.ctx ia (accBytes f.ty) f.pol f.ord f.sc (perm == 2) then
    [(14, va &&& ~~~127)]
  else []

/-- The request of the scalar unit. -/
def scalarReq (e : Env) (f : F2) (h : Handler) (s : State) : Req := { baseReq e f 0 0 s with fid := 1024, pc := h.pc }

def ldScalar (f : F2) (s : State) (e : Env) (h : Handler) : Out :=
  let va := handlerAddr f h
  handlerMem f true (globalFaults s e.g.ctx va (accBytes f.ty) 1 (f.ord != 0 && handlerAddrPoison f h) ++ scalarPoison s e f va 1) (fun s =>
    if !slotClear s e (iaOf s e.g.ctx va 1) || !scalarReady s e f then .next s
    else .next (startLoad { scalarReq e f h s with va := va, ia := iaOf s e.g.ctx va 1, poison := handlerAddrPoison f h || (guardK f.h h).2 }
      (handlerNext e h s))) s e h

def stScalar (f : F2) (s : State) (e : Env) (h : Handler) : Out :=
  let va := handlerAddr f h
  let p := handlerAddrPoison f h || h.kPoison.getLsbD f.b.toNat
  handlerMem f false (globalFaults s e.g.ctx va (accBytes f.ty) 2 (f.ord != 0 && p) ++ scalarPoison s e f va 2) (fun s =>
    let r := if f.ord = 0 then (true, s) else release e e.sl.fids f.sc s
    if !slotClear s e (iaOf s e.g.ctx va 2) || !acquiresDone s e.gid e.sl.fids then .next s
    else if !r.1 then .next r.2
    else .next (startStore { scalarReq e f h r.2 with va := va, ia := iaOf s e.g.ctx va 2, data := (kget h.k f.b.toNat 0).zeroExtend 128,
                                                      poison := p } (handlerNext e h r.2))) s e h

def ldsScalar (f : F2) (s : State) (e : Env) (h : Handler) : Out :=
  let off := (handlerAddr f h).toNat % 2 ^ 32
  let pa := handlerAddrPoison f h || scratchPoisonAt e.g off
  handlerMem f true (scratchFaults e.g off (accBytes f.ty) false (f.ord != 0 && pa)) (fun s =>
    let v := ext64 f.ty.signed f.ty.bits (scratchRead s e.gid off (accBytes f.ty))
    let s1 := handlerNext e (writeK h f.d.toNat v (pa || (guardK f.h h).2)) s
    if !scalarReady s e f then .next s
    else .next (if f.ord ≠ 0 ∧ f.sc ≠ 0 then acquireEffect e.core 1 s1 else s1)) s e h

def stsScalar (f : F2) (s : State) (e : Env) (h : Handler) : Out :=
  let off := (handlerAddr f h).toNat % 2 ^ 32
  let p := handlerAddrPoison f h || h.kPoison.getLsbD f.b.toNat
  handlerMem f false (scratchFaults e.g off (accBytes f.ty) true (f.ord != 0 && (p || scratchPoisonAt e.g off))) (fun s =>
    let r := if f.ord = 0 then (true, s) else scratchRelease e e.sl.fids f.sc s
    if !acquiresDone s e.gid e.sl.fids then .next s
    else if !r.1 then .next r.2
    else
      let n := accBytes f.ty
      .next (scratchMark e.gid off n p (scratchWrite e.gid off (bytesOfNat n (kget h.k f.b.toNat 0).toNat) (handlerNext e h r.2)))) s e h

/-! ### Region maintenance (R322 to R324) -/

/-- A range of IAs keeps its low 52 bits, as checkWindow does (DESIGN CHOICE log 111): past 2^52 it goes on at 0. -/
def wrapRange (lo hi : Nat) : List (Nat × Nat) :=
  if 2 ^ 52 ≤ hi - lo then [(0, 2 ^ 52)]
  else
    let a := lo % 2 ^ 52
    let b := a + (hi - lo)
    if b ≤ 2 ^ 52 then [(a, b)] else [(a, 2 ^ 52), (0, b - 2 ^ 52)]

/-- The IA ranges of a region of VAs: those of each window it meets. -/
def regionRanges (c : Ctx) (va len : Nat) : List (Nat × Nat) :=
  (c.windows.map (fun w =>
    let base := (w.2.1.extractLsb' 21 36).toNat * 2 ^ 21
    let top := base + 2 ^ (w.2.1.toNat % 64)
    let ia := (w.2.2.1.extractLsb' 21 31).toNat * 2 ^ 21
    let lo := max va base
    let hi := min (va + len) top
    if w.2.1.getLsbD 63 && decide (lo < hi) then wrapRange (ia + (lo - base)) (ia + (hi - base)) else [])).flatten

/-- A sector is touched by a range. -/
def touches (rs : List (Nat × Nat)) (sec : Nat) : Bool := rs.any (fun r => decide (r.1 < (sec + 1) * 128) && decide (sec * 128 < r.2))

/-- Write back, or write back and drop, the sectors of the gang's L1 that a test names. -/
def maintain (core : Nat) (p : Nat → Nat → Bool) (drop : Bool) (s : State) : State :=
  (l1Cores s core).foldl (fun s k =>
    (kget s.l1 k []).foldl (fun s l =>
      [l.line * 2, l.line * 2 + 1].foldl (fun s sec =>
        if p l.ctx sec then
          cleanSector k l.ctx (sec * 128) drop s
        else s) s) s) s

/-- What a fibre's ordered accesses wait for after one FLUSHR or INVR more: write-backs up to the new point at the wider of the scopes;
at scope s they have been performed already. -/
def laterFlush (old : Option (Nat × BitVec 2)) (n : Nat) (sc : BitVec 2) : Option (Nat × BitVec 2) :=
  match old with
  | some (m, o) => if sc < 2 then some (m, o) else some (n, if o < sc then sc else o)
  | none => some (n, sc)

/-- FLUSHR and INVR over the union of the fibres' regions. Stores of the fibres to them that wait for their pages come first (R217), and
with `drop` no load in flight fills the region again (R323). -/
def regionOp (f : F2) (drop : Bool) (s : State) : Out :=
  issue f.h false s (noScalar s) (fun e act s =>
    orTrap e (regTraps e act ([(f.a.toNat, 2), (f.b.toNat, 1)] ++ idxUse f)) s
      (if e.sl.txn.isSome || f.sc == 0 || act.isEmpty then .next (retirePlain e 1 s)
       else
        let c := getCtx s e.g.ctx
        let regs := act.map (fun fid =>
          let x := getFibre e.g fid
          let a := globalAddr f x
          let n := readReg x f.b.toNat
          (regionRanges c a.1.toNat n.1.toNat, a.2 || n.2))
        let whole := regs.any (·.2)
        let rs := (regs.map (·.1)).flatten
        let p := fun ctx sec => whole || (ctx == e.g.ctx && touches rs sec)
        if s.reqs.any (fun r => r.gang == e.gid && act.contains r.fid && (r.kind == .probe || r.kind == .store) && p r.ctx (r.ia / 128)) then
          .next (splitParked e act s)
        else
        let s0 := if drop then blockIf e.core (fun r => p r.ctx (r.ia / 128)) s else s
        let s1 := maintain e.core p drop s0
        let s1 := if drop then s1 else wcFlush e.core (fun w => p w.ctx w.sector) s1
        let s2 := retirePlain e 1 s1
        .next (setGang s2 e.gid (mapFibres (getGang s2 e.gid) (fun fid x =>
          if act.contains fid then { x with flushWait := laterFlush x.flushWait s2.ids f.sc } else x)))))

/-! ### Word atomics (R325 to R327) -/

/-- The operations by opcode order: add, min, max, and, or, xor, exchange, compare-and-swap, increment. -/
def atomicNew (op : Nat) (t : Ty) (old b c : Nat) : Option Nat :=
  let w := t.bits
  match op with
  | 0 => some ((old + b) % 2 ^ w)
  | 1 => some (wrapInt (min (getTy t old) (getTy t b)) w)
  | 2 => some (wrapInt (max (getTy t old) (getTy t b)) w)
  | 3 => some (old &&& b)
  | 4 => some (old ||| b)
  | 5 => some (old ^^^ b)
  | 6 => some b
  | 7 => if old = c then some b else none
  | _ => some ((old + 1) % 2 ^ w)

/-- An operation that its home performs travels behind the slab's earlier writes, through its core-side slice, and takes its stamp as it
leaves it (R105, R117). -/
def pushOp (r : Req) (s : State) : State :=
  pushWrite (slabOf r.core) { WriteMsg.blank with ctx := r.ctx, sector := r.ia / 128, kind := .op r.id } s
def sendOp (r : Req) (s : State) : State := pushOp { r with id := s.ids } (addReq r s)

/-- The core gives way to a word atomic: the sector's dirty bytes and buffered bytes go first, and its copy is dropped (R117, R327). -/
def clearWay (r : Req) (s : State) : State :=
  wcFlush r.core (fun w => w.ctx == r.ctx && w.sector == r.ia / 128)
    (blockFills r.core (some (r.ctx, r.ia / 128)) (cleanSector r.core r.ctx r.ia true s))

/-- A word atomic leaves the core. -/
def startAtomic (r : Req) (s : State) : State := sendOp r (clearWay r s)

def execAtomic (op : Nat) (f : F2) (s : State) : Out :=
  issue f.h false s (noScalar s) (fun e act s =>
    forbidInTxn e act s (
    let isCas := op == 7
    let uses := dstUse (laneDst f.ty f.d) ++ [(f.a.toNat, 2)] ++ (if op == 8 then [] else srcUse (dataSrc f.ty f.b)) ++
      (if isCas then srcUse (dataSrc f.ty f.c) else idxUse f)
    orTrap e (regTraps e act uses) s (
    let acc := fun fid =>
      let x := getFibre e.g fid
      let a := globalAddr f x
      let b := if op == 8 then (0, false) else readSrc x (dataSrc f.ty f.b)
      let c := if isCas then readSrc x (dataSrc f.ty f.c) else (0, false)
      (fid, a.1, b.1, c.1, a.2 || b.2 || c.2)
    let accs := (sortBy lane act).map acc
    orTrap e (accs.filterMap (fun a => lowest a.1 (globalFaults s e.g.ctx a.2.1 (accBytes f.ty) 3 a.2.2.2.2))) s (
    let sectors := accs.map (fun a => iaOf s e.g.ctx a.2.1 3 / 128)
    if !logReady s e act e.g.ctx sectors || !acquiresDone s e.gid act then .next (logStall s e act)
    else orPoison e (fun ia => homeSeen s e.core e.g.ctx ia true) true (accs.map (fun a => (a.1, a.2.1, iaOf s e.g.ctx a.2.1 3))) s (
    if f.ord ≠ 0 ∧ !flushDone s e.g (slabOf e.core) act then .next s
    else
      let r := if f.ord.getLsbD 1 then release e act f.sc s else (true, s)
      if !r.1 then .next r.2
      else
        let (entry, s1) := openEntry e act sectors r.2
        let wid := s1.ids
        let s2 := retire e 1 (fun _ => Wr.none) (loadWindow f wid act) (fun _ => nextPc e.pc) { s1 with ids := wid + 1 }
        let b := { baseReq e f entry wid s2 with kind := .atomic op, group := act }
        .next (closeEntry e.key entry (accs.foldl (fun s a => startAtomic { b with
          fid := a.1, va := a.2.1, ia := iaOf s e.g.ctx a.2.1 3, data := a.2.2.1, cmp := a.2.2.2.1,
          poison := (guard f.h (getFibre e.g a.1)).2 } s) s2)))))))

/-! ### Fences (R328, R329) -/

/-- A queued operation sends its results over the haulway: HSEND and HCAST (R190). -/
def isSend (o : MxOp) : Bool := match o.kind with | .drain b => decide (3 ≤ b.disp) | .mul _ _ _ _ _ _ => false

/-- An engine of the cluster has a write of the gang outstanding (R116). -/
def engineBusy (s : State) (gid cls : Nat) : Bool :=
  let g := getGang s gid
  let cl := getCluster s (clusterOf g.core)
  match cls with
  | 1 => (getCore s g.core).copyq.cmds.any (fun c => c.gang == gid)
  | 2 => cl.queues.any (fun q => q.2.any (fun o => o.gang == gid && !isSend o)) || (match cl.running with | some o => o.gang == gid | none => false) ||
      s.drains.any (fun d => d.2.gang == gid && !d.2.haulPath)
  | 3 => cl.queues.any (fun q => q.2.any (fun o => o.gang == gid && isSend o)) || s.packets.any (fun p => p.gang == gid) || s.acks.any (fun a => a.gang == gid) || s.drains.any (fun d => d.2.gang == gid && d.2.haulPath)
  | _ => false

/-- Retire a fence of the executing fibres after its release part and its acquire part; `after` is what it does besides. -/
def fenceParts (e : Env) (act : List Nat) (rel acq : Bool) (sc : BitVec 2) (after : State → State) (s : State) : Out :=
  if act.any (fun fid => hasReq s e.gid fid) then .next (splitParked e act s)
  else
    let r := if rel then release e act sc s else
      (flushDone s e.g (slabOf e.core) act, wcFlush e.core (fun _ => true) s)
    if !r.1 then .next r.2
    else .next (retirePlain e 1 (after (if acq then acquireEffect e.core sc r.2 else r.2)))

/-! ### The meanings -/

/-- LD (R314). -/
def execLd (f : F2) (s : State) : Out :=
  issue f.h false s (ldScalar f s) (fun e act s =>
    orTrap e (regTraps e act (dstUse (laneDst f.ty f.d) ++ [(f.a.toNat, 2)] ++ idxUse f)) s
      (orTrap e (act.filterMap (fun fid =>
          let a := globalAddr f (getFibre e.g fid)
          lowest fid (globalFaults s e.g.ctx a.1 (accBytes f.ty) 1 ((f.ord != 0 || e.sl.txn.isSome) && a.2)))) s
        (match e.sl.txn with
         | some t => loadTxn f e t act s
         | none => loadGlobal f e act s)))

/-- ST (R315). -/
def execSt (f : F2) (s : State) : Out :=
  issue f.h false s (stScalar f s) (fun e act s =>
    orTrap e (regTraps e act ([(f.a.toNat, 2)] ++ srcUse (dataSrc f.ty f.b) ++ idxUse f)) s
      (orTrap e (act.filterMap (fun fid =>
          let x := getFibre e.g fid
          let a := globalAddr f x
          lowest fid (globalFaults s e.g.ctx a.1 (accBytes f.ty) (if e.sl.txn.isSome then 3 else 2) (f.ord != 0 && e.sl.txn.isNone && (a.2 || (readSrc x (dataSrc f.ty f.b)).2))))) s
        (match e.sl.txn with
         | some t => storeTxn f e t act s
         | none => storeGlobal f e act s)))

/-- LDS (R316). -/
def execLds (f : F2) (s : State) : Out :=
  issue f.h false s (ldsScalar f s) (fun e act s =>
    orTrap e (regTraps e act (dstUse (laneDst f.ty f.d) ++ [(f.a.toNat, 1)] ++ idxUse f)) s
      (orTrap e (act.filterMap (fun fid =>
          let a := shortAddr f (getFibre e.g fid)
          let off := a.1.toNat
          lowest fid (scratchFaults e.g off (accBytes f.ty) false ((f.ord != 0 || e.sl.txn.isSome) && a.2) ++
            (if (f.ord != 0 || e.sl.txn.isSome) && (scratchPoisonAt e.g off || bufferedPoison e.sl.txn off) then [(14, sectorOff off)] else [])))) s
        (loadScratch f e act s)))

/-- STS (R316). -/
def execSts (f : F2) (s : State) : Out :=
  issue f.h false s (stsScalar f s) (fun e act s =>
    orTrap e (regTraps e act ([(f.a.toNat, 1)] ++ srcUse (dataSrc f.ty f.b) ++ idxUse f)) s
      (orTrap e (act.filterMap (fun fid =>
          let x := getFibre e.g fid
          let a := shortAddr f x
          let off := a.1.toNat
          lowest fid (scratchFaults e.g off (accBytes f.ty) true (f.ord != 0 && e.sl.txn.isNone && (a.2 || (readSrc x (dataSrc f.ty f.b)).2)) ++
            (if f.ord != 0 && e.sl.txn.isNone && scratchPoisonAt e.g off then [(14, sectorOff off)] else [])))) s
        (storeScratch f e act s)))

/-- LDPL (R320): each lane reads its byte of every plane. -/
def execLdpl (f : F2) (s : State) : Out :=
  issue f.h false s (noScalar s) (fun e act s =>
    orTrap e (regTraps e act ([(f.d.toNat, 2), (f.a.toNat, 1)] ++ idxUse f)) s
      (orTrap e (act.filterMap (fun fid =>
          let a := shortAddr f (getFibre e.g fid)
          lowest fid (planeFaults e.g f.ty a.1.toNat ++ (if e.sl.txn.isNone then [] else
            (if a.2 then [(14, 0)] else []) ++ planePoison e.g e.sl.txn f.ty (a.1.toNat + lane fid))))) s
        (if !acquiresDone s e.gid act then .next (splitParked e act s)
         else
          let at_ := fun fid p => (shortAddr f (getFibre e.g fid)).1.toNat + p * 2048 + lane fid
          let ps := List.range (planes f.ty)
          let val := fun fid => unplane (ps.map (fun p => BitVec.ofNat 8 (scratchValue s e.gid e.sl.txn (at_ fid p) 1)))
          let poi := fun fid => (shortAddr f (getFibre e.g fid)).2 || (guard f.h (getFibre e.g fid)).2 ||
            ps.any (fun p => scratchPoisonAt e.g (at_ fid p))
          let vals := act.map (fun fid => (fid, (val fid).zeroExtend 128, poi fid))
          let go := fun s => Host.Outcome.next (scratchReply e f (.n64, f.d.toNat) vals
            (fun _ => { regs := pairWr f.d.toNat 0 false, preds := [], flags := 0 }) act s)
          match e.sl.txn with
          | none => go s
          | some t =>
            let lines := (act.map (fun fid => ps.map (fun p => at_ fid p / 256))).flatten
            match noteReads true (lines.map (fun l => (l, scratchVersion s e.gid l))) t with
            | .error c => .next (abortTxn e.core e.key e.gid c 0 s)
            | .ok t1 => go (setTxn e.key t1 s))))

/-- STPL (R319): each lane writes one byte to every plane. -/
def execStpl (f : F2) (s : State) : Out :=
  issue f.h false s (noScalar s) (fun e act s =>
    orTrap e (regTraps e act ([(f.a.toNat, 1), (f.b.toNat, 2)] ++ idxUse f)) s
      (orTrap e (act.filterMap (fun fid => lowest fid (planeFaults e.g f.ty (shortAddr f (getFibre e.g fid)).1.toNat))) s
        (let accs := ((sortBy lane act).map (fun fid =>
            let x := getFibre e.g fid
            let a := shortAddr f x
            let v := readPair x f.b.toNat
            (List.range (planes f.ty)).map (fun p => (a.1.toNat + p * 2048 + lane fid, [planeByte v.1 p], a.2 || v.2)))).flatten
         match e.sl.txn with
         | some t =>
           match bufferWrites true accs t with
           | none => .next (abortTxn e.core e.key e.gid 4 0 s)
           | some t1 => .next (retirePlain e 1 (setTxn e.key t1 s))
         | none =>
           if !acquiresDone s e.gid act then .next (splitParked e act s)
           else .next (accs.foldl (fun s a => scratchMark e.gid a.1 1 a.2.2 (scratchWrite e.gid a.1 a.2.1 s)) (retirePlain e 1 s)))))

/-- The page of an address is a write-back page that loads may read: a prefetch of any other has no effect (R321). -/
def backedPage (s : State) (ctx ia : Nat) : Bool := match translate s ctx ia true false with | .ok l => l.ca == 0 | .error _ => false

/-- PREF (R321): lanes whose request is not dropped send it, as a load of the whole sector (R90); it never traps on its address. -/
def execPref (f : F2) (s : State) : Out :=
  issue f.h false s (noScalar s) (fun e act s =>
    orTrap e (regTraps e act ([(f.a.toNat, 2)] ++ idxUse f)) s
      (if e.sl.txn.isSome || f.pol == 3 || f.rd == 5 then .next (retirePlain e 1 s)
       else
        let accs := act.filterMap (fun fid =>
          let a := globalAddr f (getFibre e.g fid)
          let va := a.1 &&& ~~~127
          match checkWindow s e.g.ctx va pathVec 1 with
          | .ok ia => if a.2 || isPeer ia || !backedPage s e.g.ctx ia then none else some (fid, va, ia)
          | .error _ => none)
        let sectors := accs.map (fun a => a.2.2 / 128)
        if !logReady s e act e.g.ctx sectors || !acquiresDone s e.gid act then .next (logStall s e act)
        else
          let (entry, s1) := openEntry e act sectors s
          let s2 := retirePlain e 1 s1
          let b := { baseReq e f entry 0 s2 with kind := .prefetch, bytes := 128, group := act }
          .next (closeEntry e.key entry (accs.foldl (fun s a => startLoad { b with fid := a.1, va := a.2.1, ia := a.2.2 } s) s2))))

/-- FLUSHR (R322). -/
def execFlushr (f : F2) (s : State) : Out := regionOp f false s
/-- INVR (R323). -/
def execInvr (f : F2) (s : State) : Out := regionOp f true s

/-- AADD (R325). -/
def execAadd (f : F2) (s : State) : Out := execAtomic 0 f s
/-- AMIN (R325). -/
def execAmin (f : F2) (s : State) : Out := execAtomic 1 f s
/-- AMAX (R325). -/
def execAmax (f : F2) (s : State) : Out := execAtomic 2 f s
/-- AAND (R325). -/
def execAand (f : F2) (s : State) : Out := execAtomic 3 f s
/-- AOR (R325). -/
def execAor (f : F2) (s : State) : Out := execAtomic 4 f s
/-- AXOR (R325). -/
def execAxor (f : F2) (s : State) : Out := execAtomic 5 f s
/-- AXCHG (R325). -/
def execAxchg (f : F2) (s : State) : Out := execAtomic 6 f s
/-- ACAS (R325, R326). -/
def execAcas (f : F2) (s : State) : Out := execAtomic 7 f s
/-- AINC (R325). -/
def execAinc (f : F2) (s : State) : Out := execAtomic 8 f s

/-- FENCE (R328). -/
def execFence (f : F2) (s : State) : Out :=
  issue f.h false s (noScalar s) (fun e act s =>
    forbidInTxn e act s (if act.isEmpty then .next (retirePlain e 1 s)
      else fenceParts e act (f.ord.getLsbD 1) (f.ord.getLsbD 0) f.sc id s))

/-- FENCEX (R116, R329). -/
def execFencex (f : F2) (s : State) : Out :=
  issue f.h false s (noScalar s) (fun e act s =>
    forbidInTxn e act s (
      let a := f.off.toNat % 8
      let b := f.off.toNat / 16 % 8
      let sc : BitVec 2 := if f.sc = 0 then 1 else f.sc
      if act.isEmpty then .next (retirePlain e 1 s)
      else if a = b then fenceParts e act true true f.sc id s
      else if a = 0 then fenceParts e act true false sc id s
      else if b = 0 then fenceParts e act false true sc (seeEngine a e.gid) s
      else if engineBusy s e.gid a then .next s
      else fenceParts e act false false sc id s))

end Sys2Proof.Machine
end

