-- ==== Sys2Proof/Machine/Tasks.lean ====
section
/-! DEFINITION. Sys2Proof/Machine/Tasks.lean: sync words, task queues and SBSET (R163 to R167, R332 to R342), and what a header's home
does for a task-queue instruction. -/
namespace Sys2Proof.Machine

/-! ### Shared checks (R333) -/

/-- Lanes whose guard carries poison, executing or not, and executing lanes with a poisoned operand. -/
def poisonTraps (h : Hdr) (e : Env) (act : List Nat) (srcs : List Src) : Raised :=
  (e.fids.filter (fun fid => let x := getFibre e.g fid
    (guard h x).2 || (act.contains fid && srcs.any (fun r => (readSrc x r).2)))).map (fun fid => (fid, 14, 0))

def off5 (f : F5) : W64 := (f.low.extractLsb' 0 24).signExtend 64

/-- The address of a scratchpad memory form. -/
def shortAddr5 (f : F5) (x : Fibre) : Nat := ((readReg x f.a.toNat).1 + (off5 f).truncate 32).toNat

/-- The address of a global memory form. -/
def globalAddr5 (f : F5) (x : Fibre) : W64 := (readPair x f.a.toNat).1 + off5 f

/-! ### Sync words (R336, R337) -/

def syncFaults (g : Gang) (off : Nat) : List (Nat × W64) :=
  (if off % 16 ≠ 0 then [(4, BitVec.ofNat 64 off)] else []) ++
  (if isAllocWord off || !inNeed g off 16 then [(7, BitVec.ofNat 64 off)] else []) ++
  (if scratchPoisonAt g off then [(14, sectorOff off)] else [])

/-- A sync-word instruction: checks, then the updates in one step. -/
def execSync (f : F5) (uses : List RegUse) (srcs : List Src) (go : Env → List Nat → State → Out) (s : State) : Out :=
  issue f.h false s (noScalar s) (fun e act s =>
    forbidInTxn e act s (
    orTrap e (regTraps e act uses) s (
    orTrap e (poisonTraps f.h e act srcs ++
      act.filterMap (fun fid => lowest fid (syncFaults e.g (shortAddr5 f (getFibre e.g fid))))) s
      (if !acquiresDone s e.gid act || (f.ord != 0 && !flushDone s e.g (slabOf e.core) act) then .next (splitParked e act s)
       else go e (sortBy lane act) s))))

/-- SWINIT in one word. -/
def syncInit (w : Quad) (a : BitVec 16) (b : Word) : Quad := (0 : Word) ++ b ++ (0 : BitVec 16) ++ a ++ w.extractLsb' 0 32
/-- SWEXPECT in one word. -/
def syncExpect (w : Quad) (n : Nat) : Quad :=
  w.extractLsb' 96 32 ++ BitVec.ofNat 32 (satAdd 32 (w.extractLsb' 64 32).toNat n) ++ w.extractLsb' 0 64
/-- SWARRIVE of `k` fibres in one word, with the phase test (R164). -/
def syncArrive (w : Quad) (k : Nat) : Quad :=
  endPhase (w.extractLsb' 64 64 ++ BitVec.ofNat 16 (satAdd 16 (w.extractLsb' 48 16).toNat k) ++ w.extractLsb' 0 48)

/-- SWINIT (R336). -/
def execSwinit (f : F5) (s : State) : Out :=
  execSync f [(f.a.toNat, 1), (f.b.toNat, 1), (f.c.toNat, 1)] [.reg f.a.toNat, .reg f.b.toNat, .reg f.c.toNat] (fun e act s =>
    .next (act.foldl (fun s fid =>
      let x := getFibre e.g fid
      let off := shortAddr5 f x
      syncWrite e.gid off (syncInit (syncRead s e.gid off) ((readReg x f.b.toNat).1.truncate 16) (readReg x f.c.toNat).1) s)
      (retirePlain e 5 s))) s

/-- SWEXPECT (R336). -/
def execSwexpect (f : F5) (s : State) : Out :=
  execSync f [(f.a.toNat, 1), (f.b.toNat, 1)] [.reg f.a.toNat, .reg f.b.toNat] (fun e act s =>
    .next (act.foldl (fun s fid =>
      let x := getFibre e.g fid
      let off := shortAddr5 f x
      syncWrite e.gid off (syncExpect (syncRead s e.gid off) (readReg x f.b.toNat).1.toNat) s) (retirePlain e 5 s))) s

/-- SWARRIVE (R336, R337): one update for each distinct word, in the order of the lowest lane that names it. -/
def execSwarrive (f : F5) (s : State) : Out :=
  execSync f [(f.a.toNat, 1)] [.reg f.a.toNat] (fun e act s =>
    let r := if f.ord.getLsbD 1 then scratchRelease e act f.sc s else (true, s)
    if !r.1 then .next r.2
    else
      let offs := act.map (fun fid => shortAddr5 f (getFibre e.g fid))
      let s1 := (noteLines offs []).foldl (fun s off =>
        syncWrite e.gid off (syncArrive (syncRead s e.gid off) (offs.count off)) s) (retirePlain e 5 r.2)
      .next (if f.ord.getLsbD 0 ∧ f.sc ≠ 0 ∧ !act.isEmpty then acquireEffect e.core 1 s1 else s1)) s

/-! ### Task queues (R166, R167, R338 to R341) -/

/-- An entry breaks R166. -/
def badEntry (bs : List Byte) : Bool :=
  let n := byteAt bs 12
  decide (4 < n) || !allZero ((bs.drop 13).take 3) ||
  (List.range n).any (fun i => decide (2 ^ 57 ≤ field bs (16 + 12 * i) 8))

/-- The regions of an entry: VA and length. -/
def entryRegions (bs : List Byte) : List (Nat × Nat) :=
  (List.range (byteAt bs 12)).map (fun i => (field bs (16 + 12 * i) 8, field bs (24 + 12 * i) 4))

/-- Write back, or write back and drop, the L1 sectors of an entry's regions (R167). -/
def entryMaintain (core ctx : Nat) (bs : List Byte) (drop : Bool) (s : State) : State :=
  let rs := ((entryRegions bs).map (fun r => regionRanges (getCtx s ctx) r.1 r.2)).flatten
  maintain core (fun c sec => c == ctx && touches rs sec) drop s

/-- A store of the fibre to a region of the entry still waits for its page: its bytes go before the push (R167). -/
def regionStores (s : State) (e : Env) (fid : Nat) (bs : List Byte) : Bool :=
  let rs := ((entryRegions bs).map (fun r => regionRanges (getCtx s e.g.ctx) r.1 r.2)).flatten
  s.reqs.any (fun r => r.gang == e.gid && r.fid == fid && (r.kind == .probe || r.kind == .store) && touches rs (r.ia / 128))

/-- A malformed header (R338). -/
def badHeader (h : List Byte) : Bool :=
  let cap := byteAt h 8
  decide (field h 0 8 % 64 ≠ 0) || decide (2 ^ 57 ≤ field h 0 8) || decide (cap < 1) || decide (20 < cap) ||
  !allZero ((h.drop 9).take 7) || !allZero ((h.drop 40).take 24) ||
  decide (2 ^ cap < (field h 16 8 + 2 ^ 64 - field h 24 8) % 2 ^ 64)

/-- Where an access finds its bytes: a page's leaf, or a place in a peer's aperture (R96). -/
inductive Spot where
  | page (l : Leaf)
  | peer (k : Nat)
  deriving DecidableEq, Repr

/-- The place of an IA's bytes, or the WHY of its page fault: `kernel` accesses check U. -/
def spotOf (s : State) (ctx ia : Nat) (kernel write : Bool) : Except Nat Spot :=
  if isPeer ia then .ok (.peer (peerKey ia))
  else match translate s ctx ia kernel write with
    | .ok l => .ok (.page l)
    | .error y => .error y

/-- The slab may see the place (R111). -/
def spotShown (s : State) (slab : Nat) : Spot → Bool
  | .page l => shownTo s slab (l.pa / 128)
  | .peer _ => true

/-- A global access of the VEC path that a home makes for a queue operation: the place, a trap cause, or a page-fault WHY. -/
inductive Reach where
  | ok (p : Spot)
  | trap (cause : Nat)
  | page (why : Nat)
  deriving DecidableEq, Repr

def reach (s : State) (ctx : Nat) (va : W64) : Reach :=
  match checkWindow s ctx va pathVec 3 with
  | .error c => .trap c
  | .ok ia =>
    match spotOf s ctx ia true true with
    | .ok p => .ok p
    | .error y => .page y

/-- `n` bytes under a leaf, and a write of bytes under it. -/
def leafBytes (s : State) (l : Leaf) (n : Nat) : List Byte :=
  let d := homeSector s l
  (List.range n).map (fun i => sectorByte d (l.pa % 128 + i))
/-- A write performed at its home for an agent, past the agent's own core-side slice: its copies there go as well (R105). -/
def homeWrite (l : Leaf) (mask : BitVec 128) (d : BitVec 1024) (poison : Bool) (agent : Nat) (stamp : List Nat) (s : State) : State :=
  let pas := l.pa / 128
  dropCopies agent pas (dropCopies (slabOfHome (homeOf (pas * 128))) pas (storeSector (keysAt s l.key) pas mask d poison agent stamp s))
def leafWrite (l : Leaf) (bs : List Byte) (poison : Bool) (agent : Nat) (stamp : List Nat) (s : State) : State :=
  homeWrite l (byteMask (l.pa % 128) bs.length) (natSector (natOfBytes bs) (l.pa % 128) bs.length) poison agent stamp s

/-- The sector of a place. -/
def spotSector (s : State) : Spot → BitVec 1024
  | .page l => homeSector s l
  | .peer k => readSector s.peerMem (k - k % 128)
/-- A page's A bit after an access (R83). -/
def spotSeen (p : Spot) (s : State) : State := match p with | .page l => setAccessed l s | .peer _ => s

/-- Bytes of a place within one sector, its poison, its stamp, and a write of it; an access sets A of the page (R83, R121). -/
def spotBytes (s : State) : Spot → Nat → List Byte
  | .page l, n => leafBytes s l n
  | .peer k, n => bytesOfNat n (readLE s.peerMem k n)
def spotPoison (s : State) : Spot → Bool
  | .page l => poisonedAt s (l.pa / 128)
  | .peer k => s.peerPoison.contains (k / 128)
def spotStamp (s : State) : Spot → List Nat
  | .page l => (kget s.stamps (l.pa / 128) (0, [])).2
  | .peer _ => []
def spotTouch (p : Spot) (s : State) : State :=
  match p with
  | .page l => touchLine (l.pa / 256) (setAccessed l s)
  | .peer _ => s
def spotWrite (p : Spot) (bs : List Byte) (poison : Bool) (agent : Nat) (stamp : List Nat) (s : State) : State :=
  match p with
  | .page l => setAccessed l (leafWrite l bs poison agent stamp s)
  | .peer k => peerMark (k / 128) (byteMask (k % 128) bs.length) poison { s with peerMem := writeBytes s.peerMem k bs }
def spotAdd (p : Spot) (n : Nat) : Spot :=
  match p with
  | .page l => .page { l with pa := l.pa + n }
  | .peer k => .peer (k + n)

/-- The leaf of a place, under which its home applies a write that has been checked. -/
def Spot.leaf : Spot → Option Leaf
  | .page l => some l
  | .peer _ => none

/-- A write to a place leaves the package: its acknowledgement is awaited at scope y (R114). -/
def spotOut : Spot → Bool
  | .page l => l.tier
  | .peer _ => true

/-- A commit holds the line of a place, or a write of the agent to its home is on its way before this one (R105, R151). -/
def spotBusy (s : State) (agent : Nat) (m : WriteMsg) (p : Spot) : Bool :=
  match p with
  | .page l => commitHolds s (l.pa / 256) || !stableAt s (homeOf l.pa) agent m.stamp ||
      s.held.any (fun x => x.agent == agent && homeOfMsg x == homeOf l.pa && decide (x.id < m.id)) || !opQuiet s (homeOf l.pa) m
  | .peer _ => false

/-- The ring place of a queue operation: entry TAIL of a post, entry HEAD of a take. -/
def ringVa (h : List Byte) (kind : ReqKind) : W64 :=
  let n := if kind = .post then field h 16 8 else field h 24 8
  BitVec.ofNat 64 (field h 0 8 + 64 * (n % 2 ^ byteAt h 8))

/-- The header answers without touching its ring: BADQUEUE, FULL or EMPTY. -/
def queueRefuses (h : List Byte) (kind : ReqKind) : Option Nat :=
  if badHeader h then some 4
  else if kind = .post then
    if (field h 16 8 + 2 ^ 64 - field h 24 8) % 2 ^ 64 = 2 ^ byteAt h 8 then some 1 else none
  else if field h 24 8 = field h 16 8 then some 2 else none

/-- The place that an operation's entry takes is ready: the entry of a post is a write at its own home (R108, R340). -/
def entryReady (s : State) (r : Req) (m : WriteMsg) (header : Spot) : Bool :=
  let h := spotBytes s header 64
  if r.kind = .done ∨ (queueRefuses h r.kind).isSome then true
  else match reach s r.ctx (ringVa h r.kind) with
    | .ok p => !spotBusy s (slabOf r.core) m p
    | _ => true

/-- A post or a take reaches a ring outside the package. -/
def ringOut (s : State) (r : Req) (header : Spot) : Bool :=
  (r.kind == .post || r.kind == .take) &&
    (match reach s r.ctx (ringVa (spotBytes s header 64) r.kind) with | .ok p => spotOut p | _ => false)

/-- An operation writes to a place outside the package: at its header, or the entry of a post at its ring (R114). -/
def opOut (s : State) (r : Req) (header : Spot) : Bool := spotOut header || (r.kind == .post && ringOut s r header)

/-- What the header's home, or the peer, does for one queue operation (R340, R341): the request with its status and entry, or a fault.
`stamp` is that with which the operation left its slab (R105). -/
def queueServe (r : Req) (header : Spot) (stamp : List Nat) (s : State) : State × Req :=
  let slab := slabOf r.core
  let h := spotBytes s header 64
  let done := fun (st : Nat) => { r with phase := .reply, status := st, value := BitVec.ofNat 128 st, stamp := spotStamp s header }
  let bump := fun (at_ : Nat) (s : State) => spotWrite (spotAdd header at_) (bytesOfNat 8 (field h at_ 8 + 1)) false slab stamp s
  let poisoned := fun (va : W64) => { done 0 with status := 256 + 14, va := va &&& ~~~127 }
  if spotPoison s header then (s, poisoned r.va)
  else if r.kind = .done then (bump 32 s, done 0)
  else
    match queueRefuses h r.kind with
    | some st => (s, done st)
    | none =>
      let va := ringVa h r.kind
      match reach s r.ctx va with
      | .trap c => (s, { done 0 with status := 256 + c, va := va })
      | .page y => (s, { r with phase := .faulted y, fva := some va })
      | .ok p =>
        let s1 := spotTouch p s
        if spotPoison s1 p then (s1, poisoned va)
        else if r.kind = .post then (bump 16 (spotWrite p (bytesOfNat 64 r.sector.toNat) false slab stamp s1), done 0)
        else (bump 24 s1, { done 0 with
          sector := natSector (natOfBytes (spotBytes s1 p 64)) 0 64, stamp := vmax (spotStamp s1 p) (spotStamp s1 header) })

/-- The three queue instructions: checks, the release, and one request for each lane. -/
def execQueue (kind : ReqKind) (f : F5) (image result : Bool) (s : State) : Out :=
  issue f.h false s (noScalar s) (fun e act s =>
    forbidInTxn e act s (
    orTrap e (regTraps e act ((if result then [(f.d.toNat, 1)] else []) ++ [(f.a.toNat, 2)] ++ (if image then [(f.b.toNat, 1)] else []))) s (
    let acc := fun fid =>
      let x := getFibre e.g fid
      (fid, globalAddr5 f x, (readReg x f.b.toNat).1.toNat)
    let accs := (sortBy lane act).map acc
    let faults := fun (a : Nat × W64 × Nat) =>
      (if a.2.1.toNat % 64 ≠ 0 then [(4, a.2.1)] else []) ++
      (match checkWindow s e.g.ctx a.2.1 pathVec 3 with | .error c => [(c, a.2.1)] | .ok _ => []) ++
      (if !image then [] else
        (if a.2.2 % 64 ≠ 0 then [(4, BitVec.ofNat 64 a.2.2)] else []) ++
        (if inNeed e.g a.2.2 64 then [] else [(7, BitVec.ofNat 64 a.2.2)]) ++
        (if scratchPoisonAt e.g a.2.2 then [(14, sectorOff a.2.2)] else []))
    orTrap e (poisonTraps f.h e act ([.pair f.a.toNat] ++ if image then [.reg f.b.toNat] else []) ++
        accs.filterMap (fun a => lowest a.1 (faults a))) s (
    let sectors := accs.map (fun a => iaOf s e.g.ctx a.2.1 3 / 128)
    if !logReady s e act e.g.ctx sectors || !acquiresDone s e.gid act then .next (logStall s e act)
    else orPoison e (fun ia => homeSeen s e.core e.g.ctx ia true) true (accs.map (fun a => (a.1, a.2.1, iaOf s e.g.ctx a.2.1 3))) s (
    if f.ord ≠ 0 ∧ !flushDone s e.g (slabOf e.core) act then .next s
    else if kind == .post && accs.any (fun a => regionStores s e a.1 (bytesOfNat 64 (readLE e.g.scratch a.2.2 64))) then
      .next (splitParked e act s)
    else
      let r := if f.ord.getLsbD 1 then release e act f.sc s else (true, s)
      if !r.1 then .next r.2
      else
        let (entry, s1) := openEntry e act sectors r.2
        let wid := s1.ids
        let wr : Wr := { regs := [(f.d.toNat, 0, false)], preds := [], flags := 0 }
        let s2 := retire e 5 (fun _ => Wr.none)
          (fun fid => if result && act.contains fid then some (newWindow wid f.h.la.toNat wr true) else none)
          (fun _ => nextPc e.pc) { s1 with ids := wid + 1 }
        let b := { Req.blank with
          kind := kind, core := e.core, slot := e.key % 32, entry := entry, group := act, gang := e.gid, pc := e.pc, ctx := e.g.ctx, bytes := 64,
          d := f.d.toNat, window := wid, ord := f.ord, sc := f.sc }
        .next (closeEntry e.key entry (accs.foldl (fun s a =>
          let img := readLE (getGang s e.gid).scratch a.2.2 64
          let q := { b with fid := a.1, va := a.2.1, ia := iaOf s e.g.ctx a.2.1 3, image := a.2.2,
                            sector := if kind == .post then BitVec.ofNat 1024 img else 0 }
          if kind == .post then
            if badEntry (bytesOfNat 64 img) then addReq { q with phase := .reply, status := 3, value := 3 } s
            else sendOp q (entryMaintain e.core e.g.ctx (bytesOfNat 64 img) false s)
          else sendOp q s) s2)))))))

/-- TASKPOST (R340). -/
def execTaskpost (f : F5) (s : State) : Out := execQueue .post f true true s
/-- TASKTAKE (R340). -/
def execTasktake (f : F5) (s : State) : Out := execQueue .take f true true s
/-- TASKDONE (R341). -/
def execTaskdone (f : F5) (s : State) : Out := execQueue .done f false false s

/-! ### SBSET (R342) -/

/-- The fibres of a gang, on its core or saved off it by a drain. -/
def gangFibres (s : State) (ctx gid : Nat) : List (Nat × Fibre) :=
  match kget? s.gangs gid with
  | some g => g.fibres
  | none => (((getCtx s ctx).saved.filter (fun v => v.id == gid)).map (fun v => v.gang.fibres)).flatten

/-- The tile counts as retired once some fibre of the task has performed an SBSET and every live one has. -/
def checkReleased (tid : Nat) (s : State) : State :=
  let t := getTask s tid
  let fibres := ((getCrew s t.crew).live.map (gangFibres s t.ctx)).flatten
  if t.sbset && fibres.all (fun f => f.2.sbset) then setTask s tid { t with released := true } else s

def execSbset (f : F5) (s : State) : Out :=
  issue f.h false s (noScalar s) (fun e act s =>
    forbidInTxn e act s (
    orTrap e (poisonTraps f.h e act []) s
      (if act.isEmpty then .next (retirePlain e 5 s)
       else
        let r := release e act 2 s
        if !r.1 then .next r.2
        else
          let s0 := retirePlain e 5 r.2
          let s1 := setTask s0 e.g.task { getTask s0 e.g.task with sbset := true }
          .next (checkReleased e.g.task (setGang s1 e.gid (mapFibres (getGang s1 e.gid) (fun fid x =>
            if act.contains fid then { x with sbset := true } else x)))))))

end Sys2Proof.Machine
end

