-- ==== Sys2Proof/Machine/MemEvents.lean ====
section
/-! DEFINITION. Sys2Proof/Machine/MemEvents.lean: the device's own steps of the memory system: ticks, forwarding, the homes, replies,
probes, logged faults and acknowledgements (chapters 5 and 10). -/
namespace Sys2Proof.Machine

/-! ### Ticks (R104, R105, R107) -/

/-- TICK: every slice has forwarded what it received in an earlier tick (R105: no more delay than one tick). -/
def execTick (s : State) : Out :=
  if s.slabs.any (fun b => b.2.inq.any (fun m => decide (m.tick < s.tick))) then .fault .notEnabled
  else .next { s with tick := s.tick + 1, phase := 0 }

/-- A home's S[agent] can go up by one tick: no earlier than two ticks after it (R107). -/
def mayReport (s : State) (agent home : Nat) : Bool :=
  decide (2 ≤ (tick56 s + 2 ^ 56 - (vget (stableOf s home) agent + 1) % 2 ^ 56) % 2 ^ 56)

def reportAt (agent home : Nat) (s : State) : State :=
  { s with stable := kset s.stable home (vset (stableOf s home) agent ((vget (stableOf s home) agent + 1) % 2 ^ 56)) }

/-- DELIVERY_REPORT: the agent is delivered through one tick more, and the report reaches one home, or every home that can take it
(R107, DESIGN CHOICE log 12). What the agent had sent by then is at the homes: a tick waits for the slices to forward it. -/
def execDeliveryReport (d : Delivery) (s : State) : Out :=
  let homes := (match d.home with | some h => [h] | none => List.range 256).filter (fun h => decide (h < 256) && mayReport s d.agent h)
  if 5 ≤ d.agent ∨ homes.isEmpty then .fault .notEnabled
  else .next (homes.foldl (fun s h => reportAt d.agent h s) s)

/-- CORE_SIDE_FORWARD: the oldest write a slice received leaves for its home with the slab's vector as its stamp; the writes of one
commit or add-on-store leave together (R105, R119, R152). -/
def execCoreSideForward (slab : Nat) (s : State) : Out :=
  let b := getSlab s slab
  match b.inq with
  | [] => .fault .notEnabled
  | m :: _ =>
    let goes := fun (x : WriteMsg) => x.id == m.id || (m.kind.grouped && x.kind == m.kind)
    let out := (b.inq.filter goes).map (fun x => { x with stamp := vOf s slab, tick := s.tick })
    .next { setSlab s slab { b with inq := b.inq.filter (fun x => !goes x), lastLeft := tick56 s } with held := s.held ++ out }

/-! ### Homes (R108, R109, R216) -/

/-- An access leaves the package through a peer or a CXL port. -/
def goesOut (s : State) (ctx ia : Nat) : Bool :=
  isPeer ia || (match translate s ctx ia false false with | .ok l => l.tier | .error _ => false)

/-- The same of a write. -/
def writeOut (s : State) (m : WriteMsg) : Bool :=
  if m.phys then inTier s (m.sector * 128) else match m.leaf with | some l => l.tier | none => goesOut s m.ctx (m.sector * 128)

/-- A write waits for an acknowledgement after it is applied: a store, and every write to a peer, the second tier or the host. -/
def wantsAck (s : State) (m : WriteMsg) : Bool := (match m.kind with | .store _ => true | _ => false) || writeOut s m

/-- The slice that a write came from loses its copy of the sector: the home has not applied the bytes that it took (R88, R105). -/
def dropOwn (m : WriteMsg) (s : State) : State :=
  if m.agent = 4 then s
  else
    let b := getSlab s m.agent
    setSlab s m.agent { b with copies := b.copies.filter (fun c => !(c.ctx == m.ctx && c.sector == m.sector)) }

/-- The L1 that took a store's bytes clean, on their way to the home, keeps no copy of them: the home has not applied them (R216, R315). -/
def forgetStore (m : WriteMsg) (r : Req) (s : State) : State :=
  dropClean r.core r.ctx r.ia (l1Forget r.core r.ctx r.ia m.mask s)

/-- A store's bytes met a fault at the home: its lane will stop (R216). A copy's sector does not land (R209), and a drain keeps the
writes to stall at, each with its WHY, 0 for one that its group's fault keeps back (R119, R187). -/
def storeFaulted (m : WriteMsg) (why : Nat) (s0 : State) : State :=
  let s := dropOwn m s0
  match m.kind with
  | .store id =>
    let s1 := (s.reqs.filter (fun r => r.id == id)).foldl (fun s r => forgetStore m r s) s
    { s1 with reqs := s1.reqs.map (fun r => if r.id = id then { r with phase := .faulted why } else r) }
  | .engine op =>
    let mark := fun (c : CopyCmd) => if c.id = op then
        { c with lost := (c.sent.filter (fun p => p.2 == m.sector)).foldl (fun l p => kset l p.1 why) c.lost } else c
    { s with cores := s.cores.map (fun e => (e.1, { e.2 with copyq := { e.2.copyq with cmds := e.2.copyq.cmds.map mark } }))
             drains := s.drains.map (fun d => if d.1 = op then (d.1, { d.2 with lost := d.2.lost ++ [(m, why)] }) else d) }
  | .addOn op _ _ => { s with drains := s.drains.map (fun d => if d.1 = op then (d.1, { d.2 with lost := d.2.lost ++ [(m, why)] }) else d) }
  | _ => s

def putReq (r : Req) (s : State) : State := { s with reqs := s.reqs.map (fun x => if x.id = r.id then r else x) }
def dropReq (r : Req) (s : State) : State := { s with reqs := s.reqs.filter (fun x => x.id != r.id) }

/-- The request of a store whose bytes reach a home or a peer, and the place that they meet. -/
def storeAt (s : State) (m : WriteMsg) : Option (Req × Spot) :=
  match m.kind with
  | .store id =>
    match s.reqs.find? (fun r => r.id == id), spotOf s m.ctx (m.sector * 128) true true with
    | some r, .ok p => some (r, p)
    | _, _ => none
  | _ => none

/-- A store whose bytes are not applied but answered as a write probe is: one with a release that reaches a poisoned sector raises
POISON (R122, R313), and one to a write-combining page gathers in its core's buffer, whatever its policy (R91, R216). -/
def storeReturns (s : State) (r : Req) (p : Spot) : Option Req :=
  if r.ord ≠ 0 ∧ spotPoison s p then some { r with kind := .probe, phase := .reply, sectorPoison := true }
  else match p with
    | .page l => if l.ca = 2 then some { r with kind := .probe, phase := .reply, ca := 10 } else none
    | .peer _ => none

/-- A store that sent no probe has its policy dropped by an uncached page, which its core counts (R91). -/
def countDrop (r : Req) (p : Spot) (s : State) : State :=
  match p with
  | .page l => if r.ca = 0 ∧ r.pol ≠ 3 ∧ l.ca ≠ 0 then perfEvent r.core 4 1 s else s
  | .peer _ => s

/-- A keep-in-slab store with a release stands in its slab's slice once it has been applied, unless later bytes of the slab for the sector
are on their way (R91, R313). -/
def keepLate (r : Req) (s : State) : State :=
  if r.ord ≠ 0 && keepsCopy s r && (ownPending s (slabOf r.core) r.ctx (r.ia / 128)).isEmpty then keepCopy r s else s

/-- Apply one message and take it from the held ones. -/
def applyOne (m : WriteMsg) (s : State) : State :=
  let s1 := { s with held := s.held.filter (fun x => x.id != m.id) }
  let apply := fun (s1 : State) => match applyMsg m s1 with
    | .ok s2 => if wantsAck s1 m then { s2 with applied := s2.applied ++ [m] } else s2
    | .error y => storeFaulted m y s1
  match storeAt s1 m with
  | none => apply s1
  | some (r, p) =>
    match storeReturns s1 r p with
    | some x => putReq x (spotSeen p s1)
    | none => keepLate r (apply (countDrop r p s1))

/-- The WHY of a write of an add-on-store that meets a fault at its home: then none of the add-on-store is applied (R119, R187). The
writes of a commit were checked when their lines were locked (R151). -/
def groupFault (s : State) (m : WriteMsg) : Option Nat :=
  match m.kind with
  | .addOn _ _ _ => if isPeer (m.sector * 128) then none else match leafOf s m with | .error y => some y | .ok _ => none
  | _ => none

/-- A group of which a write meets a fault: its other pages have been walked (R83). -/
def dropGroup (group : List WriteMsg) (s0 : State) : State :=
  group.foldl (fun s m =>
    let s1 := { s with held := s.held.filter (fun w => w.id != m.id) }
    storeFaulted m ((groupFault s0 m).getD 0) (touchPage m.ctx (m.sector * 128) true s1)) s0

/-- HOME_APPLY_WRITE: the oldest held write of an agent at a home is applied once stable; the writes of a commit, and those of an
add-on-store, are applied together. -/
def execHomeApplyWrite (home agent : Nat) (s : State) : Out :=
  match firstHeld s home agent with
  | none => .fault .notEnabled
  | some m =>
    let group := if m.kind.grouped then s.held.filter (fun x => x.kind == m.kind) else [m]
    if !applicable s m ∨ isOp m.kind ∨ (s.mgmt.resetting ∧ group.any (writeOut s)) then .fault .notEnabled
    else if group.any (fun x => (groupFault s x).isSome) then .next (dropGroup group s)
    else .next (group.foldl (fun s x => applyOne x s) s)

/-- A recorded access is made again from its log entry (R218): its bytes travel anew, or its operation does, or its request, and the caches
give way to it as at its first issue (R117, R315, R327). -/
def reissue (r0 : Req) (s : State) : State :=
  let r := { r0 with seq := 0, fva := none }
  match r.kind with
  | .store => sendStore r (putReq { r with phase := .sent } s)
  | .atomic _ => pushOp r (putReq { r with phase := .toHome } (clearWay r s))
  | .post | .take | .done => pushOp r (putReq { r with phase := .toHome } s)
  | _ => putReq { r with phase := .toHome } s

/-- Kinds that write at the home. -/
def writesHome : ReqKind → Bool
  | .atomic _ | .post | .take | .done => true
  | _ => false

/-- The home can serve a read now (R109): the vector is covered, no write that could be applied waits, and the slab's own writes to the
sector have been applied (R102). -/
def readReady (s : State) (r : Req) : Bool :=
  let slab := slabOf r.core
  let h := homeOf r.ia
  homeQuiet s h && readStable s slab h r.q && ownApplied s slab r.ctx (r.ia / 128) &&
  (match spotOf s r.ctx r.ia true false with | .ok p => spotShown s slab p | .error _ => true)

/-- The home can serve an atomic or a queue operation now: its message leads its agent's at the home and is stable, what stands before it
is done, and no other agent's commit holds the line (R105, R108, R109, R117, R151). -/
def opReady (s : State) (r : Req) (m : WriteMsg) : Bool :=
  applicable s m && opQuiet s (homeOf r.ia) m &&
  (match spotOf s r.ctx r.ia true true with
   | .ok p => spotShown s (slabOf r.core) p && entryReady s r m p
   | .error _ => true)

/-- A word atomic at its place (R96, R325, R326): the old value, and the new one under the stamp with which the atomic left its slab. -/
def atomicServe (op : Nat) (r : Req) (p : Spot) (stamp : List Nat) (s : State) : State × Req :=
  let old := natOfBytes (spotBytes s p r.bytes)
  let ans := { r with phase := .reply, value := BitVec.ofNat 128 old, stamp := spotStamp s p, sectorPoison := spotPoison s p }
  if ans.sectorPoison then (s, ans)
  else
    match atomicNew op r.ty old r.data.toNat r.cmp.toNat with
    | none => (s, ans)
    | some n => (spotWrite p (bytesOfNat r.bytes n) false (slabOf r.core) stamp s, ans)

/-- The home performs an operation whose message has come: the message goes, and a write that left the package is acknowledged (R114). -/
def serveOp (r : Req) (s : State) : Out :=
  match opMsg s r.id with
  | none => .fault .notEnabled
  | some m =>
    if !opReady s r m then .fault .notEnabled
    else
      let s0 := { s with held := s.held.filter (fun x => x.id != m.id) }
      match spotOf s r.ctx r.ia true true with
      | .error y => .next (putReq { r with phase := .faulted y } s0)
      | .ok p =>
        let s1 := spotTouch p s0
        let a := match r.kind with
          | .atomic op => atomicServe op r p m.stamp s1
          | _ => queueServe r p m.stamp s1
        let s2 := if opOut s1 r p && a.2.phase == .reply && !a.2.sectorPoison then { a.1 with applied := a.1.applied ++ [m] } else a.1
        .next (putReq a.2 s2)

/-- The home, or the peer, answers a read or a write probe. -/
def serveRead (r : Req) (s : State) : Out :=
  match spotOf s r.ctx r.ia true (r.kind == .probe) with
  | .error y =>
    if r.kind = .prefetch then .next (closeEntry (slotKey r.core r.slot) r.entry (dropReq r s))
    else .next (putReq { r with phase := .faulted y } s)
  | .ok (.peer k) =>
    .next (putReq { r with phase := .reply, value := BitVec.ofNat 128 (readLE s.peerMem k r.bytes), ca := 1,
                           sectorPoison := s.peerPoison.contains (k / 128) } s)
  | .ok (.page l) =>
    if r.kind = .prefetch ∧ l.ca ≠ 0 then .next (closeEntry (slotKey r.core r.slot) r.entry (dropReq r s)) else
    let s1 := touchLine (l.pa / 256) (setAccessed l s)
    let d := homeSector s1 l
    let st := kget s1.stamps (l.pa / 128) (0, [])
    let ans := { r with phase := .reply, ca := l.ca + (if l.w then 8 else 0), sector := d, sectorPoison := poisonedAt s1 (l.pa / 128),
                        value := BitVec.ofNat 128 (sectorNat d (r.ia % 128) r.bytes), stamp := st.2, writer := st.1,
                        version := lineVersion s1 (l.pa / 256), image := if r.kind = .txnRead then l.pa / 256 else r.image }
    let slice := (r.kind == .load || r.kind == .prefetch) && l.ca == 0 && allocSlice r.rd r.pol
    .next (putReq ans (if slice
      then sliceFill (slabOf r.core) r.ctx (r.ia / 128) d ans.sectorPoison st.2 st.1 (insertion r.rd r.pol) s1 else s1))

/-- Serving a request reaches a place outside the package: its own, or the ring of a queue operation (R427). -/
def reqOut (s : State) (r : Req) : Bool :=
  goesOut s r.ctx r.ia ||
  (writesHome r.kind && (match spotOf s r.ctx r.ia true true with | .ok p => ringOut s r p | .error _ => false))

/-- HOME_SERVE: the home answers a load, a transactional read, a probe, an atomic, a prefetch or a queue operation; a line may be
evicted from its memory-side cache first (R89). -/
def execHomeServe (rid : Nat) (evict : Option Nat) (s0 : State) : Out :=
  let s := match evict with | some line => evictLine line s0 | none => s0
  match s.reqs.find? (fun r => r.id == rid && r.phase == .toHome) with
  | none => .fault .notEnabled
  | some r =>
    if s.mgmt.resetting ∧ reqOut s r then .fault .notEnabled
    else if writesHome r.kind then serveOp r s
    else if readReady s r then serveRead r s else .fault .notEnabled

/-- CORE_SIDE_COPY_EXPIRY: a copy of a line homed elsewhere is discarded, at the latest 64 ticks after its fill (R110). -/
def execCoreSideCopyExpiry (slab ctx line : Nat) (s : State) : Out :=
  let b := getSlab s slab
  let goes := fun (c : SliceCopy) => c.ctx == ctx && c.sector / 2 == line && slabOfHome (homeOf (c.sector * 128)) != slab
  if b.copies.any goes then .next (setSlab s slab { b with copies := b.copies.filter (fun c => !goes c) }) else .fault .notEnabled

/-! ### Replies (R106, R216, R239) -/

def setFibre (gid fid : Nat) (fn : Fibre → Fibre) (s : State) : State :=
  match kget? s.gangs gid with
  | none => s
  | some g => setGang s gid (mapFibres g (fun i f => if i = fid then fn f else f))

/-- A pending asynchronous cause of a fibre (R224). -/
def addAsync (gid fid cause : Nat) (val : W64) (s : State) : State :=
  match kget? s.gangs gid with
  | none => s
  | some g => setGang s gid { g with asyncs := g.asyncs ++ [{ fid := fid, cause := cause, val := val, lanes := laneMask [fid], seq := none }] }

/-- The reply's register result for a fibre, or for the scalar unit's k-register. -/
def deliver (r : Req) (raw : Quad) (p : Bool) (s : State) : State :=
  if r.fid = 1024 then
    let key := slotKey r.core r.slot
    let sl := getSlot s key
    match sl.handler with
    | none => s
    | some h => setSlot s key { sl with handler := some (writeK h r.d (ext64 r.ty.signed r.ty.bits raw.toNat) p) }
  else setFibre r.gang r.fid (fun f => fillWindow f r.window (loadWr r.ty r.d raw p).regs 0) s

/-- The write is dropped and the cause becomes pending, with the VA of the sector (R122, DEDUCED log 35). -/
def poisonReply (r : Req) (s : State) : State :=
  if r.fid = 1024 then
    match envOf { s with cur := some (r.core, r.slot) } with
    | some e => trapFailure e 32 (logError .core e.core 3 0 s)
    | none => s
  else addAsync r.gang r.fid 14 (r.va &&& ~~~127) (setFibre r.gang r.fid (fun f =>
    finishWindow { f with windows := f.windows.map (fun w => if w.id = r.window then { w with regs := [] } else w) } r.window) s)

/-- The value of a load, and its sector's poison, with what the L1 holds over what the home served: a fibre sees its own earlier stores,
and never an older value than its gang's L1 has shown it (R102, R314). An uncached load and an acquire see the dirty bytes only. -/
def replyValue (s : State) (r : Req) : Nat × Bool :=
  if isPeer r.ia ∨ r.ca % 8 = 4 then (r.value.toNat % 2 ^ (8 * r.bytes), r.sectorPoison)
  else
    let v := l1Sector s r.core r.ctx r.ia
    let mask := ownBytes r.pol r.ord r.sc v
    (sectorNat (sectorMerge r.sector v.data mask) (r.ia % 128) r.bytes,
     r.sectorPoison || (v.poison && mask != 0))

/-- The L1 after a load's or a prefetch's reply: filled, or kept from showing an older value than the load has seen (R102, R314). -/
def replyFill (r : Req) (s : State) : State :=
  if isPeer r.ia ∨ r.ca % 8 = 4 then s
  else if r.ca % 4 = 0 ∧ allocL1 r.rd r.pol ∧ !r.noFill then
    l1Fill r.core r.ctx r.ia (insertion r.rd r.pol) r.sector r.sectorPoison (decide (8 ≤ r.ca)) s
  else
    let s1 := blockIf r.core (fun x => x.phase == .reply && x.ctx == r.ctx && x.ia / 128 == r.ia / 128) s
    if r.pol = 3 then dropClean r.core r.ctx r.ia s1 else s1

/-- The reply of a transactional read (R147 to R149). Its L1 keeps no older clean bytes of the sector for later loads (R102). When the
transaction is over by now, or this reply aborts it, the destination takes the bytes that the home served (R153, DESIGN CHOICE log 144). -/
def txnReply (r : Req) (s0 : State) : State :=
  let s := if isPeer r.ia then s0 else dropClean r.core r.ctx r.ia
    (blockIf r.core (fun x => x.phase == .reply && x.ctx == r.ctx && x.ia / 128 == r.ia / 128) s0)
  let key := slotKey r.core r.slot
  let sl := getSlot s key
  let put := fun (v : Nat) (s : State) => deliver r (BitVec.ofNat 128 v) r.poison s
  let plain := r.value.toNat % 2 ^ (8 * r.bytes)
  match sl.txn with
  | none => put plain s
  | some t =>
    if sl.gang ≠ r.gang ∨ !sl.fids.contains r.fid then put plain s
    else if r.sectorPoison then poisonReply r (abortTxn r.core key r.gang 8 0 s)
    else if r.ca % 4 ≠ 0 then put plain (abortTxn r.core key r.gang 6 0 s)
    else
      match noteRead t false r.image r.version with
      | .error c => put plain (abortTxn r.core key r.gang c 0 s)
      | .ok t1 => put (overBuffered r) (setTxn key t1 s)

/-- The reply of a queue operation (R340). -/
def queueReply (r : Req) (s : State) : State :=
  if 256 ≤ r.status then
    let s1 := if r.kind = .done then s else setFibre r.gang r.fid (fun f =>
      finishWindow { f with windows := f.windows.map (fun w => if w.id = r.window then { w with regs := [] } else w) } r.window) s
    addAsync r.gang r.fid (r.status - 256) r.va s1
  else
    let s1 := if r.kind = .take ∧ r.status = 0 then
        let bs := bytesOfNat 64 r.sector.toNat
        let s2 := scratchMark r.gang r.image 64 r.sectorPoison (scratchWrite r.gang r.image bs s)
        blockFills r.core none (entryMaintain r.core r.ctx bs true s2)
      else s
    if r.kind = .done then s1
    else setFibre r.gang r.fid (fun f => fillWindow f r.window [(r.d, BitVec.ofNat 32 r.status, false)] 0) s1

/-- A policy that the page's attribute drops is counted, once for each lane's request (R91, DESIGN CHOICE log 117). -/
def policyDrop (r : Req) (s : State) : State :=
  if !isPeer r.ia && r.pol != 3 && r.ca % 8 != 4 && r.ca % 4 != 0 && (r.kind == .load || r.kind == .probe) then perfEvent r.core 4 1 s else s

/-- MEMORY_REPLY: a load, atomic, prefetch or queue reply reaches its core: the stamp is merged, the sector fills the L1, the result is
written, the entry is freed, and an acquire takes effect. -/
def execMemoryReply (rid : Nat) (s : State) : Out :=
  match s.reqs.find? (fun r => r.id == rid && r.phase == .reply && r.kind != .probe) with
  | none => .fault .notEnabled
  | some r =>
    let s1 := mergeStamp (slabOf r.core) r.stamp s
    let s2 := match r.kind with
      | .load | .prefetch => replyFill r s1
      | _ => s1
    let got := replyValue s1 r
    let ordered := r.ord != 0
    let s3 := match r.kind with
      | .load =>
        if ordered && got.2 then poisonReply r s2
        else deliver r (BitVec.ofNat 128 got.1) (r.poison || got.2) s2
      | .atomic _ => if r.sectorPoison then poisonReply r s2 else deliver r r.value r.poison s2
      | .scratch => deliver r r.value r.poison s2
      | .txnRead => txnReply r s2
      | .prefetch => s2
      | _ => queueReply r s2
    let s4 := closeEntry (slotKey r.core r.slot) r.entry (dropReq r s3)
    let acq := r.ord.getLsbD 0
    let s5 := if !acq then s4
      else match r.kind with
        | .scratch => if r.sc = 0 then s4 else acquireEffect r.core 1 s4
        | _ => acquireEffect r.core r.sc s4
    .next (policyDrop r s5)

/-- WRITE_PROBE_REPLY: a store that its home turned away for poison leaves no bytes in the L1; otherwise the page has confirmed the write (R216): the bytes enter the L1 or the write-combining buffer, or travel to the
home of an uncached page. -/
def execWriteProbeReply (rid : Nat) (s : State) : Out :=
  match s.reqs.find? (fun r => r.id == rid && r.phase == .reply && r.kind == .probe) with
  | none => .fault .notEnabled
  | some r =>
    if s.reqs.any (fun x => x.kind == .probe && x.entry == r.entry && r.entry != 0 && x.ia / 128 == r.ia / 128 && decide (x.id < r.id)) then
      .fault .notEnabled
    else
      let key := slotKey r.core r.slot
      let fin := fun (s : State) => Host.Outcome.next (closeEntry key r.entry (dropReq r s))
      if r.ord ≠ 0 ∧ r.sectorPoison then fin (poisonReply r (dropClean r.core r.ctx r.ia s))
      else
        let s := policyDrop r s
        let sent := { r with kind := .store, phase := .sent }
        let send := Host.Outcome.next (sendStore sent (putReq sent s))
        match r.ca % 4 with
        | 0 =>
          if r.rd = 5 ∧ (l1Sector s r.core r.ctx r.ia).present = 0 then send else
          let s1 := l1Alloc r.core r.ctx r.ia (insertion r.rd r.pol) s
          let s2 := l1Confirm r.core r.ctx r.ia (l1Write r.core r.ctx r.ia r.bytes r.data.toNat r.poison true s1)
          fin (if (l1Find s r.core r.ctx r.ia).isSome then l1Hit r.core r.ctx r.ia s2 else s2)
        | 2 => fin (wcStore r.core r.ctx r.ia r.bytes r.data.toNat r.poison s)
        | _ => send

/-- LOGGED_ACCESS_FAULT (R218 to R220): the faulted lanes of the instruction park and one PAGE record goes out; a lane that is parked
already, on another report or by its handler, stays so until that ends (R226); a transactional access
aborts with FAULT (R155), and a handler's access is a handler error (R331). -/
def execLoggedAccessFault (rid : Nat) (s : State) : Out :=
  match s.reqs.find? (fun r => r.id == rid && r.seq == 0 && (match r.phase with | .faulted _ => true | _ => false)) with
  | none => .fault .notEnabled
  | some r =>
    let why := match r.phase with | .faulted y => y | _ => 0
    let key := slotKey r.core r.slot
    let acc := match r.kind with | .load | .txnRead | .scratch | .prefetch => 0 | .probe | .store => 1 | _ => 2
    if r.fid = 1024 then
      match envOf { s with cur := some (r.core, r.slot) } with
      | some e => handlerError e (dropReq r s)
      | none => .next (dropReq r s)
    else if r.kind = .txnRead then
      let mine := fun (x : Req) => x.kind == .txnRead && x.gang == r.gang && x.window == r.window &&
        (match x.phase with | .faulted _ => true | _ => false)
      let fids := (s.reqs.filter mine).map (·.fid)
      let drop := fun (f : Fibre) => finishWindow { f with windows := f.windows.map (fun w =>
        if w.id = r.window then { w with regs := [] } else w) } r.window
      let s1 := fids.foldl (fun s fid => setFibre r.gang fid drop s) { s with reqs := s.reqs.filter (fun x => !mine x) }
      if (getSlot s key).txn.isSome ∧ (getSlot s key).gang = r.gang then .next (txnFault r.core key r.gang fids r.pc r.va why acc s1)
      else .next s1
    else
      let mine := fun (x : Req) => x.entry == r.entry && x.seq == 0 && (match x.phase with | .faulted _ => true | _ => false)
      let fids := (s.reqs.filter mine).map (·.fid)
      let seq := s.seq
      let g := getGang s r.gang
      let s1 := report { FaultRec.blank with
        kind := 1, why := why, acc := acc, ctx := r.ctx, slot := r.slot, unit := r.core, lanes := laneMask fids, va := r.fva.getD r.va, pc := r.pc,
        ref := .lanes r.core r.slot r.gang fids false } s
      let s2 := { s1 with reqs := s1.reqs.map (fun x => if mine x then { x with seq := seq } else x) }
      .next (setGang s2 r.gang { mapFibres g (fun fid f => if fids.contains fid && f.park == .no then
          { f with park := .fault seq (r.fva.getD r.va) false } else f) with replayable := true })

/-- WRITE_ACKNOWLEDGEMENT (R114, R216): the applied write is acknowledged; a store's request ends. -/
def execWriteAcknowledgement (wid : Nat) (s : State) : Out :=
  match s.applied.find? (fun m => m.id == wid) with
  | none => .fault .notEnabled
  | some m =>
    let s1 := { s with applied := s.applied.filter (fun x => x.id != wid) }
    match m.kind with
    | .store id =>
      match s1.reqs.find? (fun r => r.id == id) with
      | none => .next s1
      | some r => .next (closeEntry (slotKey r.core r.slot) r.entry (dropReq r s1))
    | _ => .next s1

/-- HOST_MEMORY_WRITE (R105): a host write to device memory leaves the weighbridge with its stamp; it does not cross a sector. -/
def execHostMemoryWrite (pa : Nat) (data : List Byte) (s : State) : Out :=
  if data.isEmpty ∨ 128 < pa % 128 + data.length ∨ 2 ^ 48 ≤ pa then .fault .notEnabled
  else .next { s with
    ids := s.ids + 1
    bridge := vset s.bridge 4 (tick56 s)
    held := s.held ++ [{ WriteMsg.blank with
      id := s.ids, agent := 4, sector := pa / 128, phys := true, mask := byteMask (pa % 128) data.length,
      data := natSector (natOfBytes data) (pa % 128) data.length, stamp := vset s.bridge 4 (tick56 s), tick := s.tick }] }

/-- LONG_LATENCY_COMPLETION (R239): the operation of a window completes; its result is written once the window has closed. -/
def execLongLatencyCompletion (gid fid wid : Nat) (s : State) : Out :=
  match kget? s.gangs gid with
  | none => .fault .notEnabled
  | some g =>
    match kget? g.fibres fid with
    | none => .fault .notEnabled
    | some f =>
      if f.windows.any (fun w => w.id == wid && !w.done && !w.ext) then
        .next (setGang s gid (mapFibres g (fun i x => if i = fid then finishWindow x wid else x)))
      else .fault .notEnabled

end Sys2Proof.Machine
end

