-- ==== Sys2Proof/Machine/Engine.lean ====
section
/-! DEFINITION. Sys2Proof/Machine/Engine.lean: what the engine instructions share: acting once per wave, parameter blocks and their checks,
the drain block and the delivery of a drain (R168, R182 to R187, R196, R352 to R359). -/
namespace Sys2Proof.Machine

/-! ### Once per wave (R168, R353) -/

/-- The lanes among the acting fibres whose guard or operand carries poison (R353). -/
def actingPoison (h : Hdr) (e : Env) (act : List Nat) (srcs : List Src) : Raised :=
  (act.filter (fun fid => let x := getFibre e.g fid
    (guard h x).2 || srcs.any (fun r => (readSrc x r).2))).map (fun fid => (fid, 14, 0))

/-- An instruction that acts once for its wave with the operands of the participating fibre of the lowest lane; none participating, it
has no effect. `srcs` are the operand registers of that fibre, whose numbers R24 checks in every executing lane; `dst` says that D is
written in every participating fibre; `ready` says whether it can issue; `checks` are the causes of the acting fibre. -/
def execOnce (f : F4) (u : Nat) (dst : Bool) (srcs : List Src) (ready : Env → State → Bool) (checks : Env → Nat → State → Raised)
    (go : Env → List Nat → Nat → State → Out) (s : State) : Out :=
  issue f.h false s (noScalar s) (fun e act s =>
    forbidInTxn e act s (
      match sortBy lane act with
      | [] => .next (retirePlain e u s)
      | a :: rest =>
        orTrap e (regTraps e act ((if dst then [(f.d.toNat, 1)] else []) ++ (srcs.map srcUse).flatten)) s (
        if !ready e s then .next s
        else
          orTrap e (actingPoison f.h e [a] srcs ++ checks e a s) s (
          if !acquiresDone s e.gid act then .next (splitParked e act s) else go e (a :: rest) a s))))

/-- Always ready; and no causes. -/
def anyTime (_ : Env) (_ : State) : Bool := true
def noChecks (_ : Env) (_ : Nat) (_ : State) : Raised := []

/-- Retire a long-latency engine instruction with a status or identifier in D of every participating fibre. -/
def retireStatus (f : F4) (e : Env) (u : Nat) (act : List Nat) (v : Word) (s : State) : State :=
  retireWr f.h true e u act (fun _ => { regs := [(f.d.toNat, v, false)], preds := [], flags := 0 }) s

/-- Retire a long-latency engine instruction without a result. -/
def retireQueued (f : F4) (e : Env) (u : Nat) (act : List Nat) (s : State) : State :=
  retireWr f.h true e u act (fun _ => Wr.none) s

/-! ### Parameter blocks (R355) -/

/-- A check: it fails, its cause, its TRAPVAL. -/
abbrev Check := Bool × Nat × Nat

/-- The first check that fails, raised by a fibre. -/
def firstBad (fid : Nat) (cs : List Check) : Raised :=
  match cs.find? (·.1) with
  | none => []
  | some c => [(fid, c.2.1, BitVec.ofNat 64 c.2.2)]

/-- The checks of a block's offset. -/
def blockChecks (g : Gang) (off : Nat) : List Check := [(off % 64 != 0, 4, off), (!inNeed g off 64, 7, off)]

/-- The check of a block in a poisoned sector, which TRAPVAL names (R122, R333); a block lies in one sector. -/
def blockPoison (g : Gang) (off : Nat) : Check := (scratchPoisonAt g off, 14, off / 128 * 128)

/-- The checks of a sync word: PARAM, ALIGN and SPBOUND. -/
def syncParam (sync : Bool) (so off : Nat) : List Check := [(!sync && so != 0, 10, off)]
def syncAlign (sync : Bool) (so : Nat) : List Check := [(sync && so % 16 != 0, 4, so)]
def syncBound (g : Gang) (sync : Bool) (so : Nat) : List Check := [(sync && !inNeed g so 16, 7, so)]

def syncOff (sync : Bool) (so : Nat) : Option Nat := if sync then some so else none

/-- An instruction with a parameter block: `ready` says whether it can issue, `checks` are those of its fields in order, `go` gets the
block's offset and its snapshot. -/
def execBlock (f : F4) (u : Nat) (dst : Bool) (ready : Env → State → Bool) (checks : Env → Nat → List Byte → State → List Check)
    (go : Env → List Nat → Nat → List Byte → State → Out) (s : State) : Out :=
  let off := fun (e : Env) (a : Nat) => (readReg (getFibre e.g a) f.a.toNat).1.toNat
  execOnce f u dst [.reg f.a.toNat] ready
    (fun e a s => match firstBad a (blockChecks e.g (off e a)) with
      | [] => firstBad a (checks e (off e a) (snapshot e.g (off e a) 64) s)
      | bad => bad)
    (fun e act a s => go e act (off e a) (snapshot e.g (off e a) 64) s) s

/-- The engine agent's slab of a gang. -/
def gangSlab (s : State) (gid : Nat) : Nat := slabOf (getGang s gid).core

/-! ### Pending traps of a wave (R191, R194) -/

/-- A cause becomes pending for the wave that issued a send: for the fibres of it that still live; none when no such fibre lives. -/
def raiseWave (gid : Nat) (fids : List Nat) (cause : Nat) (val : W64) (s : State) : Option State :=
  match kget? s.gangs gid with
  | none => none
  | some g =>
    match fids.filter (fun i => (kget? g.fibres i).isSome) with
    | [] => none
    | f :: fs => some (setGang s gid { g with asyncs := g.asyncs ++ [{ fid := f, cause := cause, val := val, lanes := laneMask (f :: fs), seq := none }] })

/-- The haulway port clears a run of scratchpad bytes, with its poison marks; every line's version rises (R189). -/
def scratchClear (gid off n : Nat) (s : State) : State :=
  let g := getGang s gid
  let lines := (List.range ((off % 256 + n + 255) / 256)).map (fun i => off / 256 + i)
  let s1 := setGang s gid { g with
    scratch := g.scratch.filter (fun c => decide (c.1 < off) || decide (off + n ≤ c.1))
    scratchPoison := g.scratchPoison.filter (fun sec => decide (sec * 128 < off) || decide (off + n ≤ sec * 128))
    versions := lines.foldl (fun m l => kset m l (kget m l 0 + 1)) g.versions }
  noteEngine pathHaul gid off n g (lines.foldl (fun s l => wakeScratch gid (l * 256) s) s1)

/-! ### The drain block (R358, R359) -/

/-- Bytes of an element of a target FMT. -/
def fmtBytes (fmt : Nat) : Nat := match fmt with | 1 | 6 => 4 | 2 | 3 => 2 | _ => 1
def drainTarget (fmt : Nat) : Target := if fmt = 6 then .i32 else .flt (drainFmt fmt)

/-- The fields of a drain block at offset `off`. -/
def drainBlk (off : Nat) (bs : List Byte) (scale : Option Word) : DrainBlk :=
  let ctl := byteAt bs 3
  { src := byteAt bs 0, disp := byteAt bs 1, fmt := byteAt bs 2, rnd := ctl % 8, nan := ctl.testBit 3, keep := ctl.testBit 4,
    sync := syncOff (ctl.testBit 5) (field bs 20 4), bin := byteAt bs 4, dest := BitVec.ofNat 64 (field bs 8 8), pitch := field bs 16 4,
    seed := BitVec.ofNat 64 (field bs 24 8), tx := BitVec.ofNat 32 (field bs 32 4), ty := BitVec.ofNat 32 (field bs 36 4), block := off,
    scale := scale }

/-- The checks of a drain block in the order of R175; `disps` are the dispositions the instruction takes, `hdrain` says that SRC is a
handle, and `badSrc` is what R175 or R196 says of SRC and BIN. -/
def drainChecks (g : Gang) (off : Nat) (bs : List Byte) (disps : List Nat) (hdrain badSrc : Bool) : List Check :=
  let b := drainBlk off bs none
  let ctl := byteAt bs 3
  let haul := decide (3 ≤ b.disp)
  let row := 64 * fmtBytes b.fmt
  let dest := b.dest.toNat
  let sync := ctl.testBit 5
  let so := field bs 20 4
  let param := !allZero ((bs.drop 5).take 3) || !allZero ((bs.drop 40).take 20) || decide (64 ≤ ctl) || !disps.contains b.disp ||
    decide (6 < b.fmt) || decide (4 < b.rnd) || (b.nan && b.fmt != 4 && b.fmt != 5) || (b.disp < 2 && b.fmt == 0) ||
    (b.disp == 2 && !(([1, 2, 3, 6] : List Nat).contains b.fmt)) || (haul && (b.fmt != 0 || b.rnd != 0 || b.nan || b.pitch != 0)) ||
    decide (15 < b.bin) || (b.bin != 0 && !haul && !hdrain) || (b.disp == 0 && decide (2 ^ 32 ≤ dest)) ||
    (b.disp == 3 && decide (64 ≤ dest)) || badSrc
  [(param, 10, off)] ++ syncParam sync so off ++
  [(!haul && (dest % row != 0 || b.pitch % row != 0 || decide (b.pitch < row)), 4, dest)] ++ syncAlign sync so ++
  [(b.disp == 0 && !inNeed g dest (63 * b.pitch + row), 7, dest)] ++ syncBound g sync so ++
  [((b.disp == 1 || b.disp == 2) && decide (2 ^ 57 ≤ dest), 5, dest), blockPoison g off]

/-! ### The result of a drain (R72, R182, R185) -/

/-- The drained elements with their SAT bits, element e = m·64 + n. -/
def drainVals (elem : Nat → Quad) (b : DrainBlk) (ovf : Bool) : List (Nat × Bool) :=
  (List.range 4096).map (fun e => drainElement (elem e) (drainTarget b.fmt)
    { mode := b.rnd, nan := b.nan, seed := b.seed, tx := b.tx.toNat, ty := b.ty.toNat } (b.scale.map (fun w => classify fp32 w.toNat)) ovf e)

/-- STATUS: OVF, HF, POISON, SAT and SHORT (R185). -/
def drainStatus (elem : Nat → Quad) (ovf poison sat short : Bool) : Word :=
  BitVec.ofNat 32 ((if ovf then 1 else 0) + (if (List.range 4096).any (fun e => haulF (elem e) != 0) then 2 else 0) +
    (if poison then 4 else 0) + (if sat then 8 else 0) + (if short then 16 else 0))

/-- The pieces of the result, row by row, none beyond a sector. -/
def drainPieces (b : DrainBlk) (vals : List (Nat × Bool)) : List (W64 × List Byte) :=
  let n := fmtBytes b.fmt
  let bytes := (vals.map (fun v => bytesOfNat n v.1)).flatten
  let per := if n = 4 then 2 else 1
  let len := 64 * n / per
  ((List.range 64).map (fun m => (List.range per).map (fun c =>
    (b.dest + BitVec.ofNat 64 (m * b.pitch + c * len), (bytes.drop (m * 64 * n + c * len)).take len)))).flatten

/-! ### Delivery (R105, R186, R187, R196) -/

def drainPath (d : Drain) : Nat := if d.haulPath then pathHaul else pathMxd

/-- A piece's IA, or WHY it cannot be written (0 for a window). -/
def pieceReach (s : State) (d : Drain) (va : W64) : Except Nat Nat :=
  let ctx := (getGang s d.gang).ctx
  match checkWindow s ctx va (drainPath d) (if d.blk.disp = 2 then 3 else 2) with
  | .error _ => .error 0
  | .ok ia =>
    if isPeer ia then .ok ia
    else match translate s ctx ia true true with
      | .error y => .error y
      | .ok _ => .ok ia

/-- The VA of a write that met a fault at its home. -/
def lostVa (s : State) (d : Drain) (m : WriteMsg) : W64 :=
  let ctx := (getGang s d.gang).ctx
  let hits := fun (p : W64 × List Byte) => match checkWindow s ctx p.1 (drainPath d) 2 with
    | .ok ia => ia / 128 == m.sector
    | .error _ => false
  match d.pieces.find? hits with | some p => p.1 | none => d.blk.dest

/-- The first write that met a fault at its home, or the first piece not yet sent that cannot be written: its VA and WHY. An add-on-store
keeps its other writes back with it (R119, R187). -/
def drainBlocked (s : State) (d : Drain) : Option (W64 × Nat) :=
  if d.blk.disp = 0 ∨ d.stall.isSome then none
  else match d.lost.find? (fun m => m.2 != 0) with
  | some m => some (lostVa s d m.1, m.2)
  | none => (d.pieces.drop d.next).findSome? (fun p => match pieceReach s d p.1 with | .error y => some (p.1, y) | .ok _ => none)

def drainReachable (s : State) (d : Drain) (p : W64 × List Byte) : Bool :=
  match pieceReach s d p.1 with
  | .ok _ => true
  | .error _ => false

/-- Send one piece. -/
def sendPiece (d : Drain) (kind : WKind) (p : W64 × List Byte) (s : State) : State :=
  match pieceReach s d p.1 with
  | .error _ => s
  | .ok ia => pushWrite (slabOfCluster d.cluster) { WriteMsg.blank with
      ctx := (getGang s d.gang).ctx, sector := ia / 128, mask := byteMask (ia % 128) p.2.length,
      data := natSector (natOfBytes p.2) (ia % 128) p.2.length, poison := d.poison, kind := kind } s

/-- The mode of an add-on-store's sum: SR is replaced by RNE (R183). -/
def addOnMode (rnd : Nat) : Nat := if rnd = 4 then 0 else rnd

/-- Send what can be sent: a store's pieces up to the first that faults; an add-on-store's pieces together. -/
def sendDrain (op : Nat) (s : State) : State :=
  match kget? s.drains op with
  | none => s
  | some d =>
    let rest := d.pieces.drop d.next
    let ready := if d.stall.isSome then []
      else if d.blk.disp = 1 then rest.takeWhile (drainReachable s d)
      else if d.blk.disp = 2 ∧ rest.all (drainReachable s d) then rest
      else []
    let kind := if d.blk.disp = 2 then WKind.addOn op d.blk.fmt (addOnMode d.blk.rnd) else WKind.engine op
    let s1 := ready.foldl (fun s p => sendPiece d kind p s) s
    { s1 with drains := kset s1.drains op { d with next := d.next + ready.length } }

/-- A drain whose fault has been serviced goes on: the writes that met it are sent again (R187, R216). -/
def resumeDrain (op : Nat) (s : State) : State :=
  match kget? s.drains op with
  | none => s
  | some d =>
    d.lost.foldl (fun s m => pushWrite (slabOfCluster d.cluster) m.1 s) { s with drains := kset s.drains op { d with stall := none, lost := [] } }

/-- Every write of a store or add-on-store drain has been performed. -/
def drainPerformed (s : State) (d : Drain) : Bool :=
  let mine := fun (m : WriteMsg) => match m.kind with | .engine op => op == d.id | .addOn op _ _ => op == d.id | _ => false
  d.stall.isNone && d.lost.isEmpty && (d.blk.disp == 0 ||
    (d.next == d.pieces.length && !((getSlab s (slabOfCluster d.cluster)).inq ++ s.held).any mine))

/-- STATUS is written, the landing counts, and the drain is over (R185, R186). -/
def endDrain (d : Drain) (status : Word) (bytes : Nat) (s : State) : State :=
  let s1 := engineWrite (drainPath d) d.gang (d.blk.block + 60) (bytesOfNat 4 status.toNat) { s with drains := kdel s.drains d.id }
  if bytes = 0 then s1 else syncBytes d.gang d.blk.sync bytes s1

/-- A store or add-on-store drain ends: a scratchpad store writes its bank first. -/
def landDrain (d : Drain) (s : State) : State :=
  let s1 := if d.blk.disp = 0 then
      d.pieces.foldl (fun s p => scratchMark d.gang p.1.toNat p.2.length d.poison (engineWrite (drainPath d) d.gang p.1.toNat p.2 s)) s
    else s
  endDrain d d.status (64 * 64 * fmtBytes d.blk.fmt) s1

/-- A drain of one path completes once its writes are performed; sends that had stopped at a serviced fault go on first. -/
def completeDrain (haulPath : Bool) (op : Nat) (s0 : State) : Out :=
  let s := sendDrain op s0
  match kget? s.drains op with
  | none => .fault .notEnabled
  | some d =>
    if d.haulPath ≠ haulPath ∨ 3 ≤ d.blk.disp then .fault .notEnabled
    else if drainPerformed s d ∧ (d.haulPath → (s.drains.all (fun x => !(x.2.haulPath && x.2.gang == d.gang && decide (x.1 < op))))) then
      .next (landDrain d s)
    else if (kget? s0.drains op).map (·.next) = some d.next then .fault .notEnabled else .next s

/-- DRAIN_WRITE_FAULT (R187, R216): the drain stalls at the sector its write cannot reach, or could not reach at its home, and a DRAIN
record goes out. -/
def execDrainWriteFault (op : Nat) (s0 : State) : Out :=
  let s := sendDrain op s0
  match kget? s.drains op with
  | none => .fault .notEnabled
  | some d =>
    match drainBlocked s d with
    | none => .fault .notEnabled
    | some (va, why) =>
      let acc := (if d.blk.disp = 2 then 2 else 1) + 4 * drainPath d
      let s1 := report { FaultRec.blank with
        kind := 4, why := why, acc := acc, ctx := (getGang s d.gang).ctx, unit := d.cluster, ident := BitVec.ofNat 32 (d.blk.src % 64),
        va := va, ref := .drain op } s
      .next { s1 with drains := kset s1.drains op { d with stall := some s.seq } }

end Sys2Proof.Machine
end

