-- ==== Sys2Proof/Machine/Copy.lean ====
section
/-! DEFINITION. Sys2Proof/Machine/Copy.lean: the copy engine: CPY, CPYP, CPYG, CPYS and CPYCAN, and its own steps (R203 to R211, R363,
R364). A piece is one destination sector, named by its number. -/
namespace Sys2Proof.Machine

/-! ### Fields (R363) -/

def copyCtl (bs : List Byte) : Nat := field bs 0 4
def copySrc (bs : List Byte) : Nat := field bs 8 8
def copyDst (bs : List Byte) : Nat := field bs 16 8
/-- A 32-bit geometry field, and the same as a signed stride. -/
def geo (bs : List Byte) (lo : Nat) : Nat := field bs lo 4
def stride (bs : List Byte) (lo : Nat) : Int := asInt true 32 (field bs lo 4)

def cpyNy (bs : List Byte) : Nat := field bs 28 2 + 1
def cpyNz (bs : List Byte) : Nat := field bs 30 2 + 1

/-- FORM and ROLE of CPYP, and the bytes of a source row (R207). -/
def cpyForm (bs : List Byte) : Nat := copyCtl bs / 16 % 4
def cpyRole (bs : List Byte) : Nat := copyCtl bs / 64 % 2
def rowBytes (form role : Nat) : Nat := (if role = 0 then 256 else 64) / (if form = 0 then 1 else 2)

/-- Bytes a command counts in all. -/
def copyTotal (k : CopyKind) (bs : List Byte) : Nat :=
  match k with
  | .cpy => geo bs 24 * cpyNy bs * cpyNz bs
  | .cpyp => if cpyForm bs = 2 then 8448 else 16384
  | _ => geo bs 24 * geo bs 28

/-- The source, or the destination, lies in scratchpad. -/
def srcScratch (k : CopyKind) (bs : List Byte) : Bool := match k with | .cpy => (copyCtl bs).testBit 1 | .cpys => true | _ => false
def dstScratch (k : CopyKind) (bs : List Byte) : Bool := match k with | .cpy => (copyCtl bs).testBit 2 | .cpys => false | _ => true

/-- A strided extent stays inside the need. -/
def strideInNeed (g : Gang) (a len ny nz : Nat) (row plane : Int) : Bool :=
  let y := Int.ofNat (ny - 1) * row
  let z := Int.ofNat (nz - 1) * plane
  decide (0 ≤ Int.ofNat a + min 0 y + min 0 z) && decide (Int.ofNat a + max 0 y + max 0 z + Int.ofNat len ≤ Int.ofNat g.kernel.spad)

/-! ### The checks at issue (R204 to R207, R355, R363) -/

/-- PARAM, ALIGN and SPBOUND conditions of a form. CTL bit 3 has no meaning in any form and is ignored (R363, DESIGN CHOICE log 147). -/
def copyParam (k : CopyKind) (bs : List Byte) : Bool :=
  let ctl := copyCtl bs
  let z := fun lo n => allZero ((bs.drop lo).take n)
  let spad := fun (b : Bool) (a : Nat) => b && decide (2 ^ 32 ≤ a)
  decide (128 ≤ ctl) || spad (srcScratch k bs) (copySrc bs) || spad (dstScratch k bs) (copyDst bs) ||
  match k with
  | .cpy => ctl / 16 % 8 != 0 || !z 48 12 || decide (geo bs 24 < 16) || decide (2 ^ 24 < geo bs 24) || decide (2 ^ 32 ≤ copyTotal .cpy bs)
  | .cpyp => ctl / 2 % 4 != 0 || !z 28 4 || !z 40 20 || cpyForm bs == 3 || (cpyForm bs == 2 && cpyRole bs == 1) ||
      (cpyForm bs != 2 && !z 32 8)
  | _ => ctl / 2 % 4 != 0 || ctl / 16 % 8 != 0 || !z 36 24 || !(List.range 9).any (fun i => geo bs 24 == 16 * 2 ^ i) || geo bs 28 == 0 ||
      decide (65536 < geo bs 28)

def copyAlign (k : CopyKind) (bs : List Byte) : List Check :=
  let m := fun a n => (decide (a % n ≠ 0), 4, a)
  match k with
  | .cpy => [m (copySrc bs) 16, m (copyDst bs) 16, m (geo bs 24) 16, m (geo bs 32) 16, m (geo bs 36) 16, m (geo bs 40) 16, m (geo bs 44) 16]
  | .cpyp => [m (copyDst bs) 256, m (geo bs 24) 16, (decide (geo bs 24 < rowBytes (cpyForm bs) (cpyRole bs)), 4, geo bs 24)]
  | _ => [m (copySrc bs) (geo bs 24), m (copyDst bs) (geo bs 24), m (geo bs 32) 4]

def copyBound (k : CopyKind) (g : Gang) (bs : List Byte) : List Check :=
  let src := copySrc bs
  let dst := copyDst bs
  match k with
  | .cpy =>
    [(srcScratch k bs && !strideInNeed g src (geo bs 24) (cpyNy bs) (cpyNz bs) (stride bs 32) (stride bs 36), 7, src),
     (dstScratch k bs && !strideInNeed g dst (geo bs 24) (cpyNy bs) (cpyNz bs) (stride bs 40) (stride bs 44), 7, dst)]
  | .cpyp => [(!inNeed g dst (copyTotal k bs), 7, dst)]
  | .cpyg => [(!inNeed g dst (copyTotal k bs), 7, dst), (!inNeed g (geo bs 32) (4 * geo bs 28), 7, geo bs 32)]
  | .cpys => [(!inNeed g src (copyTotal k bs), 7, src), (!inNeed g (geo bs 32) (4 * geo bs 28), 7, geo bs 32)]

def copyRange (k : CopyKind) (bs : List Byte) : List Check :=
  [(!srcScratch k bs && decide (2 ^ 57 ≤ copySrc bs), 5, copySrc bs), (!dstScratch k bs && decide (2 ^ 57 ≤ copyDst bs), 5, copyDst bs)] ++
  (match k with | .cpyp => [(decide (2 ^ 57 ≤ field bs 32 8), 5, field bs 32 8)] | _ => [])

def copyChecks (k : CopyKind) (e : Env) (off : Nat) (bs : List Byte) (_ : State) : List Check :=
  let sync := (copyCtl bs).testBit 0
  let so := geo bs 4
  [(copyParam k bs, 10, off)] ++ syncParam sync so off ++ copyAlign k bs ++ syncAlign sync so ++ copyBound k e.g bs ++
  syncBound e.g sync so ++ copyRange k bs ++ [blockPoison e.g off]

/-- The lowest slot of a queue that no command of it has (R203, DESIGN CHOICE log 119). -/
def copySlot (q : CopyQueue) : Nat :=
  ((List.range 96).find? (fun i => !q.cmds.any (fun c => c.ident.toNat % 128 == i))).getD 0

/-- The identifier of the queue's next command (R203). -/
def copyIdent (core : Nat) (q : CopyQueue) : Word := BitVec.ofNat 32 (copySlot q + core % 4 * 2 ^ 7 + q.count % 2 ^ 23 * 2 ^ 9)

/-- A copy command enters its core's queue and its identifier is written. -/
def execCopy (k : CopyKind) (f : F4) (s : State) : Out :=
  execBlock f 3 true (fun e s => decide ((getCore s e.core).copyq.cmds.length < 96)) (copyChecks k) (fun e act off bs s =>
    let q := (getCore s e.core).copyq
    let ident := copyIdent e.core q
    let cmd : CopyCmd := {
      id := s.ids, ident := ident, gang := e.gid, kind := k, block := off, bytes := bs,
      sync := syncOff ((copyCtl bs).testBit 0) (geo bs 4), started := false, indices := [], sent := [], lost := [], landed := [],
      left := copyTotal k bs, poisoned := false, stall := none, ending := none }
    let s1 := retireStatus f e 3 act ident { s with ids := s.ids + 1 }
    .next (setCore s1 e.core { getCore s1 e.core with
      copyq := { cmds := q.cmds ++ [cmd], count := (q.count + 1) % 2 ^ 23, recent := q.recent.filter (fun r => r.1 != ident) } })) s

/-- CPY (R205, R363). -/
def execCpy (f : F4) (s : State) : Out := execCopy .cpy f s
/-- CPYP (R207, R363). -/
def execCpyp (f : F4) (s : State) : Out := execCopy .cpyp f s
/-- CPYG (R206, R363). -/
def execCpyg (f : F4) (s : State) : Out := execCopy .cpyg f s
/-- CPYS (R206, R363). -/
def execCpys (f : F4) (s : State) : Out := execCopy .cpys f s

/-! ### What a command moves (R205 to R208) -/

/-- The moves of a command in granules of 16 bytes, destination then source, in order. -/
def copyMoves (c : CopyCmd) : List (Nat × Nat) :=
  let bs := c.bytes
  let src := copySrc bs
  let dst := copyDst bs
  let move := fun (a : Nat) (o : Int) => ((Int.ofNat a + o) % (2 ^ 64 : Int)).toNat
  match c.kind with
  | .cpy =>
    ((List.range (cpyNz bs)).map (fun z => ((List.range (cpyNy bs)).map (fun y => (List.range (geo bs 24 / 16)).map (fun k =>
      (move dst (Int.ofNat y * stride bs 40 + Int.ofNat z * stride bs 44 + Int.ofNat (16 * k)),
       move src (Int.ofNat y * stride bs 32 + Int.ofNat z * stride bs 36 + Int.ofNat (16 * k)))))).flatten)).flatten
  | .cpyp => []
  | .cpyg => (c.indices.zipIdx.map (fun x => (List.range (geo bs 24 / 16)).map (fun k =>
      (dst + x.2 * geo bs 24 + 16 * k, move src (Int.ofNat (x.1 * geo bs 24 + 16 * k)))))).flatten
  | .cpys => (c.indices.zipIdx.map (fun x => (List.range (geo bs 24 / 16)).map (fun k =>
      (move dst (Int.ofNat (x.1 * geo bs 24 + 16 * k)), src + x.2 * geo bs 24 + 16 * k)))).flatten

/-- The pieces of a command. -/
def copyPieces (c : CopyCmd) : List Nat :=
  match c.kind with
  | .cpyp => (List.range (copyTotal .cpyp c.bytes / 128)).map (fun i => copyDst c.bytes / 128 + i)
  | _ => noteLines ((copyMoves c).map (fun m => m.1 / 128)) []

/-- Source VAs of byte `j` of a CPYP piece's plane bits: element bit `b` of the byte; and of a scale byte. -/
def planeSource (bs : List Byte) (r k : Nat) : Nat × Nat :=
  let form := cpyForm bs
  let row := if cpyRole bs = 0 then r else k
  let col := if cpyRole bs = 0 then k else r
  let a := copySrc bs + row * geo bs 24
  if form = 0 then (a + col, 0) else (a + col / 2, 4 * (col % 2))

/-- The bytes a piece reads, as addresses of 16-byte or single-byte reads. -/
def pieceReads (c : CopyCmd) (piece : Nat) : List (Nat × Nat) :=
  match c.kind with
  | .cpyp =>
    let o := piece * 128 - copyDst c.bytes
    if cpyForm c.bytes = 2 ∧ 8192 ≤ o then (List.range 128).map (fun i => (field c.bytes 32 8 + (o - 8192) + i, 1))
    else (List.range 1024).map (fun i => ((planeSource c.bytes ((o + i / 8) / 32 % 64) ((o + i / 8) % 32 * 8 + i % 8)).1, 1))
  | _ => ((copyMoves c).filter (fun m => m.1 / 128 == piece)).map (fun m => (m.2, 16))

/-- A read of the engine within one sector: the value and its poison, or VA and WHY. -/
def copyRead (s : State) (c : CopyCmd) (a n : Nat) : Except (W64 × Nat) (Nat × Bool) :=
  let va := BitVec.ofNat 64 a
  if srcScratch c.kind c.bytes then
    .ok (scratchRead s c.gang a n, scratchPoisonAt (getGang s c.gang) a)
  else
    let ctx := (getGang s c.gang).ctx
    match checkWindow s ctx va pathCpy 1 with
    | .error _ => .error (va, 0)
    | .ok ia =>
      if isPeer ia then .ok (readLE s.peerMem (peerKey ia) n, s.peerPoison.contains (peerKey ia / 128))
      else match translate s ctx ia true false with
        | .error y => .error (va, y)
        | .ok l => .ok (sectorNat (homeSector s l) (l.pa % 128) n, poisonedAt s (l.pa / 128))

/-- All reads of a piece. -/
def readPieces (s : State) (c : CopyCmd) : List (Nat × Nat) → Except (W64 × Nat) (List (Nat × Bool))
  | [] => .ok []
  | r :: rs =>
    match copyRead s c r.1 r.2 with
    | .error e => .error e
    | .ok v =>
      match readPieces s c rs with
      | .error e => .error e
      | .ok vs => .ok (v :: vs)

/-- A piece as it lands: its bytes, which of them, how many it counts, and poison. -/
structure Piece where
  data : BitVec 1024
  mask : BitVec 128
  count : Nat
  poison : Bool
  deriving DecidableEq, Repr

/-- Byte `i` of a plane piece from the bytes read of its eight elements. -/
def planeOut (bs : List Byte) (o i : Nat) (vals : List Nat) : Nat :=
  let p := (o + i) / 2048
  let k0 := (o + i) % 32 * 8
  let r := (o + i) / 32 % 64
  (List.range 8).foldl (fun n b =>
    let v := vals.getD (8 * i + b) 0
    let sh := (planeSource bs r (k0 + b)).2
    let bit := if cpyForm bs = 0 then v.testBit p else v.testBit (sh + min p 3)
    n + if bit then 2 ^ b else 0) 0

/-- Assemble a piece. -/
def pieceData (s : State) (c : CopyCmd) (piece : Nat) : Except (W64 × Nat) Piece :=
  match readPieces s c (pieceReads c piece) with
  | .error e => .error e
  | .ok vs =>
    let poison := vs.any (·.2)
    match c.kind with
    | .cpyp =>
      let o := piece * 128 - copyDst c.bytes
      let bytes := if cpyForm c.bytes = 2 ∧ 8192 ≤ o then vs.map (·.1)
        else (List.range 128).map (fun i => planeOut c.bytes o i (vs.map (·.1)))
      .ok { data := BitVec.ofNat 1024 (natOfBytes (bytes.map (BitVec.ofNat 8))), mask := fullMask, count := 128, poison := poison }
    | _ =>
      let ms := ((copyMoves c).filter (fun m => m.1 / 128 == piece)).zip vs
      .ok (ms.foldl (fun p m =>
        let o := m.1.1 % 128
        { p with data := sectorMerge p.data (natSector m.2.1 o 16) (byteMask o 16), mask := p.mask ||| byteMask o 16, count := p.count + 16 })
        { data := 0, mask := 0, count := 0, poison := poison })

/-- Where a piece goes: an IA for a global destination, none for scratchpad, or VA and WHY. -/
def pieceDest (s : State) (c : CopyCmd) (piece : Nat) : Except (W64 × Nat) (Option Nat) :=
  if dstScratch c.kind c.bytes then .ok none
  else
    let va := BitVec.ofNat 64 (piece * 128)
    let ctx := (getGang s c.gang).ctx
    match checkWindow s ctx va pathCpy 2 with
    | .error _ => .error (va, 0)
    | .ok ia =>
      if isPeer ia then .ok (some ia)
      else match translate s ctx ia true true with
        | .error y => .error (va, y)
        | .ok _ => .ok (some ia)

/-- The home may serve the reads of a piece now (R109, R111), and the slab's own earlier writes to them have been applied. -/
def readsQuiet (s : State) (core : Nat) (c : CopyCmd) (piece : Nat) : Bool :=
  srcScratch c.kind c.bytes ||
  (pieceReads c piece).all (fun r =>
    let ctx := (getGang s c.gang).ctx
    match checkWindow s ctx (BitVec.ofNat 64 r.1) pathCpy 1 with
    | .error _ => true
    | .ok ia => isPeer ia || (homeQuiet s (homeOf ia) && readStable s (slabOf core) (homeOf ia) (readVector s (slabOf core)) &&
        ownApplied s (slabOf core) ctx (ia / 128) &&
        (match translate s ctx ia true false with
         | .ok l => shownTo s (slabOf core) (l.pa / 128)
         | .error _ => true)))

/-- The stamps of a piece's source sectors are merged by the slab (R106). -/
def mergeSources (core : Nat) (c : CopyCmd) (piece : Nat) (s : State) : State :=
  if srcScratch c.kind c.bytes then s
  else (pieceReads c piece).foldl (fun s r =>
    let ctx := (getGang s c.gang).ctx
    match checkWindow s ctx (BitVec.ofNat 64 r.1) pathCpy 1 with
    | .error _ => s
    | .ok ia =>
      if isPeer ia then s
      else match translate s ctx ia true false with
      | .error _ => s
      | .ok l => mergeStamp (slabOf core) (kget s.stamps (l.pa / 128) (0, [])).2 (setAccessed l s)) s

/-! ### The end of a command (R204, R209, R210, R364) -/

def putCopy (core : Nat) (c : CopyCmd) (s : State) : State :=
  let k := getCore s core
  setCore s core { k with copyq := { k.copyq with cmds := k.copyq.cmds.map (fun x => if x.id = c.id then c else x) } }

/-- STATUS is written, the bytes left are counted, and the command leaves its queue; one that is DONE stays known to CPYCAN. -/
def endCopy (core : Nat) (c : CopyCmd) (bit : Nat) (s : State) : State :=
  let st := bit + (if c.poisoned then 8 else 0)
  let s1 := engineWrite pathCpy c.gang (c.block + 60) (bytesOfNat 4 st) s
  let s2 := if c.left = 0 then s1 else syncBytes c.gang c.sync c.left s1
  let k := getCore s2 core
  setCore s2 core { k with copyq := { k.copyq with
    cmds := k.copyq.cmds.filter (fun x => x.id != c.id)
    recent := if bit = 1 then k.copyq.recent ++ [(c.ident, c.gang, BitVec.ofNat 32 st)] else k.copyq.recent } }

/-- Nothing sent is on its way. -/
def copySettled (c : CopyCmd) : Bool := c.sent.all (fun p => c.landed.contains p.1 || (kget? c.lost p.1).isSome)

/-- A command that is being ended goes once it is settled. -/
def settleCopy (core : Nat) (c : CopyCmd) (s : State) : State :=
  match c.ending with
  | some bit => if copySettled c then endCopy core c bit s else s
  | none => s

/-- End a command with a STATUS bit (R209, R210). -/
def stopCopy (core : Nat) (c : CopyCmd) (bit : Nat) (s : State) : State :=
  let c1 := { c with ending := some bit, stall := none }
  settleCopy core c1 (putCopy core c1 s)

/-- A piece has landed: its bytes are counted; with the last one, STATUS is written first (R204, R208). -/
def landPiece (core : Nat) (c : CopyCmd) (piece count : Nat) (s : State) : State :=
  let c1 := { c with landed := c.landed ++ [piece] }
  if c1.ending = none ∧ (copyPieces c1).all (fun p => c1.landed.contains p) then endCopy core c1 1 (putCopy core c1 s)
  else
    let c2 := { c1 with left := c1.left - count }
    settleCopy core c2 (syncBytes c.gang c.sync count (putCopy core c2 s))

/-- CPYCAN (R210, R364). One that the driver has ended and that still settles is cancelled as well, and writes both bits (DESIGN CHOICE log
96). -/
def execCpycan (f : F4) (s : State) : Out :=
  execOnce f 3 true [.reg f.b.toNat] anyTime noChecks (fun e act a s =>
    let ident := (readReg (getFibre e.g a) f.b.toNat).1
    let q := (getCore s e.core).copyq
    match q.cmds.find? (fun c => c.ident == ident && c.gang == e.gid) with
    | some c => .next (stopCopy e.core c (c.ending.getD 0 ||| 2) (retireStatus f e 3 act 0 s))
    | none => .next (retireStatus f e 3 act (if q.recent.any (fun r => r.1 == ident && r.2.1 == e.gid) then 1 else 2) s)) s

/-! ### The engine's steps (R203, R208, R209) -/

/-- The command the engine works on for a core. -/
def headCopy (s : State) (core : Nat) : Option CopyCmd := (getCore s core).copyq.cmds.head?

/-- COPY_COMMAND_START (R203): the indices of a gather or scatter are read. -/
def execCopyCommandStart (core : Nat) (s : State) : Out :=
  match headCopy s core with
  | none => .fault .notEnabled
  | some c =>
    if c.started then .fault .notEnabled
    else
      let n := match c.kind with | .cpyg | .cpys => geo c.bytes 28 | _ => 0
      let idx := geo c.bytes 32
      let g := getGang s c.gang
      .next (putCopy core { c with
        started := true, indices := (List.range n).map (fun i => scratchRead s c.gang (idx + 4 * i) 4),
        poisoned := (List.range n).any (fun i => scratchPoisonAt g (idx + 4 * i)) } s)

/-- A piece written to the gang's scratchpad (R121, R208). -/
def scratchPiece (gid piece : Nat) (p : Piece) (s : State) : State :=
  if p.mask = fullMask then scratchMark gid (piece * 128) 128 p.poison (engineWrite pathCpy gid (piece * 128) (bytesOfNat 128 p.data.toNat) s)
  else
    let s1 := (List.range 8).foldl (fun s i =>
      if p.mask.getLsbD (16 * i) then engineWrite pathCpy gid (piece * 128 + 16 * i) (bytesOfNat 16 (sectorNat p.data (16 * i) 16)) s else s) s
    if p.poison then scratchMark gid (piece * 128) 16 true s1 else s1

/-- The bytes a piece counts. -/
def pieceCount (c : CopyCmd) (piece : Nat) : Nat :=
  match c.kind with
  | .cpyp => 128
  | _ => 16 * ((copyMoves c).filter (fun m => m.1 / 128 == piece)).length

/-- A piece that the engine could move now: not moved yet, its reads served, and no fault at either end. -/
def copyReady (s : State) (core : Nat) (c : CopyCmd) (piece : Nat) : Bool :=
  c.started && !c.landed.contains piece && (kget? c.lost piece).isNone && !c.sent.any (fun p => p.1 == piece) && c.stall.isNone &&
  c.ending.isNone && readsQuiet s core c piece && (pieceData s c piece).isOk && (pieceDest s c piece).isOk

/-- It is the core's turn: no queue that comes before it after the one served last has a piece to move (R203). -/
def copyTurnOf (s : State) (core : Nat) : Bool :=
  let cl := clusterOf core
  let turn := (getCluster s cl).copyTurn
  (((List.range 4).map (fun i => (turn + 1 + i) % 4)).takeWhile (fun i => i != core % 4)).all (fun i =>
    match headCopy s (cl * 4 + i) with
    | none => true
    | some c => !(copyPieces c).any (fun p => copyReady s (cl * 4 + i) c p))

/-- The engine has served a core's queue. -/
def copyServed (core : Nat) (s : State) : State :=
  setCluster s (clusterOf core) { getCluster s (clusterOf core) with copyTurn := core % 4 }

/-- COPY_SECTOR_LAND (R203, R208): a piece is read and written, in the turn of its queue; one for a home travels there first, and a second
occurrence counts it once it has been applied. A piece of an ended command that met a fault at its home lets the command settle (R209). -/
def execCopySectorLand (core piece : Nat) (s : State) : Out :=
  match headCopy s core with
  | none => .fault .notEnabled
  | some c =>
    if !c.started ∨ !(copyPieces c).contains piece ∨ c.landed.contains piece then .fault .notEnabled
    else if (kget? c.lost piece).isSome then
      (if c.ending.isSome && copySettled c then .next (settleCopy core c s) else .fault .notEnabled)
    else
      match c.sent.find? (fun p => p.1 == piece) with
      | some p =>
        if ((getSlab s (slabOf core)).inq ++ s.held).any (fun m => m.kind == .engine c.id && m.sector == p.2) then .fault .notEnabled
        else .next (landPiece core c piece (pieceCount c piece) s)
      | none =>
        if s.mgmt.resetting ∨ c.stall.isSome ∨ c.ending.isSome ∨ !readsQuiet s core c piece ∨ !copyTurnOf s core then .fault .notEnabled
        else
          match pieceData s c piece, pieceDest s c piece with
          | .ok p, .ok dest =>
            let c1 := { c with poisoned := c.poisoned || p.poison }
            let s1 := copyServed core (mergeSources core c piece s)
            match dest with
            | none => .next (landPiece core c1 piece p.count (scratchPiece c.gang piece p s1))
            | some ia =>
              .next (pushWrite (slabOf core) { WriteMsg.blank with
                ctx := (getGang s c.gang).ctx, sector := ia / 128, mask := p.mask, data := p.data, poison := p.poison, kind := .engine c.id }
                (putCopy core { c1 with sent := c1.sent ++ [(piece, ia / 128)] } s1))
          | _, _ => .fault .notEnabled

/-- The pages of a piece's reads that translate have been walked, whatever its fault is (R83). -/
def touchSources (c : CopyCmd) (piece : Nat) (s : State) : State :=
  if srcScratch c.kind c.bytes then s
  else (pieceReads c piece).foldl (fun s r =>
    match checkWindow s (getGang s c.gang).ctx (BitVec.ofNat 64 r.1) pathCpy 1 with
    | .error _ => s
    | .ok ia => touchPage (getGang s c.gang).ctx ia false s) s

/-- COPY_FAULT (R209): the command stalls at a piece that cannot be read or written, or whose write met a fault at its home. -/
def execCopyFault (core piece : Nat) (s : State) : Out :=
  match headCopy s core with
  | none => .fault .notEnabled
  | some c =>
    if !c.started ∨ !(copyPieces c).contains piece ∨ c.landed.contains piece ∨ c.stall.isSome ∨ c.ending.isSome then .fault .notEnabled
    else
      let stop := fun (va : W64) (why acc : Nat) (c : CopyCmd) (s : State) =>
        Host.Outcome.next (putCopy core { c with stall := some s.seq } (report { FaultRec.blank with
          kind := 2, why := why, acc := acc + 4 * pathCpy, ctx := (getGang s c.gang).ctx, unit := clusterOf core, ident := c.ident, va := va,
          ref := .copy core c.ident } s))
      match kget? c.lost piece with
      | some why => stop (BitVec.ofNat 64 (piece * 128)) why 1 { c with lost := kdel c.lost piece, sent := c.sent.filter (fun p => p.1 != piece) } s
      | none =>
        if c.sent.any (fun p => p.1 == piece) then .fault .notEnabled
        else
          match pieceData s c piece with
          | .error e => stop e.1 e.2 0 c (touchSources c piece s)
          | .ok _ =>
            match pieceDest s c piece with
            | .error e => stop e.1 e.2 1 c (touchSources c piece s)
            | .ok _ => .fault .notEnabled

end Sys2Proof.Machine
end

