-- ==== Sys2Proof/Machine/Intersect.lean ====
section
/-! DEFINITION. Sys2Proof/Machine/Intersect.lean: SPXI and SPXG (R213, R214, R365). -/
namespace Sys2Proof.Machine

def ones (w : Word) : Nat := ((List.range 32).filter (fun i => w.getLsbD i)).length

/-- SPXI's quad (R213): the mask, its count and the two advanced bases. -/
def spxi (a b oa ob : Word) : Quad :=
  let m := a &&& b
  (ob + BitVec.ofNat 32 (ones b)) ++ (oa + BitVec.ofNat 32 (ones a)) ++ BitVec.ofNat 32 (ones m) ++ m

/-- SPXI (R213, R365): an operation of the vector pipe; a poisoned guard traps (R353), and a poisoned operand poisons all four results. -/
def execSpxi (f : F4) (s : State) : Out :=
  issue f.h false s (noScalar s) (fun e act s =>
    orTrap e (regTraps e act [(f.d.toNat, 4), (f.a.toNat, 1), (f.b.toNat, 1), (f.c.toNat, 2)] ++ actingPoison f.h e act []) s (
  execAlu { h := f.h, ll := false, srcs := [.reg f.a.toNat, .reg f.b.toNat, .pair f.c.toNat], dst := .quad f.d.toNat, scalar := false,
            fn := fun _ l =>
              let o := BitVec.ofNat 64 (arg l 2)
              { val := spxi (BitVec.ofNat 32 (arg l 0)) (BitVec.ofNat 32 (arg l 1)) (o.truncate 32) ((o >>> 32).truncate 32),
                flags := 0, poison := argPoison l } } s))

/-- The offsets of the matched pairs k, k + 1, … that SPXG gathers: result byte position, and the two offsets, which do not wrap (R214). -/
def spxgPairs (a b oa ob k : Word) (w : Nat) : List (Nat × Nat × Nat) :=
  let bits := (List.range 32).filter (fun i => (a &&& b).getLsbD i)
  let below := fun (v : Word) (j : Nat) => ((List.range j).filter (fun i => v.getLsbD i)).length
  (List.range (4 / w)).filterMap (fun q =>
    match bits[k.toNat + q]? with
    | some j => some (q * w, oa.toNat + w * below a j, ob.toNat + w * below b j)
    | none => none)

/-- SPXG (R214, R365): a scratchpad read, transactional inside a transaction. -/
def execSpxg (f : F4) (s : State) : Out :=
  issue f.h false s (noScalar s) (fun e act s =>
    orTrap e (regTraps e act [(f.d.toNat, 2), (f.a.toNat, 2), (f.b.toNat, 2), (f.c.toNat, 1)]) s (
    let srcs : List Src := [.pair f.a.toNat, .pair f.b.toNat, .reg f.c.toNat]
    let w := accBytes f.ty
    let pairs := fun fid =>
      let x := getFibre e.g fid
      let ab := (readPair x f.a.toNat).1
      let o := (readPair x f.b.toNat).1
      spxgPairs (ab.truncate 32) ((ab >>> 32).truncate 32) (o.truncate 32) ((o >>> 32).truncate 32) (readReg x f.c.toNat).1 w
    let offs := fun fid => ((pairs fid).map (fun p => [p.2.1, p.2.2])).flatten
    let secs := fun off => noteLines [off / 128, (off + w - 1) / 128] []
    let marked := fun x => e.g.scratchPoison.contains x || bufferedPoison e.sl.txn (x * 128)
    let isBad := fun off => (secs off).any marked
    orTrap e (actingPoison f.h e act srcs ++ act.filterMap (fun fid => lowest fid ((offs fid).filterMap (fun off =>
        if !inNeed e.g off w then some (7, BitVec.ofNat 64 off)
        else if e.sl.txn.isSome then ((secs off).find? marked).map (fun x => (14, sectorOff (x * 128)))
        else none)))) s (
    if !acquiresDone s e.gid act then .next (splitParked e act s)
    else
      let get := fun off => scratchValue s e.gid e.sl.txn off w
      let val := fun fid => (pairs fid).foldl (fun n p => n + get p.2.1 * 2 ^ (8 * p.1) + get p.2.2 * 2 ^ (32 + 8 * p.1)) 0
      let vals := act.map (fun fid => (fid, BitVec.ofNat 128 (val fid), (offs fid).any isBad ||
        (guard f.h (getFibre e.g fid)).2 || srcs.any (fun r => (readSrc (getFibre e.g fid) r).2)))
      let f2 : F2 := { h := f.h, d := f.d, a := 0, b := 0, c := 0, ty := .n64, sp := 0, rd := 0, pol := 0, ord := 0, sc := 0, ix := false, ixs := 0, off := 0 }
      let go := fun s => Host.Outcome.next (scratchReply e f2 (.n64, f.d.toNat) vals
        (fun _ => { regs := pairWr f.d.toNat 0 false, preds := [], flags := 0 }) act s)
      match e.sl.txn with
      | none => go s
      | some t =>
        let lines := (act.map (fun fid => ((offs fid).map (fun off => noteLines [off / 256, (off + w - 1) / 256] [])).flatten)).flatten
        match noteReads true (lines.map (fun l => (l, scratchVersion s e.gid l))) t with
        | .error c => .next (abortTxn e.core e.key e.gid c 0 s)
        | .ok t1 => go (setTxn e.key t1 s))))

end Sys2Proof.Machine
end

