-- ==== Sys2Proof/Machine/Exchange.lean ====
section
/-! DEFINITION. Sys2Proof/Machine/Exchange.lean: exchange stores into shadow banks and the swap that publishes them (R77, R199 to
R202, R317, R318). -/
namespace Sys2Proof.Machine

/-- The gang an exchange address names, if it is a resident member (R77). -/
def exchangeTarget (s : State) (crew : Nat) (xa : Nat) : Option Nat :=
  (getCrew s crew).live.find? (fun gid => (getGang s gid).gid == xa / 2 ^ 24)

/-- The causes of an exchange access at issue (R45, R75, R77, R318): alignment, target, and the sync word when one is named. -/
def exchangeFaults (s : State) (g : Gang) (xa n : Nat) (count : Option Word) : List (Nat × W64) :=
  (if xa % n ≠ 0 then [(4, BitVec.ofNat 64 xa)] else []) ++
  (match count with
   | some c => if c.toNat % 16 ≠ 0 then [(4, c.zeroExtend 64)] else []
   | none => []) ++
  if (getCrew s g.crew).size < 2 then [(9, 0)]
  else
    (match exchangeTarget s g.crew xa with
     | none => [(8, BitVec.ofNat 64 xa)]
     | some t => if xa % 2 ^ 24 < (getGang s t).kernel.spad then [] else [(8, BitVec.ofNat 64 xa)]) ++
    (match count with
     | none => []
     | some c =>
       match exchangeTarget s g.crew xa with
       | none => []
       | some t => if c.toNat < (getGang s t).kernel.spad then [] else [(8, BitVec.ofNat 64 xa)])

/-- One lane's write at the shadow bank (R200): the bytes, their marks, the poison of the sector, and the count. -/
def shadowWrite (target off : Nat) (bs : List Byte) (poison : Bool) (count : Option Word) (s : State) : State :=
  let g := getGang s target
  setGang s target { g with
    shadow := writeBytes g.shadow off bs
    shadowMarks := noteLines ((List.range bs.length).map (off + ·)) g.shadowMarks
    shadowPoison := if poison then insertNat (off / 128) g.shadowPoison else g.shadowPoison
    xcounts := match count with
      | none => g.xcounts
      | some c => g.xcounts ++ [{ off := c.toNat, bytes := bs.length }] }

/-- An exchange store, counting or not. -/
def exchangeStore (f : F2) (counted : Bool) (s : State) : Out :=
  issue f.h false s (noScalar s) (fun e act s =>
    forbidInTxn e act s (
    orTrap e (regTraps e act ([(f.a.toNat, 1)] ++ srcUse (dataSrc f.ty f.b) ++ idxUse f ++ (if counted then [(f.d.toNat, 1)] else []))) s (
    let count := fun x => if counted then some (readReg x f.d.toNat).1 else none
    orTrap e (act.filterMap (fun fid =>
      let x := getFibre e.g fid
      lowest fid (exchangeFaults s e.g (shortAddr f x).1.toNat (accBytes f.ty) (count x)))) s (
    if !acquiresDone s e.gid act then .next (splitParked e act s)
    else .next ((sortBy lane act).foldl (fun s fid =>
      let x := getFibre e.g fid
      let a := shortAddr f x
      let d := readSrc x (dataSrc f.ty f.b)
      match exchangeTarget s e.g.crew a.1.toNat with
      | none => s
      | some t => shadowWrite t (a.1.toNat % 2 ^ 24) (bytesOfNat (accBytes f.ty) d.1.toNat) (a.2 || d.2) (count x) s)
      (retirePlain e 1 s))))))

/-- XST (R317). -/
def execXst (f : F2) (s : State) : Out := exchangeStore f false s
/-- XST_COUNT (R318). -/
def execXstCount (f : F2) (s : State) : Out := exchangeStore f true s

/-- The swap of one member's banks (R201): marked bytes become live, poison follows R121, marks go, and the counts are applied. -/
def swapGang (gid : Nat) (s : State) : State :=
  let g := getGang s gid
  let secs := noteLines (g.shadowMarks.map (· / 128)) []
  let whole := fun sec => (List.range 128).all (fun i => g.shadowMarks.contains (sec * 128 + i))
  let lines := noteLines (g.shadowMarks.map (· / 256)) []
  let s1 := setGang s gid { g with
    scratch := g.shadowMarks.foldl (fun m a => writeByte m a (readByte g.shadow a)) g.scratch
    scratchPoison := secs.foldl (fun l sec =>
      if g.shadowPoison.contains sec then insertNat sec l else if whole sec then without l [sec] else l) g.scratchPoison
    versions := lines.foldl (fun m l => kset m l (kget m l 0 + 1)) g.versions
    unfenced := g.unfenced.filter (fun e => !g.shadowMarks.contains e.1)
    shadowMarks := [], shadowPoison := [], xcounts := [] }
  let s2 := lines.foldl (fun s l => wakeScratch gid (l * 256) s) s1
  g.xcounts.foldl (fun s c => syncBytes gid (some c.off) c.bytes s) s2

/-- The swap of a crew. -/
def swapCrew (crew : Nat) (s : State) : State := (getCrew s crew).live.foldl (fun s gid => swapGang gid s) s

end Sys2Proof.Machine
end

