-- ==== Sys2Proof/Machine/Control.lean ====
section
/-! DEFINITION. Sys2Proof/Machine/Control.lean: transfers, splitting and joining, creation and end of fibres, and barriers (R26, R27,
R36, R37, R43, R45, R296 to R307). -/
namespace Sys2Proof.Machine

/-! ### Splitting (R36, R37, R299) -/

/-- Open a join set on some fibres of a gang. -/
def openSet (gid : Nat) (fids : List Nat) (s : State) : State :=
  let id := s.ids
  let g := getGang s gid
  setGang { s with ids := id + 1 } gid { mapFibres g (fun fid f => if fids.contains fid then { f with joins := id :: f.joins } else f) with
    joinSets := kset g.joinSets id { members := fids, waiting := [] } }

/-- The fibres have different PCs. -/
def diverged (g : Gang) (fids : List Nat) : Bool :=
  match fids with
  | [] => false
  | x :: xs => xs.any (fun y => (getFibre g y).pc != (getFibre g x).pc)

/-- After a transfer: the wave splits with one join set; inside a transaction the paths run in turn (R299). -/
def afterTransfer (e : Env) (s : State) : State :=
  if diverged (getGang s e.gid) e.fids then
    let id := s.ids
    let s1 := openSet e.gid e.fids s
    match e.sl.txn with
    | some t => pickPath e.core e.key e.gid (setTxn e.key { getTxn s1 e.key t with sets := id :: t.sets } s1)
    | none => regroup e.core e.key e.gid s1
  else s

/-- Transfer the executing fibres: their writes and targets; the others go on at the next slot. -/
def transfer (e : Env) (act : List Nat) (wr : Wr) (target : Nat → W64) (s : State) : Out :=
  .next (afterTransfer e (retire e 5 (fun fid => if act.contains fid then wr else Wr.none) (fun _ => none)
    (fun fid => if act.contains fid then target fid else nextPc e.pc) s))

/-- The target of a format-3 instruction. -/
def target3 (pc : W64) (f : F3) : W64 := directTarget pc f.tline f.tslot

/-! ### Handler mode (R307) -/

/-- A handler transfer to `t`: inside the 1,024 lines, to a marked slot. -/
def handlerTransfer (e : Env) (h : Handler) (t : W64) (s : State) : Out :=
  if (lineOf t - h.base).toNat < 1024 * 64 ∧ targetTrap s e.g.ctx t = none then
    needTargets e [0] (fun _ => t) s (fun s => .next (handlerAt e h t s))
  else handlerError e (if (lineOf t - h.base).toNat < 1024 * 64 then touchTarget e t s else s)

/-- A scalar transfer with its operands checked. -/
def scalarTransfer (f : F3) (uses : List RegUse) (poison : Handler → Bool) (t : Handler → W64) (wr : Handler → Handler) (s : State)
    (e : Env) (h : Handler) : Out :=
  if badK uses then handlerError e s
  else if (guardK f.h h).2 then poisonError e s
  else if !(guardK f.h h).1 then .next (handlerNext e h s)
  else if poison h then poisonError e s
  else handlerTransfer e (wr h) (t h) s

/-! ### The four transfers (R297, R298) -/

/-- A transfer to a direct target. -/
def directTransfer (f : F3) (uses : List RegUse) (wr : Env → Wr) (scalar : State → Env → Handler → Out) (s : State) : Out :=
  issue f.h false s (scalar s) (fun e act s =>
    let t := target3 e.pc f
    orTrap e (regTraps e act uses ++ guardPoison f.h e ++
      (match targetTrap s e.g.ctx t with
       | some (c, v) => act.map (fun fid => (fid, c, v))
       | none => [])) (touchTargets e (act.map (fun _ => t)) s) (needTargets e act (fun _ => t) s (transfer e act (wr e) (fun _ => t))))

/-- A transfer to the PC in the pair A. -/
def pairTransfer (f : F3) (s : State) : Out :=
  issue f.h false s (scalarTransfer f [(f.a.toNat, 1)] (fun h => h.kPoison.getLsbD f.a.toNat) (fun h => kget h.k f.a.toNat 0) id s)
    (fun e act s =>
      let t := fun fid => readPair (getFibre e.g fid) f.a.toNat
      let bad := regTraps e act [(f.a.toNat, 2)]
      orTrap e (bad ++ guardPoison f.h e ++ act.filterMap (fun fid =>
        if bad.any (fun b => b.1 == fid) then none
        else if (t fid).2 then some (fid, 14, 0)
        else (targetTrap s e.g.ctx (t fid).1).map (fun c => (fid, c.1, c.2))))
        (touchTargets e ((act.filter (fun fid => !bad.any (fun b => b.1 == fid) && !(t fid).2)).map (fun fid => (t fid).1)) s)
        (needTargets e act (fun fid => (t fid).1) s (transfer e act Wr.none (fun fid => (t fid).1))))

/-- BRA (R297). -/
def execBra (f : F3) (s : State) : Out :=
  directTransfer f [] (fun _ => Wr.none) (scalarTransfer f [] (fun _ => false) (fun h => target3 h.pc f) id) s

/-- CALL (R297): the PC of the following slot goes to the pair D. -/
def execCall (f : F3) (s : State) : Out :=
  directTransfer f [(f.d.toNat, 2)] (fun e => { regs := pairWr f.d.toNat (nextPc e.pc) false, preds := [], flags := 0 })
    (scalarTransfer f [(f.d.toNat, 1)] (fun _ => false) (fun h => target3 h.pc f) (fun h => writeK h f.d.toNat (nextPc h.pc) false)) s

/-- BRX (R297). -/
def execBrx (f : F3) (s : State) : Out := pairTransfer f s
/-- RET (R297): as BRX. -/
def execRet (f : F3) (s : State) : Out := pairTransfer f s

/-! ### JOIN (R300) -/

/-- Arrive at the innermost open set. -/
def arriveJoin (gid fid : Nat) (s : State) : State :=
  let g := getGang s gid
  match (getFibre g fid).joins with
  | [] => s
  | k :: _ => setGang s gid { g with joinSets := kmod g.joinSets k { members := [], waiting := [] } (fun js =>
      { js with waiting := insertNat fid js.waiting }) }

/-- JOIN outside a transaction. -/
def joinWave (e : Env) (act : List Nat) (s : State) : State :=
  let g := getGang s e.gid
  let meet := act.filter (fun fid => !(getFibre g fid).joins.isEmpty)
  let sets := noteLines (meet.map (fun fid => ((getFibre g fid).joins).headD 0)) []
  let s1 := leaveSlot e.key meet (meet.foldl (fun s fid => arriveJoin e.gid fid s) (retirePlain e 5 s))
  let s2 := sets.foldl (fun s k => toTable e.core e.gid (meet.filter (fun fid => ((getFibre g fid).joins).headD 0 == k)) (.join k) s) s1
  sets.foldl (fun s k => recount e.gid k s) s2

/-- JOIN inside a transaction, for every fibre of the running path: a set that closes leaves its fibres of the wave in it (R300). -/
def joinTxn (e : Env) (s : State) : State :=
  let g := getGang s e.gid
  let meet := e.fids.filter (fun fid => !(getFibre g fid).joins.isEmpty)
  let sets := noteLines (meet.map (fun fid => ((getFibre g fid).joins).headD 0)) []
  let s1 := meet.foldl (fun s fid => arriveJoin e.gid fid s) (retirePlain e 5 s)
  pickPath e.core e.key e.gid (sets.foldl (fun s k => recount e.gid k s) s1)

/-- JOIN. -/
def execJoin (f : F3) (s : State) : Out :=
  issue f.h true s (noScalar s) (fun e act s =>
    orTrap e (guardPoison f.h e) s
      (match e.sl.txn with
       | some _ => .next (joinTxn e s)
       | none => .next (joinWave e act s)))

/-! ### Barriers (R43, R45, R304, R305) -/

/-- Fibres of a gang that wait for `w` in the table. -/
def tableWaiters (s : State) (gid : Nat) (w : Wait) : List Nat :=
  (((getCore s (getGang s gid).core).table.filter (fun b => b.gang == gid && b.wait == w)).map (·.fids)).flatten

/-- The waiting fibres go on, their progress counts restarted. -/
def passGang (gid : Nat) (w : Wait) (s : State) : State :=
  let g := getGang s gid
  let c := getCore s g.core
  let fids := tableWaiters s gid w
  let s1 := setCore s g.core { c with table := c.table.map (fun b => if b.gang == gid && b.wait == w then { b with wait := .ready, since := now s } else b) }
  setGang s1 gid (mapFibres g (fun fid f => if fids.contains fid then { f with progress := 0 } else f))

/-- Every live fibre of the gang has arrived; a gang that a drain has saved off its core has not (R45, R228). -/
def allWait (s : State) (gid : Nat) (w : Wait) : Bool :=
  let ws := tableWaiters s gid w
  (kget? s.gangs gid).isSome && (getGang s gid).fibres.all (fun f => ws.contains f.1)

/-- Evaluate BAR of a gang. -/
def checkBar (gid : Nat) (s : State) : State :=
  if !(tableWaiters s gid .bar).isEmpty && allWait s gid .bar then passGang gid .bar s else s

/-- An HCHAIN of the gang is outstanding (R189). -/
def chainsPending (s : State) (gid : Nat) : Bool :=
  (getCrew s (getGang s gid).crew).handles.any (fun h => h.2.gang == gid && !h.2.waiters.isEmpty)

/-- Evaluate BARX of a crew: the swap, the acquire-release of every member, and the fibres go on (R305). -/
def checkBarx (crew : Nat) (s : State) : State :=
  let live := (getCrew s crew).live
  if live.any (fun gid => !(tableWaiters s gid .barx).isEmpty) && live.all (fun gid => allWait s gid .barx && !chainsPending s gid) then
    let s1 := swapCrew crew s
    let s2 := live.foldl (fun s gid =>
      let c := (getGang s gid).core
      acquireEffect c 1 (releaseCaches c s)) s1
    live.foldl (fun s gid => passGang gid .barx s) s2
  else s

/-- Arrive at a barrier: the earlier accesses are performed first, and the fibres wait in the table. -/
def arrive (e : Env) (act : List Nat) (w : Wait) (s : State) : State :=
  toTable e.core e.gid act w (leaveSlot e.key act (retirePlain e 5 s))

/-- BAR (R304). -/
def execBar (f : F3) (s : State) : Out :=
  issue f.h true s (noScalar s) (fun e act s =>
    forbidInTxn e act s (
    orTrap e (guardPoison f.h e) s (
      let r := release e act 0 s
      if !r.1 then .next r.2 else .next (checkBar e.gid (arrive e act .bar r.2)))))

/-- BARX (R305). -/
def execBarx (f : F3) (s : State) : Out :=
  issue f.h true s (noScalar s) (fun e act s =>
    forbidInTxn e act s (
    orTrap e (guardPoison f.h e ++ (if (getCrew s e.g.crew).size < 2 then act.map (fun fid => (fid, 9, 0)) else [])) s (
      if act.isEmpty then .next (retirePlain e 5 s)
      else if chainsPending s e.gid then .next s
      else
        let r := release e act 0 s
        if !r.1 then .next r.2 else .next (checkBarx e.g.crew (arrive e act .barx r.2)))))

/-! ### SPAWN, QUIT, YIELD (R26, R27, R301 to R303) -/

/-- Fibres as batches with distinct home lanes. -/
def laneBatches : List Nat → List (List Nat)
  | [] => []
  | f :: fs =>
    let rest := laneBatches fs
    match rest.find? (fun b => !b.any (fun x => lane x == lane f)) with
    | some b => (f :: b) :: rest.filter (fun x => x != b)
    | none => [f] :: rest

/-- The lowest fibre index of a gang that is free: held by no live fibre, nor by one that ended in this cycle (R26, R27). -/
def freeIndex (s : State) (gid : Nat) : Option Nat :=
  let g := getGang s gid
  (List.range 1024).find? (fun i => (kget? g.fibres i).isNone && !(freedNow s g.core).any (fun b => b.gang == gid && b.fid == i))

/-- Live fibres of a core (R31). -/
def coreFibres (s : State) (core : Nat) : Nat := (getCore s core).gangs.foldl (fun n gid => n + (getGang s gid).fibres.length) 0

/-- The fibre a SPAWN creates (R26). -/
def spawnFibre (parent : Fibre) (win base : Nat) (pc : W64) : Fibre :=
  { Fibre.init with
    win := win, pc := pc, block := base
    regs := parent.regs.filter (fun e => decide (e.1 < 8))
    regPoison := parent.regPoison &&& 0xFF
    fpmode := parent.fpmode &&& ~~~flagMask
    waitlimit := parent.waitlimit }

/-- One lane's SPAWN: the fibre created, if any. -/
def spawnOne (e : Env) (win : Nat) (pc : W64) (parent : Nat) (s : State) : Option Nat × State :=
  let g := getGang s e.gid
  let c := getCore s e.core
  let fail := (none, setGang s e.gid { g with spfail := g.spfail + 1 })
  if 2048 ≤ coreFibres s e.core then fail
  else
    match freeIndex s e.gid, findBlock (heldBlocks s e.core) win with
    | some i, some b =>
      (some i, setCore (setGang s e.gid { g with fibres := kset g.fibres i (spawnFibre (getFibre e.g parent) win b pc) }) e.core
        { c with blocks := c.blocks ++ [{ base := b, size := win, gang := e.gid, fid := i }] })
    | _, _ => fail

/-- SPAWN for the executing fibres by rising lane: what each got, and the state. -/
def spawnAll (e : Env) (win : Nat) (pc : W64) : List Nat → State → List (Nat × Option Nat) × State
  | [], s => ([], s)
  | fid :: fs, s =>
    let r := spawnOne e win pc fid s
    let t := spawnAll e win pc fs r.2
    ((fid, r.1) :: t.1, t.2)

/-- SPAWN (R301). -/
def execSpawn (f : F3) (s : State) : Out :=
  issue f.h true s (noScalar s) (fun e act s =>
    forbidInTxn e act s (
    let t := target3 e.pc f
    orTrap e (guardPoison f.h e ++
      (match targetTrap s e.g.ctx t with
       | some (c, v) => act.map (fun fid => (fid, c, v))
       | none => [])) (touchTargets e (act.map (fun _ => t)) s) (needTargets e act (fun _ => t) s (fun s =>
      let r := release e act 0 s
      if !r.1 then .next r.2
      else
        let sp := spawnAll e (16 * 2 ^ f.mod.toNat) t (sortBy lane act) r.2
        let got := fun fid => (sp.1.find? (fun x => x.1 == fid)).any (fun x => x.2.isSome)
        let s1 := retire e 5 (fun fid => if act.contains fid then { Wr.none with preds := [(f.d.toNat, got fid, false)] } else Wr.none)
          (fun _ => none) (fun _ => nextPc e.pc) sp.2
        let s2 := (laneBatches (sp.1.filterMap (·.2))).foldl (fun s b => toTable e.core e.gid b .ready s) s1
        .next (refreshAlloc e.core s2)))))

/-- What an ended fibre has under way keeps a number of its own, so that a fibre created on its index later has no part in it: its
accesses, log entries, matrix operations, sends and their answers (R27, R191, R194, R217). -/
def outlive (gid fid : Nat) (s : State) : State :=
  let one := fun (x : Nat) => if x = fid then fid + 2048 else x
  let op := fun (o : MxOp) => if o.gang = gid then { o with fids := o.fids.map one } else o
  { s with
    reqs := s.reqs.map (fun r => if r.gang = gid then { r with fid := one r.fid, group := r.group.map one } else r)
    slots := s.slots.map (fun k => (k.1, { k.2 with log := k.2.log.map (fun l => if l.gang = gid then { l with fids := l.fids.map one } else l) }))
    clusters := s.clusters.map (fun c => (c.1, { c.2 with queues := c.2.queues.map (fun q => (q.1, q.2.map op)), running := c.2.running.map op }))
    drains := s.drains.map (fun d => (d.1, if d.2.gang = gid then { d.2 with fids := d.2.fids.map one } else d.2))
    packets := s.packets.map (fun p => if p.gang = gid then { p with fids := p.fids.map one } else p)
    acks := s.acks.map (fun a => if a.gang = gid then { a with fids := a.fids.map one } else a) }

/-- A fibre ends (R27): it leaves its join sets, and frees its window and its index from the next cycle on; its accesses still complete. -/
def endFibre (gid fid : Nat) (s : State) : State :=
  let s1 := leaveJoins gid fid s
  let g := getGang s1 gid
  let c := getCore s1 g.core
  let mine := fun (b : RegBlock) => b.gang == gid && b.fid == fid
  outlive gid fid (setCore (setGang s1 gid { g with fibres := kdel g.fibres fid, asyncs := g.asyncs.filter (fun a => a.fid != fid) }) g.core
    { c with blocks := c.blocks.filter (fun b => !mine b), frees := c.frees + 1,
             justFreed := (now s + 1, freedNow s1 g.core ++ c.blocks.filter mine) })

/-- QUIT (R302). -/
def execQuit (f : F3) (s : State) : Out :=
  issue f.h true s (noScalar s) (fun e act s =>
    forbidInTxn e act s (
    orTrap e (guardPoison f.h e) s (
      if act.isEmpty then .next (retirePlain e 5 s)
      else
        let s1 := act.foldl (fun s fid => endFibre e.gid fid s) (leaveSlot e.key act (retirePlain e 5 s))
        .next (checkBarx e.g.crew (checkBar e.gid (checkReleased e.g.task (refreshAlloc e.core s1)))))))

/-- YIELD (R303): the progress count of the yielding fibres is kept. -/
def execYield (f : F3) (s : State) : Out :=
  issue f.h true s (noScalar s) (fun e act s =>
    forbidInTxn e act s (
    orTrap e (guardPoison f.h e) s (
      let s1 := retirePlain e 5 s
      let s2 := setGang s1 e.gid (mapFibres (getGang s1 e.gid) (fun fid x =>
        if act.contains fid then { x with progress := (getFibre e.g fid).progress } else x))
      .next (toTable e.core e.gid act .ready (leaveSlot e.key act s2)))))

end Sys2Proof.Machine
end

