-- ==== Sys2Proof/Machine/System.lean ====
section
/-! DEFINITION. Sys2Proof/Machine/System.lean: CSRs, special registers, counters, TRAP, RETT, BRK and NOP (R52 to R55, R366 to R377). -/
namespace Sys2Proof.Machine

/-! ### CSRs (R54, R368, R369) -/

inductive CsrAccess where
  | rw | ro | handler
  deriving DecidableEq, Repr

/-- The access of a CSR number. -/
def csrAccess (sel : Nat) : CsrAccess :=
  if sel = 0 ∨ sel = 2 ∨ sel = 0x24 ∨ (0x40 ≤ sel ∧ sel ≤ 0x47) then .rw
  else if 0x20 ≤ sel ∧ sel ≤ 0x23 then .handler
  else .ro

/-- CSRs of 64 bits. -/
def csrWide (sel : Nat) : Bool :=
  sel == 2 || (decide (0x10 ≤ sel) && decide (sel ≤ 0x17)) || sel == 0x22 || sel == 0x23 || sel == 0x24 || sel == 0x30 || sel == 0x31 ||
  (decide (0x40 ≤ sel) && decide (sel ≤ 0x47))

/-- The launch of a gang. -/
def launchOf (s : State) (g : Gang) : Launch := kget s.launches g.launch Launch.init

/-- A CSR as fibre `fid` of the wave in slot `key` reads it. -/
def csrRead (s : State) (key gid fid sel : Nat) : W64 :=
  let g := getGang s gid
  let f := getFibre g fid
  let sl := getSlot s key
  if sel = 0 then f.fpmode.zeroExtend 64
  else if sel = 1 then f.txstatus.zeroExtend 64
  else if sel = 2 then f.waitlimit
  else if sel = 3 then (let l := launchOf s g; if l.sweep then 0 else l.stencil.zeroExtend 64)
  else if 0x10 ≤ sel ∧ sel ≤ 0x17 then kget (launchOf s g).qslots (sel - 0x10) 0
  else if sel = 0x20 then sl.trapcause.zeroExtend 64
  else if sel = 0x21 then sl.traplanes.zeroExtend 64
  else if sel = 0x22 then sl.trappc
  else if sel = 0x23 then sl.trapval
  else if sel = 0x24 then g.handlerBase
  else if sel = 0x30 then BitVec.ofNat 64 (now s)
  else if sel = 0x31 then timer s
  else kget (getCore s g.core).perfCount (sel - 0x40) 0

/-- A write of a CSR by fibre `fid`. -/
def csrWrite (key gid fid sel : Nat) (v : W64) (s : State) : State :=
  let g := getGang s gid
  let sl := getSlot s key
  let upd := fun (fn : Fibre → Fibre) => setGang s gid (mapFibres g (fun i f => if i = fid then fn f else f))
  if sel = 0 then upd (fun f => { f with fpmode := fpmodeWrite f.fpmode (v.truncate 32) })
  else if sel = 2 then upd (fun f => { f with waitlimit := v })
  else if sel = 0x20 then setSlot s key { sl with trapcause := (v.truncate 32) &&& 0x1FF }
  else if sel = 0x21 then setSlot s key { sl with traplanes := (v.truncate 32) &&& (match sl.handler with | some h => h.lanes | none => 0) }
  else if sel = 0x22 then setSlot s key { sl with trappc := v }
  else if sel = 0x23 then setSlot s key { sl with trapval := v }
  else if sel = 0x24 then setGang s gid { g with handlerBase := v &&& ~~~63 }
  else setCore s g.core { getCore s g.core with perfCount := kset (getCore s g.core).perfCount (sel - 0x40) v }

/-- New bits under a mask (R369). -/
def csrMerge (old mask new : W64) : W64 := (old &&& ~~~mask) ||| (new &&& mask)

/-- A source register of a CSR access, a pair for 64-bit CSRs. -/
def csrSrc (sel : Nat) (f : Fibre) (n : Nat) : W64 × Bool :=
  if csrWide sel then readPair f n else ((readReg f n).1.zeroExtend 64, (readReg f n).2)
def csrN (sel : Nat) : Nat := if csrWide sel then 2 else 1
def csrDst (sel n : Nat) (v : W64) : Wr :=
  { regs := if csrWide sel then pairWr n v false else [(n, v.truncate 32, false)], preds := [], flags := 0 }

/-- A PC that handler mode may write (R370). -/
def pcOk (v : W64) : Bool := decide (v &&& 0x38 = 0) && decide (v.toNat % 8 ≤ 4) && decide (v.toNat < 2 ^ 57)

/-- The fibre whose registers a handler reads (R369, R372). -/
def handlerFid (e : Env) (h : Handler) : Nat :=
  let m := if e.sl.traplanes = 0 then h.lanes else e.sl.traplanes
  ((sortBy lane (lanesIn m e.sl.fids))).headD 0

/-- The fibres a handler's write of a fibre-held CSR reaches. -/
def handlerFids (e : Env) (h : Handler) : List Nat :=
  lanesIn (if e.sl.traplanes = 0 then h.lanes else e.sl.traplanes) e.sl.fids

/-- A handler's CSR write: `new` gives each target's value from its old one. -/
def handlerCsr (e : Env) (h : Handler) (sel : Nat) (new : W64 → W64) (h' : Handler) (s : State) : Out :=
  if csrAccess sel = .ro then handlerError e s
  else
    let old := fun fid => csrRead s e.key e.gid fid sel
    if sel = 0x22 ∧ !pcOk (new (old 0)) then handlerError e s
    else
      let fids := if sel = 0 ∨ sel = 2 then handlerFids e h else [handlerFid e h]
      .next (handlerNext e h' (fids.foldl (fun s fid => csrWrite e.key e.gid fid sel (new (old fid)) s) s))

/-- ILLEGAL for a write that the access of the CSR forbids (R369). -/
def csrIllegal (i : Instr) (sel : Nat) (act : List Nat) : Raised :=
  if csrAccess sel = .rw then [] else act.map (fun fid => (fid, 2, illegalVal i))

/-- Lanes with a poisoned guard or source (R367). -/
def csrPoison (h : Hdr) (e : Env) (act : List Nat) (src : Fibre → Bool) : Raised :=
  guardPoison h e ++ (act.filter (fun fid => src (getFibre e.g fid))).map (fun fid => (fid, 14, 0))

/-- CSRR (R369). -/
def execCsrr (f : F6) (s : State) : Out :=
  let sel := f.sel.toNat
  issue f.h false s (fun e h =>
    if badK [(f.d.toNat, 1)] then handlerError e s
    else if (guardK f.h h).2 then poisonError e s
    else if !(guardK f.h h).1 then .next (handlerNext e h s)
    else .next (handlerNext e (writeK h f.d.toNat (csrRead s e.key e.gid (handlerFid e h) sel) false) s))
    (fun e act s =>
      orTrap e (regTraps e act [(f.d.toNat, csrN sel)] ++ guardPoison f.h e) s
        (.next (retire e 5 (fun fid => if act.contains fid then csrDst sel f.d.toNat (csrRead s e.key e.gid fid sel) else Wr.none)
          (fun _ => none) (fun _ => nextPc e.pc) s)))

/-- CSRW (R369). -/
def execCsrw (f : F6) (s : State) : Out :=
  let sel := f.sel.toNat
  issue f.h false s (fun e h =>
    if badK [(f.a.toNat, 1)] then handlerError e s
    else if (guardK f.h h).2 then poisonError e s
    else if !(guardK f.h h).1 then .next (handlerNext e h s)
    else if h.kPoison.getLsbD f.a.toNat then poisonError e s
    else handlerCsr e h sel (fun _ => kget h.k f.a.toNat 0) h s)
    (fun e act s =>
      orTrap e (regTraps e act [(f.a.toNat, csrN sel)] ++ csrIllegal (.csrw f) sel act ++
        csrPoison f.h e act (fun x => (csrSrc sel x f.a.toNat).2)) s
        (.next (retirePlain e 5 ((sortBy lane act).foldl (fun s fid =>
          csrWrite e.key e.gid fid sel (csrSrc sel (getFibre e.g fid) f.a.toNat).1 s) s))))

/-- The executing fibres' CSRX in turn: the old value each one saw, and the state. -/
def csrxAll (f : F6) (e : Env) : List Nat → State → List (Nat × W64) × State
  | [], s => ([], s)
  | fid :: fs, s =>
    let sel := f.sel.toNat
    let x := getFibre e.g fid
    let old := csrRead s e.key e.gid fid sel
    let r := csrxAll f e fs (csrWrite e.key e.gid fid sel (csrMerge old (csrSrc sel x f.a.toNat).1 (csrSrc sel x f.b.toNat).1) s)
    ((fid, old) :: r.1, r.2)

/-- CSRX (R369). -/
def execCsrx (f : F6) (s : State) : Out :=
  let sel := f.sel.toNat
  issue f.h false s (fun e h =>
    if badK [(f.d.toNat, 1), (f.a.toNat, 1), (f.b.toNat, 1)] then handlerError e s
    else if (guardK f.h h).2 then poisonError e s
    else if !(guardK f.h h).1 then .next (handlerNext e h s)
    else if h.kPoison.getLsbD f.a.toNat || h.kPoison.getLsbD f.b.toNat then poisonError e s
    else
      let m := if csrWide sel then kget h.k f.a.toNat 0 else (kget h.k f.a.toNat 0) &&& 0xFFFFFFFF
      handlerCsr e h sel (fun old => csrMerge old m (kget h.k f.b.toNat 0))
        (writeK h f.d.toNat (csrRead s e.key e.gid (handlerFid e h) sel) false) s)
    (fun e act s =>
      orTrap e (regTraps e act [(f.d.toNat, csrN sel), (f.a.toNat, csrN sel), (f.b.toNat, csrN sel)] ++ csrIllegal (.csrx f) sel act ++
        csrPoison f.h e act (fun x => (csrSrc sel x f.a.toNat).2 || (csrSrc sel x f.b.toNat).2)) s
        (let r := csrxAll f e (sortBy lane act) s
         .next (retire e 5 (fun fid => match r.1.find? (fun x => x.1 == fid) with
             | some x => csrDst sel f.d.toNat x.2
             | none => Wr.none) (fun _ => none) (fun _ => nextPc e.pc) r.2)))

/-! ### Special registers (R52, R372) -/

def sregWide (sel : Nat) : Bool := sel == 7 || sel == 14

/-- A special register as fibre `fid` reads it. -/
def sregRead (s : State) (gid fid sel : Nat) : W64 :=
  let g := getGang s gid
  let t := getTask s g.task
  let l := launchOf s g
  let n := fun (x : Nat) => BitVec.ofNat 64 x
  match sel with
  | 0 => n fid
  | 1 => n (lane fid)
  | 2 => n g.gid
  | 3 => n g.ctx
  | 4 => n (slabOf g.core)
  | 5 => n (clusterOf g.core)
  | 6 => n t.index
  | 7 => t.key
  | 8 => t.gen.zeroExtend 64
  | 9 => if l.sweep then 0 else n (t.index % l.x)
  | 10 => if l.sweep then 0 else n (t.index / l.x % l.y)
  | 11 => if l.sweep then 0 else n (t.index / (l.x * l.y))
  | 12 => n g.fibres.length
  | 13 => if (getCrew s g.crew).size < 2 then 1 else n (getCrew s g.crew).live.length
  | _ => n (now s)

/-- SREAD (R372). -/
def execSread (f : F6) (s : State) : Out :=
  let sel := f.sel.toNat
  issue f.h false s (fun e h =>
    if badK [(f.d.toNat, 1)] then handlerError e s
    else if (guardK f.h h).2 then poisonError e s
    else if !(guardK f.h h).1 then .next (handlerNext e h s)
    else .next (handlerNext e (writeK h f.d.toNat (sregRead s e.gid (handlerFid e h) sel) false) s))
    (fun e act s =>
      orTrap e (regTraps e act [(f.d.toNat, if sregWide sel then 2 else 1)] ++ guardPoison f.h e) s
        (.next (retire e 5 (fun fid => if act.contains fid then
            { regs := if sregWide sel then pairWr f.d.toNat (sregRead s e.gid fid sel) false
                      else [(f.d.toNat, (sregRead s e.gid fid sel).truncate 32, false)], preds := [], flags := 0 } else Wr.none)
          (fun _ => none) (fun _ => nextPc e.pc) s)))

/-! ### Traps, breakpoints, counters (R373 to R377) -/

/-- TRAP (R373). -/
def execTrap (f : F6) (s : State) : Out :=
  issue f.h true s (noScalar s) (fun e act s =>
    orTrap e (guardPoison f.h e ++ act.map (fun fid => (fid, 15, f.code.zeroExtend 64))) s (.next (retirePlain e 5 s)))

/-- RETT (R226, R375); ILLEGAL outside handler mode. -/
def execRett (f : F6) (s : State) : Out :=
  issue f.h true s (fun e h =>
    if (guardK f.h h).2 then poisonError e s
    else if !(guardK f.h h).1 then .next (handlerNext e h s)
    else if returnError h e.sl then handlerError e s
    else .next (returnFromHandler e.core e.key h s))
    (fun e _ s => illegalAll (.rett f) e s)

/-- NOP (R376). -/
def execNop (f : F6) (s : State) : Out :=
  issue f.h false s (noScalar s) (fun e _ s => orTrap e (guardPoison f.h e) s (.next (retirePlain e 5 s)))

/-- Halt a core (R232, R374). -/
def haltCore (core : Nat) (s : State) : State := setCore s core { getCore s core with halted := true }

/-- BRK (R374): BREAK when no debugger has claimed the core; otherwise the core halts, and BRK retires when it is resumed (resumeCore);
the wave keeps its slot meanwhile (DEDUCED log 129). Inside a transaction the halt sees TRAPPC at the abort label. -/
def execBrk (f : F6) (s : State) : Out :=
  issue f.h true s (noScalar s) (fun e act s =>
    orTrap e (guardPoison f.h e) s (
      if act.isEmpty then .next (retirePlain e 5 s)
      else if !(getCore s e.core).claimed then takeTrap e (act.map (fun fid => (fid, 16, 0))) s
      else match e.sl.txn with
      | some t =>
        let s1 := abortTxn e.core e.key e.gid 8 0 s
        .next (haltCore e.core (setSlot s1 e.key { getSlot s1 e.key with trappc := t.abortPc }))
      | none => .next (haltCore e.core (setSlot s e.key { getSlot s e.key with atBrk := true }))))

/-- The debugger resumes a core: the BRK at which a wave halted retires with no effect (R232, R374); it does not pair, and the core counts
a PAIR bit that it has (R386). -/
def resumeCore (core : Nat) (s : State) : State :=
  (List.range 32).foldl (fun s w =>
    let sl := getSlot s (slotKey core w)
    if !sl.atBrk then s
    else
      let s1 := setSlot s (slotKey core w) { sl with atBrk := false }
      match envOf { s1 with cur := some (core, w) } with
      | some e =>
        let s2 := retirePlain e 5 s1
        if pairBit s1 e.g.ctx e.pc then perfEvent core 3 1 s2 else s2
      | none => s1) (setCore s core { getCore s core with halted := false })

/-- PERFR (R377): the counter and CYCLE at one instant. -/
def execPerfr (f : F6) (s : State) : Out :=
  issue f.h false s (noScalar s) (fun e act s =>
    orTrap e (regTraps e act [(f.d.toNat, 4)] ++ guardPoison f.h e) s
      (let v : Quad := BitVec.ofNat 64 (now s) ++ kget (getCore s e.core).perfCount (f.sel.toNat % 8) 0
       .next (retire e 5 (fun fid => if act.contains fid then { regs := quadWr f.d.toNat v false, preds := [], flags := 0 } else Wr.none)
         (fun _ => none) (fun _ => nextPc e.pc) s)))

end Sys2Proof.Machine
end

