-- ==== Sys2Proof/Machine/Header.lean ====
section
/-! DEFINITION. Sys2Proof/Machine/Header.lean: the checks of a kernel header (R389 to R391) and sector-wise access to memory for the
units that work through a context's windows and pages. -/
namespace Sys2Proof.Machine

/-! ### CRC-32C (R389) -/

def crcBit (c : Nat) : Nat := if c % 2 = 1 then (c / 2) ^^^ 0x82F63B78 else c / 2

def crcByte (c : Nat) (b : Byte) : Nat := crcBit (crcBit (crcBit (crcBit (crcBit (crcBit (crcBit (crcBit (c ^^^ b.toNat))))))))

/-- CRC-32C: initial value all ones, final inversion. -/
def crc32c (bs : List Byte) : Nat := (bs.foldl crcByte 0xFFFFFFFF) ^^^ 0xFFFFFFFF

/-! ### Accesses of the units (R79, R83, R126, R143, R440) -/

/-- Why a unit's access or step cannot go on. -/
inductive Blocked where
  /-- A window fault (WHY 0) or a page fault: VA, WHY, ACC, and the state after the reads before it. -/
  | access (va : W64) (why acc : Nat) (seen : State)
  /-- A migration copy's access to a payload (R142): the block, VA, WHY, ACC. -/
  | copy (key va : W64) (why acc : Nat)
  /-- A malformed structure, and the state after the reads that met it. -/
  | corrupt (va : W64) (seen : State)
  /-- A poisoned sector, and the state after the reads that met it. -/
  | poison (va : W64) (seen : State)
  /-- A home does not serve the access yet (R108, R109, R151). -/
  | wait
  deriving DecidableEq, Repr

/-- What a unit does with a context's memory: a state it goes through, or why it cannot go on. -/
abbrev QM (α : Type) := StateT State (Except Blocked) α

/-- The vector of an agent, the weighbridge among them: its own entry is the current tick (R104). -/
def agentV (s : State) (a : Nat) : List Nat := if a = 4 then vset s.bridge 4 (tick56 s) else vOf s a
/-- The read vector of an agent (R109). The weighbridge's own entry holds the tick of its latest write. -/
def agentQ (s : State) (a : Nat) : List Nat := if a = 4 then s.bridge else readVector s a
/-- An agent merges the stamp of a write that it reads (R106). -/
def agentMerge (a : Nat) (w : List Nat) (s : State) : State :=
  if a = 4 then { s with bridge := vset (vmax s.bridge w) 4 (vget s.bridge 4) } else mergeStamp a w s
/-- A unit at work on one step: its context, its agent (a quarry unit's slab, 4 for Derrick), and the vector of its first reads. -/
structure UnitEnv where
  ctx : Nat
  slab : Nat
  q : List Nat
  deriving DecidableEq, Repr

/-- A step of a unit; one that has begun keeps the vector that it began with. -/
def unitAt (s : State) (ctx slab : Nat) (b : Option Begun) : UnitEnv := { ctx := ctx, slab := slab, q := b.getD (agentQ s slab) }
def unitEnv (s : State) (ctx slab : Nat) : UnitEnv := unitAt s ctx slab none

/-- While a step is performed its agent's vector is the one that the step began with: what each of its reads finds is merged into it, and
its later reads leave with that (R106, R109). -/
def freezeUnit (u : UnitEnv) (s : State) : State :=
  if u.slab = 4 then { s with bridge := u.q }
  else setSlab s u.slab { getSlab s u.slab with v := u.q, lastLeft := vget u.q u.slab }

/-- The step is over: the agent has its own vector again with what the step has merged, and Derrick's writes leave the weighbridge with
that (R105, R106). -/
def thawUnit (u : UnitEnv) (s t : State) : State :=
  if u.slab = 4 then
    let b := vset (vmax s.bridge t.bridge) 4 (vget s.bridge 4)
    let fresh := fun (m : WriteMsg) => m.agent == 4 && decide (s.ids ≤ m.id)
    if t.held.any fresh then
      let w := vset b 4 (tick56 s)
      { t with bridge := w, held := t.held.map (fun m => if fresh m then { m with stamp := w } else m) }
    else { t with bridge := b }
  else
    let a := getSlab s u.slab
    let b := getSlab t u.slab
    setSlab t u.slab { b with v := vset (vmax a.v b.v) u.slab (vget a.v u.slab), lastLeft := a.lastLeft }

/-- The states of what stops a step, under a function. -/
def Blocked.onSeen (fn : State → State) : Blocked → Blocked
  | .access va why acc t => .access va why acc (fn t)
  | .corrupt va t => .corrupt va (fn t)
  | .poison va t => .poison va (fn t)
  | .copy key va why acc => .copy key va why acc
  | .wait => .wait

/-- Perform a unit's step. -/
def unitRun {α : Type} (u : UnitEnv) (m : QM α) : QM α := fun s =>
  match m (freezeUnit u s) with
  | .ok (a, t) => .ok (a, thawUnit u s t)
  | .error b => .error (b.onSeen (thawUnit u s))

/-- The place of a unit's access to a VA on a path: `kernel` accesses check U; `bad` says what a fault is. -/
def unitSpot (s : State) (ctx : Nat) (va : W64) (path : Nat) (kernel write : Bool) (bad : Nat → Blocked) : Except Blocked (Nat × Spot) :=
  match checkWindow s ctx va path (if write then 2 else 1) with
  | .error _ => .error (bad 0)
  | .ok ia =>
    match spotOf s ctx ia kernel write with
    | .error y => .error (bad y)
    | .ok p => .ok (ia, p)

/-- A fault of the unit's own accesses, on the VEC path. -/
def vecFault (s : State) (va : W64) (write : Bool) (why : Nat) : Blocked := .access va why (if write then 1 else 0) s

/-- A place's home serves the unit's read now (R109, R111). -/
def unitServed (s : State) (u : UnitEnv) (ia : Nat) (p : Spot) : Bool :=
  match p with
  | .peer _ => true
  | .page _ => homeQuiet s (homeOf ia) && readStable s u.slab (homeOf ia) (agentQ s u.slab) && spotShown s u.slab p

/-- Writes of the slab to a sector are on their way whose bytes the home alone knows. -/
def hiddenWrites (s : State) (u : UnitEnv) (ia : Nat) : Bool :=
  (ownPending s u.slab u.ctx (ia / 128)).any (fun m => m.kind.computed || mayReturn s m)

/-- A sector as the unit sees it: the slab's own writes on their way lie over what the home holds (R102, R105). -/
def unitSees (s : State) (u : UnitEnv) (ia : Nat) (p : Spot) : BitVec 1024 × Bool :=
  overPending (ownPending s u.slab u.ctx (ia / 128)) (spotSector s p, spotPoison s p)

/-- What a read leaves behind: the page's A bit, and the stamp that its slab merges (R83, R106). -/
def unitSaw (u : UnitEnv) (p : Spot) (s : State) : State := agentMerge u.slab (spotStamp s p) (spotSeen p s)

/-- Read bytes of one sector for a unit; poison stops it (DESIGN CHOICE log 123). -/
def unitGet (u : UnitEnv) (kernel : Bool) (va : W64) (n : Nat) : QM (List Byte) := do
  let s ← get
  match unitSpot s u.ctx va pathVec kernel false (vecFault s va false) with
  | .error b => throw b
  | .ok (ia, p) =>
    if !unitServed s u ia p || hiddenWrites s u ia then throw .wait
    else
      let v := unitSees s u ia p
      if v.2 then throw (.poison (va &&& ~~~127) (unitSaw u p s))
      else
        set (unitSaw u p s)
        pure ((List.range n).map (fun i => sectorByte v.1 (ia % 128 + i)))

/-- Whole sectors, `n` of them, from an aligned VA. -/
def unitSectors (u : UnitEnv) (kernel : Bool) (va : W64) : Nat → QM (List Byte)
  | 0 => pure []
  | n + 1 => do
    let a ← unitGet u kernel va 128
    let r ← unitSectors u kernel (va + 128) n
    pure (a ++ r)

/-- A unit's write of bytes of one sector, whose place it has checked, goes to its slab's core-side slice and travels from there (R105,
R108, R112). -/
def unitSend (u : UnitEnv) (kind : WKind) (ia : Nat) (p : Spot) (mask : BitVec 128) (d : BitVec 1024) (poison : Bool) (s : State) : State :=
  pushWrite u.slab { WriteMsg.blank with
    ctx := u.ctx, sector := ia / 128, mask := mask, data := d, poison := poison, kind := kind, leaf := p.leaf } (spotSeen p s)

/-- A write of bytes within one sector, or the addition of a word there. -/
def unitMake (u : UnitEnv) (kind : WKind) (kernel : Bool) (va : W64) (bs : List Byte) : QM Unit := do
  let s ← get
  match unitSpot s u.ctx va pathVec kernel true (vecFault s va true) with
  | .error b => throw b
  | .ok (ia, p) =>
    set (unitSend u kind ia p (byteMask (ia % 128) bs.length) (natSector (natOfBytes bs) (ia % 128) bs.length) false s)
def unitPut (u : UnitEnv) (kernel : Bool) (va : W64) (bs : List Byte) : QM Unit := unitMake u .plain kernel va bs

/-- The state after the reads of a step that cannot go on. -/
def Blocked.seen (b : Blocked) (s : State) : State :=
  match b with
  | .access _ _ _ t | .corrupt _ t | .poison _ t => t
  | .copy _ _ _ _ | .wait => s

/-- What a step that came to nothing has read leaves behind all the same (R83, R106). -/
def keepReads (a : Nat) (seen s : State) : State :=
  agentMerge a (if a = 4 then seen.bridge else (getSlab seen a).v)
    ((seen.leaves.filter (fun l => !s.leaves.contains l)).foldl (fun s l => setAccessed { l with held := false } s) s)

/-! ### The header (R389, R390) -/

/-- What is wrong with a header. -/
inductive HeaderError where
  | version (v : Nat)
  | field (off : Nat)
  deriving DecidableEq, Repr

/-- NAME: ASCII, zero-padded. -/
def nameOk : List Byte → Bool
  | [] => true
  | b :: bs => if b = 0 then allZero bs else decide (b.toNat < 128) && nameOk bs

/-- A PC or line offset inside the code. -/
def codeOffset (v codelen : Nat) : Bool := decide (256 ≤ v / 64 * 64) && decide (v / 64 * 64 + 64 ≤ 256 + codelen)

/-- The fields after MAGIC, CHECK and VERSION with their offsets: those that break their required value. -/
def headerBad (h : List Byte) : List Nat :=
  let f := field h
  let cl := f 24 4
  let rows : List (Nat × Bool) :=
    [(6, [16, 32, 64, 128, 256].contains (f 6 2)), (8, decide (1 ≤ f 8 2) && decide (f 8 2 ≤ 1024)),
     (10, decide (1 ≤ f 10 1) && decide (f 10 1 ≤ 16)), (11, decide (f 11 1 ≤ 1)),
     (12, decide (f 12 4 ≤ 4194304) && decide (f 12 4 % 4096 = 0)),
     (16, decide (f 16 4 / 8 % 8 = 0) && decide (f 16 4 % 8 ≤ 4) && codeOffset (f 16 4) cl),
     (20, f 20 4 == 0 || (decide (f 20 4 % 64 = 0) && codeOffset (f 20 4) cl)),
     (24, decide (cl % 64 = 0) && decide (64 ≤ cl) && decide (cl ≤ 2 ^ 26)),
     (28, decide (f 28 1 ≤ 7) || f 28 1 == 255), (29, f 29 3 == 0), (32, nameOk ((h.drop 32).take 32)),
     (64, allZero ((h.drop 64).take 188))]
  (rows.filter (fun r => !r.2)).map (·.1)

/-- Check a header's 256 bytes and derive the launch's values (R390, R391). -/
def checkHeader (va : W64) (h : List Byte) : Except HeaderError Kernel :=
  let f := field h
  if f 0 4 ≠ 0x4E524B59 then .error (.field 0)
  else if f 252 4 ≠ crc32c (h.take 252) then .error (.field 252)
  else if f 4 2 < 1 ∨ 3 < f 4 2 then .error (.version (f 4 2))
  else
    match headerBad h with
    | o :: _ => .error (.field o)
    | [] => .ok { va := va, version := f 4 2, regs := f 6 2, gang := f 8 2, crew := f 10 1, fused := f 11 1 == 1, spad := f 12 4,
                  entry := va + BitVec.ofNat 64 (f 16 4),
                  handler := if f 20 4 = 0 then 0 else va + BitVec.ofNat 64 (f 20 4), qslot := f 28 1 }

/-- Granules of a scratchpad block: the smallest power of two that holds the need (R29). -/
def blockGranules (need : Nat) : Nat :=
  if need = 0 then 0 else (([1, 2, 4, 8, 16, 32, 64, 128, 256, 512, 1024].find? (fun b => decide (need ≤ b * 4096))).getD 2048)

/-- Clusters that are not fenced (R434), by kind and index. -/
def isFenced (s : State) (k : UnitKind) (i : Nat) : Bool := s.mgmt.fenced.contains (k, i)
def clusterUsable (s : State) (c : Nat) : Bool := decide (c < 144) && !isFenced s .cluster c

/-- A launch whose gangs can never be admitted (R29, R31, R44, R199). -/
def neverFits (s : State) (k : Kernel) : Bool :=
  let banks := if 2 ≤ k.crew then 2 else 1
  decide (131072 < k.gang * k.regs) || decide (1024 < banks * blockGranules k.spad) ||
  !(List.range 4).any (fun b =>
    let cores := (List.range 144).map (fun i => b * 144 + i)
    let usable := cores.filter (fun c => clusterUsable s (clusterOf c) && !isFenced s .core c)
    decide (k.crew ≤ usable.length) &&
    decide (k.crew ≤ ((noteLines (usable.map clusterOf) []).map (fun cl =>
      min (usable.filter (fun c => clusterOf c == cl)).length (if k.spad = 0 then 4 else 1024 / (banks * blockGranules k.spad)))).foldl (· + ·) 0))

end Sys2Proof.Machine
end

