-- ==== Sys2Proof/Machine/Quarry.lean ====
section
/-! DEFINITION. Sys2Proof/Machine/Quarry.lean: keys and the curve, the descriptor and the live-block table, and the steps the quarry
unit performs in the quarry order (R123 to R145). -/
namespace Sys2Proof.Machine

/-! ### Keys and the curve (R127 to R129) -/

def nullKey : W64 := 0xFFFFFFFFFFFFFFFF
def keyLevel (k : W64) : Nat := k.toNat / 2 ^ 58
def keyIndex (k : W64) : Nat := k.toNat % 2 ^ 58
def mkKey (l i : Nat) : W64 := BitVec.ofNat 64 (l * 2 ^ 58 + i)

/-- Positions a block of level `l` covers. -/
def stretch (dim depth l : Nat) : Nat := 2 ^ (dim * (depth - l))

/-- Well-formed (R127). -/
def keyOk (dim depth : Nat) (k : W64) : Bool :=
  decide (keyLevel k ≤ depth) && decide (keyIndex k < 2 ^ (dim * depth)) && decide (keyIndex k % stretch dim depth (keyLevel k) = 0)

def cget (c : List Nat) (i : Nat) : Nat := c.getD i 0
def cset (c : List Nat) (i v : Nat) : List Nat := c.set i v

/-- One exchange-or-invert step of the curve with mask bit `q` on axis `i`. -/
def hilbertStep (q : Nat) (c : List Nat) (i : Nat) : List Nat :=
  let p := q - 1
  if cget c i &&& q ≠ 0 then cset c 0 (cget c 0 ^^^ p)
  else
    let t := (cget c 0 ^^^ cget c i) &&& p
    let c1 := cset c 0 (cget c 0 ^^^ t)
    cset c1 i (cget c1 i ^^^ t)

/-- The masks 2^(b−1) down to 2. -/
def downMasks (b : Nat) : List Nat := ((List.range b).reverse.filter (· != 0)).map (2 ^ ·)

/-- The curve position of coordinates of `b` bits (R128). -/
def hilbert (c : List Nat) (b : Nat) : Nat :=
  let n := c.length
  let c1 := (downMasks b).foldl (fun c q => (List.range n).foldl (hilbertStep q) c) c
  let c2 := ((List.range n).drop 1).foldl (fun c i => cset c i (cget c i ^^^ cget c (i - 1))) c1
  let t := (downMasks b).foldl (fun t q => if cget c2 (n - 1) &&& q ≠ 0 then t ^^^ (q - 1) else t) 0
  (List.range b).reverse.foldl (fun d k => (List.range n).foldl (fun d i => 2 * d + ((cget c2 i ^^^ t) / 2 ^ k % 2)) d) 0

/-- The coordinates of a curve position: the inverse of `hilbert`. -/
def unhilbert (n b d : Nat) : List Nat :=
  let x := (List.range n).map (fun i => (List.range b).foldl (fun v k => v + (d / 2 ^ (k * n + (n - 1 - i)) % 2) * 2 ^ k) 0)
  let t := cget x (n - 1) / 2
  let x1 := ((List.range n).drop 1).reverse.foldl (fun c i => cset c i (cget c i ^^^ cget c (i - 1))) x
  let x2 := cset x1 0 (cget x1 0 ^^^ t)
  (downMasks b).reverse.foldl (fun c q => (List.range n).reverse.foldl (hilbertStep q) c) x2

/-- Coordinates of a block, and the key of the block with coordinates. -/
def coordsOf (dim depth : Nat) (k : W64) : List Nat := unhilbert dim (keyLevel k) (keyIndex k / stretch dim depth (keyLevel k))
def keyAt (dim depth l : Nat) (c : List Nat) : W64 := mkKey l (hilbert c l * stretch dim depth l)

def parentKey (dim depth : Nat) (k : W64) : W64 :=
  let l := keyLevel k - 1
  mkKey l (keyIndex k / stretch dim depth l * stretch dim depth l)
def ancestorKey (dim depth : Nat) (k : W64) (l : Nat) : W64 := mkKey l (keyIndex k / stretch dim depth l * stretch dim depth l)
def childKey (dim depth : Nat) (k : W64) (i : Nat) : W64 := mkKey (keyLevel k + 1) (keyIndex k + i * stretch dim depth (keyLevel k + 1))

/-- The same-level face neighbour in direction `d` (R134). -/
def neighbour (dim depth : Nat) (k : W64) (d : Nat) : Option W64 :=
  let l := keyLevel k
  let c := coordsOf dim depth k
  let a := d / 2
  let x := cget c a
  if d % 2 = 0 then (if x = 0 then none else some (keyAt dim depth l (cset c a (x - 1))))
  else if x + 1 < 2 ^ l then some (keyAt dim depth l (cset c a (x + 1)))
  else none

/-- Status codes of R145. -/
def qOK : Nat := 0
def qBALANCE : Nat := 1
def qNOTLIVE : Nat := 2
def qDEPTH : Nat := 3
def qPOOL : Nat := 4
def qTABLE : Nat := 5
def qMIGRATING : Nat := 6
def qSTALE : Nat := 7
def qKERF : Nat := 8
def qFINER : Nat := 9
def qOUTSIDE : Nat := 10
def qBADKEY : Nat := 11
def qNOFACE : Nat := 12

/-- QKEY (R134): form, n and key give the key and the status. -/
def qkey (dim depth form n : Nat) (k : W64) : W64 × Nat :=
  if !keyOk dim depth k then (nullKey, qBADKEY)
  else
    match form with
    | 0 => if keyLevel k = 0 then (nullKey, qDEPTH) else (parentKey dim depth k, qOK)
    | 1 =>
      if 2 ^ dim ≤ n then (nullKey, qBADKEY)
      else if keyLevel k = depth then (nullKey, qDEPTH)
      else (childKey dim depth k n, qOK)
    | _ =>
      if dim ≤ n / 2 then (nullKey, qBADKEY)
      else match neighbour dim depth k n with
        | none => (nullKey, qOUTSIDE)
        | some x => (x, qOK)

/-! ### The descriptor (R123) -/

structure QDesc where
  dim : Nat
  depth : Nat
  paylog : Nat
  tlog : Nat
  faces : Nat
  hyst : Nat
  gen : Word
  pool : Nat
  freelist : Nat
  nfree : Nat
  nslots : Nat
  table : Nat
  kerfs : Nat
  syncoff : Nat
  doneGen : Word
  nlive : Nat
  occ : Nat
  facemap : List Nat
  deriving DecidableEq, Repr

/-- The greatest depth of a dimension. -/
def lmax (dim : Nat) : Nat := if dim = 1 then 58 else if dim = 2 then 29 else 19

/-- Fields of a descriptor that break their required value, by offset. -/
def descBad (b : List Byte) : List Nat :=
  let f := field b
  let dim := f 0 1
  let faces := f 4 2
  let fm := (List.range 144).map (fun j => f (112 + j) 1)
  let rows : List (Nat × Bool) :=
    [(0, decide (1 ≤ dim) && decide (dim ≤ 3)), (1, decide (1 ≤ f 1 1) && decide (f 1 1 ≤ lmax dim)),
     (2, decide (8 ≤ f 2 1) && decide (f 2 1 ≤ 24)), (3, decide (4 ≤ f 3 1) && decide (f 3 1 ≤ 24)),
     (4, decide (1 ≤ faces) && decide (faces ≤ 144)), (6, f 6 1 == 0), (7, f 7 1 == 0), (8, decide (f 8 4 ≤ 65535)),
     (16, decide (f 16 8 % 2 ^ f 2 1 = 0)), (24, decide (f 24 8 % 4 = 0)), (32, decide (f 32 4 ≤ f 36 4)),
     (36, decide (1 ≤ f 36 4)), (40, decide (f 40 8 % 64 = 0)), (48, decide (f 48 8 % 8 = 0)), (56, decide (f 56 4 % 16 = 0)),
     (72, allZero ((b.drop 72).take 40)),
     (112, (fm.take faces).all (fun c => decide (c < 144)) && allDistinct (fm.take faces))]
  (rows.filter (fun r => !r.2)).map (·.1)

def parseDesc (b : List Byte) : QDesc :=
  let f := field b
  { dim := f 0 1, depth := f 1 1, paylog := f 2 1, tlog := f 3 1, faces := f 4 2, hyst := f 8 4, gen := BitVec.ofNat 32 (f 12 4),
    pool := f 16 8, freelist := f 24 8, nfree := f 32 4, nslots := f 36 4, table := f 40 8, kerfs := f 48 8, syncoff := f 56 4,
    doneGen := BitVec.ofNat 32 (f 60 4), nlive := f 64 4, occ := f 68 4, facemap := (List.range 144).map (fun j => f (112 + j) 1) }

/-- Read and check the descriptor. -/
def readDesc (u : UnitEnv) (va : W64) : QM QDesc := do
  let b ← unitSectors u true va 2
  match descBad b with
  | o :: _ => throw (.corrupt (va + BitVec.ofNat 64 o) (← get))
  | [] => pure (parseDesc b)

/-! ### The table (R130, R131) -/

structure QEntry where
  key : W64
  pay : W64
  oldPay : W64
  cost : Nat
  gen : Word
  owner : Nat
  state : Nat
  copied : Bool
  slot : Nat
  oldSlot : Nat
  deriving DecidableEq, Repr

def QEntry.empty : QEntry :=
  { key := 0, pay := 0, oldPay := 0, cost := 0, gen := 0, owner := 0, state := 0, copied := false, slot := 0, oldSlot := 0 }

/-- The payload VA of a pool slot. -/
def slotVa (d : QDesc) (slot : Nat) : W64 := BitVec.ofNat 64 (d.pool + slot * 2 ^ d.paylog)

/-- An entry's bytes are malformed (R130). -/
def entryBad (d : QDesc) (b : List Byte) : Bool :=
  let f := field b
  let st := f 38 1
  if st = 0 then false
  else
    decide (2 < st) || !keyOk d.dim d.depth (BitVec.ofNat 64 (f 0 8)) || decide (144 ≤ f 36 2) || decide (2 ≤ f 39 1) ||
    decide (d.nslots ≤ f 40 4) || decide (d.nslots ≤ f 44 4) || !allZero ((b.drop 48).take 16) ||
    f 8 8 != (slotVa d (f 40 4)).toNat || f 16 8 != (if st = 2 then (slotVa d (f 44 4)).toNat else 0)

def parseEntry (b : List Byte) : QEntry :=
  let f := field b
  if f 38 1 = 0 then QEntry.empty
  else { key := BitVec.ofNat 64 (f 0 8), pay := BitVec.ofNat 64 (f 8 8), oldPay := BitVec.ofNat 64 (f 16 8), cost := f 24 8,
         gen := BitVec.ofNat 32 (f 32 4), owner := f 36 2, state := f 38 1, copied := f 39 1 % 2 == 1, slot := f 40 4, oldSlot := f 44 4 }

def entryBytes (e : QEntry) : List Byte :=
  bytesOfNat 8 e.key.toNat ++ bytesOfNat 8 e.pay.toNat ++ bytesOfNat 8 e.oldPay.toNat ++ bytesOfNat 8 e.cost ++ bytesOfNat 4 e.gen.toNat ++
  bytesOfNat 2 e.owner ++ bytesOfNat 1 e.state ++ bytesOfNat 1 (if e.copied then 1 else 0) ++ bytesOfNat 4 e.slot ++ bytesOfNat 4 e.oldSlot ++
  bytesOfNat 16 0

/-- What a step of the unit works with: the quarry's key, the unit, and the descriptor. -/
structure QEnv where
  q : Nat
  u : UnitEnv
  d : QDesc
  deriving DecidableEq, Repr

/-- The slab whose unit serves the quarry: the home of the descriptor's first line (R125). -/
def quarrySlab (s : State) (q : Nat) : Nat :=
  match checkWindow s (q / 8) (getQuarry s q).desc pathVec 1 with
  | .ok ia => slabOfHome (homeOf ia)
  | .error _ => 0

/-- The unit of a quarry at work on a step: one that has begun keeps its read vector. -/
def quarryUnit (s : State) (q : Nat) (op : QOp) : UnitEnv :=
  let u := unitEnv s (q / 8) (quarrySlab s q)
  match (getQuarry s q).begun with
  | some (o, _, v) => if o = op then { u with q := v } else u
  | none => u

def qenv (q : Nat) (u : UnitEnv) : QM QEnv := do
  let d ← readDesc u (getQuarry (← get) q).desc
  pure { q := q, u := u, d := d }

def entryVa (e : QEnv) (i : Nat) : W64 := BitVec.ofNat 64 (e.d.table + 64 * i)

def readEntry (e : QEnv) (i : Nat) : QM QEntry := do
  let b ← unitGet e.u true (entryVa e i) 64
  if entryBad e.d b then throw (.corrupt (entryVa e i) (← get)) else pure (parseEntry b)

def writeEntry (e : QEnv) (i : Nat) (x : QEntry) : QM Unit := unitPut e.u true (entryVa e i) (entryBytes x)

/-- Write a field of the descriptor. -/
def writeDesc (e : QEnv) (off n v : Nat) : QM Unit := do
  unitPut e.u true ((getQuarry (← get) e.q).desc + BitVec.ofNat 64 off) (bytesOfNat n v)

def tableSize (d : QDesc) : Nat := 2 ^ d.tlog
def homeEntry (d : QDesc) (k : W64) : Nat := (k * 0x9E3779B97F4A7C15).toNat / 2 ^ (64 - d.tlog)

/-- Probe from position `h` for at most `n` entries. -/
def probe (e : QEnv) (k : W64) (h : Nat) : Nat → QM (Option (Nat × QEntry))
  | 0 => pure none
  | n + 1 => do
    let x ← readEntry e h
    if x.state = 0 then pure none
    else if x.key = k then pure (some (h, x))
    else probe e k ((h + 1) % tableSize e.d) n

def lookup (e : QEnv) (k : W64) : QM (Option (Nat × QEntry)) := probe e k (homeEntry e.d k) (tableSize e.d)

/-- The first empty entry from `h`. -/
def firstEmpty (e : QEnv) (h : Nat) : Nat → QM (Option Nat)
  | 0 => pure none
  | n + 1 => do
    let x ← readEntry e h
    if x.state = 0 then pure (some h) else firstEmpty e ((h + 1) % tableSize e.d) n

def insertEntry (e : QEnv) (x : QEntry) : QM Unit := do
  match (← firstEmpty e (homeEntry e.d x.key) (tableSize e.d)) with
  | none => pure ()
  | some i => writeEntry e i x

/-- Backward shift: `hole` is empty, and the run from `i` on is looked through. -/
def shiftBack (e : QEnv) (hole i : Nat) : Nat → QM Unit
  | 0 => pure ()
  | n + 1 => do
    let x ← readEntry e i
    if x.state = 0 then pure ()
    else
      let m := tableSize e.d
      let home := homeEntry e.d x.key
      if (i + m - home) % m < (i + m - hole) % m then shiftBack e hole ((i + 1) % m) n
      else do
        writeEntry e hole x
        writeEntry e i QEntry.empty
        shiftBack e i ((i + 1) % m) n

def removeEntry (e : QEnv) (i : Nat) : QM Unit := do
  writeEntry e i QEntry.empty
  shiftBack e i ((i + 1) % tableSize e.d) (tableSize e.d)

/-- Every entry that is not empty, with its position, by rising position. -/
def allEntries (e : QEnv) : Nat → QM (List (Nat × QEntry))
  | 0 => pure []
  | n + 1 => do
    let rest ← allEntries e n
    let x ← readEntry e n
    pure (if x.state = 0 then rest else rest ++ [(n, x)])

/-- Blocks in key order (R129). -/
def keyOrder (l : List (Nat × QEntry)) : List (Nat × QEntry) := sortBy (fun x => keyIndex x.2.key * 64 + keyLevel x.2.key) l

/-! ### The free list -/

def freeVa (e : QEnv) (i : Nat) : W64 := BitVec.ofNat 64 (e.d.freelist + 4 * i)

/-- The slot at the top of a free list of `n` slots. -/
def topSlot (e : QEnv) (n : Nat) : QM Nat := do
  let b ← unitGet e.u true (freeVa e (n - 1)) 4
  if e.d.nslots ≤ natOfBytes b then throw (.corrupt (freeVa e (n - 1)) (← get)) else pure (natOfBytes b)

/-- Push slots on a free list of `n`. -/
def pushSlots (e : QEnv) (n : Nat) : List Nat → QM Unit
  | [] => pure ()
  | x :: xs => do
    unitPut e.u true (freeVa e n) (bytesOfNat 4 x)
    pushSlots e (n + 1) xs

/-! ### Owners (R136, R138) -/

/-- The face that holds a position under kerfs 1 to F − 1. -/
def faceOf (kerfs : List Nat) (pos : Nat) : Nat := (kerfs.filter (fun k => decide (k ≤ pos))).length

/-- The owner of a position, if some face's cluster is not fenced. -/
def ownerAt (s : State) (d : QDesc) (kerfs : List Nat) (pos : Nat) : Option Nat :=
  let j := faceOf kerfs pos
  let usable := (List.range d.faces).filter (fun i => !isFenced s .cluster (d.facemap.getD i 0))
  let pick := match usable.find? (fun i => decide (j ≤ i)) with
    | some i => some i
    | none => usable.reverse.head?
  pick.map (fun i => d.facemap.getD i 0)

def answerable (v : Quarry) (g : Word) : Bool := g == v.gen || (v.mig.isSome && g == v.gen - 1)

/-- The kerfs of an answerable generation. -/
def kerfsOf (v : Quarry) (g : Word) : List Nat :=
  match v.mig with
  | some m => if g = v.gen then v.kerfs else m.oldKerfs
  | none => v.kerfs

def payloadFor (v : Quarry) (x : QEntry) (g : Word) : W64 := if x.state = 2 ∧ g = v.gen - 1 then x.oldPay else x.pay

/-! ### The instructions' steps -/

/-- What a quarry instruction returns: a key or VA result by its low part and its high part, a status, and the moved mask. -/
structure QRes where
  key : W64
  va : W64
  status : Nat
  gen : Word
  mask : BitVec 160
  deriving DecidableEq, Repr

def QRes.blank : QRes := { key := nullKey, va := 0, status := 0, gen := 0, mask := 0 }

/-- The first block found among probes in order. -/
def firstFound (e : QEnv) : List W64 → QM (Option QEntry)
  | [] => pure none
  | k :: ks => do
    match (← lookup e k) with
    | some x => pure (some x.2)
    | none => firstFound e ks

/-- QFIND (R135). -/
def qFind (e : QEnv) (k : W64) (g : Word) : QM QRes := do
  let v := getQuarry (← get) e.q
  let l := keyLevel k
  if !keyOk e.d.dim e.d.depth k then pure { QRes.blank with status := qBADKEY }
  else if !answerable v g then pure { QRes.blank with status := qSTALE }
  else
    let hit := fun (x : QEntry) st => { QRes.blank with key := x.key, va := payloadFor v x g, status := st : QRes }
    match (← firstFound e (k :: if l = 0 then [] else [parentKey e.d.dim e.d.depth k])) with
    | some x => pure (hit x qOK)
    | none =>
      match (← firstFound e (if l < e.d.depth then [childKey e.d.dim e.d.depth k 0] else [])) with
      | some x => pure (hit x qFINER)
      | none =>
        match (← firstFound e ((List.range (l - 1)).reverse.map (ancestorKey e.d.dim e.d.depth k))) with
        | some x => pure (hit x qOK)
        | none => pure { QRes.blank with status := qFINER }

/-- QOWNER (R136). -/
def qOwner (s : State) (e : QEnv) (k : W64) (g : Word) : QRes :=
  let v := getQuarry s e.q
  if !keyOk e.d.dim e.d.depth k then { QRes.blank with va := 0xFFFFFFFF, status := qBADKEY }
  else if !answerable v g then { QRes.blank with va := 0xFFFFFFFF, status := qSTALE }
  else match ownerAt s e.d (kerfsOf v g) (keyIndex k) with
    | none => { QRes.blank with va := 0xFFFFFFFF, status := qNOFACE }
    | some c => { QRes.blank with va := BitVec.ofNat 64 c, status := qOK }

/-- The first block of level `l − 1` that holds a face neighbour of a block (R132). -/
def coarserNeighbour (e : QEnv) (k : W64) : List Nat → QM (Option W64)
  | [] => pure none
  | d :: ds => do
    match neighbour e.d.dim e.d.depth k d with
    | none => coarserNeighbour e k ds
    | some n =>
      if keyLevel k = 0 then coarserNeighbour e k ds
      else match (← lookup e (parentKey e.d.dim e.d.depth n)) with
        | some x => pure (some x.2.key)
        | none => coarserNeighbour e k ds

/-- The OWNER that a new entry records: the owner of its position, or, when every face's cluster is fenced, the cluster of its own face
(R132, R133, DESIGN CHOICE log 124). -/
def newOwner (s : State) (e : QEnv) (kerfs : List Nat) (pos : Nat) : Nat :=
  (ownerAt s e.d kerfs pos).getD (e.d.facemap.getD (faceOf kerfs pos) 0)

/-- Insert the children of a refined block, each with the top free slot. -/
def insertChildren (e : QEnv) (k : W64) (cost : Nat) (v : Quarry) : List Nat → Nat → QM Unit
  | [], _ => pure ()
  | i :: is, n => do
    let slot ← topSlot e n
    let ck := childKey e.d.dim e.d.depth k i
    let m := 2 ^ e.d.dim
    insertEntry e { QEntry.empty with
      key := ck, pay := slotVa e.d slot, cost := cost / m + (if i < cost % m then 1 else 0), gen := v.gen,
      owner := newOwner (← get) e v.kerfs (keyIndex ck), state := 1, slot := slot }
    insertChildren e k cost v is (n - 1)

/-- An instruction that changes nothing. -/
def qFail (st : Nat) : QM QRes := pure { QRes.blank with status := st }

/-- Slots that a block leaves until the next completion (R140 step 3). -/
def releaseSlots (q : Nat) (slots : List Nat) : QM Unit := do
  let s ← get
  let v := getQuarry s q
  set (setQuarry s q { v with released := v.released ++ slots })

/-- QREFINE (R132). -/
def qRefine (e : QEnv) (k : W64) : QM QRes := do
  let v := getQuarry (← get) e.q
  if !keyOk e.d.dim e.d.depth k then qFail qBADKEY
  else match (← lookup e k) with
    | none => qFail qNOTLIVE
    | some (_, x) =>
      if keyLevel k = e.d.depth then qFail qDEPTH
      else if x.state = 2 then qFail qMIGRATING
      else match (← coarserNeighbour e k (List.range (2 * e.d.dim))) with
        | some b => pure { QRes.blank with key := b, status := qBALANCE }
        | none =>
          let m := 2 ^ e.d.dim
          if e.d.nfree < m then qFail qPOOL
          else if 7 * tableSize e.d < 8 * (e.d.occ + m) then qFail qTABLE
          else
            insertChildren e k x.cost v (List.range m) e.d.nfree
            match (← lookup e k) with
            | none => qFail qNOTLIVE
            | some (i, _) =>
              removeEntry e i
              writeDesc e 32 4 (e.d.nfree - m)
              writeDesc e 64 4 (e.d.nlive + m - 1)
              writeDesc e 68 4 (e.d.occ + m - 1)
              releaseSlots e.q [x.slot]
              pure { QRes.blank with key := childKey e.d.dim e.d.depth k 0 }

/-- The entries of all children, or none when one is not a leaf. -/
def childEntries (e : QEnv) (k : W64) : List Nat → QM (Option (List QEntry))
  | [] => pure (some [])
  | i :: is => do
    match (← lookup e (childKey e.d.dim e.d.depth k i)) with
    | none => pure none
    | some x => do
      let r ← childEntries e k is
      pure (r.map (x.2 :: ·))

/-- Keys of the level l + 2 blocks that would touch a block's face in direction `d`, in key order. -/
def finerAcross (dim depth : Nat) (k : W64) (d : Nat) : List W64 :=
  match neighbour dim depth k d with
  | none => []
  | some n =>
    let c := coordsOf dim depth n
    let a := d / 2
    let cells := (List.range (4 ^ dim)).map (fun i => (List.range dim).map (fun j => 4 * cget c j + i / 4 ^ j % 4))
    let near := cells.filter (fun x => cget x a % 4 == if d % 2 = 0 then 3 else 0)
    sortBy BitVec.toNat (near.map (keyAt dim depth (keyLevel k + 2)))

/-- The first level l + 2 block that touches the block across a face (R133). -/
def finerNeighbour (e : QEnv) (k : W64) : List Nat → QM (Option W64)
  | [] => pure none
  | d :: ds => do
    if e.d.depth < keyLevel k + 2 then pure none
    else match (← firstFound e (finerAcross e.d.dim e.d.depth k d)) with
      | some x => pure (some x.key)
      | none => finerNeighbour e k ds

/-- Remove entries by key. -/
def removeKeys (e : QEnv) : List W64 → QM Unit
  | [] => pure ()
  | k :: ks => do
    match (← lookup e k) with
    | none => removeKeys e ks
    | some (i, _) => do
      removeEntry e i
      removeKeys e ks

def satCost (n : Nat) : Nat := min n (2 ^ 64 - 1)

/-- QCOARSEN (R133). -/
def qCoarsen (e : QEnv) (k : W64) : QM QRes := do
  let v := getQuarry (← get) e.q
  if !keyOk e.d.dim e.d.depth k then qFail qBADKEY
  else if keyLevel k = e.d.depth then qFail qDEPTH
  else match (← childEntries e k (List.range (2 ^ e.d.dim))) with
    | none => qFail qNOTLIVE
    | some cs =>
      let inside := fun (p : Nat) => decide (keyIndex k < p) && decide (p < keyIndex k + stretch e.d.dim e.d.depth (keyLevel k))
      if cs.any (fun c => c.state == 2) then qFail qMIGRATING
      else if v.kerfs.any inside || (match v.mig with | some m => m.oldKerfs.any inside | none => false) then qFail qKERF
      else match (← finerNeighbour e k (List.range (2 * e.d.dim))) with
        | some b => pure { QRes.blank with key := b, status := qBALANCE }
        | none =>
          if e.d.nfree = 0 then qFail qPOOL
          else
            let slot ← topSlot e e.d.nfree
            let m := 2 ^ e.d.dim
            removeKeys e (cs.map (·.key))
            insertEntry e { QEntry.empty with
              key := k, pay := slotVa e.d slot, cost := satCost ((cs.map (·.cost)).foldl (· + ·) 0), gen := v.gen,
              owner := newOwner (← get) e v.kerfs (keyIndex k), state := 1, slot := slot }
            writeDesc e 32 4 (e.d.nfree - 1)
            writeDesc e 64 4 (e.d.nlive + 1 - m)
            writeDesc e 68 4 (e.d.occ + 1 - m)
            releaseSlots e.q (cs.map (·.slot))
            pure { QRes.blank with key := k }

/-- Add to a block's COST, saturating (R137). -/
def addCost (e : QEnv) (k : W64) (n : Nat) : QM Bool := do
  match (← lookup e k) with
  | none => pure false
  | some (i, x) => do
    writeEntry e i { x with cost := satCost (x.cost + n) }
    pure true

/-- QCOST (R137, R347). -/
def qCost (e : QEnv) (k amount : W64) : QM QRes := do
  if !keyOk e.d.dim e.d.depth k then qFail qBADKEY
  else qFail (if (← addCost e k amount.toNat) then qOK else qNOTLIVE)

/-! ### Rebalancing (R139, R140) -/

/-- prefix(β): cost of the blocks before a position. -/
def costBefore (b : List (Nat × Nat)) (pos : Nat) : Nat := (b.filter (fun x => decide (x.1 < pos))).foldl (fun a x => a + x.2) 0

/-- start[f[i]] for i ≥ 1. -/
def rebalStart (d : QDesc) (b : List (Nat × Nat)) (m i old : Nat) : Nat :=
  let c := (b.map (·.2)).foldl (· + ·) 0
  let off := Int.natAbs (Int.ofNat (costBefore b old * m) - Int.ofNat (i * c))
  if off * 65536 ≤ d.hyst * c then old
  else ((b.map (fun (x : Nat × Nat) => x.1) ++ [2 ^ (d.dim * d.depth)]).find? (fun p => decide (i * c ≤ costBefore b p * m))).getD (2 ^ (d.dim * d.depth))

/-- The start of every face, from face j upward: `open_` lists the faces whose cluster is not fenced with their starts. -/
def faceStarts (top : Nat) (open_ : List (Nat × Nat)) : List Nat → List Nat
  | [] => []
  | j :: js =>
    let rest := faceStarts top open_ js
    match open_.find? (fun x => x.1 == j) with
    | some x => x.2 :: rest
    | none => rest.headD top :: rest

/-- A block of an undispatched sweep task takes the PAY that its entry gets: the one recorded for the generation it will be dispatched
under (R9, R141). -/
def notePay (q : Nat) (k pay : W64) (s : State) : State :=
  { s with launches := s.launches.map (fun l =>
      if l.2.sweep && launchQuarry l.2 == q then
        (l.1, { l.2 with blocks := l.2.blocks.map (fun b => if b.key = k then { b with pay := pay } else b) }) else l) }

/-- Halve the costs, and make the blocks whose owner changes slab migrating, by key order, each with the top free slot (R140, R381). -/
def rebalBlocks (e : QEnv) (oldK newK : List Nat) (g1 : Word) (moving : Bool) : List (Nat × QEntry) → Nat → QM Nat
  | [], n => pure n
  | (i, x) :: rest, n => do
    let pos := keyIndex x.key
    let o := (ownerAt (← get) e.d oldK pos).getD 0
    let w := (ownerAt (← get) e.d newK pos).getD 0
    let y := { x with cost := x.cost / 2 }
    if moving && slabOfCluster o != slabOfCluster w then
      let slot ← topSlot e n
      writeEntry e i { y with
        oldPay := x.pay, oldSlot := x.slot, pay := slotVa e.d slot, slot := slot, gen := g1, copied := false, state := 2, owner := w }
      modify (notePay e.q x.key (slotVa e.d slot))
      rebalBlocks e oldK newK g1 moving rest (n - 1)
    else
      writeEntry e i (if moving && o != w then { y with gen := g1 } else y)
      rebalBlocks e oldK newK g1 moving rest n

/-- Write the kerf array. -/
def writeKerfs (e : QEnv) : List Nat → Nat → QM Unit
  | [], _ => pure ()
  | k :: ks, j => do
    unitPut e.u true (BitVec.ofNat 64 (e.d.kerfs + 8 * j)) (bytesOfNat 8 k)
    writeKerfs e ks (j + 1)

/-- QREBAL (R139). -/
def qRebal (e : QEnv) (gang task : Nat) : QM QRes := do
  let s ← get
  let v := getQuarry s e.q
  let fail := fun st => (pure { QRes.blank with status := st, gen := v.gen } : QM QRes)
  if v.mig.isSome then fail qMIGRATING
  else
    let es ← allEntries e (tableSize e.d)
    let bs := keyOrder es
    let b := bs.map (fun x => (keyIndex x.2.key, x.2.cost))
    let f := (List.range e.d.faces).filter (fun j => !isFenced s .cluster (e.d.facemap.getD j 0))
    let top := 2 ^ (e.d.dim * e.d.depth)
    if f.isEmpty then fail qNOFACE
    else
      let open_ := f.zipIdx.map (fun x => (x.1, if x.2 = 0 then 0 else rebalStart e.d b f.length x.2 (if x.1 = 0 then 0 else v.kerfs.getD (x.1 - 1) top)))
      let newK := (faceStarts top open_ (List.range e.d.faces)).drop 1
      let mask := newK.zipIdx.foldl (fun (a : BitVec 160) x => if x.1 = v.kerfs.getD x.2 0 then a else setBit a x.2 true) 0
      let changes := bs.filter (fun x => slabOfCluster ((ownerAt s e.d v.kerfs (keyIndex x.2.key)).getD 0) !=
        slabOfCluster ((ownerAt s e.d newK (keyIndex x.2.key)).getD 0))
      if mask ≠ 0 ∧ e.d.nfree < changes.length then fail qPOOL
      else
        let moving := decide (mask ≠ 0)
        let g1 := v.gen + 1
        let n ← rebalBlocks e v.kerfs newK g1 moving bs e.d.nfree
        if !moving then pure { QRes.blank with status := qOK, gen := v.gen }
        else
          writeDesc e 32 4 n
          writeDesc e 12 4 g1.toNat
          writeKerfs e newK 0
          modify (fun s => setQuarry s e.q { getQuarry s e.q with
            gen := g1, kerfs := newK, mig := some { issuerGang := gang, issuerTask := task, copying := [], oldKerfs := v.kerfs } })
          pure { QRes.blank with status := qOK, gen := g1, mask := mask }

/-- A quarry instruction's step: what it returns. -/
def qInstr (e : QEnv) (kind : QKind) (gang : Nat) (k arg : W64) : QM QRes := do
  let s ← get
  match kind with
  | .find => qFind e k (arg.truncate 32)
  | .owner => pure (qOwner s e k (arg.truncate 32))
  | .refine => qRefine e k
  | .coarsen => qCoarsen e k
  | .cost => qCost e k arg
  | .rebal => qRebal e gang (getGang s gang).task
  | .gen => pure { QRes.blank with gen := (getQuarry s e.q).gen, va := (getQuarry s e.q).doneGen.zeroExtend 64 }

/-- The register writes of a result (R343 to R350). -/
def qWrites (kind : QKind) (d b version : Nat) (r : QRes) : List (Nat × Word × Bool) :=
  let st := [(b, BitVec.ofNat 32 r.status, false)]
  match kind with
  | .find => pairWr d r.key false ++ pairWr (d + 2) r.va false ++ st
  | .owner => (d, r.va.truncate 32, false) :: st
  | .refine | .coarsen => pairWr d r.key false ++ st
  | .cost => st
  | .rebal => (if version < 3 then [] else [(d, r.gen, false)]) ++
      (List.range 5).map (fun i => (d + 1 + i, r.mask.extractLsb' (32 * i) 32, false)) ++ st
  | .gen => [(d, r.gen, false), (d + 1, r.va.truncate 32, false)]

/-! ### The order (R125, R126, R143) -/

/-- Write the result of a quarry instruction's lane, or close its window without one (R126). -/
def fillResult (gang fid window : Nat) (regs : List (Nat × Word × Bool)) (s : State) : State :=
  match kget? s.gangs gang with
  | none => s
  | some g => setGang s gang (mapFibres g (fun i f => if i = fid then fillWindow f window regs 0 else f))
def dropResult (gang fid window : Nat) (s : State) : State :=
  match kget? s.gangs gang with
  | none => s
  | some g => setGang s gang (mapFibres g (fun i f => if i = fid then
      finishWindow { f with windows := f.windows.map (fun w => if w.id = window then { w with regs := [] } else w) } window else f))

/-- The blocks a sweep starts with (R49, R144). -/
def sweepBlocks (e : QEnv) : QM (List SweepBlock) := do
  let es ← allEntries e (tableSize e.d)
  pure ((keyOrder es).zipIdx.map (fun (x : (Nat × QEntry) × Nat) => { index := x.2, key := x.1.2.key, pay := x.1.2.pay }))

/-- The vector of a gang's slab as the unit hears it: the slab's own writes so far, and what it has seen. -/
def gangHeard (s : State) (gang : Nat) : List Nat :=
  match kget? s.gangs gang with
  | some g => readVector s (slabOf g.core)
  | none => List.replicate 5 0

/-- The release half of an instruction's step: what its gang's slab knows, the unit's slab knows when the step begins (R106, R111,
R125). -/
def heard (q : Nat) (op : QOp) (s : State) : State :=
  if (getQuarry s q).begun.map (·.1) = some op then s
  else match op with
    | .instr _ gang _ _ _ _ _ _ _ => agentMerge (quarrySlab s q) (gangHeard s gang) s
    | .sweep gang _ _ => agentMerge (quarrySlab s q) (gangHeard s gang) s
    | _ => s

/-- The unit's own writes of a step, by their identifiers, have been applied (R125). -/
def stepStable (s : State) (q start upto : Nat) : Bool :=
  let slab := quarrySlab s q
  !((getSlab s slab).inq ++ s.held).any (fun m => m.agent == slab && decide (start ≤ m.id) && decide (m.id < upto))

/-- The acquire half of an instruction's step in a gang, with the stamp of the unit's writes (R106, R125). -/
def quarryAcquire (q gang : Nat) (s : State) : State :=
  match kget? s.gangs gang with
  | none => s
  | some g => acquireEffect g.core 1 (mergeStamp (slabOf g.core) (vOf s (quarrySlab s q)) s)

/-- One arrival at a sync word in a gang's bank. -/
def arriveGang (off : Nat) (g : Gang) : Gang :=
  let w := syncArrive (BitVec.ofNat 128 (readLE g.scratch off 16)) 1
  { g with scratch := writeBytes g.scratch off (bytesOfNat 16 w.toNat), versions := kset g.versions (off / 256) (kget g.versions (off / 256) 0 + 1) }

/-- The arrival of R140 step 4 at the issuer of the QREBAL, on its core or saved off it; dropped when the gang has ended, or the sync word
is not within its need. -/
def migArrive (ctx gid off : Nat) (s : State) : State :=
  match kget? s.gangs gid with
  | some g => if inNeed g off 16 then syncWrite gid off (syncArrive (syncRead s gid off) 1) s else s
  | none =>
    let x := getCtx s ctx
    if x.saved.any (fun v => v.id == gid) then setCtx s ctx { x with
      saved := x.saved.map (fun v => if v.id = gid ∧ inNeed v.gang off 16 then { v with gang := arriveGang off v.gang } else v) }
    else s

/-- Another step goes before all that wait. -/
def pushFront (q : Nat) (op : QOp) (s : State) : State := let v := getQuarry s q; setQuarry s q { v with ops := op :: v.ops }

/-- Perform one step of the quarry order. An instruction's reply is a step of its own, behind the writes of the first (R125). A QSWEEP's place is taken by its own wave (R351): here only its reads are tried. -/
def qBody (q : Nat) (op : QOp) (u : UnitEnv) : QM Unit := do
  let s ← get
  match op with
  | .instr kind gang fid window d b key arg version =>
    let e ← qenv q u
    let r ← qInstr e kind gang key arg
    modify (fun t => pushFront q (.reply gang fid window (qWrites kind d b version r) s.ids t.ids) t)
  | .reply gang fid window regs start upto =>
    if !stepStable s q start upto then throw .wait
    else modify (fun t => quarryAcquire q gang (fillResult gang fid window regs t))
  | .arrive gang off start upto =>
    if !stepStable s q start upto then throw .wait
    else modify (migArrive (q / 8) gang off)
  | .charge key n =>
    let e ← qenv q u
    let _ ← addCost e key n
    pure ()
  | .place l =>
    match kget? (← get).launches l with
    | none => pure ()
    | some _ => do
      let e ← qenv q u
      let bs ← sweepBlocks e
      modify (fun s => { s with launches := kmod s.launches l Launch.init (fun v => { v with blocks := bs, left := bs.length, placed := true }) })
  | .done va => unitMake u .sum true va (bytesOfNat 8 1)
  | .sweep gang _ headers =>
    if (kget? (← get).gangs gang).isNone then pure ()
    else do
      for h in headers do
        let _ ← unitSectors u true h 2
      let e ← qenv q u
      let _ ← sweepBlocks e
      throw .wait
  | .copy _ _ => pure ()
  | .complete => pure ()
  | .dispatch _ _ => pure ()

/-- The same, with what the step's agent knows. -/
def qStep (q : Nat) (op : QOp) : QM Unit := do
  modify (heard q op)
  let u := quarryUnit (← get) q op
  unitRun u (qBody q op u)

/-- A step begins: the vector of its first reads stands from now on. -/
def beginStep (q : Nat) (op : QOp) (s0 : State) : State :=
  if (getQuarry s0 q).begun.map (·.1) = some op then s0
  else
    let s := heard q op s0
    let slab := quarrySlab s q
    setQuarry s q { getQuarry s q with begun := some (op, tick56 s, agentQ s slab) }

/-- A step is over: its writes leave for their homes (R105). -/
def endStep (q : Nat) (s : State) : State :=
  drainSlice (quarrySlab s q) (setQuarry s q { getQuarry s q with begun := none })

/-- Perform the waiting steps in order until one cannot go on; `fuel` bounds their number: two for an instruction, with its reply. -/
def runQuarry (q : Nat) : Nat → State → State
  | 0, s => s
  | n + 1, s =>
    let v := getQuarry s q
    match v.ops with
    | [] => s
    | op :: rest =>
      if v.stall.isSome then s
      else match qStep q op (setQuarry s q { v with ops := rest }) with
        | .ok (_, s1) => runQuarry q n (endStep q s1)
        | .error .wait => beginStep q op s
        | .error _ => s

/-- Run all waiting steps of a quarry that can be performed; none is begun while a lease reset comes (R427), or by a
unit that a scrub has failed (R430, DESIGN CHOICE log 141). -/
def serveQuarry (q : Nat) (s : State) : State := if s.mgmt.resetting || unitFailed s 11 (quarrySlab s q) then s else runQuarry q (2 * (getQuarry s q).ops.length) s

/-- The units go on with what waits in their quarries' orders (R125, R137). -/
def serveQuarries (s : State) : State :=
  (s.quarries.filter (fun q => !q.2.ops.isEmpty)).foldl (fun s q => serveQuarry q.1 s) s

end Sys2Proof.Machine
end

