-- ==== Sys2Proof/Machine/QuarryInstr.lean ====
section
/-! DEFINITION. Sys2Proof/Machine/QuarryInstr.lean: the quarry instructions (R343 to R351), and the device's own steps of migration and of
the faults of a quarry (R126, R140 to R143). -/
namespace Sys2Proof.Machine

/-- The quarry of a gang's kernel, when its slot reads other than 0 and is bound (R126, R344). A slot that has been unbound since the launch
gives the slot fault as well, and one that has been bound anew gives the quarry bound now (DESIGN CHOICE log 151). -/
def boundQuarry (s : State) (g : Gang) : Option Nat :=
  let q := 8 * g.ctx + g.kernel.qslot
  if g.kernel.qslot < 8 ∧ kget (launchOf s g).qslots g.kernel.qslot 0 ≠ 0 ∧ (getQuarry s q).desc ≠ 0 then some q else none

/-- The checks every quarry instruction makes: R150, R24, poison, the quarry slot, and `more` of its own. -/
def execQuarryMore (f : F5) (uses : List RegUse) (srcs : List Src) (more : Env → List Nat → Raised)
    (go : Nat → Env → List Nat → State → Out) (s : State) : Out :=
  issue f.h false s (noScalar s) (fun e act s =>
    forbidInTxn e act s (
    orTrap e (regTraps e act uses) s (
    orTrap e (more e act ++ poisonTraps f.h e act srcs ++ (match boundQuarry s e.g with
      | some _ => []
      | none => act.map (fun fid => (fid, 13, BitVec.ofNat 64 e.g.kernel.qslot)))) s (
    match boundQuarry s e.g, act with
    | some q, _ :: _ => go q e (sortBy lane act) s
    | _, _ => .next (retirePlain e 5 s)))))

def execQuarry (f : F5) (uses : List RegUse) (srcs : List Src) (go : Nat → Env → List Nat → State → Out) (s : State) : Out :=
  execQuarryMore f uses srcs (fun _ _ => []) go s

/-- QKEY: the key and the status at once (R345). -/
def execQkey (form : Nat) (f : F5) (s : State) : Out :=
  execQuarry f [(f.d.toNat, 2), (f.b.toNat, 1), (f.a.toNat, 2)] [.pair f.a.toNat] (fun q e act s =>
    let v := getQuarry s q
    let n := f.mod.toNat / 4 % 8
    .next (retire e 5 (fun fid => if act.contains fid then
        let r := qkey v.dim v.depth form n (readPair (getFibre e.g fid) f.a.toNat).1
        { regs := pairWr f.d.toNat r.1 false ++ [(f.b.toNat, BitVec.ofNat 32 r.2, false)], preds := [], flags := 0 } else Wr.none)
      (fun _ => none) (fun _ => nextPc e.pc) s)) s

/-- QKEY.parent (R345). -/
def execQkeyParent (f : F5) (s : State) : Out := execQkey 0 f s
/-- QKEY.child (R345). -/
def execQkeyChild (f : F5) (s : State) : Out := execQkey 1 f s
/-- QKEY.nbr (R345). -/
def execQkeyNbr (f : F5) (s : State) : Out := execQkey 2 f s

/-- An instruction with a place in the quarry order: the release part of R125, whose writes leave the slab's slice, then one step for each lane by rising lane (R344). -/
def execQStep (kind : QKind) (f : F5) (uses : List RegUse) (srcs : List Src) (s : State) : Out :=
  execQuarry f uses srcs (fun q e act s =>
    let r0 := release e act 1 s
    let r := (r0.1, drainSlice (slabOf e.core) r0.2)
    if !r.1 then .next r0.2
    else
      let wid := r.2.ids
      let ver := e.g.kernel.version
      let wr : Wr := { regs := qWrites kind f.d.toNat f.b.toNat ver QRes.blank, preds := [], flags := 0 }
      let s1 := retire e 5 (fun _ => Wr.none)
        (fun fid => if act.contains fid then some (newWindow wid f.h.la.toNat wr true) else none)
        (fun _ => nextPc e.pc) { r.2 with ids := wid + 1 }
      let s2 := act.foldl (fun s fid =>
        let x := getFibre e.g fid
        let arg := match kind with | .cost => (readPair x f.c.toNat).1 | _ => (readReg x f.c.toNat).1.zeroExtend 64
        pushQOp q (.instr kind e.gid fid wid f.d.toNat f.b.toNat (readPair x f.a.toNat).1 arg ver) s) s1
      .next (serveQuarry q s2)) s

/-- QFIND (R346). -/
def execQfind (f : F5) (s : State) : Out :=
  execQStep .find f [(f.d.toNat, 4), (f.b.toNat, 1), (f.a.toNat, 2), (f.c.toNat, 1)] [.pair f.a.toNat, .reg f.c.toNat] s
/-- QOWNER (R346). -/
def execQowner (f : F5) (s : State) : Out :=
  execQStep .owner f [(f.d.toNat, 1), (f.b.toNat, 1), (f.a.toNat, 2), (f.c.toNat, 1)] [.pair f.a.toNat, .reg f.c.toNat] s
/-- QREFINE (R347). -/
def execQrefine (f : F5) (s : State) : Out :=
  execQStep .refine f [(f.d.toNat, 2), (f.b.toNat, 1), (f.a.toNat, 2)] [.pair f.a.toNat] s
/-- QCOARSEN (R347). -/
def execQcoarsen (f : F5) (s : State) : Out :=
  execQStep .coarsen f [(f.d.toNat, 2), (f.b.toNat, 1), (f.a.toNat, 2)] [.pair f.a.toNat] s
/-- QCOST (R347). -/
def execQcost (f : F5) (s : State) : Out :=
  execQStep .cost f [(f.b.toNat, 1), (f.a.toNat, 2), (f.c.toNat, 2)] [.pair f.a.toNat, .pair f.c.toNat] s
/-- QREBAL (R348): the block at D is a multiple of 8 (R343). -/
def execQrebal (f : F5) (s : State) : Out := execQStep .rebal f [(f.d.toNat, 8), (f.b.toNat, 1)] [] s
/-- QGEN (R350). -/
def execQgen (f : F5) (s : State) : Out := execQStep .gen f [(f.d.toNat, 2)] [] s

/-! ### QSWEEP (R351) -/

/-- What a QSWEEP's header check finds. -/
inductive SweepCheck where
  | ok (k : Kernel)
  | param
  | poison (va : W64)
  deriving DecidableEq, Repr

def sweepCheck (u : UnitEnv) (g : Gang) (va : W64) : QM SweepCheck := fun s =>
  if va.toNat % 256 ≠ 0 then .ok (.param, s)
  else match unitSectors u true va 2 s with
    | .error (.poison p seen) => .ok (.poison p, seen)
    | .error b => .error b
    | .ok (h, s1) =>
      .ok (match checkHeader va h with
        | .error _ => .param
        | .ok k => if k.qslot = g.kernel.qslot then .ok k else .param, s1)

/-- The causes of the lanes whose header fails. -/
def sweepTraps (checks : List (Nat × W64 × SweepCheck)) : Raised :=
  checks.filterMap (fun c => match c.2.2 with
    | .param => some (c.1, 10, c.2.1)
    | .poison p => some (c.1, 14, p)
    | .ok _ => none)

/-- A QSWEEP at its place: the headers' checks, and the live blocks when all pass. -/
def sweepRead (q : Nat) (op : QOp) (g : Gang) (hs : List (Nat × W64)) : QM (List (Nat × W64 × SweepCheck) × List SweepBlock) := do
  modify (heard q op)
  let u := quarryUnit (← get) q op
  unitRun u (do
    let checks ← hs.mapM (fun h => do
      let c ← sweepCheck u g h.2
      pure (h.1, h.2, c))
    if (sweepTraps checks).isEmpty then
      let e ← qenv q u
      let bs ← sweepBlocks e
      pure (checks, bs)
    else pure (checks, []))

/-- Place one sweep: its launch with the live blocks at this step, or the record and the completion of one that never fits. -/
def placeSweep (q ctx : Nat) (k : Kernel) (completion : W64) (blocks : List SweepBlock) (s : State) : State :=
  let fin := fun (s : State) => if completion = 0 then s else pushQOp q (.done completion) s
  if neverFits s k then
    fin (report { FaultRec.blank with kind := 6, ref := .noted, ctx := ctx, data := k.va.truncate 32, unit := 36 * quarrySlab s q } s)
  else if blocks.isEmpty then fin s
  else
    let id := s.ids
    { s with
      ids := id + 1
      launches := kset s.launches id { Launch.init with
        ctx := ctx, kernel := k, sweep := true, blocks := blocks, left := blocks.length, qslots := (getCtx s ctx).qslots,
        src := .qsweep completion } }

/-- A cause becomes pending for lanes of their own (R126). -/
def pendLanes (gid : Nat) (fids : List Nat) (cause : Nat) (va : W64) (s : State) : State :=
  match kget? s.gangs gid with
  | none => s
  | some g => setGang s gid { g with asyncs := g.asyncs ++ fids.map (fun fid =>
      { fid := fid, cause := cause, val := va, lanes := laneMask [fid], seq := none : Async }) }

/-- A QSWEEP whose place has come (R351): its sweeps start, or its lanes trap; a read that faults leaves it at its place (R143). -/
def sweepStep (q : Nat) (op : QOp) (e : Env) (act : List Nat) (hva cva : Nat → W64) (s : State) : Out :=
  let s0 := endStep q (setQuarry s q { getQuarry s q with ops := (getQuarry s q).ops.drop 1 })
  match sweepRead q op e.g (act.map (fun fid => (fid, hva fid))) s with
  | .error .wait => .next (beginStep q op s)
  | .error (.access _ _ _ _) | .error (.copy _ _ _ _) => .next s
  | .error (.corrupt va seen) =>
    .next (serveQuarry q (quarryAcquire q e.gid (pendLanes e.gid act 12 va (retirePlain e 5 (keepReads (quarrySlab s q) seen s0)))))
  | .error (.poison va seen) => takeTrap e (act.map (fun fid => (fid, 14, va))) (keepReads (quarrySlab s q) seen s0)
  | .ok ((checks, bs), s1) =>
    let s2 := endStep q (setQuarry s1 q { getQuarry s1 q with ops := (getQuarry s1 q).ops.drop 1 })
    orTrap e (sweepTraps checks) s2
      (.next (serveQuarry q (quarryAcquire q e.gid (checks.foldl (fun s c => match c.2.2 with
        | .ok k => placeSweep q e.g.ctx k (cva c.1) bs s
        | _ => s) (retirePlain e 5 s2)))))

/-- QSWEEP (R351): the release at scope p, then a place in the quarry order, which the fibres wait for (DESIGN CHOICE log 125). -/
def execQsweep (f : F5) (s : State) : Out :=
  let cva := fun (e : Env) fid => (readPair (getFibre e.g fid) f.c.toNat).1
  execQuarryMore f [(f.a.toNat, 2), (f.c.toNat, 2)] [.pair f.a.toNat, .pair f.c.toNat]
    (fun e act => (act.filter (fun fid => decide ((cva e fid).toNat % 8 ≠ 0))).map (fun fid => (fid, 4, cva e fid)))
    (fun q e act s =>
      let hva := fun fid => (readPair (getFibre e.g fid) f.a.toNat).1
      let op := QOp.sweep e.gid act ((act.map hva).filter (fun h => h.toNat % 256 == 0))
      let v := getQuarry s q
      if !v.ops.contains op then
        let r := release e act 2 s
        .next (if r.1 then serveQuarry q (pushQOp q op (dropSweeps e.gid act r.2)) else r.2)
      else if v.stall.isSome ∨ v.ops.head? ≠ some op then .next (serveQuarry q s)
      else sweepStep q op e act hva (cva e) s) s

/-! ### Migration (R140 to R142) -/

/-- A task of a quarry's context that has not retired, a failed one until its writes are released (R46), and that belongs to generation
`g`: a sweep task dispatched under it, or another one that started while it was current (R140 step 1). -/
def gTask (s : State) (q : Nat) (g : Word) (t : Task) : Bool :=
  let l := kget s.launches t.launch Launch.init
  (t.st != .retired || !t.flush.isEmpty) && t.ctx == q / 8 &&
  (if l.sweep && launchQuarry l == q then t.gen == g else kget? t.startGens q == some g)

/-- A task that the migration from generation `g` still waits for: not the one that issued its QREBAL (R349). -/
def awaited (s : State) (q : Nat) (g : Word) (x : Nat × Task) : Bool :=
  gTask s q g x.2 && (getQuarry s q).mig.map (·.issuerTask) != some x.1

/-- A sweep task of a block of the quarry. -/
def blockTask (s : State) (q : Nat) (k : W64) (t : Task) : Bool :=
  let l := kget s.launches t.launch Launch.init
  l.sweep && launchQuarry l == q && t.key == k

/-- What a step of the unit may find: it is not possible now, or it has been performed. -/
abbrev Attempt := QM Bool

/-- A block's payload as the L1s and write-combining buffers of all cores hold it goes to its home before the copy reads it (R382). -/
def flushPayload (ctx : Nat) (va : W64) (len : Nat) (s : State) : State :=
  let rs := regionRanges (getCtx s ctx) va.toNat len
  let mine := fun c sec => c == ctx && touches rs sec
  (kkeys s.wcb).foldl (fun s core => wcFlush core (fun w => mine w.ctx w.sector) s)
    ((kkeys s.l1).foldl (fun s core => maintain core mine false s) s)

/-- The copy of a migrating block starts (R140 step 2). -/
def migStart (q : Nat) (k : W64) : Attempt := do
  let s ← get
  let v := getQuarry s q
  match v.mig with
  | none => pure false
  | some m =>
    let u := quarryUnit s q (.copy k 0)
    unitRun u (do
    let e ← qenv q u
    match (← lookup e k) with
    | none => pure false
    | some (_, x) =>
      if x.state ≠ 2 ∨ x.copied ∨ m.copying.any (·.key == k) ∨ s.tasks.any (fun t => awaited s q (v.gen - 1) t && blockTask s q k t.2) then pure false
      else
        modify (fun s => flushPayload e.u.ctx x.oldPay (2 ^ e.d.paylog) (setQuarry s q { getQuarry s q with
          mig := some { m with copying := m.copying ++ [{ key := k, done := 0, stall := none }] } }))
        pure true)

/-- Nothing written to a sector of the context is on its way to its home. -/
def sectorSettled (s : State) (ctx sector : Nat) : Bool :=
  !((s.slabs.map (fun b => b.2.inq)).flatten ++ s.held).any (fun m => m.ctx == ctx && !m.phys && m.sector == sector)

/-- Copy a whole sector on the CPY path, poison with it (R120, R121), once the source's home holds what was written (R382); it travels to
its home as the unit's other writes do. -/
def copySector (u : UnitEnv) (key src dst : W64) : QM Unit := do
  let s ← get
  match unitSpot s u.ctx src pathCpy true false (fun y => .copy key src y 4), unitSpot s u.ctx dst pathCpy true true (fun y => .copy key dst y 5) with
  | .error b, _ => throw b
  | _, .error b => throw b
  | .ok (ia, a), .ok (ib, b) =>
    if !unitServed s u ia a || !sectorSettled s u.ctx (ia / 128) then throw .wait
    else set (unitSend u .plain ib b fullMask (spotSector s a) (spotPoison s a) (unitSaw u a s))

/-- Every sector that the slab has sent to a range of VAs has been applied: the release of a copy at scope p (R112, R140 step 2). -/
def rangeApplied (s : State) (u : UnitEnv) (va : W64) (len : Nat) : Bool :=
  let rs := regionRanges (getCtx s u.ctx) va.toNat len
  !((getSlab s u.slab).inq ++ s.held).any (fun m => m.agent == u.slab && m.ctx == u.ctx && !m.phys && touches rs m.sector)

/-- The next sector of a copy is sent to its home; once all have landed there COPIED is set (R120, R140 step 2). -/
def migLand (q : Nat) (k : W64) : Attempt := do
  let s ← get
  match (getQuarry s q).mig with
  | none => pure false
  | some m =>
    match m.copying.find? (fun c => c.key == k && c.stall.isNone) with
    | none => pure false
    | some c =>
      let u := quarryUnit s q (.copy k c.done)
      unitRun u (do
      let e ← qenv q u
      let rest := m.copying.filter (·.key != k)
      let keep := fun (c : List MigCopy) => (do
        modify (fun s => setQuarry s q { getQuarry s q with mig := some { m with copying := c } })
        pure true : Attempt)
      match (← lookup e k) with
      | none => keep rest
      | some (i, x) =>
        if c.done < 2 ^ e.d.paylog / 128 then
          let at_ := BitVec.ofNat 64 (128 * c.done)
          copySector e.u k (x.oldPay + at_) (x.pay + at_)
          keep (rest ++ [{ c with done := c.done + 1 }])
        else if !rangeApplied s e.u x.pay (2 ^ e.d.paylog) then throw .wait
        else
          writeEntry e i { x with copied := true }
          keep rest)

/-- Make migrating entries live; COPIED goes with OLDPAY (DESIGN CHOICE log 133). -/
def liveEntries (e : QEnv) : List (Nat × QEntry) → QM Unit
  | [] => pure ()
  | (i, x) :: xs => do
    writeEntry e i { x with state := 1, copied := false, oldPay := 0 }
    liveEntries e xs

/-- Migration completes (R140 steps 3 and 4); slots go back in the order of R381, and the arrival comes behind the writes. -/
def migComplete (q : Nat) : Attempt := do
  let s ← get
  let v := getQuarry s q
  match v.mig with
  | none => pure false
  | some m =>
    let u := quarryUnit s q .complete
    unitRun u (do
    let e ← qenv q u
    let es ← allEntries e (tableSize e.d)
    let mv := keyOrder (es.filter (fun x => x.2.state == 2))
    if mv.any (fun x => !x.2.copied) || !m.copying.isEmpty || s.tasks.any (awaited s q (v.gen - 1)) then pure false
    else
      liveEntries e mv
      let slots := mv.map (fun x => x.2.oldSlot) ++ v.released
      pushSlots e e.d.nfree slots
      writeDesc e 32 4 (e.d.nfree + slots.length)
      writeDesc e 60 4 v.gen.toNat
      modify (fun t => pushFront q (.arrive m.issuerGang e.d.syncoff s.ids t.ids)
        (setQuarry t q { getQuarry t q with mig := none, released := [], doneGen := v.gen }))
      pure true)

/-- Another step than this one is under way in the unit; one that has not gone on for 16 ticks gives way (DESIGN CHOICE log 126). -/
def unitBusy (s : State) (q : Nat) (op : QOp) : Bool :=
  match (getQuarry s q).begun with
  | none => false
  | some (o, tick, _) => o != op && decide ((tick56 s + 2 ^ 56 - tick) % 2 ^ 56 < 16)

/-- A step of a quarry that does not wait in its list: it follows what waits there, and begins when a home does not serve it yet. -/
def quarryStep {α : Type} (q : Nat) (op : QOp) (a : QM α) (fin : α → State → Option State) (s0 : State) : Out :=
  let s := serveQuarry q s0
  let v := getQuarry s q
  if s.mgmt.resetting || v.stall.isSome || !v.ops.isEmpty then .fault .notEnabled
  else match a s with
    | .ok (x, s1) => match fin x (endStep q s1) with | some s2 => .next s2 | none => .fault .notEnabled
    | .error .wait => if v.begun.map (·.1) = some op ∨ unitBusy s q op then .fault .notEnabled else .next (beginStep q op s)
    | _ => .fault .notEnabled

def performed (b : Bool) (s : State) : Option State := if b then some s else none

/-- The sector at which a block's copy stands. -/
def copyAt (s : State) (q : Nat) (k : W64) : Nat :=
  match (getQuarry s q).mig with
  | some m => match m.copying.find? (fun c => c.key == k) with | some c => c.done | none => 0
  | none => 0

/-- MIGRATION_COPY_START (R140). -/
def execMigrationCopyStart (q : Nat) (k : W64) (s : State) : Out := quarryStep q (.copy k 0) (migStart q k) performed s
/-- MIGRATION_COPY_LAND (R140). -/
def execMigrationCopyLand (q : Nat) (k : W64) (s : State) : Out := quarryStep q (.copy k (copyAt s q k)) (migLand q k) performed s
/-- MIGRATION_COMPLETE (R140). -/
def execMigrationComplete (q : Nat) (s : State) : Out := quarryStep q .complete (migComplete q) performed s

/-! ### Faults of the quarry unit (R126, R143) -/

/-- A sweep task of a block may be dispatched now: its payload VA and owner cluster (R9, R49, R141). It is held while a sweep task of the
block of the generation before has not retired, the issuer of a QREBAL among them, and while its copy has not landed. A block that has
left the table, refined or coarsened, has the PAY recorded when the sweep started, or since (R9, DESIGN CHOICE log 149); while the cluster
of every face is fenced the task has no owner, and is held (DESIGN CHOICE log 150). -/
def sweepReady (q : Nat) (op : QOp) (b : SweepBlock) : QM (Option (W64 × Nat)) := do
  let s ← get
  let v := getQuarry s q
  let u := quarryUnit s q op
  unitRun u (do
    let e ← qenv q u
    let r ← lookup e b.key
    let pay := match r with | some (_, x) => x.pay | none => b.pay
    let held := s.tasks.any (fun t => blockTask s q b.key t.2 && gTask s q (v.gen - 1) t.2) ||
      (match r with | some (_, x) => x.state == 2 && !x.copied | none => false)
    pure (if held then none else (ownerAt s e.d v.kerfs (keyIndex b.key)).map (fun c => (pay, c))))

/-- What blocks a step for good, waiting apart. -/
def errorOf {α : Type} : Except Blocked (α × State) → Option Blocked
  | .error .wait => none
  | .error b => some b
  | .ok _ => none

/-- What blocks a quarry: its oldest step, or a step of migration or of sweep dispatch. -/
def quarryBlocked (s : State) (q : Nat) : Option Blocked :=
  let v := getQuarry s q
  if v.desc = 0 ∨ v.stall.isSome then none
  else
    match v.ops with
    | op :: rest => errorOf (qStep q op (setQuarry s q { v with ops := rest }))
    | [] =>
      let keys := match v.mig with | some (m : Migration) => m.copying.map (fun (c : MigCopy) => c.key) | none => []
      let blocks := ((s.launches.filter (fun l => l.2.sweep && launchQuarry l.2 == q)).map (fun l => l.2.blocks.map (fun b => (l.1, b)))).flatten
      (keys.map (fun k => errorOf (migLand q k s)) ++ [errorOf (migComplete q s)] ++
        blocks.map (fun b => errorOf (sweepReady q (.dispatch b.1 b.2.index) b.2 s))).findSome? id

/-- Stall the quarry and report it as kind 3 (R143, R419). -/
def quarryStall (q : Nat) (va : W64) (why acc : Nat) (s : State) : State :=
  let seq := s.seq
  let s1 := report { FaultRec.blank with
    kind := 3, why := why, acc := acc, ctx := q / 8, unit := 36 * quarrySlab s q, va := va, ref := .quarry q } s
  setQuarry s1 q { getQuarry s1 q with stall := some (va, why, seq) }

/-- Stall a migration copy and report it as kind 3; the quarry's other steps go on (R142). -/
def copyStall (q : Nat) (key va : W64) (why acc : Nat) (s : State) : State :=
  let seq := s.seq
  let s1 := report { FaultRec.blank with
    kind := 3, why := why, acc := acc, ctx := q / 8, unit := 36 * quarrySlab s q, va := va, ref := .quarry q } s
  setQuarry s1 q { getQuarry s1 q with mig := (getQuarry s1 q).mig.map (fun m => { m with
    copying := m.copying.map (fun c => if c.key = key then { c with stall := some seq } else c) }) }

/-- Replay a report of a quarry: what stalled with it goes on. -/
def unstall (q : Nat) (seq : W64) (s : State) : State :=
  let v := getQuarry s q
  serveQuarry q (setQuarry s q { v with
    stall := v.stall.filter (fun x => x.2.2 != seq)
    mig := v.mig.map (fun m => { m with copying := m.copying.map (fun c => if c.stall = some seq then { c with stall := none } else c) }) })

/-- QUARRY_ACCESS_FAULT (R142, R143). -/
def execQuarryAccessFault (q : Nat) (s0 : State) : Out :=
  let s := serveQuarry q s0
  match quarryBlocked s q with
  | some (.access va why acc seen) => .next (quarryStall q va why acc (keepReads (quarrySlab s q) seen s))
  | some (.copy key va why acc) => .next (copyStall q key va why acc s)
  | _ => .fault .notEnabled

/-- QUARRY_CORRUPTION (R126): an instruction's lane takes QCORRUPT asynchronously, and the ordering that it performed stands; any other step
stalls. Poison that a step meets is treated alike, with cause POISON: the manual does not say (DESIGN CHOICE log 123). -/
def execQuarryCorruption (q : Nat) (s0 : State) : Out :=
  let s := serveQuarry q s0
  let v := getQuarry s q
  let go := fun (cause : Nat) (va : W64) (seen : State) =>
    match v.ops with
    | .instr _ gang fid w _ _ _ _ _ :: rest =>
      let s1 := dropResult gang fid w (endStep q (keepReads (quarrySlab s q) seen (setQuarry s q { v with ops := rest })))
      Host.Outcome.next (serveQuarry q (quarryAcquire q gang (pendLanes gang [fid] cause va s1)))
    | .sweep _ _ _ :: _ => .fault .notEnabled
    | _ => .next (quarryStall q va 0 0 (keepReads (quarrySlab s q) seen s))
  match quarryBlocked s q with
  | some (.corrupt va seen) => go 12 va seen
  | some (.poison va seen) => go 14 va seen
  | _ => .fault .notEnabled

end Sys2Proof.Machine
end

