-- ==== Sys2Proof/Machine/Waves.lean ====
section
/-! DEFINITION. Sys2Proof/Machine/Waves.lean: fetching an instruction, the traps and faults of fetch, asynchronous traps, and the batcher
(R33 to R36, R41, R86, R222, R224, R233 to R237). -/
namespace Sys2Proof.Machine

/-! ### Fetch (R233 to R237) -/

/-- What a wave finds at its PC. -/
inductive Fetched where
  | instr (i : Instr)
  | illegal (w : BitVec 96)
  | parity
  /-- A fault at the line's home: WHY. -/
  | page (why : Nat)
  /-- The line lies in no window that allows fetch: cause. -/
  | window (cause : Nat)
  deriving DecidableEq, Repr

/-- Decode a slot of a line for a kernel version; a non-zero bit in 15:9 of the line word makes every slot illegal (R234). -/
def decodeSlot (version : Nat) (l : BitVec 512) (slot : Nat) : Fetched :=
  let w := slotWord l slot
  if lineWord l &&& 0xFE00 ≠ 0 then .illegal w
  else match decode version w with
    | .ok i => .instr i
    | .error _ => .illegal w

/-- Fetch the instruction at a PC, from the line as its home holds it now (DESIGN CHOICE log 6). -/
def fetch (s : State) (ctx version : Nat) (pc : W64) : Fetched :=
  match checkWindow s ctx (lineOf pc) pathVec 4 with
  | .error c => .window c
  | .ok ia =>
    match lineBits s ctx ia with
    | .error y => .page y
    | .ok l => if parityOk l then decodeSlot version l (pc.toNat % 8) else .parity

/-- The PC a wave is about to issue, in handler mode or not. -/
def issuePc (e : Env) : W64 := e.pc

/-- What the issuing wave finds. -/
def fetchNext (e : Env) (s : State) : Fetched := fetch s e.g.ctx e.g.kernel.version (issuePc e)

/-- Outside handler mode a fibre traps no sooner than its next instruction could issue: lanes parked on a fault leave the wave first, and
the trap is that of the others (R219, R239). -/
def unlessStuck (e : Env) (s : State) (k : Out) : Out :=
  if e.sl.handler.isSome then k else match stuckFids false e with | [] => k | stuck => .next (splitParked e stuck s)

/-- Every fibre that issues raises a cause of its fetch; in handler mode the trap fails with 34 (R227, R234, R235). Inside a transaction
these are the fibres of the running path (DESIGN CHOICE log 153). -/
def fetchTrap (e : Env) (cause : Nat) (val : W64) (s : State) : Out :=
  if e.sl.handler.isSome then .next (trapFailure e 34 s)
  else unlessStuck e s (takeTrap e (e.fids.map (fun fid => (fid, cause, val))) s)

/-- A sequential fetch from a line outside every window that allows it raises RANGE or PERM (R235). -/
def fetchWindow (e : Env) (cause : Nat) (s : State) : Out := fetchTrap e cause (lineOf (issuePc e)) s

/-- ILLEGAL_INSTRUCTION (R237): ILLEGAL for every lane, whatever the guard, with bits 95:32 of the word; inside a transaction whose paths
have diverged, for every lane of the running path (DESIGN CHOICE log 153). -/
def execIllegalInstruction (w : BitVec 96) (s : State) : Out :=
  match envOf s with
  | none => .fault .notEnabled
  | some e => unlessStuck e s (takeTrap e (e.fids.map (fun fid => (fid, 2, w.extractLsb' 32 64))) s)

/-- FETCH_PARITY_MISMATCH (R234). -/
def execFetchParityMismatch (s : State) : Out :=
  match envOf s with
  | none => .fault .notEnabled
  | some e => fetchTrap e 1 (lineOf (issuePc e)) s

/-- FETCH_PAGE_FAULT (R235): every lane of the wave needs the line. -/
def execFetchPageFault (s : State) : Out :=
  match envOf s with
  | none => .fault .notEnabled
  | some e =>
    match fetchNext e s with
    | .page why => parkFetch e e.fids (lineOf (issuePc e)) why s
    | _ => .fault .notEnabled

/-! ### Asynchronous traps (R222, R224) -/

/-- The oldest pending cause of the wave's fibres. -/
def pendingAsync (e : Env) : Option Async :=
  if e.sl.handler.isSome then none else e.g.asyncs.find? (fun a => e.sl.fids.contains a.fid)

/-- ASYNC_TRAP: the oldest pending cause is taken before the next instruction issues; a transaction aborts first (R155). The lanes
of one reflected report enter together (R220). -/
def execAsyncTrap (s : State) : Out :=
  match envOf s with
  | none => .fault .notEnabled
  | some e =>
    match pendingAsync e with
    | none => .fault .notEnabled
    | some a =>
      unlessStuck e s (if windowsRunning e then .next s
      else
        let taken := fun (b : Async) => b == a || (a.seq.isSome && b.seq == a.seq && e.sl.fids.contains b.fid)
        let s1 := setGang s e.gid { e.g with asyncs := e.g.asyncs.filter (fun b => !taken b) }
        let lanes := (e.g.asyncs.filter taken).foldl (fun m b => m ||| b.lanes) 0 &&& laneMask e.sl.fids
        match e.sl.txn with
        | none => .next (enterHandler e a.cause true lanes a.val e.pc s1)
        | some t => .next (enterHandler e a.cause true lanes a.val t.abortPc (abortTxn e.core e.key e.gid 8 0 s1)))

/-! ### The batcher (R33, R35, R36, R41, R86) -/

/-- The batch of ready fibres that has waited longest on a core. -/
def longestWaiting (c : Core) : Option Batch := leastBy (fun b => b.since) (c.table.filter (fun b => b.wait == .ready))

/-- WAVE_FILL (R35): a free slot takes the longest-waiting batch; the slot's trap CSRs stay as they are (R371). -/
def execWaveFill (core w : Nat) (s : State) : Out :=
  let key := slotKey core w
  let sl := getSlot s key
  let c := getCore s core
  if 576 ≤ core ∨ 32 ≤ w ∨ !sl.fids.isEmpty ∨ !sl.log.isEmpty then .fault .notEnabled
  else match longestWaiting c with
    | none => .fault .notEnabled
    | some b =>
      .next (setSlot (setCore s core { c with table := c.table.erase b }) key
        { sl with gang := b.gang, fids := b.fids, since := now s, readySince := some (now s), handler := none, txn := none, atBrk := false })

/-- The PC of a wave that is not in a handler or a transaction. -/
def slotPc (s : State) (sl : Slot) : Option W64 :=
  match sl.fids, sl.handler, sl.txn with
  | f :: _, none, none => some (getFibre (getGang s sl.gang) f).pc
  | _, _, _ => none

/-- A QSWEEP of fibres of the gang has its place in a quarry order: its wave does not take in other fibres before it has issued. -/
def sweepWaits (s : State) (gid : Nat) (fids : List Nat) : Bool :=
  s.quarries.any (fun q => q.2.ops.any (fun o => match o with
    | .sweep g fs _ => g == gid && fs.any fids.contains
    | _ => false))

/-- WAVE_MERGE (R36). -/
def execWaveMerge (core a b : Nat) (s : State) : Out :=
  let ka := slotKey core a
  let kb := slotKey core b
  let sa := getSlot s ka
  let sb := getSlot s kb
  if a = b ∨ 32 ≤ a ∨ 32 ≤ b ∨ sa.gang ≠ sb.gang ∨ slotPc s sa = none ∨ slotPc s sa ≠ slotPc s sb ∨ sa.atBrk ∨ sb.atBrk ∨
      laneMask sa.fids &&& laneMask sb.fids ≠ 0 ∨ sweepWaits s sa.gang (sa.fids ++ sb.fids) then .fault .notEnabled
  else .next (setSlot (setSlot s ka { sa with fids := sa.fids ++ sb.fids }) kb { sb with fids := [] })

/-- The wave of a slot is to give it up at this instruction boundary (R41); a halted core stands at none. -/
def slotExpired (s : State) (core w : Nat) : Bool :=
  let sl := getSlot s (slotKey core w)
  !sl.fids.isEmpty && decide (sl.since + 2048 ≤ now s) && (longestWaiting (getCore s core)).isSome && sl.log.isEmpty &&
    sl.txn.isNone && sl.handler.isNone && !(getCore s core).halted

/-- WAVE_SLOT_TIMEOUT (R41). -/
def execWaveSlotTimeout (core w : Nat) (s : State) : Out :=
  if !slotExpired s core w then .fault .notEnabled
  else
    let sl := getSlot s (slotKey core w)
    .next (toTable core sl.gang sl.fids .ready (leaveSlot (slotKey core w) sl.fids s))

/-- REGISTER_COMPACTION (R33): a quiet fibre's window moves to a free aligned block; no value changes. -/
def execRegisterCompaction (gid fid base : Nat) (s : State) : Out :=
  match kget? s.gangs gid with
  | none => .fault .notEnabled
  | some g =>
    match kget? g.fibres fid with
    | none => .fault .notEnabled
    | some f =>
      let c := getCore s g.core
      if f.windows.any (fun w => !w.done) ∨ base % f.win ≠ 0 ∨ 131072 < base + f.win ∨ !blockFree (heldBlocks s g.core) base f.win then .fault .notEnabled
      else
        let s1 := setGang s gid (mapFibres g (fun i x => if i = fid then { x with block := base } else x))
        .next (refreshAlloc g.core (setCore s1 g.core { c with
          blocks := c.blocks.map (fun b => if b.gang = gid ∧ b.fid = fid then { b with base := base } else b) }))

/-- FUSED_MODE_CHANGE (R86): on an empty cluster every L1 writes back and invalidates all its lines. -/
def execFusedModeChange (cluster : Nat) (s : State) : Out :=
  let cores := (List.range 4).map (fun i => 4 * cluster + i)
  if 144 ≤ cluster ∨ cores.any (fun c => !(getCore s c).gangs.isEmpty) then .fault .notEnabled
  else
    let s1 := cores.foldl (fun s c => cleanAll c true s) s
    let cl := getCluster s1 cluster
    .next (setCluster s1 cluster { cl with fused := !cl.fused })

end Sys2Proof.Machine
end

