-- ==== Sys2Proof/Machine/Launch.lean ====
section
/-! DEFINITION. Sys2Proof/Machine/Launch.lean: dispatch and admission of tasks, gangs and crews, and the end of gangs and tasks (R26 to
R31, R42 to R49, R76, R141, R392). -/
namespace Sys2Proof.Machine

/-! ### Admission (R29, R31, R44, R86, R199) -/

/-- A CTXDESTROY or DRAIN of the context is outstanding (R414). -/
def ctxOutstanding (s : State) (ctx : Nat) : Bool := s.cmds.any (fun c => c.ctx == ctx && c.begun && !c.done && (c.op == 2 || c.op == 7))

/-- The context admits gangs. -/
def ctxAdmits (s : State) (ctx : Nat) : Bool := (getCtx s ctx).st == .live && !ctxOutstanding s ctx && !s.mgmt.resetting

/-- Allocate the windows of fibres 0 to n − 1, the lowest free block first (DESIGN CHOICE log 11), beside what was freed just now. -/
def allocWindows (gid size : Nat) (freed : List RegBlock) : Nat → Core → Option Core
  | 0, c => some c
  | n + 1, c =>
    match allocWindows gid size freed n c with
    | none => none
    | some c1 =>
      match findBlock (c1.blocks ++ freed) size with
      | none => none
      | some b => some { c1 with blocks := c1.blocks ++ [{ base := b, size := size, gang := gid, fid := n }] }

/-- The lowest free aligned run of `n` granules of a cluster, beside one more run that is taken. -/
def findGranules (s : State) (cluster n : Nat) (taken : Nat × Nat) : Option Nat :=
  if n = 0 then some 1024
  else ((List.range (1024 / n)).map (· * n)).find? (fun lo =>
    granulesFree s cluster lo n && (decide (taken.1 + taken.2 ≤ lo) || decide (lo + n ≤ taken.1)))

/-- Where a gang's scratchpad block and shadow bank go. -/
def findBanks (s : State) (k : Kernel) (cluster : Nat) : Option (Nat × Nat) :=
  let n := blockGranules k.spad
  match findGranules s cluster n (1024, 0) with
  | none => none
  | some a =>
    if k.crew < 2 ∨ n = 0 then some (a, 1024)
    else (findGranules s cluster n (a, n)).map (fun b => (a, b))

/-- A gang of the kernel can be admitted to the core now: its windows and its banks. -/
def canAdmit (s : State) (k : Kernel) (gid core : Nat) : Option (Core × Nat × Nat) :=
  let c := getCore s core
  if 576 ≤ core ∨ isFenced s .core core ∨ !clusterUsable s (clusterOf core) ∨ 8 ≤ c.gangs.length ∨ 2048 < coreFibres s core + k.gang ∨
      (getCluster s (clusterOf core)).fused ≠ k.fused then none
  else
    match allocWindows gid k.regs (freedNow s core) k.gang c, findBanks s k (clusterOf core) with
    | some c1, some b => some (c1, b.1, b.2)
    | _, _ => none

/-- The fibre a launch creates (R392). -/
def initialFibre (k : Kernel) (arg : W64) (block : Nat) : Fibre :=
  { Fibre.init with win := k.regs, pc := k.entry, regs := [(0, arg.truncate 32), (1, (arg >>> 32).truncate 32)], block := block }

/-- Ways withdrawn from the cluster's L1s are written back and dropped: the highest-numbered ones (R87, DESIGN CHOICE log 127). -/
def trimWays (cluster : Nat) (s : State) : State :=
  (List.range 4).foldl (fun s i =>
    let core := 4 * cluster + i
    let n := l1Ways s core
    ((kget s.l1 core []).filter (fun l => decide (n ≤ l.way))).foldl (fun s l =>
      cleanSector core l.ctx (l.line * 256 + 128) true (cleanSector core l.ctx (l.line * 256) true (evictBuffered core l.ctx l.line s))) s) s

/-- Admit one gang (R29, R76, R392): its scratchpad reads zero, its initial fibres start as waves of 32 in the fibre table, and a start
acquire at package scope is performed (R46). -/
def admitGang (tid crew gidx core : Nat) (s : State) : Option State :=
  let t := getTask s tid
  let l := kget s.launches t.launch Launch.init
  let k := l.kernel
  let gid := s.ids
  match canAdmit s k gid core with
  | none => none
  | some (c, bank, shadow) =>
    let fids := List.range k.gang
    let blockOf := fun fid => match c.blocks.find? (fun b => b.gang == gid && b.fid == fid) with | some b => b.base | none => 0
    let g : Gang := { Gang.init with
      ctx := t.ctx, launch := t.launch, task := tid, crew := crew, gid := gidx, core := core, kernel := k, handlerBase := k.handler,
      fibres := fids.map (fun i => (i, initialFibre k t.pay (blockOf i))), granule := bank, shadowGranule := shadow,
      granules := blockGranules k.spad, frees0 := c.frees, admitted := now s }
    let s1 := trimWays (clusterOf core) (setGang (setCore { s with ids := gid + 1 } core { c with gangs := c.gangs ++ [gid] }) gid g)
    let s2 := setGang s1 gid { g with allocWord := allocatorWord s1 g }
    let s3 := refreshAlloc core s2
    let waves := (List.range ((k.gang + 31) / 32)).map (fun j => fids.filter (fun i => i / 32 == j))
    some (acquireEffect core 2 (waves.foldl (fun s w => toTable core gid w .ready s) s3))

/-- Admit the gangs of a crew, in order of `%gid`. -/
def admitAll (tid crew : Nat) : List (Nat × Nat) → List Nat → State → Option (List Nat × State)
  | [], gs, s => some (gs, s)
  | (gidx, core) :: rest, gs, s =>
    let gid := s.ids
    match admitGang tid crew gidx core s with
    | none => none
    | some s1 => admitAll tid crew rest (gs ++ [gid]) s1

/-- GEN of every quarry of a context (R140 step 1). -/
def gensOf (s : State) (ctx : Nat) : KMap Word :=
  (s.quarries.filter (fun q => q.1 / 8 == ctx && q.2.desc != 0)).map (fun q => (q.1, q.2.gen))

/-- Gangs of a kernel that a cluster could hold at most. -/
def clusterHolds (s : State) (k : Kernel) (cluster : Nat) : Nat :=
  min ((List.range 4).filter (fun i => !isFenced s .core (4 * cluster + i))).length
    (if k.spad = 0 then 4 else 1024 / ((if 2 ≤ k.crew then 2 else 1) * blockGranules k.spad))

/-- A sweep task's crew goes to the cluster that owns its block: as many of its first gangs as the cluster can hold (R44, R49, DEDUCED log
71). -/
def onOwner (s : State) (k : Kernel) (cluster : Option Nat) (cores : List Nat) : Bool :=
  match cluster with
  | none => true
  | some c => (cores.take (max 1 (clusterHolds s k c))).all (fun x => clusterOf x == c)

/-- Admit a task's crew to some cores, all or nothing. -/
def admitTask (tid : Nat) (cores : List Nat) (s : State) : Out :=
  match kget? s.tasks tid with
  | none => .fault .notEnabled
  | some t =>
    let l := kget s.launches t.launch Launch.init
    if t.st ≠ .admitting ∨ !ctxAdmits s t.ctx ∨ cores.length ≠ l.kernel.crew ∨ !allDistinct cores ∨ !onOwner s l.kernel t.cluster cores ∨
        cores.any (fun c => slabOf c != slabOf (cores.headD 0)) then .fault .notEnabled
    else
      let crew := s.ids
      match admitAll tid crew (cores.zipIdx.map (fun x => (x.2, x.1))) [] { s with ids := crew + 1 } with
      | none => .fault .notEnabled
      | some (gs, s1) =>
        let s2 := setCrew s1 crew { Crew.init with size := gs.length, gangs := gs, live := gs }
        .next (setTask s2 tid { t with st := .running, crew := crew, gangsLeft := gs.length, startGens := gensOf s t.ctx, started := now s })

/-! ### Saved gangs return (R220, R415, R420) -/

/-- Allocate the windows of listed fibres. -/
def allocFibres (gid : Nat) (freed : List RegBlock) : KMap Fibre → Core → Option Core
  | [], c => some c
  | (fid, f) :: fs, c =>
    match findBlock (c.blocks ++ freed) f.win with
    | none => none
    | some b => allocFibres gid freed fs { c with blocks := c.blocks ++ [{ base := b, size := f.win, gang := gid, fid := fid }] }

/-- The tiles and the queue that the gang holds are free in the cluster. -/
def tilesFree (s : State) (cluster : Nat) (v : SavedGang) : Bool :=
  let cl := getCluster s cluster
  v.tiles.all (fun t => let x := kget cl.tiles t.1 Tile.init
    x.holder.isNone && !x.releasing) &&
  (match v.gang.mxQueue with | some q => (kget? cl.queueOwner q).isNone | none => true)

/-- Fibres as the batches that may become waves: one PC and distinct home lanes each (R35). -/
def batchesOf (g : Gang) (fids : List Nat) : List (List Nat) :=
  ((groupByPc (fun f => (getFibre g f).pc) (sortBy lane fids)).map laneBatches).flatten

/-- What a lane waits for once a report, or its handler, no longer parks it: another report that it has outstanding (R220). -/
def parkLeft (s : State) (gid fid : Nat) (seq : W64) : Park :=
  match s.reqs.find? (fun r => r.gang == gid && r.fid == fid && r.seq != 0 && r.seq != seq) with
  | some r => .fault r.seq (r.fva.getD r.va) false
  | none => .no

/-- Lanes parked on a report go back to work; one that another report holds waits for that. -/
def unpark (core gid : Nat) (seq : W64) (s : State) : State :=
  match kget? s.gangs gid with
  | none => s
  | some g =>
    let step := fun (fid : Nat) (f : Fibre) => match f.park with
      | .fault q _ _ => if q = seq then { f with park := parkLeft s gid fid seq } else f
      | _ => f
    let g1 := mapFibres g step
    let c := getCore s core
    let freed := fun (fid : Nat) => (getFibre g fid).park != .no && (getFibre g1 fid).park == .no
    let waiting := ((c.table.filter (fun b => b.gang == gid && b.wait == .parked)).map (·.fids)).flatten
    let go := waiting.filter freed
    let table := (c.table.map (fun b => if b.gang = gid ∧ b.wait = .parked then { b with fids := without b.fids go } else b)).filter
      (fun b => !b.fids.isEmpty)
    (batchesOf g1 go).foldl (fun s b => toTable core gid b .ready s) (setCore (setGang s gid g1) core { c with table := table })

/-- Replay: the faulted accesses are made again (R218), those of each report as it is answered: answers that come out of log order replay
out of it (R219, DESIGN CHOICE log 146). -/
def replayLanes (core gid : Nat) (seq : W64) (s : State) : State :=
  unpark core gid seq ((s.reqs.filter (fun r => r.seq == seq)).foldl (fun s r => reissue r s) s)

/-- Reflect: the accesses are discarded, registers keep their values, and the lanes, in whatever waves they stand, enter the handler with
cause PAGE (R220). -/
def reflectLanes (core gid : Nat) (fids : List Nat) (seq va : W64) (s : State) : State :=
  let rs := s.reqs.filter (fun r => r.seq == seq)
  let ids := rs.map (·.id)
  let s0 := { s with reqs := s.reqs.map (fun r => { r with above := r.above.filter (fun a => !ids.contains a.1) }) }
  let s1 := rs.foldl (fun s r =>
    closeEntry (slotKey r.core r.slot) r.entry (dropReq r (setFibre r.gang r.fid (fun f =>
      finishWindow { f with windows := f.windows.map (fun w => if w.id = r.window then { w with regs := [], preds := [] } else w) } r.window) s))) s0
  let s2 := unpark core gid seq s1
  match kget? s2.gangs gid with
  | some g => setGang s2 gid { g with asyncs := g.asyncs ++ (fids.filter (fun f => (kget? g.fibres f).isSome)).map (fun f =>
      { fid := f, cause := 19, val := va, lanes := laneMask [f], seq := some seq : Async }) }
  | none => s2

/-- Kill: the task of a gang fails with PAGE, with its TRAPFAIL record (R227). -/
def killGang (gid slot : Nat) (lanes : Word) (pc : W64) (s : State) : State :=
  match kget? s.gangs gid with
  | none => s
  | some g =>
    failTask g.task 19 (report { FaultRec.blank with kind := 7, ref := .noted, ctx := g.ctx, slot := slot, unit := g.core, data := 19, lanes := lanes, pc := pc } s)

/-- The parked PC of lanes. -/
def parkedPc (s : State) (gid : Nat) (fids : List Nat) (pc : W64) : W64 :=
  match fids with
  | x :: _ => match kget? (getGang s gid).fibres x with | some f => f.pc | none => pc
  | [] => pc

/-- What an answer does for lanes of a gang on a core: 1 Replay, 2 Reflect, 3 Kill. -/
def answerLanes (core gid : Nat) (f : FaultRec) (ans : Nat) (s : State) : State :=
  match f.ref with
  | .lanes _ slot _ fids _ =>
    if ans = 1 then replayLanes core gid f.seq s
    else if ans = 2 then reflectLanes core gid fids f.seq f.va s
    else killGang gid slot f.lanes (parkedPc s gid fids f.pc) s
  | _ => s

/-- A saved gang returns to a core as it was. Answers that came meanwhile take effect. -/
def reinstate (v : SavedGang) (core : Nat) (s : State) : Option State :=
  let c := getCore s core
  let k := v.gang.kernel
  if 576 ≤ core ∨ isFenced s .core core ∨ !clusterUsable s (clusterOf core) ∨ 8 ≤ c.gangs.length ∨
      2048 < coreFibres s core + v.gang.fibres.length ∨ (getCluster s (clusterOf core)).fused ≠ k.fused ∨ !tilesFree s (clusterOf core) v then none
  else
    match allocFibres v.id (freedNow s core) v.gang.fibres c, findBanks s k (clusterOf core) with
    | some c1, some (bank, shadow) =>
      let blockOf := fun fid => match c1.blocks.find? (fun b => b.gang == v.id && b.fid == fid) with | some b => b.base | none => 0
      let g := { mapFibres v.gang (fun fid f => { f with block := blockOf fid }) with
        core := core, granule := bank, shadowGranule := shadow, frees0 := c.frees }
      let cl := getCluster s (clusterOf core)
      let cl1 := { cl with
        tiles := v.tiles.foldl (fun m t => kset m t.1 t.2) cl.tiles
        queueOwner := match g.mxQueue with | some q => kset cl.queueOwner q v.id | none => cl.queueOwner }
      let s1 := setCluster (setGang (setCore s core { c1 with
        gangs := c1.gangs ++ [v.id], table := c1.table ++ v.batches.map (fun b => { b with since := now s }) }) v.id g) (clusterOf core) cl1
      let s2 := { s1 with reqs := s1.reqs ++ v.reqs.map (fun r => { r with core := core }) }
      some (v.answers.foldl (fun s a => answerLanes core v.id a.1 a.2 s)
        (refreshAlloc core (acquireEffect core 2 (trimWays (clusterOf core) s2))))
    | _, _ => none

/-- Several saved gangs return, one to each core. -/
def reinstateAll : List (SavedGang × Nat) → State → Option State
  | [], s => some s
  | (v, core) :: rest, s =>
    match reinstate v core s with
    | none => none
    | some s1 => reinstateAll rest s1

/-- The saved gangs of a task. -/
def savedGangs (s : State) (tid : Nat) : List SavedGang :=
  (getCtx s (getTask s tid).ctx).saved.filter (fun v => v.gang.task == tid)

/-- Admit a task: its saved gangs return, or its crew starts. -/
def placeTask (tid : Nat) (cores : List Nat) (s : State) : Out :=
  match savedGangs s tid with
  | [] => admitTask tid cores s
  | vs =>
    let ctx := (getTask s tid).ctx
    if !ctxAdmits s ctx ∨ cores.length ≠ vs.length ∨ !allDistinct cores ∨ cores.any (fun c => slabOf c != slabOf (cores.headD 0)) then
      .fault .notEnabled
    else
      let x := getCtx s ctx
      match reinstateAll (vs.zip cores) (setCtx s ctx { x with saved := x.saved.filter (fun v => v.gang.task != tid) }) with
      | none => .fault .notEnabled
      | some s1 => .next (checkBarx (getTask s tid).crew s1)

/-- GANG_ADMIT (R29): a crew of one. -/
def execGangAdmit (task core : Nat) (s : State) : Out :=
  if (kget s.launches (getTask s task).launch Launch.init).kernel.crew ≠ 1 then .fault .notEnabled else placeTask task [core] s

/-- CREW_ADMIT (R44): one gang for each core, on clusters of one slab. -/
def execCrewAdmit (task : Nat) (cores : List Nat) (s : State) : Out :=
  if (kget s.launches (getTask s task).launch Launch.init).kernel.crew < 2 then .fault .notEnabled else placeTask task cores s

/-! ### Dispatch (R47 to R49, R141) -/

/-- Offsets a stencil mask names (R48). -/
def stencilOffsets (m : Word) : List (Int × Int × Int) :=
  (if m.getLsbD 12 then [(0, 0, -1)] else []) ++ (if m.getLsbD 11 then [(-1, 0, 0)] else []) ++ (if m.getLsbD 10 then [(-2, 0, 0)] else []) ++
  ((List.range 5).filter (fun k => m.getLsbD (5 + k))).map (fun k => (Int.ofNat k - 2, -1, 0)) ++
  ((List.range 5).filter (fun k => m.getLsbD k)).map (fun k => (Int.ofNat k - 2, -2, 0))

/-- A coordinate moved by an offset stays inside an extent. -/
def shifted (c ext : Nat) (o : Int) : Option Nat :=
  let v := Int.ofNat c + o
  if 0 ≤ v ∧ v < Int.ofNat ext then some v.toNat else none

/-- The task indices a task waits for; a tile outside the grid counts as retired. -/
def predecessors (l : Launch) (index : Nat) : List Nat :=
  (stencilOffsets l.stencil).filterMap (fun o =>
    match shifted (index % l.x) l.x o.1, shifted (index / l.x % l.y) l.y o.2.1, shifted (index / (l.x * l.y)) l.z o.2.2 with
    | some a, some b, some c => some (a + l.x * (b + l.y * c))
    | _, _, _ => none)

/-- A tile of a launch counts as retired (R48, R342), with the release of its writes (R46). -/
def tileRetired (s : State) (lid index : Nat) : Bool :=
  s.tasks.any (fun t => t.2.launch == lid && t.2.index == index && ((t.2.st == .retired && t.2.flush.isEmpty) || t.2.released))

/-- A task of the launch waits for admission. -/
def admitting (s : State) (lid : Nat) : Bool := s.tasks.any (fun t => t.2.launch == lid && t.2.st == .admitting)

/-- TASK_DISPATCH (R47): the next task of a grid, once its stencil predecessors have retired and its forerunner is placed. -/
def execTaskDispatch (lid : Nat) (s : State) : Out :=
  match kget? s.launches lid with
  | none => .fault .notEnabled
  | some l =>
    if l.sweep ∨ l.x * l.y * l.z ≤ l.next ∨ admitting s lid ∨ !ctxAdmits s l.ctx ∨
        !(predecessors l l.next).all (fun i => tileRetired s lid i) then .fault .notEnabled
    else
      let id := s.ids
      .next (setTask { s with ids := id + 1, launches := kset s.launches lid { l with next := l.next + 1 } } id
        { Task.init with launch := lid, index := l.next, ctx := l.ctx, pay := l.arg, st := .admitting })

/-- SWEEP_TASK_DISPATCH (R49, R141): the block's task goes to the owner cluster under the current generation. -/
def execSweepTaskDispatch (lid index : Nat) (s0 : State) : Out :=
  match kget? s0.launches lid with
  | none => .fault .notEnabled
  | some l =>
    let q := launchQuarry l
    match l.blocks.find? (fun b => b.index == index) with
    | none => .fault .notEnabled
    | some b =>
      if !l.sweep ∨ !ctxAdmits s0 l.ctx ∨ (getQuarry s0 q).desc = 0 then .fault .notEnabled
      else quarryStep q (.dispatch lid index) (sweepReady q (.dispatch lid index) b) (fun r s => r.map (fun x =>
        let id := s.ids
        let gen := (getQuarry s q).gen
        let drop := fun (l : Launch) => { l with blocks := l.blocks.filter (fun x => x.index != index) }
        setTask { s with ids := id + 1, launches := kmod s.launches lid Launch.init drop } id
          { Task.init with
            launch := lid, index := index, ctx := l.ctx, key := b.key, gen := gen, pay := x.1, st := .admitting, cluster := some x.2,
            startGens := [(q, gen)] })) s0

/-! ### The end of a gang (R28, R46) -/

/-- Handles a gang holds are freed as by HFREE (R197). -/
def freeHandles (s : State) (gid crew : Nat) (h : KMap Handle) : KMap Handle :=
  h.map (fun e => if e.2.gang = gid ∧ e.2.st = .armed then
    (e.1, if s.packets.any (fun p => p.crew == crew && p.handle == e.1) || s.acks.any (fun a => a.crew == crew && a.handle == e.1)
          then { e.2 with st := .draining } else Handle.init) else e)

/-- A gang ends: its resources are released, and its task retires with its last gang. -/
def endGang (gid : Nat) (s : State) : State :=
  let g := getGang s gid
  let c := getCore s g.core
  let crew := getCrew s g.crew
  let cl := getCluster s (clusterOf g.core)
  let s1 := { s with
    gangs := kdel s.gangs gid
    cores := kset s.cores g.core { c with gangs := without c.gangs [gid] }
    crews := kset s.crews g.crew { crew with live := without crew.live [gid], handles := freeHandles s gid g.crew crew.handles }
    clusters := kset s.clusters (clusterOf g.core) { cl with
      tiles := cl.tiles.map (fun e => if e.2.holder = some gid then (e.1, Tile.init) else e)
      queueOwner := cl.queueOwner.filter (fun e => e.2 != gid) } }
  let s2 := checkBarx g.crew s1
  let t := getTask s2 g.task
  if (getCrew s2 g.crew).live.isEmpty then
    retireTask g.task none s2
  else setTask s2 g.task { t with gangsLeft := t.gangsLeft - 1 }

/-- The release that the retirement of a failed task makes (R46, R227) begins, or goes on. -/
def settleFlush (tid : Nat) (s : State) : State :=
  let t := getTask s tid
  let begin_ := (t.flush.filter (fun f => f.2.isNone)).map (·.1)
  let s1 := begin_.foldl (fun s c => releaseCaches c s) s
  let left := t.flush.filterMap (fun f => match f.2 with
    | none => some (f.1, some (s1.ids, s1.tick))
    | some w => if writesPerformed s1 (slabOf f.1) 2 w.1 w.2 then none else some f)
  setTask s1 tid { t with flush := left }

/-- Every such release goes on. -/
def settleFlushes (s : State) : State := (s.tasks.filter (fun t => !t.2.flush.isEmpty)).foldl (fun s t => settleFlush t.1 s) s

/-- GANG_END (R28, R46): no fibre lives and no engine work of the gang is left; the gang's writes are released at package scope first. -/
def execGangEnd (gid : Nat) (s : State) : Out :=
  match kget? s.gangs gid with
  | none => .fault .notEnabled
  | some g =>
    if !g.fibres.isEmpty ∨ [1, 2, 3].any (engineBusy s gid) ∨ s.reqs.any (fun r => r.gang == gid) then .fault .notEnabled
    else match g.relWait with
      | none =>
        let s1 := releaseCaches g.core s
        .next (setGang s1 gid { getGang s1 gid with relWait := some (s1.ids, s1.tick) })
      | some (n, t) => if writesPerformed s (slabOf g.core) 2 n t then .next (endGang gid s) else .fault .notEnabled

end Sys2Proof.Machine
end

