-- ==== Sys2Proof/Machine/Derrick.lean ====
section
/-! DEFINITION. Sys2Proof/Machine/Derrick.lean: the Derrick complex's own accesses, completion records, event rings and the fault ring
(R403 to R405, R413, R419, R440). Derrick belongs to the weighbridge, agent 4. -/
namespace Sys2Proof.Machine

/-! ### Accesses through a context (R79, R83, R440) -/

/-- How Derrick makes an access: path class, permission (1 read, 2 write, 3 both), and whether U is checked. -/
structure Access where
  path : Nat
  perm : Nat
  kernel : Bool
  deriving DecidableEq, Repr

/-- An access for a queue does not check U (R396), but the header's does (R83); a copy packet's bytes go on the CPY path (R399). -/
def dReads : Access := { path := pathVec, perm := 1, kernel := false }
def dWrites : Access := { path := pathVec, perm := 2, kernel := false }
def dUpdates : Access := { path := pathVec, perm := 3, kernel := false }
def headerReads : Access := { path := pathVec, perm := 1, kernel := true }
def copyReads : Access := { path := pathCpy, perm := 1, kernel := true }
def copyWrites : Access := { path := pathCpy, perm := 2, kernel := true }

/-- Derrick at work for a context, as agent 4, the weighbridge; a step that has begun keeps its vector. -/
def derrick (s : State) (ctx : Nat) (b : Option Begun) : UnitEnv := unitAt s ctx 4 b

/-- The place of an access, or the fault at which it stalls: WHY, and ACC with the path class (R419). -/
def dSpot (s : State) (u : UnitEnv) (a : Access) (va : W64) : Except Blocked (Nat × Spot) :=
  let bad := fun (why : Nat) => Blocked.access va why (a.perm - 1 + 4 * a.path) s
  match checkWindow s u.ctx va a.path a.perm with
  | .error _ => .error (bad 0)
  | .ok ia =>
    match spotOf s u.ctx ia a.kernel (decide (2 ≤ a.perm)) with
    | .error y => .error (bad y)
    | .ok p => .ok (ia, p)

/-- `n` bytes of one sector at their home, and whether it is poisoned (R106, R109); Derrick goes on over poison (DESIGN CHOICE log 97). -/
def dRead (u : UnitEnv) (a : Access) (va : W64) (n : Nat) : QM (List Byte × Bool) := do
  let s ← get
  match dSpot s u a va with
  | .error b => throw b
  | .ok (ia, p) =>
    if !unitServed s u ia p then throw .wait
    else
      set (agentMerge u.slab (spotStamp s p) (spotSeen p s))
      pure (spotBytes s p n, spotPoison s p)

/-- Bytes from a VA, sector by sector; `fuel` bounds the sectors. -/
def dReadFrom (u : UnitEnv) (a : Access) (va : W64) : Nat → Nat → QM (List Byte × Bool)
  | _, 0 => pure ([], false)
  | 0, _ => pure ([], false)
  | fuel + 1, n => do
    let k := min n (128 - va.toNat % 128)
    let x ← dRead u a va k
    let r ← dReadFrom u a (va + BitVec.ofNat 64 k) fuel (n - k)
    pure (x.1 ++ r.1, x.2 || r.2)

/-- `n` bytes from a VA of a context. -/
def dGet (u : UnitEnv) (a : Access) (va : W64) (n : Nat) : QM (List Byte) := do
  let x ← dReadFrom u a va (n / 128 + 2) n
  pure x.1

/-- A write within one sector, or the addition of a word there, leaves the weighbridge for the home of a place that has been checked (R105,
R325). It goes with the stamp that the step leaves behind. -/
def dMake (u : UnitEnv) (kind : WKind) (a : Access) (va : W64) (bs : List Byte) (poison : Bool) : QM Unit := do
  let s ← get
  match dSpot s u a va with
  | .error b => throw b
  | .ok (ia, p) =>
    set (spotSeen p { s with
      ids := s.ids + 1
      held := s.held ++ [{ WriteMsg.blank with
        id := s.ids, agent := 4, ctx := u.ctx, sector := ia / 128, mask := byteMask (ia % 128) bs.length,
        data := natSector (natOfBytes bs) (ia % 128) bs.length, poison := poison, kind := kind, leaf := p.leaf, tick := s.tick }] })
def dPut (u : UnitEnv) (a : Access) (va : W64) (bs : List Byte) (poison : Bool) : QM Unit := dMake u .plain a va bs poison

/-- An acquire at scope p by Derrick (R113). -/
def derrickAcquire (s : State) : State :=
  { s with bridge := vset (vmax s.bridge (List.replicate 5 ((s.tick - 1) % 2 ^ 56))) 4 (vget s.bridge 4) }

/-- Every earlier write of the weighbridge has been applied: a release at scope p by Derrick (R112). -/
def bridgeApplied (s : State) : Bool := !s.held.any (fun m => m.agent == 4)

/-- Every earlier write of the context to the host, a second tier or a peer is acknowledged (R114). -/
def acknowledged (s : State) (ctx : Nat) : Bool := !s.applied.any (fun m => m.ctx == ctx && !m.phys)

/-- A release at scope y by Derrick for a context (R112, R114). -/
def bridgeReleased (s : State) (ctx : Nat) : Bool := bridgeApplied s && acknowledged s ctx && !s.applied.any (fun m => m.agent == 4)

/-! ### Completion records (R403 to R405) -/

def getRing (s : State) (r : Nat) : EventRing := kget s.rings r EventRing.init
def setRing (r : Nat) (v : EventRing) (s : State) : State := { s with rings := kset s.rings r v }
def getQueue (s : State) (q : Nat) : Queue := kget s.queues q Queue.init
def setQueue (q : Nat) (v : Queue) (s : State) : State := { s with queues := kset s.queues q v }

/-- A record of now, with the next sequence number; it is written through a context. -/
def newRecord (ctx status type queue : Nat) (tag : Word) (summary : W64) (urgent : Bool) (s : State) : Record :=
  { seq := s.seq, time := timer s, status := status, type := type, queue := queue, ctx := ctx, tag := tag, summary := summary, urgent := urgent,
    ready := true, stall := none }

/-- A record takes its sequence number and waits for its ring. -/
def pushRecord (ring ctx status type queue : Nat) (tag : Word) (summary : W64) (urgent : Bool) (s : State) : State :=
  let r := getRing s ring
  setRing ring { r with waiting := r.waiting ++ [newRecord ctx status type queue tag summary urgent s] } { s with seq := s.seq + 1 }

/-- The record of a queue whose context is saved takes its number and waits with the save, to be written once the context is back (R396,
R404). -/
def pushSaved (id ring : Nat) (r : Record) (s : State) : State :=
  { s with
    seq := s.seq + 1
    saves := s.saves.map (fun e => if e.1 = id then (e.1, { e.2 with records := kset e.2.records ring (kget e.2.records ring [] ++ [r]) }) else e) }

/-- A record that has its number may be written, with its SUMMARY (R411, R424). -/
def readyRecord (ring : Nat) (seq summary : W64) (s : State) : State :=
  let r := getRing s ring
  setRing ring { r with waiting := r.waiting.map (fun x => if x.seq = seq then { x with ready := true, summary := summary } else x) } s

/-- The 32 bytes of a record. -/
def recordBytes (r : Record) : List Byte :=
  bytesOfNat 8 r.seq.toNat ++ bytesOfNat 8 r.time.toNat ++ bytesOfNat 2 (r.status + 256 * r.type) ++ bytesOfNat 2 r.queue ++
  bytesOfNat 4 r.tag.toNat ++ bytesOfNat 8 r.summary.toNat

def interrupt (v : Nat) (s : State) : State := { s with outputs := s.outputs ++ [.interrupt v] }

/-! ### Replies of the command ring (R414) -/

/-- Bus address of a command of the ring (R413). -/
def cmdAddr (s : State) (i : W64) : Nat := s.port.dcrBase.toNat + 64 * (i.toNat % 2 ^ s.port.dcrLog.toNat)

/-- DCRRD passes over the unbroken run of completed commands. -/
def passDone : List CmdRun → W64 → List CmdRun × W64
  | [], rd => ([], rd)
  | c :: cs, rd => if c.done && c.index == rd then passDone cs (rd + 1) else (c :: cs, rd)

/-- A command completes: STATUS and DETAIL are written, DVEC is sent, and DCRRD advances. -/
def replyCmd (i : W64) (status detail : Nat) (s : State) : State :=
  let a := cmdAddr s i
  let r := passDone (s.cmds.map (fun c => if c.index = i then { c with begun := true, done := true } else c)) s.port.dcrRd
  interrupt s.port.dvec.toNat { s with
    hostMem := writeBytes (writeBytes s.hostMem (a + 60) (bytesOfNat 4 detail)) (a + 56) (bytesOfNat 1 status)
    cmds := r.1
    port := { s.port with dcrRd := r.2 } }

/-- What the caches hold for a context goes; nothing of it is written any more (R412). -/
def dropCaches (ctx : Nat) (s : State) : State :=
  { s with
    l1 := s.l1.map (fun e => (e.1, e.2.filter (fun l => l.ctx != ctx)))
    wcb := s.wcb.map (fun e => (e.1, e.2.filter (fun w => w.ctx != ctx)))
    slabs := s.slabs.map (fun e => (e.1, { e.2 with copies := e.2.copies.filter (fun c => c.ctx != ctx) }))
    leaves := s.leaves.filter (fun l => l.ctx != ctx) }

/-- A context slot becomes FREE. -/
def freeCtx (ctx : Nat) (s : State) : State := dropCaches ctx (setCtx s ctx Ctx.init)

/-- The job that waited for a record goes on: a packet leaves its queue, a record node's work is over, and a stream copy looks at its next
entry. A CTXDESTROY that waited for it is over but for its reply. -/
def recordDone (seq : W64) (s : State) : State :=
  let ended := fun (j : Job) => if j.record = some seq ∧ j.status = none then
    { j with record := none, status := if j.stream.isSome then none else some (0, 0) } else j
  let node := fun (n : Node) => { n with job := n.job.map ended }
  let run := fun (r : PacketRun) => { r with
    job := ended r.job, graph := r.graph.map (fun g => { g with nodes := g.nodes.map (fun e => (e.1, node e.2)) }) }
  let queue := fun (u : Queue) =>
    let kept := (u.runs.filter (fun r => !(r.job.record == some seq && r.job.status.isSome))).map run
    { u with runs := kept, emptySince := if kept.length < u.runs.length then now s else u.emptySince }
  { s with
    queues := s.queues.map (fun e => (e.1, queue e.2))
    cmds := s.cmds.map (fun c => if c.record = some seq ∧ c.done = false then { c with answer := some (0, 0) } else c) }

/-- Where a ring's next record goes. -/
def ringSlot (r : EventRing) : W64 := r.base + BitVec.ofNat 64 (32 * (r.tail.toNat % 2 ^ r.elog))

/-- Several writes, each within a sector; the first that cannot be made stalls them all. -/
def dPuts (u : UnitEnv) : List (W64 × List Byte) → QM Unit
  | [] => pure ()
  | w :: ws => do
    dPut u dWrites w.1 w.2 false
    dPuts u ws

/-- The write of a ring's oldest record, through the context of its queue (R396). -/
def putRecord (r : EventRing) (rec : Record) : QM Unit := do
  let u := derrick (← get) rec.ctx none
  let va := ringSlot r
  let k := 128 - va.toNat % 128
  let bs := recordBytes rec
  unitRun u (dPuts u ((va, bs.take k) :: if k < 32 then [(va + BitVec.ofNat 64 k, bs.drop k)] else []))

/-- The record has landed: TAIL advances, it is counted, and an interrupt goes out when one is due (R405). -/
def landRecord (ring : Nat) (rec : Record) (rest : List Record) (s : State) : State :=
  let r := getRing s ring
  let n := r.pending + 1
  let fire := rec.urgent || decide (r.count ≤ n)
  let s1 := recordDone rec.seq (setRing ring { r with
    waiting := rest, sent := none, tail := r.tail + 1, pending := if fire then 0 else n,
    oldest := if r.pending = 0 then now s else r.oldest } s)
  if fire then interrupt r.vector s1 else s1

/-- A record of a smaller SEQ waits for the ring in a save area: the later ones wait behind it (R404, DEDUCED log 154). -/
def savedBefore (s : State) (ring : Nat) (rec : Record) : Bool :=
  s.saves.any (fun v => (kget v.2.records ring []).any (fun x => decide (x.seq.toNat < rec.seq.toNat)))

/-- The ring writes a record, its oldest one, now: it is set and has room, and the record may be written (R404, R405). -/
def ringTakes (s : State) (ring : Nat) (rec : Record) : Bool :=
  let r := getRing s ring
  r.set && rec.ready && rec.stall.isNone && decide ((r.tail - r.head).toNat < 2 ^ r.elog) && !savedBefore s ring rec

/-- The writes of a ring's oldest record have been performed. -/
def recordLanded (s : State) (ids : Nat × Nat) : Bool :=
  !(s.held ++ s.applied).any (fun m => m.agent == 4 && decide (ids.1 ≤ m.id) && decide (m.id < ids.2))

/-- COMPLETION_RECORD_WRITE (R405): the oldest waiting record of a ring that is set and has room is written after a release at scope y, and
once its writes have been performed it has landed. -/
def execCompletionRecordWrite (ring : Nat) (s : State) : Out :=
  let r := getRing s ring
  match r.waiting with
  | [] => .fault .notEnabled
  | rec :: rest =>
    if s.mgmt.resetting ∨ !ringTakes s ring rec then .fault .notEnabled
    else
      match r.sent with
      | some ids => if recordLanded s ids then .next (landRecord ring rec rest s) else .fault .notEnabled
      | none =>
        if !bridgeReleased s rec.ctx then .fault .notEnabled
        else
          match putRecord r rec s with
          | .ok (_, s1) => .next (setRing ring { r with sent := some (s.ids, s1.ids) } s1)
          | .error _ => .fault .notEnabled

/-- EVENT_RING_TIME_EXPIRY (R405). -/
def execEventRingTimeExpiry (ring : Nat) (s : State) : Out :=
  let r := getRing s ring
  if s.mgmt.resetting ∨ !r.set ∨ r.pending = 0 ∨ now s < r.oldest + usCycles r.time then .fault .notEnabled
  else .next (interrupt r.vector (setRing ring { r with pending := 0 } s))

/-- EVENT_RING_HEAD_WRITE (R405): the host has consumed records. -/
def execEventRingHeadWrite (ring : Nat) (head : W64) (s : State) : Out :=
  .next (setRing ring { getRing s ring with head := head } s)

/-! ### The fault ring (R419) -/

/-- The 64 bytes of a fault record. -/
def faultBytes (f : FaultRec) : List Byte :=
  bytesOfNat 8 f.seq.toNat ++ List.replicate 13 0 ++ bytesOfNat 1 f.kind ++ bytesOfNat 1 f.why ++ bytesOfNat 1 f.acc ++
  bytesOfNat 8 f.time.toNat ++ bytesOfNat 1 f.ctx ++ bytesOfNat 1 f.slot ++ bytesOfNat 2 f.unit ++ bytesOfNat 4 f.data.toNat ++
  bytesOfNat 4 f.ident.toNat ++ bytesOfNat 4 f.lanes.toNat ++ bytesOfNat 8 f.va.toNat ++ bytesOfNat 8 f.pc.toNat

/-- FAULT_RECORD_WRITE (R419): the fault is pending from then on (R420). -/
def execFaultRecordWrite (s : State) : Out :=
  match s.faultsOut with
  | [] => .fault .notEnabled
  | f :: rest =>
    let p := s.port
    let used := (p.frTail - p.frHead).toNat
    if s.mgmt.resetting ∨ 2 ^ p.frLog.toNat ≤ used ∨ !bridgeReleased s f.ctx then .fault .notEnabled
    else
      let s1 := { s with
        hostMem := writeBytes s.hostMem (p.frBase.toNat + 64 * (p.frTail.toNat % 2 ^ p.frLog.toNat)) (faultBytes f)
        port := { p with frTail := p.frTail + 1 }
        faultsOut := rest
        faults := if f.ref ≠ .none then s.faults ++ [f] else s.faults }
      .next (if used = 0 then interrupt p.dvec.toNat s1 else s1)

end Sys2Proof.Machine
end

