-- ==== Sys2Proof/Machine/Queues.lean ====
section
/-! DEFINITION. Sys2Proof/Machine/Queues.lean: hardware queues, packets, graphs and streams (R396 to R402, R406 to R411, R424, R440). A
packet event starts the queue's next packet of its TYPE and performs what it can of it; a further occurrence goes on with a packet that
has more to do, one destination sector or stream entry at a time, or that a Replay has released. -/
namespace Sys2Proof.Machine

/-! ### Kinds and bodies (R399, R407) -/

/-- Kinds: 1 launch, 2 copy, 3 wait, 4 signal, 5 graph, 6 record, 7 conditional; 0 stands for an unknown TYPE or KIND. -/
def jobKind (node : Bool) (bs : List Byte) : Nat :=
  let k := byteAt bs 0
  if node then (match k with | 1 => 1 | 2 => 2 | 3 => 7 | 4 => 3 | 5 => 4 | 6 => 6 | _ => 0)
  else if k ≤ 6 then k else 0

/-- A body field outside the table. -/
def bodyBad (kind : Nat) (node : Bool) (bs : List Byte) : Bool :=
  let f := field bs
  let z := fun lo hi => allZero ((bs.drop lo).take (hi - lo))
  match kind with
  | 1 =>
    let k := f 40 1
    decide (1 < k) || !z 41 64 ||
    (if k = 1 then !z 16 40
     else
       let ok := fun v => decide (1 ≤ v) && decide (v ≤ 65536)
       !ok (f 24 4) || !ok (f 28 4) || !ok (f 32 4) || decide (2 ^ 32 < f 24 4 * f 28 4 * f 32 4))
  | 2 => f 24 8 % 16 != 0 || decide (2 ^ 40 ≤ f 24 8) || decide (1 < f 32 1) || !z 33 64 || (f 32 1 == 1 && !z 16 32)
  | 3 => f 8 8 % 8 != 0 || decide (3 < f 24 1) || !z 25 28 || !z 32 64
  | 4 => f 8 8 % 8 != 0 || decide (1 < f 24 1) || !z 25 64
  | 5 => node || !z 16 64
  | 6 => !z 8 28 || !z 32 64 || (!node && !z 28 32)
  | 7 => decide (3 < f 24 1) || !z 25 28 || f 28 2 == 0 || !z 30 64
  | _ => true

/-- A malformed packet. -/
def packetBad (bs : List Byte) : Bool :=
  let fl := byteAt bs 1
  let kind := jobKind false bs
  kind == 0 || decide (32 ≤ fl) || decide (fl / 8 % 4 < 2) || (fl.testBit 2 && kind != 1) || field bs 2 2 != 0 || bodyBad kind false bs

/-- A malformed node of an image of `n` nodes. -/
def nodeBad (n : Nat) (bs : List Byte) : Bool :=
  let next := fun v => v != 65535 && decide (n ≤ v)
  jobKind true bs == 0 || (byteAt bs 1 != 0 && byteAt bs 1 != 2) || next (field bs 2 2) || next (field bs 4 2) || byteAt bs 6 == 0 ||
  byteAt bs 7 != 0 || bodyBad (jobKind true bs) true bs

/-- The conditions of wait packets and conditionals. -/
def condHolds (c w cmp : Nat) : Bool :=
  match c with
  | 0 => w == cmp
  | 1 => w != cmp
  | 2 => decide (cmp ≤ w)
  | _ => decide (w < cmp)

/-! ### Jobs: packets and nodes at work -/

/-- A packet of a queue, or a node of its graph. -/
structure JobRef where
  queue : Nat
  index : W64
  node : Option Nat
  deriving DecidableEq, Repr

def Job.fresh (bs : List Byte) : Job :=
  { bytes := bs, begun := false, status := none, launch := none, limit := none, copied := 0, stream := none, record := none, stall := none, step := none }

/-- The queue's context. -/
def queueCtx (s : State) (q : Nat) : Nat := match (getQueue s q).desc with | some d => d.ctx | none => 16
def queueRing (s : State) (q : Nat) : Nat := match (getQueue s q).desc with | some d => d.evr | none => 0

def mapRun (q : Nat) (i : W64) (fn : PacketRun → PacketRun) (s : State) : State :=
  setQueue q { getQueue s q with runs := (getQueue s q).runs.map (fun r => if r.index = i then fn r else r) } s

def mapNode (q : Nat) (i : W64) (n : Nat) (fn : Node → Node) (s : State) : State :=
  mapRun q i (fun r => { r with graph := r.graph.map (fun g => { g with nodes := g.nodes.map (fun e => if e.1 = n then (e.1, fn e.2) else e) }) }) s

def putJob (r : JobRef) (j : Job) (s : State) : State :=
  match r.node with
  | none => mapRun r.queue r.index (fun x => { x with job := j }) s
  | some n => mapNode r.queue r.index n (fun x => { x with job := some j }) s

/-- Every job of a queue, oldest packet first. -/
def queueJobs (s : State) (q : Nat) : List (JobRef × Job) :=
  ((getQueue s q).runs.map (fun r => ({ queue := q, index := r.index, node := none : JobRef }, r.job) ::
    (match r.graph with
     | none => []
     | some g => g.nodes.filterMap (fun e => e.2.job.map (fun j => ({ queue := q, index := r.index, node := some e.1 }, j)))))).flatten

def kindOf (r : JobRef) (j : Job) : Nat := jobKind r.node.isSome j.bytes

/-- The index a record's SUMMARY names. -/
def jobIndex (r : JobRef) : W64 := match r.node with | none => r.index | some n => BitVec.ofNat 64 n

/-- Derrick at work on a job. -/
def jobUnit (s : State) (r : JobRef) (j : Job) : UnitEnv := derrick s (queueCtx s r.queue) j.step

/-- The job's next step begins: it is performed once every home serves it. -/
def beginJob (r : JobRef) (j : Job) (s : State) : State := putJob r { j with step := some (agentQ s 4) } s

/-- A job's work is over. -/
def endJob (r : JobRef) (j : Job) (status : Nat) (summary : W64) (s : State) : State :=
  putJob r { j with begun := true, status := some (status, summary) } s

/-! ### Launches (R390, R402) -/

/-- Start a launch from its body: its failure, or the launch. -/
def actLaunch (u : UnitEnv) (r : JobRef) (j : Job) : QM Unit := do
  let f := field j.bytes
  let va := BitVec.ofNat 64 (f 8 8)
  let sweep := f 40 1 == 1
  if va.toNat % 256 ≠ 0 then modify (endJob r j 2 0xFFFFFFFFFFFFFFFF)
  else
    let h ← dGet u headerReads va 256
    let s ← get
    match checkHeader va h with
    | .error (.version v) => modify (endJob r j 3 (BitVec.ofNat 64 v))
    | .error (.field o) => modify (endJob r j 2 (BitVec.ofNat 64 o))
    | .ok k =>
      let q := 8 * u.ctx + k.qslot
      if sweep ∧ (7 < k.qslot ∨ (getQuarry s q).desc = 0) then modify (endJob r j 2 28)
      else if !sweep ∧ 2 ^ 13 ≤ f 36 4 then modify (endJob r j 5 (BitVec.ofNat 64 (f 36 4)))
      else if neverFits s k then modify (endJob r j 4 0)
      else
        let id := s.ids
        let l : Launch := { Launch.init with
          ctx := u.ctx, kernel := k, arg := BitVec.ofNat 64 (f 16 8), sweep := sweep, x := if sweep then 1 else f 24 4,
          y := if sweep then 1 else f 28 4, z := if sweep then 1 else f 32 4, stencil := BitVec.ofNat 32 (f 36 4),
          left := if sweep then 0 else f 24 4 * f 28 4 * f 32 4, placed := !sweep, qslots := (getCtx s u.ctx).qslots,
          src := match r.node with | none => .packet r.queue r.index | some n => .node r.queue n }
        modify (fun s => putJob r { j with begun := true, launch := some id } { s with ids := id + 1, launches := kset s.launches id l })
        if sweep then modify (pushQOp q (.place id))

/-- A launch that is over: its status and SUMMARY (R402, R403). -/
def launchEnd (s : State) (id : Nat) : Option (Nat × W64) :=
  match kget? s.launches id with
  | none => some (0, 0)
  | some l =>
    if !l.placed ∨ l.left ≠ 0 then none
    else if l.failed = 0 then some (0, 0)
    else some (1, BitVec.ofNat 64 (l.failed + l.cause * 2 ^ 32))

/-- The status of a job whose work is over. -/
def jobEnd (s : State) (j : Job) : Option (Nat × W64) :=
  match j.status, j.launch with
  | some x, _ => some x
  | none, some id => launchEnd s id
  | none, none => none

/-! ### Copies and streams (R399, R410, R411) -/

/-- Plain copy: the next destination sector lands, on the CPY path; the poison of its sources goes with it. -/
def actCopy (u : UnitEnv) (r : JobRef) (j : Job) : QM Unit := do
  let f := field j.bytes
  let left := f 24 8 - j.copied
  if left = 0 then modify (endJob r j 0 0)
  else
    let dst := BitVec.ofNat 64 (f 16 8 + j.copied)
    let n := min left (128 - dst.toNat % 128)
    let x ← dReadFrom u copyReads (BitVec.ofNat 64 (f 8 8 + j.copied)) 2 n
    dPut u copyWrites dst x.1 x.2
    let j1 := { j with begun := true, copied := j.copied + n }
    modify (fun s => if n = left then endJob r j1 0 0 s else putJob r j1 s)

/-- The descriptor keeps its required values. -/
def streamBad (va : W64) (d : List Byte) : Bool :=
  let f := field d
  va.toNat % 256 != 0 || f 10 1 == 0 || decide (16 < f 10 1) || decide (f 9 1 < 4) || decide (20 < f 9 1) || decide (f 8 1 < 4) ||
  decide (20 < f 8 1) || f 0 8 % 32 != 0 || f 28 8 % 32 != 0 || !allZero ((d.drop 52).take 12) ||
  !allZero ((d.drop 192).take 64)

/-- The closing entry (R411). -/
def closingEntry (n : W64) : List Byte := [3, 0, 0, 0] ++ bytesOfNat 2 0xFFFF ++ [0, 0] ++ bytesOfNat 4 n.toNat ++ List.replicate 20 0

/-- A release at scope y before a write of the stream: it waits until nothing of the context is unacknowledged (R411). -/
def streamRelease (u : UnitEnv) : QM Unit := do
  if bridgeReleased (← get) u.ctx then pure () else throw .wait

/-- The ENDSTREAM record of a stream that has ended may be written: its SUMMARY counts the entries on the host ring. -/
def streamOver (r : JobRef) (t : StreamRun) (s : State) : State :=
  match t.record with
  | some q => readyRecord (queueRing s r.queue) q t.htail s
  | none => s

/-- VA of a host-ring slot and of a staging slot. -/
def hostSlot (t : StreamRun) : W64 := BitVec.ofNat 64 (field t.desc 28 8 + 32 * (t.htail.toNat % 2 ^ field t.desc 9 1))
def stageSlot (t : StreamRun) : W64 := BitVec.ofNat 64 (field t.desc 0 8 + 32 * (t.moved.toNat % 2 ^ field t.desc 8 1))

/-- The stream copy ends with a status: HTAIL is written after a release at scope y. The ENDSTREAM record of a stream that has ended may be
written (DESIGN CHOICE log 155). -/
def stopStream (u : UnitEnv) (r : JobRef) (j : Job) (t : StreamRun) (va : W64) (status : Nat) : QM Unit := do
  streamRelease u
  dPut u dWrites (va + 36) (bytesOfNat 8 t.htail.toNat) false
  modify (fun s => endJob r j status (if status = 0 then 0 else jobIndex r) (streamOver r t s))

/-- Every producer's END has come and its entries have all moved. -/
def streamEnds (np : Nat) (t : StreamRun) : Bool :=
  !t.ended && t.record.isNone && (List.range np).all (fun p => t.final.getD p 0 == t.landed.getD p 1)

/-- The host ring has room for an entry at HTAIL. -/
def hostRoom (t : StreamRun) (hhead : W64) : Bool := decide ((t.htail - hhead).toNat < 2 ^ field t.desc 9 1)

/-- The stream ends: the closing entry and the ENDSTREAM record take their sequence numbers, and the record waits for the closing entry
(R404, R411, R424). While the host ring has no room for the closing entry the stream has not ended (DESIGN CHOICE log 155). -/
def markEnd (u : UnitEnv) (r : JobRef) (j : Job) (t : StreamRun) (s0 : State) : State :=
  let s := { s0 with seq := s0.seq + 1 }
  let tag := if r.node.isSome then 0 else BitVec.ofNat 32 (field j.bytes 4 4)
  let rec1 := { newRecord u.ctx 12 (if r.node.isSome then 5 else 2) r.queue tag t.htail ((byteAt j.bytes 1).testBit 1) s with ready := false }
  let ring := getRing s (queueRing s r.queue)
  putJob r { j with begun := true, stream := some { t with record := some s.seq } }
    (setRing (queueRing s r.queue) { ring with waiting := ring.waiting ++ [rec1] } { s with seq := s.seq + 1 })

/-- The stream has ended: the closing entry and STATE are written (R411). -/
def closeStream (u : UnitEnv) (r : JobRef) (j : Job) (t : StreamRun) (va : W64) : QM Unit := do
  dPuts u [(hostSlot t, closingEntry t.htail), (va + 11, [1])]
  modify (putJob r { j with begun := true, stream := some { t with htail := t.htail + 1, ended := true, closing := true } })

/-- The closing entry has been released at scope y: HTAIL covers it, and the ENDSTREAM record is written, for which the copy waits (R411,
R424). -/
def endStream (u : UnitEnv) (r : JobRef) (j : Job) (t : StreamRun) (va : W64) : QM Unit := do
  streamRelease u
  dPut u dWrites (va + 36) (bytesOfNat 8 t.htail.toNat) false
  modify (fun s => putJob r { j with begun := true, record := t.record, stream := some { t with closing := false, record := none } }
    (streamOver r t s))

/-- An entry moves to the host ring (R411); the stream may end with it. -/
def moveEntry (u : UnitEnv) (r : JobRef) (j : Job) (t : StreamRun) (va hhead : W64) (en : List Byte) : QM Unit := do
  let p := field en 4 2
  let isEnd := (byteAt en 0).testBit 1
  let landed := if isEnd then t.landed else t.landed.set p ((t.landed.getD p 0 + 1) % 2 ^ 32)
  let final := if isEnd then t.final.set p (field en 8 4) else t.final
  let moved := t.moved + 1
  dPuts u [(hostSlot t, en), (stageSlot t, [BitVec.ofNat 8 (byteAt en 0 / 2 * 2)]), (va + 20, bytesOfNat 8 moved.toNat),
    (va + BitVec.ofNat 64 (64 + 8 * p), bytesOfNat 4 (landed.getD p 0) ++ bytesOfNat 4 (final.getD p 0))]
  let t1 := { t with moved := moved, htail := t.htail + 1, landed := landed, final := final }
  modify (fun s => if streamEnds (field t.desc 10 1) t1 && hostRoom t1 hhead then markEnd u r j t1 s
    else putJob r { j with begun := true, stream := some t1 } s)

/-- One step of a stream copy: it ends at once for an End answer, the stream ends in steps of its own, an entry moves, or the copy stops. The
read of FLAGS merges the stamp of the producer's release (R106, R411, DEDUCED log 75). -/
def stepStream (u : UnitEnv) (r : JobRef) (j : Job) (t : StreamRun) : QM Unit := do
  let va := BitVec.ofNat 64 (field j.bytes 8 8)
  let np := field t.desc 10 1
  if t.quit then stopStream u r j t va 6
  else if t.closing then endStream u r j t va
  else if t.record.isSome then closeStream u r j t va
  else
    let hh ← dGet u dReads (va + 44) 8
    let hhead := BitVec.ofNat 64 (natOfBytes hh)
    let en ← dGet u dReads (stageSlot t) 32
    if !hostRoom t hhead then stopStream u r j t va 0
    else if streamEnds np t then modify (markEnd u r j t)
    else if !(byteAt en 0).testBit 0 then stopStream u r j t va 0
    else if t.ended ∨ np ≤ field en 4 2 then stopStream u r j t va 6
    else moveEntry u r j t va hhead en

/-- Stream copy: the descriptor is checked first. -/
def actStream (u : UnitEnv) (r : JobRef) (j : Job) : QM Unit := do
  match j.stream with
  | some t => stepStream u r j t
  | none =>
    let va := BitVec.ofNat 64 (field j.bytes 8 8)
    let d ← dGet u dReads va 256
    if streamBad va d then modify (endJob r j 6 (jobIndex r))
    else
      let ps := List.range (field d 10 1)
      modify (putJob r { j with begun := true, stream := some {
        desc := d, moved := BitVec.ofNat 64 (field d 20 8), htail := BitVec.ofNat 64 (field d 36 8),
        landed := ps.map (fun p => field d (64 + 8 * p) 4), final := ps.map (fun p => field d (68 + 8 * p) 4),
        ended := field d 11 1 == 1, record := none, closing := false, quit := false } })

/-! ### Waits, signals and conditionals (R401, R408) -/

/-- The 64-bit word a body names. -/
def jobWord (u : UnitEnv) (j : Job) : QM Nat := do
  let bs ← dGet u dReads (BitVec.ofNat 64 (field j.bytes 8 8)) 8
  pure (natOfBytes bs)

def jobCond (j : Job) (w : Nat) : Bool := condHolds (field j.bytes 24 1) w (field j.bytes 16 8)

/-- A wait that has registered and still waits. -/
def isWaiting (r : JobRef) (j : Job) : Bool := kindOf r j == 3 && j.begun && j.status.isNone

/-- Withdraw the queue's registrations once nothing of it waits. -/
def withdraw (q : Nat) (s : State) : State :=
  if (queueJobs s q).any (fun x => isWaiting x.1 x.2) then s
  else { s with wakes := s.wakes.filter (fun w => w.who != .queue q) }

/-- A word that a wait compares has to be compared once more. -/
def signalQueue (q : Nat) (s : State) : State :=
  { s with queues := kmod s.queues q Queue.init (fun x => { x with signalled := x.signalled + 1 }) }

/-- Register the line of a word, unless a registration of the queue covers it already (R157, R159). At a fenced home it wakes at once
(R434); a word in a peer has no wake table (DESIGN CHOICE log 101). -/
def registerWord (u : UnitEnv) (q : Nat) (va : W64) (s : State) : State :=
  match dSpot s u dReads va with
  | .ok (_, .page l) =>
    let line := l.pa / 256
    let place := Place.home (homeOf (line * 256))
    if s.wakes.any (fun w => w.who == .queue q && w.place == place && (w.line == none || w.line == some line)) then s
    else
      let full := decide (1024 ≤ (s.wakes.filter (fun w => w.place == place && w.line.isSome)).length)
      let s1 := touchLine line { s with wakes := s.wakes ++ [{ place := place, line := if full then none else some line, bank := 0, gang := 0, who := .queue q }] }
      if homeFenced s (l.pa / 128) then signalQueue q s1 else s1
  | _ => s

/-- A wait compares, and registers where its condition does not hold. -/
def actWait (u : UnitEnv) (r : JobRef) (j : Job) : QM Unit := do
  let w ← jobWord u j
  if jobCond j w then modify (endJob r j 0 0)
  else
    let us := field j.bytes 28 4
    modify (fun s => registerWord u r.queue (BitVec.ofNat 64 (field j.bytes 8 8))
      (putJob r { j with begun := true, limit := if us = 0 then none else some (now s + usCycles us) } s))

/-- A signal: a 64-bit exchange or add, performed as one at the word's home (R325, R401). -/
def actSignal (u : UnitEnv) (r : JobRef) (j : Job) : QM Unit := do
  let va := BitVec.ofNat 64 (field j.bytes 8 8)
  let v := field j.bytes 16 8
  dMake u (if field j.bytes 24 1 = 0 then .plain else .sum) dUpdates va (bytesOfNat 8 v) false
  modify (endJob r j 0 0)

/-- The node of a job. -/
def nodeOf (s : State) (r : JobRef) : Option Node :=
  match r.node, (getQueue s r.queue).runs.find? (fun x => x.index == r.index) with
  | some n, some run => run.graph.bind (fun g => kget? g.nodes n)
  | _, _ => none

/-- A conditional chooses its successor. -/
def actCond (u : UnitEnv) (r : JobRef) (j : Job) : QM Unit := do
  let w ← jobWord u j
  let s ← get
  match nodeOf s r, r.node with
  | some nd, some n =>
    let limit := field j.bytes 28 2
    let holds := jobCond j w
    let s1 := endJob r j 0 0 s
    if holds && decide (nd.passes < limit) then
      set (mapNode r.queue r.index n (fun x => { x with passes := x.passes + 1, chosen := some (field j.bytes 2 2) }) s1)
    else
      let s2 := mapNode r.queue r.index n (fun x => { x with chosen := some (field j.bytes 4 2) }) s1
      set (if holds then mapRun r.queue r.index (fun x => { x with graph := x.graph.map (fun g =>
        { g with loopLimit := some (g.loopLimit.getD n) }) }) s2 else s2)
  | _, _ => pure ()

/-! ### Graphs (R406 to R408) -/

/-- The graph image is read and checked whole; its ENTRY node may start. -/
def actGraph (u : UnitEnv) (r : JobRef) (j : Job) : QM Unit := do
  let va := BitVec.ofNat 64 (field j.bytes 8 8)
  let h ← dGet u dReads va 64
  let n := field h 4 2
  if va.toNat % 64 ≠ 0 ∨ field h 0 4 ≠ 0x46524759 ∨ n = 0 ∨ 4096 < n ∨ n ≤ field h 6 2 ∨ !allZero (h.drop 8) then
    modify (endJob r j 6 0xFFFF)
  else
    let bs ← dGet u dReads (va + 64) (64 * n)
    let nodes := (List.range n).map (fun i => (i, (bs.drop (64 * i)).take 64))
    match nodes.find? (fun x => nodeBad n x.2) with
    | some x => modify (endJob r j 6 (BitVec.ofNat 64 x.1))
    | none =>
      let entry := field h 6 2
      modify (mapRun r.queue r.index (fun x => { x with
        job := { j with begun := true }
        graph := some { fail := none, loopLimit := none, nodes := nodes.map (fun x => (x.1,
          { bytes := x.2, arrivals := if x.1 = entry then byteAt x.2 6 else 0, passes := 0, chosen := none, job := none })) } }))

/-- A record node writes its record (R403, R408). -/
def actRecord (r : JobRef) (j : Job) (s : State) : State :=
  putJob r { j with begun := true, record := some s.seq }
    (pushRecord (queueRing s r.queue) (queueCtx s r.queue) 0 5 r.queue (BitVec.ofNat 32 (field j.bytes 28 4)) 0 ((byteAt j.bytes 1).testBit 1) s)

/-- What a job does next, as one step of Derrick: the step is over with it. -/
def actJob (r : JobRef) (j0 : Job) : QM Unit := do
  let u := jobUnit (← get) r j0
  let j := { j0 with step := none }
  unitRun u (match kindOf r j with
    | 1 => actLaunch u r j
    | 2 => if field j.bytes 32 1 = 1 then actStream u r j else actCopy u r j
    | 3 => actWait u r j
    | 4 => actSignal u r j
    | 5 => actGraph u r j
    | 7 => actCond u r j
    | _ => modify (fun s => if r.node.isSome then actRecord r j s else endJob r j 0 0 s))

/-- A job's next step is performed, or begins. -/
def stepJob (r : JobRef) (j : Job) (s : State) : Out :=
  match actJob r j s with
  | .ok (_, s1) => .next s1
  | .error .wait => if j.step.isSome then .fault .notEnabled else .next (beginJob r j s)
  | .error _ => .fault .notEnabled

/-- A job has something to do: not stalled, not over, and not begun unless it is a copy at work. -/
def actionable (r : JobRef) (j : Job) : Bool :=
  j.stall.isNone && j.status.isNone && j.record.isNone && !j.bytes.isEmpty && (!j.begun || kindOf r j == 2)

/-! ### Starting packets (R400) -/

/-- A launch has dispatched all its tasks. -/
def allDispatched (s : State) (id : Nat) : Bool :=
  match kget? s.launches id with
  | none => true
  | some l => l.placed && (if l.sweep then l.blocks.isEmpty else l.next == l.x * l.y * l.z) && !admitting s id

/-- The queue owns a packet that has not started, is mapped, and its context runs. -/
def queueRuns (s : State) (q : Nat) : Bool :=
  let u := getQueue s q
  match u.desc with
  | none => false
  | some d => u.saved.isNone && u.slot.isSome && u.ridx != u.w && ctxAdmits s d.ctx

/-- VA of packet i of a ring. -/
def packetVa (d : QueueDesc) (i : W64) : W64 := d.ring + BitVec.ofNat 64 (64 * (i.toNat % 2 ^ d.rlog))

/-- The bytes of a packet, sector by sector (R120, R397). -/
def readPacket (q : Nat) (r : W64) (b : Option Begun) : QM (List Byte) := do
  let s ← get
  match (getQueue s q).desc with
  | none => pure []
  | some d =>
    let u := derrick s d.ctx b
    unitRun u (dGet u dReads (packetVa d r) 64)

/-- The bytes of a packet as they stand, for the choice whether it may overlap the one before it. -/
def peekPacket (s : State) (q : Nat) (i : W64) : List Byte :=
  match (getQueue s q).desc with
  | none => []
  | some d => match dSpot s (derrick s d.ctx none) dReads (packetVa d i) with
    | .ok (_, p) => spotBytes s p 64
    | .error _ => []

/-- The packet before the next one, if it is still at work. -/
def packetBefore (u : Queue) : Option PacketRun := u.runs.find? (fun r => r.index + 1 == u.ridx)

/-- The next packet may start: nothing is before it, or it is a launch with OVERLAP whose forerunner has started and, as a launch,
dispatched its tasks. -/
def mayStart (s : State) (q : Nat) : Bool :=
  let u := getQueue s q
  match packetBefore u with
  | none => true
  | some r =>
    let bs := peekPacket s q u.ridx
    byteAt bs 0 == 1 && (byteAt bs 1).testBit 2 && !packetBad bs && r.job.begun &&
      (match r.job.launch with | some id => allDispatched s id | none => true)

/-- The job of a step that may have begun: its step, or the beginning of one. -/
def stepOr (r : JobRef) (j : Job) (s : State) : State :=
  match actJob r j s with
  | .ok (_, s1) => s1
  | .error .wait => beginJob r j s
  | .error _ => s

/-- A packet that has been read begins: a malformed one is skipped, a record is over, and the others act if they can. -/
def beginPacket (r : JobRef) (bs : List Byte) (s : State) : State :=
  let j := Job.fresh bs
  if packetBad bs then endJob r j 6 r.index s else stepOr r j (putJob r j s)

/-- A packet that has started and has not been read. -/
def unreadRun (u : Queue) : Option PacketRun := u.runs.find? (fun r => r.job.bytes.isEmpty && r.job.stall.isNone && r.job.status.isNone)

/-- The next packet starts, with an acquire at scope p (R400). -/
def startRun (q : Nat) (s : State) : State :=
  let u := getQueue s q
  derrickAcquire (setQueue q { u with ridx := u.ridx + 1, runs := u.runs ++ [{ index := u.ridx, job := Job.fresh [], graph := none }] } s)

/-- A started packet is read, and begins when its kind is one of those asked for; its read begins when a home does not serve it yet. -/
def readRun (ks : List Nat) (q : Nat) (run : PacketRun) (s : State) : Out :=
  let r : JobRef := { queue := q, index := run.index, node := none }
  match readPacket q run.index run.job.step s with
  | .ok (bs, s1) => if ks.contains (jobKind false bs) then .next (beginPacket r bs s1) else .fault .notEnabled
  | .error .wait => if run.job.step.isSome then .fault .notEnabled else .next (beginJob r run.job s)
  | .error _ => .fault .notEnabled

/-- A packet event for some kinds: a packet at work goes on, a started one is read, or the next one starts. -/
def execPacket (ks : List Nat) (q : Nat) (s : State) : Out :=
  if s.mgmt.resetting then .fault .notEnabled
  else
    match (queueJobs s q).find? (fun x => x.1.node.isNone && actionable x.1 x.2 && ks.contains (kindOf x.1 x.2)) with
    | some x => stepJob x.1 x.2 s
    | none =>
      match unreadRun (getQueue s q) with
      | some run => readRun ks q run s
      | none =>
        if !queueRuns s q ∨ !mayStart s q then .fault .notEnabled
        else readRun ks q { index := (getQueue s q).ridx, job := Job.fresh [], graph := none } (startRun q s)

/-- LAUNCH_PACKET (R402). -/
def execLaunchPacket (q : Nat) (s : State) : Out := execPacket [1] q s
/-- COPY_PACKET (R399, R411). -/
def execCopyPacket (q : Nat) (s : State) : Out := execPacket [2] q s
/-- WAIT_PACKET (R401). -/
def execWaitPacket (q : Nat) (s : State) : Out := execPacket [3] q s
/-- SIGNAL_PACKET (R401). -/
def execSignalPacket (q : Nat) (s : State) : Out := execPacket [4] q s
/-- GRAPH_PACKET (R406 to R408). -/
def execGraphPacket (q : Nat) (s : State) : Out := execPacket [5] q s
/-- RECORD_PACKET (R399); a packet of an unknown TYPE, which does nothing but end MALFORMED, is started here too. -/
def execRecordPacket (q : Nat) (s : State) : Out := execPacket [0, 6] q s

/-- The waits of a queue that have registered and are not stalled. -/
def openWaits (s : State) (q : Nat) : List (JobRef × Job) := (queueJobs s q).filter (fun x => isWaiting x.1 x.2 && x.2.stall.isNone)

/-- A wait's word is read: the wait is over when its condition holds, and is registered otherwise. -/
def checkWait (x : JobRef × Job) : QM Unit := do
  let u := jobUnit (← get) x.1 x.2
  let w ← unitRun u (jobWord u x.2)
  let j := { x.2 with step := none }
  modify (fun s => if jobCond j w then endJob x.1 j 0 0 s
    else registerWord u x.1.queue (BitVec.ofNat 64 (field j.bytes 8 8)) (putJob x.1 j s))

/-- Every wait's word is read in turn. -/
def checkWaits : List (JobRef × Job) → QM Unit
  | [] => pure ()
  | x :: xs => do
    checkWait x
    checkWaits xs

/-- The reads of waits that have not begun begin. -/
def beginWaits (xs : List (JobRef × Job)) (s : State) : Out :=
  match xs.filter (fun x => x.2.step.isNone) with
  | [] => .fault .notEnabled
  | ys => .next (ys.foldl (fun s x => beginJob x.1 x.2 s) s)

/-- The word of a wait lies in a peer, whose changes wake nothing (DESIGN CHOICE log 101). -/
def peerWait (s : State) (x : JobRef × Job) : Bool :=
  match dSpot s (jobUnit s x.1 x.2) dReads (BitVec.ofNat 64 (field x.2.bytes 8 8)) with
  | .ok (_, .peer _) => true
  | _ => false

/-- WAIT_PACKET_WAKE (R401): a registered word has changed, or may have in a peer; the waits whose condition holds are over. -/
def execWaitPacketWake (q : Nat) (s : State) : Out :=
  if ((getQueue s q).signalled = 0 ∧ !(openWaits s q).any (peerWait s)) ∨ s.mgmt.resetting then .fault .notEnabled
  else
    match checkWaits (openWaits s q) (setQueue q { getQueue s q with signalled := 0 } s) with
    | .ok (_, s1) => .next (withdraw q s1)
    | .error .wait => beginWaits (openWaits s q) s
    | .error _ => .fault .notEnabled

/-- WAIT_PACKET_TIMEOUT (R401): the word is read once more; a change applied before that read wins. -/
def execWaitPacketTimeout (q : Nat) (s : State) : Out :=
  match (openWaits s q).find? (fun x => match x.2.limit with | some l => decide (l ≤ now s) | none => false) with
  | none => .fault .notEnabled
  | some x =>
    if s.mgmt.resetting then .fault .notEnabled
    else
      let u := jobUnit s x.1 x.2
      match unitRun u (jobWord u x.2) s with
      | .ok (w, s1) => .next (withdraw q (endJob x.1 { x.2 with step := none } (if jobCond x.2 w then 0 else 7) 0 s1))
      | .error .wait => beginWaits [x] s
      | .error _ => .fault .notEnabled

/-! ### Completion (R400, R408) -/

/-- Forget a launch that has been reported. -/
def dropLaunch (j : Job) (s : State) : State :=
  match j.launch with
  | some id => { s with launches := kdel s.launches id }
  | none => s

/-- PACKET_COMPLETE (R400): the release at scope REL, then the record if it is due; the packet leaves its queue once that is written. -/
def execPacketComplete (q : Nat) (i : W64) (s : State) : Out :=
  let u := getQueue s q
  match u.runs.find? (fun r => r.index == i) with
  | none => .fault .notEnabled
  | some run =>
    match jobEnd s run.job with
    | none => .fault .notEnabled
    | some (st, sum) =>
      let fl := byteAt run.job.bytes 1
      if run.job.record.isSome ∨ !bridgeApplied s ∨ (fl / 8 % 4 = 3 ∧ !bridgeReleased s (queueCtx s q)) then .fault .notEnabled
      else
        let s1 := dropLaunch run.job s
        if fl.testBit 0 ∨ byteAt run.job.bytes 0 = 6 ∨ st ≠ 0 then
          .next (mapRun q i (fun r => { r with job := { r.job with status := some (st, sum), launch := none, record := some s1.seq } })
            (pushRecord (queueRing s q) (queueCtx s q) st (byteAt run.job.bytes 0) q (BitVec.ofNat 32 (field run.job.bytes 4 4)) sum (fl.testBit 1) s1))
        else .next (setQueue q { u with runs := u.runs.filter (fun r => r.index != i), emptySince := now s } s1)

/-- A run whose graph has a node that may start. -/
def nodeReady (n : Nat) (r : PacketRun) : Bool :=
  match r.graph with
  | some g => g.fail.isNone && (match kget? g.nodes n with
    | some nd => nd.job.isNone && decide (byteAt nd.bytes 6 ≤ nd.arrivals)
    | none => false)
  | none => false

/-- NODE_START (R408): a node whose arrivals have reached NPRED starts, with an acquire at scope p, or one that has more to do goes on. -/
def execNodeStart (q n : Nat) (s : State) : Out :=
  if s.mgmt.resetting then .fault .notEnabled
  else
    match (queueJobs s q).find? (fun x => x.1.node == some n && actionable x.1 x.2) with
    | some x => stepJob x.1 x.2 s
    | none =>
      match (getQueue s q).runs.find? (nodeReady n) with
      | none => .fault .notEnabled
      | some run =>
        let j := Job.fresh (match run.graph.bind (fun g => kget? g.nodes n) with | some nd => nd.bytes | none => [])
        .next (stepOr { queue := q, index := run.index, node := some n } j (derrickAcquire (mapNode q run.index n (fun nd => { nd with
          arrivals := nd.arrivals - byteAt nd.bytes 6, chosen := none, job := some j }) s)))

/-- The successors of a node. -/
def successors (nd : Node) : List Nat :=
  (match nd.chosen with
   | some c => [c]
   | none => if jobKind true nd.bytes = 7 then [] else [field nd.bytes 2 2, field nd.bytes 4 2]).filter (· != 65535)

/-- The status of a graph when nothing of it runs or can start (R408). -/
def graphEnd (g : Graph) : Option (Nat × W64) :=
  if g.nodes.any (fun e => e.2.job.isSome) then none
  else
    match g.fail with
    | some (n, st) => some (9, BitVec.ofNat 64 (n + st * 2 ^ 16))
    | none =>
      if g.nodes.any (fun e => decide (byteAt e.2.bytes 6 ≤ e.2.arrivals)) then none
      else match g.loopLimit with
        | some n => some (8, BitVec.ofNat 64 n)
        | none => some (0, 0)

/-- NODE_COMPLETE (R408): the release at scope p, an arrival at each successor, and the end of the graph when nothing remains. -/
def execNodeComplete (q n : Nat) (s : State) : Out :=
  match (queueJobs s q).find? (fun x => x.1.node == some n && (jobEnd s x.2).isSome) with
  | none => .fault .notEnabled
  | some x =>
    match jobEnd s x.2, nodeOf s x.1 with
    | some (st, _), some nd =>
      if x.2.record.isSome ∨ !bridgeApplied s then .fault .notEnabled
      else
        let upd := fun (g : Graph) =>
          let fail := match g.fail with | some f => some f | none => if st = 0 then none else some (n, st)
          let add := fun (k : Nat) (nd1 : Node) => if fail.isNone then { nd1 with arrivals := nd1.arrivals + ((successors nd).filter (· == k)).length } else nd1
          { g with fail := fail, nodes := g.nodes.map (fun e => (e.1, add e.1 (if e.1 = n then { e.2 with job := none } else e.2))) }
        let fin := fun (r : PacketRun) =>
          let g := r.graph.map upd
          { r with graph := g, job := { r.job with status := g.bind graphEnd } }
        .next (mapRun q x.1.index fin (dropLaunch x.2 s))
    | _, _ => .fault .notEnabled

/-! ### Doorbells and mapping (R397, R398) -/

/-- A Derrick thread slot of a core that is not fenced, and that no queue holds (R398, R434). -/
def freeSlot (s : State) : Option Nat := (List.range 128).find? (fun k => !isFenced s .derrick (k / 32) && !s.queues.any (fun e => e.2.slot == some k))

/-- A mapped queue is empty and idle. -/
def queueEmpty (u : Queue) : Bool := u.ridx == u.w && u.runs.isEmpty

/-- The least recently signalled mapped queue that is empty. -/
def victimQueue (s : State) : Option (Nat × Queue) :=
  leastBy (fun e => e.2.lastStore) (s.queues.filter (fun e => e.2.slot.isSome && queueEmpty e.2))

/-- A CTXDESTROY of the context is at work (R412). -/
def destroying (s : State) (ctx : Nat) : Bool := s.cmds.any (fun c => c.op == 2 && c.ctx == ctx && c.begun && !c.done)

/-- Another queue waits for a thread slot. -/
def othersWait (s : State) (q : Nat) : Bool := s.queues.any (fun e => e.1 != q && e.2.waiting.isSome && e.2.slot.isNone)

/-- QUEUE_DOORBELL (R397, R398, R412, R415): a free slot goes to the queues that wait before it goes to this one. -/
def execQueueDoorbell (q : Nat) (w : W64) (s : State) : Out :=
  let u := getQueue s q
  if s.mgmt.resetting then .next s
  else match u.desc with
  | none => .next s
  | some d =>
    if u.saved.isNone ∧ ((getCtx s d.ctx).st = .free ∨ destroying s d.ctx) then .next s
    else if 2 ^ d.rlog < (w - u.ridx).toNat then .next (match u.saved with
      | some id => pushSaved id d.evr (newRecord d.ctx 6 0 q 0 w false s) s
      | none => pushRecord d.evr d.ctx 6 0 q 0 w false s)
    else if u.saved.isSome then .next (setQueue q { u with w := w } s)
    else
      let u1 := { u with w := w, lastStore := s.ids, emptySince := now s }
      let s1 := setQueue q u1 { s with ids := s.ids + 1 }
      let waits := setQueue q { u1 with waiting := some (u1.waiting.getD s.ids) } s1
      if u.slot.isSome then .next s1
      else
        match freeSlot s1, victimQueue s1 with
        | some k, _ => .next (if othersWait s q then waits else setQueue q { u1 with slot := some k, waiting := none } s1)
        | none, some v => .next (setQueue q { u1 with slot := v.2.slot, waiting := none } (setQueue v.1 { v.2 with slot := none } s1))
        | none, none => .next waits

/-- The order of waiting queues: descending PRIO, then the first waiting store. -/
def waitOrder (u : Queue) : Nat :=
  match u.desc, u.waiting with
  | some d, some k => (63 - d.prio) * 2 ^ 64 + k
  | _, _ => 2 ^ 128

/-- QUEUE_MAP (R398). -/
def execQueueMap (q : Nat) (s : State) : Out :=
  let u := getQueue s q
  let ws := s.queues.filter (fun e => e.2.waiting.isSome && e.2.slot.isNone)
  match u.waiting, freeSlot s, leastBy (fun e => waitOrder e.2) ws with
  | some _, some k, some best => if best.1 = q then .next (setQueue q { u with slot := some k, waiting := none } s) else .fault .notEnabled
  | _, _, _ => .fault .notEnabled

/-- QUEUE_IDLE_UNMAP (R398). -/
def execQueueIdleUnmap (q : Nat) (s : State) : Out :=
  let u := getQueue s q
  match u.desc with
  | none => .fault .notEnabled
  | some d =>
    if u.slot.isNone ∨ !queueEmpty u ∨ now s < u.emptySince + usCycles d.idle then .fault .notEnabled
    else .next (setQueue q { u with slot := none } s)

/-! ### Faults of Derrick's accesses (R440) -/

/-- Why an access stalls: VA, WHY, ACC; and the state after the reads before it. -/
abbrev Stall := W64 × Nat × Nat × State

/-- The access at which a step stalls, if one faults. -/
def stallOf {α : Type} : Except Blocked (α × State) → Option Stall
  | .error (.access va why acc seen) => some (va, why, acc, seen)
  | _ => none

/-- The access of a job that cannot be made. -/
def jobStall (s : State) (u : Queue) (x : JobRef × Job) : Option Stall :=
  if x.2.stall.isSome ∨ x.2.bytes.isEmpty then none
  else if actionable x.1 x.2 then stallOf (actJob x.1 x.2 s)
  else if isWaiting x.1 x.2 && (decide (0 < u.signalled) || (match x.2.limit with | some l => decide (l ≤ now s) | none => false)) then
    stallOf (checkWait x s)
  else none

/-- Report a QUEUE fault; the reads that the stalled step has made stand (R83, R106). -/
def queueFault (q ctx : Nat) (e : Stall) (ref : FaultRef) (s : State) : State :=
  report { FaultRec.blank with
    kind := 8, why := e.2.1, acc := e.2.2.1, ctx := ctx, unit := ((getQueue s q).slot).getD 0, va := e.1, ref := ref } (keepReads 4 e.2.2.2 s)

/-- A record of a queue that a ring would write next and that cannot be written, with the ring. A GONE record of a context without queues
has queue 0. -/
def recordStall (s : State) (q : Nat) : Option (Nat × Record × Stall) :=
  s.rings.findSome? (fun k => match k.2.waiting with
    | rec :: _ =>
      if rec.queue = q ∧ k.2.sent.isNone ∧ ringTakes s k.1 rec then (stallOf (putRecord k.2 rec s)).map (fun e => (k.1, rec, e)) else none
    | [] => none)

/-- The read of a started packet, or of the next one, that cannot be made. -/
def readStall (s : State) (q : Nat) : Option (PacketRun × State × Stall) :=
  match unreadRun (getQueue s q) with
  | some run => (stallOf (readPacket q run.index run.job.step s)).map (fun e => (run, s, e))
  | none =>
    if queueRuns s q ∧ mayStart s q then
      let s1 := startRun q s
      let run : PacketRun := { index := (getQueue s q).ridx, job := Job.fresh [], graph := none }
      (stallOf (readPacket q run.index none s1)).map (fun e => (run, s1, e))
    else none

/-- DERRICK_ACCESS_FAULT (R440): the first access of a queue that cannot be made stalls: a job's access, a packet's read, or the write of
one of its records, whichever ring it waits for. -/
def execDerrickAccessFault (q : Nat) (s : State) : Out :=
  let ctx := queueCtx s q
  match (queueJobs s q).findSome? (fun x => (jobStall s (getQueue s q) x).map (fun e => (x, e))) with
  | some (x, e) => .next (putJob x.1 { x.2 with stall := some s.seq, step := none } (queueFault q ctx e (.queue q) s))
  | none =>
    match readStall s q with
    | some (run, s1, e) =>
      .next (putJob { queue := q, index := run.index, node := none } { run.job with stall := some s.seq, step := none }
        (queueFault q ctx e (.queue q) s1))
    | none =>
      match recordStall s q with
      | some (ring, rec, e) =>
        let r := getRing s ring
        .next (setRing ring { r with waiting := { rec with stall := some s.seq } :: r.waiting.drop 1 }
          (queueFault q rec.ctx e (.record ring) s))
      | none => .fault .notEnabled

end Sys2Proof.Machine
end

