-- ==== Sys2Proof/Machine/Commands.lean ====
section
/-! DEFINITION. Sys2Proof/Machine/Commands.lean: the host port's registers, the command ring and its commands, contexts, drains, and
answers to faults (R228 to R231, R412 to R422). COMMAND_START reads a command of the ring; its own row then performs it. -/
namespace Sys2Proof.Machine

/-! ### Host-port registers (R413) -/

/-- DCRDB (R413): ignored, with DCRERR set, when it runs more than a ring ahead of DCRRD; and ignored while a lease reset comes (R427). -/
def execDcrdb (w : W64) (s : State) : Out :=
  let p := s.port
  if s.mgmt.resetting then .next s
  else if 2 ^ p.dcrLog.toNat < (w - p.dcrRd).toNat then .next { s with port := { p with dcrErr := true } }
  else .next { s with port := { p with dcrDb := w } }

/-- DCRERR_READ (R413): the read returns the bit and clears it. -/
def execDcrerrRead (s : State) : Out :=
  .next { s with outputs := s.outputs ++ [.dcrErr s.port.dcrErr], port := { s.port with dcrErr := false } }

/-- HOST_REGISTER_WRITE (R413): the bases and sizes change only while their ring is empty; a value the register does not have is
ignored (DESIGN CHOICE log 30). -/
def execHostRegisterWrite (reg : HostReg) (v : W64) (s : State) : Out :=
  let p := s.port
  let dcrEmpty := p.dcrDb == p.dcrRd && s.cmds.isEmpty
  let frEmpty := p.frHead == p.frTail
  match reg with
  | .dcrBase => .next (if dcrEmpty && v.toNat % 64 == 0 then { s with port := { p with dcrBase := v } } else s)
  | .dcrLog => .next (if dcrEmpty && decide (4 ≤ v.toNat) && decide (v.toNat ≤ 12) then { s with port := { p with dcrLog := v } } else s)
  | .frBase => .next (if frEmpty && v.toNat % 64 == 0 then { s with port := { p with frBase := v } } else s)
  | .frLog => .next (if frEmpty && decide (4 ≤ v.toNat) && decide (v.toNat ≤ 16) then { s with port := { p with frLog := v } } else s)
  | .frHead => .next { s with port := { p with frHead := v } }
  | .dvec => .next { s with port := { p with dvec := v } }

/-! ### Checks of a command (R413, R414) -/

/-- Bytes of BODY that the command table names for an OP. -/
def namedBytes (op : Nat) : List Nat :=
  let r := fun lo n => (List.range n).map (· + lo)
  match op with
  | 1 => r 8 4 ++ r 16 8 ++ [24]
  | 3 => [8] ++ r 16 24
  | 4 | 6 => [8] ++ r 16 8
  | 5 | 15 => r 8 2 ++ r 16 8
  | 7 => r 16 16
  | 8 => r 16 8
  | 10 => [8]
  | 11 => r 16 9
  | 12 => r 8 9
  | 13 => r 8 4
  | 14 => [8] ++ r 16 16
  | 16 => r 8 3
  | 17 => r 8 4
  | _ => []

/-- Package-wide commands. -/
def isPackageWide (op : Nat) : Bool := decide (14 ≤ op)

/-- Offsets of bad fields outside those of BODY, and of bytes of BODY that the table does not name. -/
def badFrame (op : Nat) (bs : List Byte) : List Nat :=
  (if 15 < byteAt bs 1 || (isPackageWide op && byteAt bs 1 != 0) then [1] else []) ++ (if field bs 2 2 ≠ 0 then [2] else []) ++
  ((List.range 48).map (· + 8)).filter (fun o => byteAt bs o != 0 && !(namedBytes op).contains o) ++ (if field bs 57 3 ≠ 0 then [57] else [])

/-- The state of the slot does not fit the command. -/
def wrongState (op : Nat) (st : CtxState) : Bool :=
  match op with
  | 1 | 8 => st != .free
  | 9 => st != .held
  | 12 => false
  | _ => !isPackageWide op && st == .free

def ctxCode : CtxState → Nat
  | .free => 0
  | .live => 1
  | .held => 2

/-- The PASID is held by a context other than the slot's own. -/
def pasidHeld (s : State) (slot : Nat) (p : BitVec 20) : Bool :=
  s.ctxs.any (fun c => c.1 != slot && c.2.st != .free && c.2.pasid == p)

/-- Offsets of bad values of the words of a window (R78, R414). -/
def badWindow (s : State) (ctx n : Nat) (w0 w1 w2 : W64) : List Nat :=
  let size := w0.toNat % 64
  let vb := (w0.extractLsb' 21 36).toNat * 2 ^ 21
  let sized := decide (21 ≤ size) && decide (size ≤ 57)
  let clash := (getCtx s ctx).windows.any (fun e =>
    let b := (e.2.1.extractLsb' 21 36).toNat * 2 ^ 21
    e.1 != n && e.2.1.getLsbD 63 && decide (b < vb + 2 ^ size) && decide (vb < b + 2 ^ (e.2.1.toNat % 64)))
  (if w0.extractLsb' 57 6 ≠ 0 then [23] else []) ++ (if w0.extractLsb' 6 15 ≠ 0 then [16] else []) ++
  (if w1.extractLsb' 52 12 ≠ 0 then [30] else []) ++ (if w1.extractLsb' 0 21 ≠ 0 then [24] else []) ++
  (if w2.extractLsb' 13 51 ≠ 0 then [33] else []) ++ (if w2.extractLsb' 3 5 ≠ 0 then [32] else []) ++
  (if !w0.getLsbD 63 then [] else
    (if sized then [] else [16]) ++
    (if vb % 2 ^ size ≠ 0 then [18] else []) ++
    (if (w1.extractLsb' 21 31).toNat * 2 ^ 21 % 2 ^ size ≠ 0 then [26] else []) ++
    (if sized && clash then [18] else []))

/-- Offsets of bad values of a TIERSET (R421). -/
def badTier (s : State) (port base size : Nat) : List Nat :=
  if 3 < port then [8]
  else
    let others := s.tiers.filter (fun t => t.1 != port)
    (if s.links.contains (.cxl, port) then [] else [8]) ++ (if size = 0 then [] else
    (if base % 2 ^ 30 ≠ 0 ∨ base < 2 ^ 40 ∨ 2 ^ 48 < base + size ∨
        others.any (fun t => decide (t.2.1 < base + size) && decide (base < t.2.1 + t.2.2)) then [16] else []) ++
    (if size % 2 ^ 30 ≠ 0 ∨ 2 ^ 42 < (others.map (·.2.2)).foldl (· + ·) size then [24] else []))

/-- Offsets of bad values of the fields of BODY. -/
def badValues (s : State) (op ctx : Nat) (bs : List Byte) : List Nat :=
  let f := field bs
  let upTo := fun o n top => if top < f o n then [o] else []
  match op with
  | 1 =>
    (if 2 ^ 20 ≤ f 8 4 ∨ pasidHeld s ctx (BitVec.ofNat 20 (f 8 4)) then [8] else []) ++
    (if f 16 8 % 65536 ≠ 0 ∨ 2 ^ 48 ≤ f 16 8 then [16] else []) ++ (if f 24 1 < 10 ∨ 40 < f 24 1 then [24] else [])
  | 3 => upTo 8 1 15 ++ badWindow s ctx (f 8 1) (BitVec.ofNat 64 (f 16 8)) (BitVec.ofNat 64 (f 24 8)) (BitVec.ofNat 64 (f 32 8))
  | 4 => upTo 8 1 7
  | 5 => upTo 8 2 4095
  | 6 => upTo 8 1 63
  | 7 | 8 => if f 16 8 % 4096 ≠ 0 ∨ 2 ^ 48 ≤ f 16 8 then [16] else []
  | 10 => if f 8 1 < 10 ∨ 40 < f 8 1 then [8] else []
  | 11 =>
    (if f 16 8 % 2 ^ f 24 1 ≠ 0 ∨ 2 ^ 52 ≤ f 16 8 then [16] else []) ++ (if f 24 1 < 16 ∨ 52 < f 24 1 then [24] else [])
  | 13 => if 2 ^ 18 ≤ f 8 4 then [8] else []
  | 14 => badTier s (f 8 1) (f 16 8) (f 24 8)
  | 15 => upTo 8 2 8191
  | 16 => upTo 8 2 575 ++ upTo 10 1 4
  | 17 => upTo 8 2 575 ++ upTo 10 1 7 ++ upTo 11 1 7
  | _ => []

/-- The reply of a command that changes nothing: BUSY, REJECTED or NOCTX, with DETAIL. -/
def refuseCmd (s : State) (c : CmdRun) : Option (Nat × Nat) :=
  let st := (getCtx s c.ctx).st
  if c.op ≠ 10 ∧ c.op ≠ 12 ∧ !isPackageWide c.op ∧ ctxOutstanding s c.ctx then some (2, 0)
  else
    let wrong := decide (c.ctx ≤ 15) && wrongState c.op st
    let bad := badFrame c.op c.bytes ++ (if wrong || decide (15 < c.ctx) then [] else badValues s c.op c.ctx c.bytes)
    match leastBy (fun (o : Nat) => o) bad with
    | some o => some (1, o)
    | none => if wrong then some (3, ctxCode st) else none

/-- The device's firmware serves the ring. -/
def ringServed (s : State) : Bool := (s.mgmt.pkg == .idle || s.mgmt.pkg == .leased) && !s.mgmt.resetting

/-- The row of the opcode table that performs a command: OP and the part of BODY that chooses among rows. -/
def hasRow (op : Nat) (bs : List Byte) : Bool :=
  match op with
  | 12 => decide (1 ≤ byteAt bs 16) && decide (byteAt bs 16 ≤ 4)
  | 16 => decide (byteAt bs 10 ≤ 4)
  | _ => decide (1 ≤ op) && decide (op ≤ 17)

/-- A pending fault by its SEQ. -/
def pendingFault (s : State) (seq : W64) : Option FaultRec := s.faults.find? (fun f => f.seq == seq)
def ansSeq (c : CmdRun) : W64 := BitVec.ofNat 64 (field c.bytes 8 8)

/-- The release at scope y of a command's reply (R414): that of the context it names, or of no context when it is package-wide. -/
def cmdReleased (s : State) (c : CmdRun) : Bool := bridgeReleased s (if isPackageWide c.op then 16 else c.ctx)

/-- The answer to a command that has no row of its own. -/
def rowlessReply (s : State) (c : CmdRun) : Nat × Nat :=
  if c.op < 1 ∨ 17 < c.op then (1, 0)
  else match refuseCmd s c with
    | some r => r
    | none => if c.op = 12 ∧ (pendingFault s (ansSeq c)).isNone then (4, 0) else (1, if c.op = 12 then 16 else 10)

/-- DCRDB covers a command that has not started (R413). -/
def cmdCovered (s : State) : Bool :=
  let n := (s.port.dcrDb - s.port.dcrRd).toNat
  decide (s.cmds.length < n) && decide (n ≤ 2 ^ s.port.dcrLog.toNat)

/-- COMMAND_START (R414): once the host's earlier writes to device memory are applied, the next command is read; one with no row of its own
is answered at once. -/
def execCommandStart (s : State) : Out :=
  let p := s.port
  let i := p.dcrRd + BitVec.ofNat 64 s.cmds.length
  if !ringServed s ∨ !cmdCovered s ∨ s.cmds.any (fun c => !c.begun) ∨ !bridgeApplied s then .fault .notEnabled
  else
    let bs := readBytes s.hostMem (cmdAddr s i) 64
    let c : CmdRun := {
      index := i, op := byteAt bs 0, ctx := byteAt bs 1, bytes := bs, begun := false, mark := 0, record := none, step := none, answer := none,
      done := false }
    let s1 := { s with cmds := s.cmds ++ [c] }
    if hasRow c.op bs then .next s1
    else if !cmdReleased s c then .fault .notEnabled
    else
      let r := rowlessReply s c
      .next (replyCmd i r.1 r.2 s1)

/-- What a command does. -/
inductive Verdict where
  | reply (status detail : Nat) (s : State)
  /-- It runs on, as `c`. -/
  | running (c : CmdRun) (s : State)
  /-- A home does not serve its accesses, which an agent makes, yet (R109). -/
  | waits (agent : Nat)

def putCmd (c : CmdRun) (s : State) : State := { s with cmds := s.cmds.map (fun x => if x.index = c.index then c else x) }

/-- The started command that a row performs. -/
def startedCmd (s : State) (op : Nat) (mine : List Byte → Bool) : Option CmdRun :=
  s.cmds.find? (fun c => !c.begun && c.op == op && mine c.bytes)

/-- A command is over: its reply is written, or waits for its release at scope y (R414). -/
def finishCmd (c : CmdRun) (status detail : Nat) (s : State) : State :=
  if cmdReleased s c then replyCmd c.index status detail s else putCmd { c with answer := some (status, detail) } s

/-- Perform a command: the checks, its effect, and the reply. A further occurrence writes a reply that has waited. -/
def runCmd (op : Nat) (mine : List Byte → Bool) (body : CmdRun → State → Verdict) (s : State) : Out :=
  match startedCmd s op mine with
  | none => .fault .notEnabled
  | some c =>
    if !ringServed s then .fault .notEnabled
    else match c.answer with
      | some r => if cmdReleased s c then .next (replyCmd c.index r.1 r.2 s) else .fault .notEnabled
      | none =>
        match refuseCmd s c with
        | some r => .next (finishCmd c r.1 r.2 s)
        | none =>
          match body c s with
          | .reply st d s1 => .next (finishCmd c st d s1)
          | .running c1 s1 => .next (putCmd { c1 with begun := true } s1)
          | .waits a => if c.step.isSome then .fault .notEnabled else .next (putCmd { c with step := some (agentQ s a) } s)

/-- Commands whose row is fixed by OP alone. -/
def runOp (op : Nat) (body : CmdRun → State → Verdict) (s : State) : Out := runCmd op (fun _ => true) body s

/-! ### Contexts and windows (R78, R414, R418, R422) -/

/-- CTXCREATE; the first one leases the package (R425). -/
def execCtxcreate (s : State) : Out :=
  runOp 1 (fun c s =>
    let s1 := setCtx s c.ctx { Ctx.init with
      st := .live, pasid := BitVec.ofNat 20 (field c.bytes 8 4), root := field c.bytes 16 8, deadlog := byteAt c.bytes 24 }
    .reply 0 0 (if s.mgmt.pkg = .idle then { s1 with mgmt := { s1.mgmt with pkg := .leased } } else s1)) s

/-- WINLOAD. -/
def execWinload (s : State) : Out :=
  runOp 3 (fun c s =>
    let f := field c.bytes
    let x := getCtx s c.ctx
    let w0 := BitVec.ofNat 64 (f 16 8)
    let ws := if w0.getLsbD 63 then kset x.windows (f 8 1) (w0, BitVec.ofNat 64 (f 24 8), BitVec.ofNat 64 (f 32 8))
      else kdel x.windows (f 8 1)
    .reply 0 0 (setCtx s c.ctx { x with windows := ws })) s

/-- RESUME. -/
def execResume (s : State) : Out := runOp 9 (fun c s => .reply 0 0 (setCtx s c.ctx { getCtx s c.ctx with st := .live })) s

/-- PEERSET: DETAIL holds the link state of each port. -/
def execPeerset (s : State) : Out :=
  runOp 13 (fun c s =>
    .reply 0 ((((List.range 18).filter (fun p => s.links.contains (.peer, p))).map (2 ^ ·)).foldl (· + ·) 0)
      (setCtx s c.ctx { getCtx s c.ctx with peers := BitVec.ofNat 18 (field c.bytes 8 4) })) s

/-! ### Quarries (R124) -/

/-- Read kerfs 1 to F − 1. -/
def readKerfs (e : QEnv) : Nat → Nat → QM (List Nat)
  | 0, _ => pure []
  | n + 1, j => do
    let b ← unitGet e.u true (BitVec.ofNat 64 (e.d.kerfs + 8 * j)) 8
    let rest ← readKerfs e n (j + 1)
    pure (natOfBytes b :: rest)

/-- Free-list numbers 0 to n − 1 are below NSLOTS. -/
def freeListOk (e : QEnv) : Nat → QM Bool
  | 0 => pure true
  | n + 1 => do
    let ok ← freeListOk e n
    let b ← unitGet e.u true (freeVa e n) 4
    pure (ok && decide (natOfBytes b < e.d.nslots))

def nondecreasing : List Nat → Bool
  | a :: b :: l => decide (a ≤ b) && nondecreasing (b :: l)
  | _ => true

/-- Complete a migration that binding finds: the entry, and the slot pushed to the free list. COPIED goes with OLDPAY (DESIGN CHOICE log
133). -/
def settleEntry (x : QEntry) : QEntry × Nat :=
  if x.copied then ({ x with state := 1, copied := false, oldPay := 0 }, x.oldSlot)
  else ({ x with state := 1, copied := false, pay := x.oldPay, slot := x.oldSlot, oldPay := 0 }, x.slot)

/-- Complete every migration found, by table position (DESIGN CHOICE log 134), counting the pushes. -/
def settleEntries (e : QEnv) : List (Nat × QEntry) → Nat → QM Nat
  | [], n => pure n
  | (i, x) :: xs, n => do
    let r := settleEntry x
    writeEntry e i r.1
    pushSlots e n [r.2]
    settleEntries e xs (n + 1)

/-- Check a quarry and bind it; the answer is whether every check holds. NLIVE and OCC both count the migrating entries, and slots that an
earlier binding of the quarry released and had not pushed are forgotten (DESIGN CHOICE log 134). -/
def bindQuarry (ctx slot : Nat) (va : W64) (b : Option Begun) : QM Bool := do
  let q := 8 * ctx + slot
  modify (setQuarry · q { Quarry.init with desc := va })
  let s ← get
  let u := unitAt s ctx (quarrySlab s q) b
  unitRun u (do
    let e ← qenv q u
    let ks ← readKerfs e (e.d.faces - 1) 0
    let es ← allEntries e (tableSize e.d)
    let fl ← freeListOk e e.d.nfree
    let cuts := 2 ^ (e.d.dim * e.d.depth) :: es.map (fun x => keyIndex x.2.key)
    if !nondecreasing ks || !ks.all (fun k => k == 0 || cuts.contains k) || e.d.nlive != es.length || e.d.occ != es.length || !fl then pure false
    else
      let mig := es.filter (fun x => x.2.state == 2)
      let n ← settleEntries e mig e.d.nfree
      if !mig.isEmpty then writeDesc e 32 4 n
      if e.d.doneGen ≠ e.d.gen then writeDesc e 60 4 e.d.gen.toNat
      modify (setQuarry · q { Quarry.init with
        desc := va, dim := e.d.dim, depth := e.d.depth, gen := e.d.gen, doneGen := e.d.gen, kerfs := ks })
      pure true)

/-- The slot's QSLOT CSR. -/
def setQslot (ctx slot : Nat) (va : W64) (s : State) : State :=
  let x := getCtx s ctx
  setCtx s ctx { x with qslots := if va = 0 then kdel x.qslots slot else kset x.qslots slot va }

/-- Faults of a kind of source are dropped: pending ones go, and reports on their way take no answer. -/
def dropFaults (p : FaultRec → Bool) (s : State) : State :=
  { s with faults := s.faults.filter (fun f => !p f), faultsOut := s.faultsOut.map (fun f => if p f then { f with ref := .none } else f) }

/-- Steps that still wait in the quarry order of a slot end without a result, but a reply and an arrival come at once. A report of the
quarry stays pending until it is answered (R420). -/
def endSteps (q : Nat) (s : State) : State :=
  (getQuarry s q).ops.foldl (fun s op => match op with
    | .instr _ gang fid window _ _ _ _ _ => dropResult gang fid window s
    | .reply gang fid window regs _ _ => fillResult gang fid window regs s
    | .arrive gang off _ _ => migArrive (q / 8) gang off s
    | _ => s) { s with quarries := kdel s.quarries q }

/-- QBIND: a quarry that cannot be bound is rejected by its descriptor VA, and so is one whose descriptor, kerfs, table or free list meets a
window or page fault, or poison (DESIGN CHOICE log 47). The slot then stays as it was (R124). -/
def execQbind (s : State) : Out :=
  runCmd 4 (fun bs => field bs 16 8 != 0) (fun c s =>
    let slot := byteAt c.bytes 8
    let va := BitVec.ofNat 64 (field c.bytes 16 8)
    let q := 8 * c.ctx + slot
    if (getQuarry s q).mig.isSome then .reply 2 0 s
    else if va.toNat % 256 ≠ 0 ∨ 2 ^ 57 ≤ va.toNat ∨ unitFailed s 11 (quarrySlab (setQuarry s q { Quarry.init with desc := va }) q) then .reply 1 16 s
    else match bindQuarry c.ctx slot va c.step (endSteps q s) with
      | .ok (true, s1) => .reply 0 0 (setQslot c.ctx slot va (drainSlice (quarrySlab s1 q) s1))
      | .error .wait => .waits (quarrySlab (setQuarry s q { Quarry.init with desc := va }) q)
      | .ok (false, s1) => .reply 1 16 (keepReads (quarrySlab s1 q) s1 s)
      | .error b => .reply 1 16 (keepReads (quarrySlab (setQuarry s q { Quarry.init with desc := va }) q) (b.seen s) s)) s

/-- QBIND_UNBIND: steps that still wait in the quarry order end without a result. -/
def execQbindUnbind (s : State) : Out :=
  runCmd 4 (fun bs => field bs 16 8 == 0) (fun c s =>
    let slot := byteAt c.bytes 8
    let q := 8 * c.ctx + slot
    if (getQuarry s q).mig.isSome then .reply 2 0 s
    else .reply 0 0 (setQslot c.ctx slot 0 (endSteps q s))) s

/-! ### Queues and event rings (R396, R405) -/

/-- Offsets of bad fields of a queue descriptor image. -/
def badQueueImage (ctx : Nat) (d : List Byte) : List Nat :=
  let f := field d
  (if f 0 8 % 64 ≠ 0 ∨ 2 ^ 57 ≤ f 0 8 then [0] else []) ++ (if f 8 1 < 4 ∨ 16 < f 8 1 then [8] else []) ++
  (if 63 < f 9 1 then [9] else []) ++ (if f 10 1 ≠ ctx then [10] else []) ++ (if 63 < f 11 1 then [11] else []) ++
  (if f 12 4 = 0 then [12] else []) ++ (if allZero ((d.drop 24).take 40) then [] else [24])

/-- QUEUESET: the image's RIDX stands in RIDX and W. The state of a queue that a scrub has failed is held in reset (R430, DESIGN CHOICE log
141). -/
def execQueueset (s : State) : Out :=
  runOp 5 (fun c s =>
    let q := field c.bytes 8 2
    let u := getQueue s q
    if u.slot.isSome ∨ u.ridx ≠ u.w ∨ !u.runs.isEmpty then .reply 2 0 s
    else
      let d := readBytes s.hostMem (field c.bytes 16 8) 64
      match badQueueImage c.ctx d with
      | o :: _ => .reply 1 (64 + o) s
      | [] =>
        let r := BitVec.ofNat 64 (field d 16 8)
        .reply 0 0 (if unitFailed s 13 q then s else setQueue q { Queue.init with
          desc := some { ring := BitVec.ofNat 64 (field d 0 8), rlog := byteAt d 8, prio := byteAt d 9, ctx := byteAt d 10,
                         evr := byteAt d 11, idle := field d 12 4 },
          w := r, ridx := r, emptySince := now s } s)) s

/-- Offsets of bad fields of an event-ring image (DESIGN CHOICE log 15). -/
def badRingImage (d : List Byte) : List Nat :=
  let f := field d
  (if 2 ^ 57 ≤ f 0 8 then [0] else []) ++ (if f 8 1 < 4 ∨ 20 < f 8 1 then [8] else []) ++
  (if f 9 1 ≠ 0 then [9] else []) ++ (if f 10 2 < 1 ∨ 256 < f 10 2 then [10] else []) ++ (if f 12 2 = 0 then [12] else []) ++
  (if allZero ((d.drop 16).take 16) then [] else [16])

/-- EVRSET: records that waited for the ring go on waiting for their turn; a ring into which a record is on its way is not empty. -/
def execEvrset (s : State) : Out :=
  runOp 6 (fun c s =>
    let n := byteAt c.bytes 8
    let r := getRing s n
    if r.tail ≠ r.head ∨ r.sent.isSome then .reply 2 0 s
    else
      let d := readBytes s.hostMem (field c.bytes 16 8) 32
      match badRingImage d with
      | o :: _ => .reply 1 (64 + o) s
      | [] => .reply 0 0 (setRing n { r with
          set := true, ctx := c.ctx, base := BitVec.ofNat 64 (field d 0 8), elog := byteAt d 8, count := field d 10 2, time := field d 12 2,
          vector := field d 14 2, tail := 0, head := 0, pending := 0 } s)) s

/-! ### Forced reset (R229, R230, R142) -/

def ctxGangs (s : State) (ctx : Nat) : List Nat := (s.gangs.filter (fun g => g.2.ctx == ctx)).map (·.1)

/-- A queue's context. -/
def queueOf (u : Queue) (ctx : Nat) : Bool := u.saved.isNone && (match u.desc with | some d => d.ctx == ctx | none => false)

/-- SUMMARY of RESET and GONE (R403). -/
def resetSummary (atomics packets : Nat) : W64 := BitVec.ofNat 64 (atomics % 2 ^ 32 + packets % 2 ^ 32 * 2 ^ 32)

/-- A launch job that is not over ends with RESET. -/
def resetJob (s : State) (sum : W64) (j : Job) : Job :=
  match j.launch with
  | some id => if (launchEnd s id).isNone then { j with status := some (10, sum), launch := none } else j
  | none => j

/-- End every gang of a context without a save: its tasks count as retired, its launches end with RESET, its quarries are unbound and
its pending faults are dropped. The second answer is SUMMARY. -/
def forceReset (ctx : Nat) (s : State) : State × W64 :=
  let r := endGangsForced (ctxGangs s ctx) s
  let sum := resetSummary r.2.1 r.2.2
  let s1 := r.1
  let job := resetJob s1 sum
  let run := fun (p : PacketRun) => { p with
    job := job p.job, graph := p.graph.map (fun g => { g with nodes := g.nodes.map (fun e => (e.1, { e.2 with job := e.2.job.map job })) }) }
  let gone := fun (l : Nat × Launch) => l.2.ctx == ctx && (launchEnd s1 l.1).isNone
  let s2 := { s1 with
    tasks := s1.tasks.map (fun t => if t.2.ctx = ctx ∧ t.2.st ≠ .retired then (t.1, { t.2 with st := .retired, failed := true, gangsLeft := 0 }) else t)
    queues := s1.queues.map (fun e => if queueOf e.2 ctx then (e.1, { e.2 with runs := e.2.runs.map run }) else e)
    launches := s1.launches.filter (fun l => !gone l)
    quarries := s1.quarries.filter (fun q => q.1 / 8 != ctx) }
  let s3 := setCtx s2 ctx { getCtx s2 ctx with qslots := [], saved := [], draining := none }
  (dropFaults (fun f => f.ctx == ctx && (match f.ref with | .queue _ => false | .record _ => false | _ => true)) s3, sum)

/-- Jobs and records that stall at one of some reports make their access again (R440); a wait that has registered looks at its word. -/
def unstallQueues (seqs : List W64) (s : State) : State :=
  let hit := fun (o : Option W64) => match o with | some q => seqs.contains q | none => false
  let job := fun (j : Job) => if hit j.stall then { j with stall := none } else j
  let run := fun (p : PacketRun) => { p with
    job := job p.job, graph := p.graph.map (fun g => { g with nodes := g.nodes.map (fun e => (e.1, { e.2 with job := e.2.job.map job })) }) }
  { s with
    queues := s.queues.map (fun e => (e.1, { e.2 with
      runs := e.2.runs.map run, signalled := if (queueJobs s e.1).any (fun x => hit x.2.stall) then e.2.signalled + 1 else e.2.signalled }))
    rings := s.rings.map (fun e => (e.1, { e.2 with waiting := e.2.waiting.map (fun r => if hit r.stall then { r with stall := none } else r) })) }

/-- Pending QUEUE faults of a context are dropped with it: what stalled makes its access again (R440). -/
def dropQueueFaults (ctx : Nat) (s : State) : State :=
  dropFaults (fun f => f.ctx == ctx)
    (unstallQueues ((s.faults ++ s.faultsOut).filterMap (fun f => if f.ctx = ctx ∧ f.kind = 8 then some f.seq else none)) s)

/-- The deadline has passed: the context is reset and HELD, and its DRAIN replies RESET (R229, R415). -/
def expireDrain (ctx : Nat) (d : DrainReq) (s : State) : State :=
  let s1 := dropQueueFaults ctx (forceReset ctx s).1
  let s2 := setCtx s1 ctx { getCtx s1 ctx with st := .held }
  match s2.cmds.find? (fun c => c.index == d.cmd) with
  | some c => finishCmd c 6 0 s2
  | none => s2

/-- The context's quarries wait for nothing: no step and no copy is stalled (R420). -/
def quarriesIdle (s : State) (ctx : Nat) : Bool := s.quarries.all (fun q => q.1 / 8 != ctx || (q.2.stall.isNone && q.2.ops.isEmpty &&
  (match q.2.mig with | some m => m.copying.all (·.stall.isNone) | none => true)))

/-- Nothing written for a context is on its way. -/
def ctxWritesDone (s : State) (ctx : Nat) : Bool :=
  let mine := fun (m : WriteMsg) => m.ctx == ctx && !m.phys
  !((s.slabs.map (fun b => b.2.inq)).flatten ++ s.held ++ s.applied).any mine

/-- A ring writes its next record before anything else happens to it. -/
def ringGoes (s : State) (ring : Nat) : Bool := match (getRing s ring).waiting with | x :: _ => ringTakes s ring x | [] => false

/-- No record of the context is on its way into its ring. -/
def recordsLanded (s : State) (ctx : Nat) : Bool :=
  s.rings.all (fun r => r.2.sent.isNone || (match r.2.waiting with | x :: _ => x.ctx != ctx | [] => true))

/-- Launches of the context whose last gang has retired are recorded: the retirement wins over the drain (R231). -/
def launchesRecorded (s : State) (ctx : Nat) : Bool :=
  s.queues.all (fun e => !queueOf e.2 ctx || (queueJobs s e.1).all (fun x =>
    (match x.2.launch with | some id => (launchEnd s id).isNone | none => true) &&
    !(x.2.record.isSome && x.2.status.isSome && ringGoes s (queueRing s e.1)))) &&
  s.tasks.all (fun t => t.2.ctx != ctx || t.2.flush.isEmpty)

/-- Nothing of the context but its gangs is under way. -/
def drainQuiet (s : State) (ctx : Nat) : Bool := quarriesIdle s ctx && ctxWritesDone s ctx && recordsLanded s ctx && launchesRecorded s ctx

/-- A drain is complete: no gang of the context is resident, and nothing of it is under way (R228). -/
def drainDone (s : State) (ctx : Nat) : Bool := (ctxGangs s ctx).isEmpty && drainQuiet s ctx

/-- DEADLINE_EXPIRY (R229): in the cycle of the deadline itself a drain that is complete wins (R415). A further occurrence writes a reply
that waited for its release at scope y (R414). -/
def execDeadlineExpiry (ctx : Nat) (s : State) : Out :=
  let x := getCtx s ctx
  match x.draining with
  | none =>
    (match s.cmds.find? (fun c => c.op == 7 && c.ctx == ctx && c.begun && !c.done && c.answer.isSome) with
     | some c => if s.mgmt.resetting ∨ !cmdReleased s c then .fault .notEnabled
       else .next (replyCmd c.index ((c.answer.map (·.1)).getD 0) ((c.answer.map (·.2)).getD 0) s)
     | none => .fault .notEnabled)
  | some d =>
    let last := d.start + 2 ^ x.deadlog
    if s.mgmt.resetting ∨ now s < last ∨ (now s = last ∧ drainDone s ctx) then .fault .notEnabled else .next (expireDrain ctx d s)

/-- DEADLINE (R416): a running timer keeps its start; one that has already elapsed resets the context at once. A drain that is complete in
the very cycle of the expiry wins (R415). -/
def execDeadline (s : State) : Out :=
  runOp 10 (fun c s =>
    let x := { getCtx s c.ctx with deadlog := byteAt c.bytes 8 }
    let s1 := setCtx s c.ctx x
    .reply 0 0 (match x.draining with
      | some d =>
        let last := d.start + 2 ^ x.deadlog
        if now s < last ∨ (now s = last ∧ drainDone s c.ctx) then s1 else expireDrain c.ctx d s1
      | none => s1)) s

/-! ### CTXDESTROY (R412) -/

/-- The event ring of the GONE record: that of the context's lowest-numbered queue, else the lowest ring set for it (DESIGN CHOICE log 36). -/
def goneRing (s : State) (ctx : Nat) : Option (Nat × Nat) :=
  match s.queues.find? (fun e => queueOf e.2 ctx) with
  | some e => some (((e.2.desc.map (·.evr)).getD 0), e.1)
  | none => (s.rings.find? (fun r => r.2.set && r.2.ctx == ctx)).map (fun r => (r.1, 0))

/-- A CTXDESTROY completes after its GONE record (R412, R414). -/
def endDestroy (c : CmdRun) (s : State) : State :=
  replyCmd c.index 0 0 (freeCtx c.ctx { s with
    dropped := kdel s.dropped c.ctx
    queues := s.queues.map (fun e => if queueOf e.2 c.ctx then (e.1, Queue.init) else e) })

/-- Teardown begins (R412): the gangs are force-reset, and what waits to be written for the context is dropped; a record whose write has
been issued lands. -/
def beginDestroy (c : CmdRun) (s : State) : State :=
  let r := endGangsForced (ctxGangs s c.ctx) s
  let s1 := dropCaches c.ctx (dropQueueFaults c.ctx (forceReset c.ctx r.1).1)
  let qs := (s1.queues.filter (fun e => queueOf e.2 c.ctx)).map (·.1)
  { s1 with
    dropped := kset s1.dropped c.ctx (r.2.1, r.2.2)
    queues := s1.queues.map (fun e => if queueOf e.2 c.ctx then (e.1, { e.2 with runs := [], ridx := e.2.w, signalled := 0 }) else e)
    rings := s1.rings.map (fun e =>
      let n := if e.2.sent.isSome then 1 else 0
      (e.1, { e.2 with waiting := e.2.waiting.take n ++ (e.2.waiting.drop n).filter (fun r => r.ctx != c.ctx) }))
    wakes := s1.wakes.filter (fun w => match w.who with | .queue q => !qs.contains q | .wave _ => true)
    launches := s1.launches.filter (fun l => l.2.ctx != c.ctx)
    tasks := s1.tasks.filter (fun t => t.2.ctx != c.ctx) }

/-- The queues are unmapped and the GONE record is issued; a context with no ring for it needs none. -/
def issueGone (c : CmdRun) (s : State) : State :=
  let s1 := { s with queues := s.queues.map (fun e => if queueOf e.2 c.ctx then (e.1, { e.2 with slot := none, waiting := none }) else e) }
  match goneRing s1 c.ctx with
  | none => putCmd { c with answer := some (0, 0) } s1
  | some (ring, q) =>
    let d := kget s1.dropped c.ctx (0, 0)
    pushRecord ring c.ctx 11 0 q 0 (resetSummary d.1 d.2) false (putCmd { c with record := some s1.seq } s1)

/-- CTXDESTROY. Its first occurrence begins the teardown; once writes already issued have been performed, a further one issues the GONE
record; once that is written and the reply's release is done, a last one completes the command. -/
def execCtxdestroy (s : State) : Out :=
  let mine := fun (c : CmdRun) => c.op == 2 && c.begun && !c.done
  if !ringServed s then .fault .notEnabled
  else match s.cmds.find? (fun c => mine c && c.answer.isSome && cmdReleased s c) with
    | some c => .next (endDestroy c s)
    | none =>
      match s.cmds.find? (fun c => mine c && c.answer.isNone && c.record.isNone && ctxWritesDone s c.ctx) with
      | some c => .next (issueGone c s)
      | none => runOp 2 (fun c s => .running c (beginDestroy c s)) s

/-! ### DRAIN and GANG_SAVE (R162, R198, R228, R415) -/

/-- DRAIN: admission stops, and the deadline timer starts. -/
def execDrain (s : State) : Out :=
  runOp 7 (fun c s =>
    .running c (setCtx s c.ctx { getCtx s c.ctx with
      draining := some { cmd := c.index, save := field c.bytes 16 8, size := field c.bytes 24 8, start := now s } })) s

/-- The wave in a slot may be taken back to its outermost TBEGIN (R162). -/
def preemptible (sl : Slot) : Bool := sl.txn.isSome && sl.handler.isNone

/-- No step of a quarry is under way for a gang, and its open windows wait for nothing but accesses parked on a fault (R143, R228). -/
def windowsOver (s : State) (gid : Nat) : Bool :=
  s.quarries.all (fun q => q.2.ops.all (fun o => match o with
    | .instr _ g _ _ _ _ _ _ _ | .reply g _ _ _ _ _ | .sweep g _ _ => g != gid
    | _ => true)) &&
  (getGang s gid).fibres.all (fun f => f.2.windows.all (fun w => w.done ||
    s.reqs.any (fun r => r.gang == gid && r.fid == f.1 && r.window == w.id)))

/-- A gang has stopped: every live fibre is asleep, parked, at a barrier or join, or in a transaction that the drain may abort; its
engines are idle and its accesses are over but for those parked on a fault. -/
def gangStopped (s : State) (gid : Nat) : Bool :=
  let g := getGang s gid
  let table := (getCore s g.core).table.filter (fun b => b.gang == gid)
  let slots := s.slots.filter (fun k => k.2.gang == gid && !(k.2.fids.isEmpty && k.2.log.isEmpty))
  table.all (fun b => b.wait != .ready) && slots.all (fun k => k.2.fids.isEmpty || preemptible k.2) &&
  !([1, 2, 3].any (engineBusy s gid)) && s.reqs.all (fun r => r.gang != gid || r.seq != 0) && windowsOver s gid &&
  !(table.isEmpty && slots.isEmpty)

/-- Quiescent (R228): stopped, with every live gang of its crew that is not saved already (DESIGN CHOICE log 38). -/
def quiescent (s : State) (gid : Nat) : Bool :=
  let g := getGang s gid
  ((getCrew s g.crew).live).all (fun k => gangStopped s k || ((getCtx s g.ctx).saved).any (fun v => v.id == k))

/-- A sleeping wave's fibres go back to their TBEGIN with cause PREEMPT (R153, R162). -/
def preempt (p : Sleeper) (f : Fibre) : Fibre := { f with pc := p.beginPc, txstatus := txWord 0 p.coarse p.levels 9 }

/-- Transactions of a gang are aborted with PREEMPT, sleeping waves are withdrawn, and their fibres will run their TBEGIN afresh. -/
def preemptGang (gid : Nat) (s : State) : State :=
  let mine := s.sleepers.filter (fun e => e.2.gang == gid)
  let s1 := mine.foldl (fun s e =>
    let g := getGang s gid
    let c := getCore s g.core
    setCore (setGang s gid (mapFibres g (fun fid f => if e.2.fids.contains fid then preempt e.2 f else f))) g.core
      { c with table := c.table.map (fun b => if b.gang = gid ∧ b.wait = .asleep e.1 then { b with wait := .ready } else b) }) s
  let ids := mine.map (·.1)
  let s2 := { s1 with
    sleepers := s1.sleepers.filter (fun e => e.2.gang != gid)
    wakes := s1.wakes.filter (fun w => match w.who with | .wave k => !ids.contains k | .queue _ => true) }
  (s2.slots.filter (fun k => k.2.gang == gid && preemptible k.2)).foldl (fun s k =>
    match k.2.txn with
    | none => s
    | some t =>
      let core := k.1 / 32
      let s1 := closeTxn core k.1 gid (some t.beginPc) (some (fun w => txWord 0 (w.getLsbD 7) t.levels.length 9)) s
      let fids := (getSlot s1 k.1).fids
      toTable core gid fids .ready (leaveSlot k.1 fids s1)) s2

/-- A report that lanes of the gang wait for. -/
def faultOf (gid : Nat) (f : FaultRec) : Bool := match f.ref with | .lanes _ _ g _ _ => g == gid | _ => false

/-- Take a gang off its core with all that is its own; its writes have been released (R382). Faults of its lanes stay pending (R420). -/
def saveGang (gid : Nat) (s0 : State) : State :=
  let s := preemptGang gid s0
  let g := getGang s gid
  let core := getCore s g.core
  let cl := getCluster s (clusterOf g.core)
  let crew := getCrew s g.crew
  let v : SavedGang := {
    id := gid, gang := g, batches := core.table.filter (fun b => b.gang == gid), reqs := s.reqs.filter (fun r => r.gang == gid),
    tiles := cl.tiles.filter (fun t => t.2.holder == some gid), faults := [], answers := [] }
  let x := getCtx s g.ctx
  let s1 := { s with
    gangs := kdel s.gangs gid
    cores := kset s.cores g.core { core with
      gangs := without core.gangs [gid], table := core.table.filter (fun b => b.gang != gid),
      blocks := core.blocks.filter (fun b => b.gang != gid), frees := core.frees + (core.blocks.filter (fun b => b.gang == gid)).length }
    clusters := kset s.clusters (clusterOf g.core) { cl with
      tiles := cl.tiles.filter (fun t => t.2.holder != some gid), queueOwner := cl.queueOwner.filter (fun e => e.2 != gid) }
    crews := kset s.crews g.crew { crew with handles := freeHandles s gid g.crew crew.handles }
    slots := s.slots.map (fun k => if k.2.gang == gid then (k.1, { k.2 with log := k.2.log.filter (fun l => l.gang != gid) }) else k)
    reqs := s.reqs.filter (fun r => r.gang != gid) }
  refreshAlloc g.core (setCtx s1 g.ctx { x with saved := x.saved ++ [v] })

/-- What of a gang's content its size in a save area depends on. -/
def gangMeasure (g : Gang) (tiles reqs : Nat) : List Nat :=
  [g.fibres.length, (g.fibres.map (·.2.win)).foldl (· + ·) 0, g.granules, g.joinSets.length, g.asyncs.length, tiles, reqs]

/-- What of a context's content its size depends on: the same for a gang on its core and for a saved one. -/
def saveMeasure (s : State) (ctx : Nat) : List Nat :=
  let x := getCtx s ctx
  let live := (ctxGangs s ctx).map (fun gid =>
    let g := getGang s gid
    (gid, gangMeasure g ((getCluster s (clusterOf g.core)).tiles.filter (fun t => t.2.holder == some gid)).length
      (s.reqs.filter (fun r => r.gang == gid)).length))
  let saved := x.saved.map (fun v => (v.id, gangMeasure v.gang v.tiles.length v.reqs.length))
  [x.windows.length, x.qslots.length, (s.quarries.filter (fun q => q.1 / 8 == ctx)).length, (s.queues.filter (fun e => queueOf e.2 ctx)).length,
   (s.rings.filter (fun r => r.2.set && r.2.ctx == ctx)).length, (s.tasks.filter (fun t => t.2.ctx == ctx)).length,
   (s.launches.filter (fun l => l.2.ctx == ctx)).length] ++ ((sortBy (fun (v : Nat × List Nat) => v.1) (live ++ saved)).map (·.2)).flatten

/-- The context's size in a save area: not given, so any, at least one byte (DESIGN CHOICE log 16). -/
def saveSize (s : State) (ctx : Nat) : Nat := Config.saveBytes (saveMeasure s ctx) % 2 ^ 31 + 1

/-- Every gang of the context that is resident is quiescent. -/
def allQuiescent (s : State) (ctx : Nat) : Bool := (ctxGangs s ctx).all (quiescent s)

/-- The caches that a core's gangs use hold nothing of a context that has not been written back. -/
def coreClean (s : State) (core ctx : Nat) : Bool :=
  (l1Cores s core).all (fun k => (kget s.l1 k []).all (fun l => l.ctx != ctx || (l.lo.dirty == 0 && l.hi.dirty == 0))) &&
  (kget s.wcb core []).all (fun w => w.ctx != ctx)

/-- GANG_SAVE (R228): a quiescent gang leaves its core, its writes released first; it stays resident until every gang of its context has
stopped and their state fits the area, for otherwise SPACE leaves them all resident (R415, DEDUCED log 128). -/
def execGangSave (gid : Nat) (s : State) : Out :=
  match kget? s.gangs gid with
  | none => .fault .notEnabled
  | some g =>
    match (getCtx s g.ctx).draining with
    | none => .fault .notEnabled
    | some d =>
      if !allQuiescent s g.ctx ∨ d.size < saveSize s g.ctx then .fault .notEnabled
      else if !coreClean s g.core g.ctx then .next (releaseCaches g.core s)
      else if !ctxWritesDone s g.ctx then .fault .notEnabled
      else .next (saveGang gid s)

/-- The bytes of an area, under key 0. -/
def areaBytes (s : State) (pa n : Nat) : List Byte :=
  (((List.range ((n + 127) / 128)).map (fun i => bytesOfNat 128 (sectorUnder s (keysAt s 0) (pa / 128 + i)).toNat)).flatten).take n

/-- Write a save area: the layout is not given, so it gets any bytes (DESIGN CHOICE log 16). -/
def writeArea (pa n : Nat) (s : State) : State :=
  (List.range ((n + 127) / 128)).foldl (fun t i =>
    let bs := (List.range (min 128 (n - 128 * i))).map (fun j => (free s 11 (128 * i + j)).setWidth 8)
    storeSector (keysAt s 0) (pa / 128 + i) (byteMask 0 bs.length) (natSector (natOfBytes bs) 0 bs.length) false 4 (agentV s 4) t) { s with bridge := vset s.bridge 4 (tick56 s) }

/-- Write a drained context to its area; the slot becomes FREE. Records of the context that have not been written go with it, and so do its
faults; those that take no answer stay pending, known by the save (R420). -/
def saveCtx (ctx pa bytes : Nat) (s : State) : State :=
  let mineQ := s.queues.filter (fun e => queueOf e.2 ctx)
  let mineT := s.tasks.filter (fun t => t.2.ctx == ctx)
  let crews := mineT.map (fun t => t.2.crew)
  let fs := (s.faults ++ s.faultsOut).filter (fun f => f.ctx == ctx && f.kind == 8)
  let back := fun (v : SavedGang) => { v with faults := v.faults ++ (s.faults ++ s.faultsOut).filter (faultOf v.id) }
  let m := writeArea pa bytes s
  let own := fun (r : Record) => r.ctx == ctx
  let v : Save := {
    ctx := { getCtx s ctx with draining := none, saved := (getCtx s ctx).saved.map back }, tasks := mineT, launches := s.launches.filter (fun l => l.2.ctx == ctx),
    crews := s.crews.filter (fun c => crews.contains c.1), quarries := (s.quarries.filter (fun q => q.1 / 8 == ctx)).map (fun q => (q.1 % 8, q.2)),
    queues := mineQ, rings := s.rings.filter (fun r => r.2.set && r.2.ctx == ctx),
    records := s.rings.map (fun r => (r.1, r.2.waiting.filter own)), faults := fs, image := areaBytes m pa bytes }
  let s1 := dropFaults (fun f => f.ctx == ctx && f.ref != .noted) { m with
    faults := m.faults.map (fun f => if f.ctx = ctx ∧ f.ref = .noted then { f with ctx := 16 + s.ids } else f)
    ids := s.ids + 1
    saves := kset s.saves s.ids v
    tasks := s.tasks.filter (fun t => t.2.ctx != ctx)
    launches := s.launches.filter (fun l => l.2.ctx != ctx)
    crews := s.crews.filter (fun c => !crews.contains c.1)
    quarries := s.quarries.filter (fun q => q.1 / 8 != ctx)
    wakes := s.wakes.filter (fun w => match w.who with | .queue q => !(mineQ.map (·.1)).contains q | .wave _ => true)
    queues := s.queues.map (fun e => if queueOf e.2 ctx then (e.1, { e.2 with saved := some s.ids, slot := none, waiting := none, runs := [] }) else e)
    rings := s.rings.map (fun r => (r.1, { r.2 with
      set := r.2.set && r.2.ctx != ctx, waiting := r.2.waiting.filter (fun x => !own x) })) }
  freeCtx ctx s1

/-- The gangs that a drain has saved go back to their cores where they find room, and a BARX at which every gang of their crew has arrived
is passed (R45). -/
def putBack (ctx : Nat) (s : State) : State :=
  let vs := (getCtx s ctx).saved
  let s1 := vs.foldl (fun s v =>
    let x := getCtx s ctx
    match reinstate v v.gang.core (setCtx s ctx { x with saved := x.saved.filter (fun y => y.id != v.id) }) with
    | some s1 => s1
    | none => s) s
  (noteLines (vs.map (fun v => v.gang.crew)) []).foldl (fun s crew => checkBarx crew s) s1

/-- DRAIN_COMPLETE (R415): no gang of the context is resident and the deadline has not passed; its state is saved. Where it does not fit,
SPACE is replied once every gang is quiescent; they stay resident, and the context is HELD. -/
def execDrainComplete (ctx : Nat) (s : State) : Out :=
  let x := getCtx s ctx
  match x.draining with
  | none => .fault .notEnabled
  | some d =>
    let n := saveSize s ctx
    if s.mgmt.resetting ∨ d.start + 2 ^ x.deadlog < now s ∨ !drainQuiet s ctx ∨ !bridgeReleased s ctx then .fault .notEnabled
    else if d.size < n then
      if !allQuiescent s ctx then .fault .notEnabled
      else .next (replyCmd d.cmd 5 n (putBack ctx (setCtx s ctx { x with st := .held, draining := none })))
    else if !drainDone s ctx then .fault .notEnabled
    else .next (replyCmd d.cmd 0 n (saveCtx ctx d.save n s))

/-! ### RESTORE (R415, R420) -/

/-- Report a saved fault again with a new SEQ; what waited for the old SEQ waits for the new one. -/
def reportAgain (ctx unit : Nat) (f : FaultRec) (s : State) : State :=
  let seq := s.seq
  let swap := fun (o : Option W64) => if o = some f.seq then some seq else o
  let job := fun (j : Job) => { j with stall := swap j.stall }
  let run := fun (p : PacketRun) => { p with
    job := job p.job, graph := p.graph.map (fun g => { g with nodes := g.nodes.map (fun e => (e.1, { e.2 with job := e.2.job.map job })) }) }
  let s1 := report { f with ctx := ctx, unit := unit } s
  { s1 with
    queues := s1.queues.map (fun e => (e.1, { e.2 with runs := e.2.runs.map run }))
    rings := s1.rings.map (fun e => (e.1, { e.2 with waiting := e.2.waiting.map (fun r => { r with stall := swap r.stall }) })) }

/-- A pending fault of a saved gang is reported again with a new SEQ, which its lanes, accesses and traps then wait for. -/
def renewFault (g : SavedGang) (f : FaultRec) (s : State) : SavedGang × State :=
  let seq := s.seq
  let park := fun (x : Fibre) => match x.park with
    | .fault q va fetch => if q = f.seq then { x with park := .fault seq va fetch } else x
    | _ => x
  let g1 := mapFibres g.gang (fun _ x => park x)
  ({ g with
    gang := { g1 with asyncs := g1.asyncs.map (fun a => if a.seq = some f.seq then { a with seq := some seq } else a) }
    reqs := g.reqs.map (fun r => if r.seq = f.seq then { r with seq := seq } else r) }, report { f with ctx := g.gang.ctx } s)

/-- All of a saved gang's, and those of several. -/
def renewGang (g : SavedGang) (s : State) : SavedGang × State :=
  let r := g.faults.foldl (fun (r : SavedGang × State) f => renewFault r.1 f r.2) (g, s)
  ({ r.1 with faults := [] }, r.2)
def renewGangs : List SavedGang → State → List SavedGang × State
  | [], s => ([], s)
  | g :: gs, s =>
    let r := renewGang g s
    let t := renewGangs gs r.2
    (r.1 :: t.1, t.2)

/-- Records of a ring by SEQ (R404). -/
def bySeq (rs : List Record) : List Record := sortBy (fun (r : Record) => r.seq.toNat) rs

/-- Reload a save into a slot: its number is `id`. What its faults, records and generations are known by follows the slot (R404, R415,
R420). -/
def restoreCtx (ctx id : Nat) (v : Save) (s : State) : State :=
  let back := fun (e : Nat × Queue) (u : Queue) =>
    let busy := (if u.saved = some id then u.w else e.2.w) != e.2.ridx || !e.2.runs.isEmpty
    { e.2 with
      desc := e.2.desc.map (fun d => { d with ctx := ctx }), saved := none, w := if u.saved = some id then u.w else e.2.w, slot := none,
      waiting := if busy then some s.ids else none, signalled := 1, emptySince := now s : Queue }
  let rings := v.rings.foldl (fun m r =>
    let u := kget m r.1 EventRing.init
    if u.set then m else kset m r.1 { r.2 with ctx := ctx, head := u.head, waiting := u.waiting }) s.rings
  let s1 := { s with
    ids := s.ids + 1
    tasks := v.tasks.foldl (fun m t => kset m t.1 { t.2 with
      ctx := ctx, startGens := t.2.startGens.foldl (fun m g => kset m (8 * ctx + g.1 % 8) g.2) [] }) s.tasks
    launches := v.launches.foldl (fun m l => kset m l.1 { l.2 with ctx := ctx }) s.launches
    crews := v.crews.foldl (fun m c => kset m c.1 c.2) s.crews
    quarries := v.quarries.foldl (fun m q => kset m (8 * ctx + q.1) q.2) s.quarries
    queues := v.queues.foldl (fun m e =>
      let u := kget m e.1 Queue.init
      if u.saved = some id ∨ u.desc = none then kset m e.1 (back e u) else m) s.queues
    rings := v.records.foldl (fun m r => if r.2.isEmpty then m else kmod m r.1 EventRing.init (fun u =>
      { u with waiting := bySeq (r.2.map (fun x => { x with ctx := ctx }) ++ u.waiting) })) rings
    saves := s.saves.map (fun e => if e.1 = id then (e.1, { e.2 with records := [] }) else e)
    faults := s.faults.map (fun f => if f.ctx = 16 + id then { f with ctx := ctx } else f) }
  let saved := v.ctx.saved.map (fun g => { g with
    gang := { g.gang with ctx := ctx }, reqs := g.reqs.map (fun r => { r with ctx := ctx }) : SavedGang })
  let r := renewGangs saved s1
  let s2 := setCtx r.2 ctx { v.ctx with st := .live, saved := r.1 }
  v.faults.foldl (fun s f => reportAgain ctx f.unit f s) s2

/-- RESTORE: the area must hold what a DRAIN wrote, wherever it stands now, which stands for its checksum (DESIGN CHOICE log 16), and its
PASID must be free. -/
def execRestore (s : State) : Out :=
  runOp 8 (fun c s =>
    let pa := field c.bytes 16 8
    match s.saves.reverse.find? (fun v => areaBytes s pa v.2.image.length == v.2.image) with
    | none => .reply 1 16 s
    | some v => if pasidHeld s c.ctx v.2.ctx.pasid then .reply 1 16 s else .reply 0 0 (restoreCtx c.ctx v.1 v.2 s)) s

/-! ### TLBINV (R417) -/

/-- Both sectors of a line under a function of sector number and content. -/
def mapLine (fn : Nat → L1Sector → L1Sector) (l : L1Line) : L1Line := { l with lo := fn (2 * l.line) l.lo, hi := fn (2 * l.line + 1) l.hi }

/-- What the caches hold of a range goes to its home, and the write-confirmed bits of its sectors are cleared (R216, R417). -/
def tlbSweep (c : CmdRun) (s : State) : State :=
  let mine := fun (ctx sec : Nat) => ctx == c.ctx && inRange c sec
  let touch := fun (core : Nat) (s : State) => maintain core mine false (wcFlush core (fun w => mine w.ctx w.sector) s)
  let s1 := (kkeys s.l1 ++ (kkeys s.wcb).filter (fun k => !(kkeys s.l1).contains k)).foldl (fun s k => touch k s) s
  let un := fun (sec : Nat) (x : L1Sector) => if inRange c sec then { x with confirmed := false } else x
  { s1 with l1 := s1.l1.map (fun e => (e.1, e.2.map (fun l => if l.ctx = c.ctx then mapLine un l else l))) }

/-- Nothing of the range is dirty, buffered or write-confirmed. -/
def tlbSwept (c : CmdRun) (s : State) : Bool :=
  let clean := fun (sec : Nat) (x : L1Sector) => !inRange c sec || (x.dirty == 0 && !x.confirmed)
  s.l1.all (fun e => e.2.all (fun l => l.ctx != c.ctx || (clean (2 * l.line) l.lo && clean (2 * l.line + 1) l.hi))) &&
  s.wcb.all (fun e => e.2.all (fun w => !(w.ctx == c.ctx && inRange c w.sector)))

/-- Accesses of the range that an old leaf may have translated or confirmed are over: every write on its way, the requests made before the
caches were swept last, and those that a home has answered since. -/
def tlbDrained (c : CmdRun) (s : State) : Bool :=
  let write := fun (m : WriteMsg) => m.ctx == c.ctx && !m.phys && inRange c m.sector
  let access := fun (r : Req) => r.ctx == c.ctx && inRange c (r.ia / 128) &&
    (match r.phase with | .faulted _ => false | .reply => true | _ => decide (r.id < c.mark))
  !((s.slabs.map (fun b => b.2.inq)).flatten ++ s.held).any write && !s.reqs.any access

/-- TLBINV: dirty bytes and write-combining entries of the range go to their homes; what is on its way is then awaited. -/
def execTlbinv (s : State) : Out :=
  runOp 11 (fun c s =>
    let s1 := tlbSweep c s
    .running { c with mark := s1.ids } s1) s

/-- TLBINV_COMPLETION: what has become dirty or write-confirmed in the range meanwhile is swept once more; when nothing has, and every
access of an old leaf has been performed or has faulted, the homes drop the leaves that they hold for the range. -/
def execTlbinvCompletion (i : W64) (s : State) : Out :=
  match s.cmds.find? (fun c => c.index == i && c.op == 11 && c.begun && !c.done) with
  | none => .fault .notEnabled
  | some c =>
    if !ringServed s then .fault .notEnabled
    else if !tlbSwept c s then
      let s1 := tlbSweep c s
      .next (putCmd { c with mark := s1.ids } s1)
    else if !tlbDrained c s ∨ !cmdReleased s c then .fault .notEnabled
    else
      let lo := field c.bytes 16 8
      let goes := fun (l : Leaf) => l.ctx == c.ctx && decide (l.first < lo + 2 ^ byteAt c.bytes 24) && decide (lo < l.first + 2 ^ l.log)
      .next (replyCmd i 0 0 (dropLeaves goes s))

/-! ### Answers to faults (R220, R420, R440) -/

/-- The answers a kind accepts: 1 Replay, 2 Reflect, 3 Kill, 4 End. -/
def acceptsAnswer (kind ans : Nat) : Bool :=
  match kind with
  | 1 => decide (ans ≤ 3)
  | 2 | 8 => ans == 1 || ans == 4
  | 3 => ans == 1
  | 4 => ans == 1 || ans == 3
  | _ => false

/-- A change to the drain of an operation. -/
def mapDrain (op : Nat) (fn : Drain → Drain) (s : State) : State :=
  { s with drains := s.drains.map (fun e => if e.1 = op then (e.1, fn e.2) else e) }

/-- The command of a copy report. -/
def stalledCopy (s : State) (core : Nat) (seq : W64) : Option CopyCmd := (getCore s core).copyq.cmds.find? (fun c => c.stall == some seq)

/-- An answer for lanes of a gang: one that is saved off its core keeps it until it returns (DESIGN CHOICE log 135). -/
def answerGang (gid : Nat) (f : FaultRec) (ans : Nat) (s : State) : State :=
  if (kget? s.gangs gid).isSome then answerLanes (getGang s gid).core gid f ans s
  else
    let x := getCtx s f.ctx
    setCtx s f.ctx { x with saved := x.saved.map (fun v => if v.id = gid then { v with answers := v.answers ++ [(f, ans)] } else v) }

/-- Answer Replay. -/
def answerReplay (f : FaultRec) (s : State) : State :=
  match f.ref with
  | .lanes _ _ gid _ _ => answerGang gid f 1 s
  | .copy core _ => match stalledCopy s core f.seq with | some c => putCopy core { c with stall := none } s | none => s
  | .quarry q => unstall q f.seq s
  | .drain op => resumeDrain op s
  | .queue _ | .record _ => unstallQueues [f.seq] s
  | .noted | .none => s

/-- End a job that stalls: MALFORMED with its index, or HEADER for a launch's header read (R390, R440). A stream copy that has moved entries
writes HTAIL before it ends, unless it is that write that stalls. -/
def endStalled (q : Nat) (seq : W64) (s : State) : State :=
  match (queueJobs s q).find? (fun x => x.2.stall == some seq) with
  | none => s
  | some x =>
    let j := { x.2 with stall := none, step := none }
    match j.stream with
    | some t =>
      if t.quit || t.closing then endJob x.1 j 6 (jobIndex x.1) (streamOver x.1 t s) else putJob x.1 { j with stream := some { t with quit := true } } s
    | none =>
      let r := if !j.bytes.isEmpty && kindOf x.1 j == 1 then (2, 0xFFFFFFFFFFFFFFFF) else (6, jobIndex x.1)
      withdraw q (endJob x.1 j r.1 r.2 s)

/-- Answer End. -/
def answerEnd (f : FaultRec) (s : State) : State :=
  match f.ref with
  | .copy core _ => match stalledCopy s core f.seq with | some c => stopCopy core c 4 s | none => s
  | .queue q => endStalled q f.seq s
  | .record ring =>
    let r := getRing s ring
    match r.waiting.find? (fun x => x.stall == some f.seq) with
    | some x => recordDone x.seq (setRing ring { r with waiting := r.waiting.filter (fun y => y.seq != x.seq) } s)
    | none => s
  | _ => s

def answerReflect (f : FaultRec) (s : State) : State :=
  match f.ref with
  | .lanes _ _ gid _ _ => answerGang gid f 2 s
  | _ => s

def answerKill (f : FaultRec) (s : State) : State :=
  match f.ref with
  | .lanes _ _ gid _ _ => answerGang gid f 3 s
  | .drain op => match kget? s.drains op with | some d => killGang d.gang 0 0 0 s | none => s
  | _ => s

/-- FAULTANS with one of the answers. -/
def answerFault (ans : Nat) (go : FaultRec → State → State) (s : State) : Out :=
  runCmd 12 (fun bs => byteAt bs 16 == ans) (fun c s =>
    match pendingFault s (ansSeq c) with
    | none => .reply 4 0 s
    | some f =>
      if acceptsAnswer f.kind ans then .reply 0 0 (go f { s with faults := s.faults.filter (fun x => x.seq != f.seq) })
      else .reply 1 16 s) s

/-- FAULTANS_REPLAY. -/
def execFaultansReplay (s : State) : Out := answerFault 1 answerReplay s
/-- FAULTANS_REFLECT. -/
def execFaultansReflect (s : State) : Out := answerFault 2 answerReflect s
/-- FAULTANS_KILL. -/
def execFaultansKill (s : State) : Out := answerFault 3 answerKill s
/-- FAULTANS_END. -/
def execFaultansEnd (s : State) : Out := answerFault 4 answerEnd s

/-! ### Package-wide commands (R223, R232, R414, R421) -/

/-- TIERSET. -/
def execTierset (s : State) : Out :=
  runOp 14 (fun c s =>
    let f := field c.bytes
    .reply 0 0 { s with tiers := if f 24 8 = 0 then kdel s.tiers (f 8 1) else kset s.tiers (f 8 1) (f 16 8, f 24 8) }) s

/-- KEYLOAD: the two 256-bit keys of an index. -/
def execKeyload (s : State) : Out :=
  runOp 15 (fun c s =>
    let i := field c.bytes 8 2
    .reply 0 0 { s with keys := kset s.keys i (BitVec.ofNat 512 (readLE s.hostMem (field c.bytes 16 8) 64)) }) s

/-- DEBUG with an action on a core; halt and resume need a claim. -/
def debugCore (action : Nat) (claim : Bool) (go : Nat → State → State) (s : State) : Out :=
  runCmd 16 (fun bs => byteAt bs 10 == action) (fun c s =>
    let core := field c.bytes 8 2
    if claim && !(getCore s core).claimed then .reply 1 10 s else .reply 0 0 (go core s)) s

/-- DEBUG_RELEASE. -/
def execDebugRelease (s : State) : Out := debugCore 0 false (fun k s => setCore s k { getCore s k with claimed := false }) s
/-- DEBUG_CLAIM. -/
def execDebugClaim (s : State) : Out := debugCore 1 false (fun k s => setCore s k { getCore s k with claimed := true }) s
/-- DEBUG_HALT. -/
def execDebugHalt (s : State) : Out := debugCore 2 true (fun k s => setCore s k { getCore s k with halted := true }) s
/-- DEBUG_RESUME. -/
def execDebugResume (s : State) : Out := debugCore 3 true resumeCore s

/-- Lanes that a handler parked issue again (R226), but for those that a report still holds. -/
def resumeParked (core : Nat) (s : State) : State :=
  (getCore s core).gangs.foldl (fun s gid =>
    let g := getGang s gid
    let held := (g.fibres.filter (fun f => f.2.park == .handler)).map (·.1)
    let go := held.filter (fun fid => parkLeft s gid fid 0 == .no)
    let c := getCore s core
    let s1 := setCore (setGang s gid (mapFibres g (fun fid f => if held.contains fid then { f with park := parkLeft s gid fid 0 } else f))) core { c with
      table := (c.table.map (fun b => if b.gang = gid ∧ b.wait = .parked then { b with fids := without b.fids go } else b)).filter
        (fun b => !b.fids.isEmpty) }
    (batchesOf g go).foldl (fun s b => toTable core gid b .ready s) s1) s

/-- DEBUG_RESUME_PARKED. -/
def execDebugResumeParked (s : State) : Out := debugCore 4 false resumeParked s

/-- PERFSEL. -/
def execPerfsel (s : State) : Out :=
  runOp 17 (fun c s =>
    let core := field c.bytes 8 2
    let k := getCore s core
    .reply 0 0 (setCore s core { k with perfSel := kset k.perfSel (byteAt c.bytes 10) (byteAt c.bytes 11) })) s

/-- LINK_STATE_CHANGE (R421, R422). -/
def execLinkStateChange (kind : LinkKind) (port : Nat) (up : Bool) (s : State) : Out :=
  let top := match kind with | .peer => 18 | .cxl => 4
  if top ≤ port then .fault .notEnabled
  else .next { s with links := if up then (if s.links.contains (kind, port) then s.links else s.links ++ [(kind, port)])
                               else s.links.filter (· != (kind, port)) }

end Sys2Proof.Machine
end

