-- ==== Sys2Proof/Machine/Float.lean ====
section
/-! DEFINITION. Sys2Proof/Machine/Float.lean: floating-point and conversion instructions (chapter 13). -/
namespace Sys2Proof.Machine

/-! ### Shared shapes -/

/-- A computation on the classes of its sources, read under FTZ (R65), with the mode fixed at issue (R63, R275). -/
def fltFn (f : Fmt) (rm : BitVec 3) (op : Nat → Bool → List Cls → Nat × Word) : AluFn := strict (fun m l =>
  op (rmOf rm m) (ftzOn m) (l.map (fun x => ftzIn (ftzOn m) f x.1.toNat)))

def cls (l : List Cls) (i : Nat) : Cls := l.getD i (.zero false)

/-- One-register FP32 or pair FP64 operation. -/
def fltSpec (h : Hdr) (ll : Bool) (t : Ty) (rm : BitVec 3) (srcs : List Src) (d : Reg)
    (op : Nat → Bool → List Cls → Nat × Word) : AluSpec :=
  { h := h, ll := ll, srcs := srcs, dst := tyDst t d, scalar := false, fn := fltFn (fmtOf t) rm op }

def addOp (f : Fmt) (m : Nat) (z : Bool) (l : List Cls) : Nat × Word := addBits f m z (cls l 0) (cls l 1)
def subOp (f : Fmt) (m : Nat) (z : Bool) (l : List Cls) : Nat × Word := addBits f m z (cls l 0) (negCls (cls l 1))
def mulOp (f : Fmt) (m : Nat) (z : Bool) (l : List Cls) : Nat × Word := mulBits f m z (cls l 0) (cls l 1)
def fmaOp (f : Fmt) (m : Nat) (z : Bool) (l : List Cls) : Nat × Word := fmaBits f m z (cls l 0) (cls l 1) (cls l 2)
def minOp (isMax : Bool) (f : Fmt) (_ : Nat) (_ : Bool) (l : List Cls) : Nat × Word :=
  ((finish f false 0 false (minMax isMax (cls l 0) (cls l 1))).1, nvIf (isSnan (cls l 0) || isSnan (cls l 1)))
def divOp (f : Fmt) (m : Nat) (z : Bool) (l : List Cls) : Nat × Word :=
  roundRes f m z (isSnan (cls l 0) || isSnan (cls l 1)) (divCls (cls l 0) (cls l 1))
/-- A unary function of R280. -/
def unOp (fn : Cls → Cls × Word) (f : Fmt) (m : Nat) (z : Bool) (l : List Cls) : Nat × Word :=
  roundRes f m z (isSnan (cls l 0)) (fn (cls l 0))
def frndOp (f : Fmt) (m : Nat) (_ : Bool) (l : List Cls) : Nat × Word := frndBits f m (cls l 0)

/-- Compare into a predicate (R278). -/
def fcmpSpec (h : Hdr) (ll : Bool) (t : Ty) (c : BitVec 8) (a : Reg) (b : Src) (d : Reg) : AluSpec :=
  { h := h, ll := ll, srcs := [tySrc t a, b], dst := .pred d.toNat, scalar := false
    fn := fltFn (fmtOf t) 0 (fun _ _ l => let r := fcmpCond (c.toNat % 8) (cls l 0) (cls l 1); (r.1.toNat, r.2)) }

/-- Element `e` of a paired operand (R273). -/
def half (v e : Nat) : Nat := v / 2 ^ (16 * e) % 2 ^ 16

/-- The paired operations (R283): both elements, flags ORed. -/
def pairFn (f : Fmt) (rm : BitVec 3) (op : Nat → Bool → List Cls → Nat × Word) : AluFn := strict (fun m l =>
  let z := ftzOn m
  let one := fun e => op (rmOf rm m) z (l.map (fun x => ftzIn z f (half x.1.toNat e)))
  let r0 := one 0
  let r1 := one 1
  (r0.1 + r1.1 * 2 ^ 16, r0.2 ||| r1.2))

def pairSpec (h : Hdr) (t : Ty) (rm : BitVec 3) (srcs : List Reg) (d : Reg) (op : Fmt → Nat → Bool → List Cls → Nat × Word) :
    AluSpec :=
  { h := h, ll := false, srcs := srcs.map (fun r => .reg r.toNat), dst := .reg d.toNat, scalar := false
    fn := pairFn (fmtOf t) rm (op (fmtOf t)) }

/-- Change bits of the register with no flag and no flushing (FABS, FNEG, R277). -/
def signSpec (f : F0) (op : Nat → Nat) : AluSpec :=
  { h := f.h, ll := false, srcs := [.reg f.a.toNat], dst := .reg f.d.toNat, scalar := false
    fn := strict (fun _ l => (op (arg l 0), 0)) }

/-- CVT (R284): the first case that applies. -/
def cvtBits (t s : Ty) (rm : BitVec 3) (nan : Bool) (fpmode : Word) (a : Nat) : Nat × Word :=
  let m := rmOf rm fpmode
  let z := ftzOn fpmode
  if s.isInt then
    if t.isInt then (putTy t (getTy s a), 0)
    else intToFloat (fmtOf t) nan m z (getTy s a)
  else
    let x := ftzIn z (fmtOf s) (a % 2 ^ s.bits)
    if t.isInt then
      let r := floatToInt t.signed t.bits m x
      (putTy t (asInt t.signed t.bits r.1), r.2)
    else floatToFloat (fmtOf t) nan m z x

/-- HWCVT (R287): a drain of one haul word with scale 1, overflow clear and index 0. -/
def hwcvtBits (t : Ty) (m : DrainMode) (h : Quad) : Nat := (drainElement h (targetOf t) m none false 0).1

/-- Stochastic rounding with its seed and the coordinates of a pair (R73, R287). -/
def srMode (nan : Bool) (seed c : Nat) : DrainMode :=
  { mode := 4, nan := nan, seed := BitVec.ofNat 64 seed, tx := c % 2 ^ 32, ty := c / 2 ^ 32 }

/-! ### The meanings -/

/-- FADD (R276). -/
def execFadd (f : F0) (s : State) : Out :=
  execAlu (fltSpec f.h false .f32 f.rm [tySrc .f32 f.a, tySrc .f32 f.b] f.d (addOp fp32)) s
/-- FADD (R276). The immediate is B (R244). -/
def execFaddImm (f : F1) (s : State) : Out :=
  execAlu (fltSpec f.h false .f32 f.rm [tySrc .f32 f.a, rawImm f] f.d (addOp fp32)) s
/-- FSUB (R276). -/
def execFsub (f : F0) (s : State) : Out :=
  execAlu (fltSpec f.h false .f32 f.rm [tySrc .f32 f.a, tySrc .f32 f.b] f.d (subOp fp32)) s
/-- FSUB (R276). The immediate is B (R244). -/
def execFsubImm (f : F1) (s : State) : Out :=
  execAlu (fltSpec f.h false .f32 f.rm [tySrc .f32 f.a, rawImm f] f.d (subOp fp32)) s
/-- FMUL (R276). -/
def execFmul (f : F0) (s : State) : Out :=
  execAlu (fltSpec f.h false .f32 f.rm [tySrc .f32 f.a, tySrc .f32 f.b] f.d (mulOp fp32)) s
/-- FMUL (R276). The immediate is B (R244). -/
def execFmulImm (f : F1) (s : State) : Out :=
  execAlu (fltSpec f.h false .f32 f.rm [tySrc .f32 f.a, rawImm f] f.d (mulOp fp32)) s
/-- FFMA (R276). -/
def execFfma (f : F0) (s : State) : Out :=
  execAlu (fltSpec f.h false .f32 f.rm [tySrc .f32 f.a, tySrc .f32 f.b, tySrc .f32 f.c] f.d (fmaOp fp32)) s
/-- FFMA with an immediate C (R276). -/
def execFfmaImm (f : F1) (s : State) : Out :=
  execAlu (fltSpec f.h false .f32 f.rm [tySrc .f32 f.a, tySrc .f32 f.b, rawImm f] f.d (fmaOp fp32)) s
/-- FMIN (R277). -/
def execFmin (f : F0) (s : State) : Out :=
  execAlu (fltSpec f.h false .f32 f.rm [tySrc .f32 f.a, tySrc .f32 f.b] f.d (minOp false fp32)) s
/-- FMIN (R277). The immediate is B (R244). -/
def execFminImm (f : F1) (s : State) : Out :=
  execAlu (fltSpec f.h false .f32 f.rm [tySrc .f32 f.a, rawImm f] f.d (minOp false fp32)) s
/-- FMAX (R277). -/
def execFmax (f : F0) (s : State) : Out :=
  execAlu (fltSpec f.h false .f32 f.rm [tySrc .f32 f.a, tySrc .f32 f.b] f.d (minOp true fp32)) s
/-- FMAX (R277). The immediate is B (R244). -/
def execFmaxImm (f : F1) (s : State) : Out :=
  execAlu (fltSpec f.h false .f32 f.rm [tySrc .f32 f.a, rawImm f] f.d (minOp true fp32)) s
/-- FABS (R277). -/
def execFabs (f : F0) (s : State) : Out :=
  execAlu (signSpec f (fun a => a % 2 ^ 31)) s
/-- FNEG (R277). -/
def execFneg (f : F0) (s : State) : Out :=
  execAlu (signSpec f (fun a => (a + 2 ^ 31) % 2 ^ 32)) s
/-- FCMP (R278). -/
def execFcmp (f : F0) (s : State) : Out :=
  execAlu (fcmpSpec f.h false .f32 f.mod f.a (tySrc .f32 f.b) f.d) s
/-- FCMP with an immediate (R278). -/
def execFcmpImm (f : F1) (s : State) : Out :=
  execAlu (fcmpSpec f.h false .f32 f.mod f.a (rawImm f) f.d) s
/-- FCLASS (R279). R60 lets a signalling NaN set NV in every instruction but FABS and FNEG, R279 says that FCLASS sets no flag: it sets
none (DEDUCED log 121). -/
def execFclass (f : F0) (s : State) : Out :=
  execAlu (signSpec f (classMask fp32)) s
/-- FDIV (R280). -/
def execFdiv (f : F0) (s : State) : Out :=
  execAlu (fltSpec f.h true .f32 f.rm [tySrc .f32 f.a, tySrc .f32 f.b] f.d (divOp fp32)) s
/-- FSQRT (R280). -/
def execFsqrt (f : F0) (s : State) : Out :=
  execAlu (fltSpec f.h true .f32 f.rm [tySrc .f32 f.a] f.d (unOp sqrtCls fp32)) s
/-- FRSQ (R280). -/
def execFrsq (f : F0) (s : State) : Out :=
  execAlu (fltSpec f.h true .f32 f.rm [tySrc .f32 f.a] f.d (unOp rsqCls fp32)) s
/-- FRCP (R280). -/
def execFrcp (f : F0) (s : State) : Out :=
  execAlu (fltSpec f.h true .f32 f.rm [tySrc .f32 f.a] f.d (unOp rcpCls fp32)) s
/-- FEXP2 (R280). -/
def execFexp2 (f : F0) (s : State) : Out :=
  execAlu (fltSpec f.h true .f32 f.rm [tySrc .f32 f.a] f.d (unOp exp2Cls fp32)) s
/-- FLOG2 (R280). -/
def execFlog2 (f : F0) (s : State) : Out :=
  execAlu (fltSpec f.h true .f32 f.rm [tySrc .f32 f.a] f.d (unOp log2Cls fp32)) s
/-- FRND (R281). -/
def execFrnd (f : F0) (s : State) : Out :=
  execAlu (fltSpec f.h false .f32 f.rm [tySrc .f32 f.a] f.d (frndOp fp32)) s
/-- DADD (R282). -/
def execDadd (f : F0) (s : State) : Out :=
  execAlu (fltSpec f.h true .f64 f.rm [tySrc .f64 f.a, tySrc .f64 f.b] f.d (addOp fp64)) s
/-- DMUL (R282). -/
def execDmul (f : F0) (s : State) : Out :=
  execAlu (fltSpec f.h true .f64 f.rm [tySrc .f64 f.a, tySrc .f64 f.b] f.d (mulOp fp64)) s
/-- DFMA (R282). -/
def execDfma (f : F0) (s : State) : Out :=
  execAlu (fltSpec f.h true .f64 f.rm [tySrc .f64 f.a, tySrc .f64 f.b, tySrc .f64 f.c] f.d (fmaOp fp64)) s
/-- DDIV (R282). -/
def execDdiv (f : F0) (s : State) : Out :=
  execAlu (fltSpec f.h true .f64 f.rm [tySrc .f64 f.a, tySrc .f64 f.b] f.d (divOp fp64)) s
/-- DMIN (R282). -/
def execDmin (f : F0) (s : State) : Out :=
  execAlu (fltSpec f.h true .f64 f.rm [tySrc .f64 f.a, tySrc .f64 f.b] f.d (minOp false fp64)) s
/-- DMAX (R282). -/
def execDmax (f : F0) (s : State) : Out :=
  execAlu (fltSpec f.h true .f64 f.rm [tySrc .f64 f.a, tySrc .f64 f.b] f.d (minOp true fp64)) s
/-- DSQRT (R282). -/
def execDsqrt (f : F0) (s : State) : Out :=
  execAlu (fltSpec f.h true .f64 f.rm [tySrc .f64 f.a] f.d (unOp sqrtCls fp64)) s
/-- DCMP (R278). -/
def execDcmp (f : F0) (s : State) : Out :=
  execAlu (fcmpSpec f.h true .f64 f.mod f.a (tySrc .f64 f.b) f.d) s
/-- HADD2 (R283). -/
def execHadd2 (f : F0) (s : State) : Out :=
  execAlu (pairSpec f.h f.ty f.rm [f.a, f.b] f.d addOp) s
/-- HMUL2 (R283). -/
def execHmul2 (f : F0) (s : State) : Out :=
  execAlu (pairSpec f.h f.ty f.rm [f.a, f.b] f.d mulOp) s
/-- HFMA2 (R283). -/
def execHfma2 (f : F0) (s : State) : Out :=
  execAlu (pairSpec f.h f.ty f.rm [f.a, f.b, f.c] f.d fmaOp) s
/-- BFMA2 (R283). -/
def execBfma2 (f : F0) (s : State) : Out :=
  execAlu (pairSpec f.h f.ty f.rm [f.a, f.b, f.c] f.d fmaOp) s
/-- CVT (R284); long-latency when either type is .f64 (R251). -/
def execCvt (f : F0) (s : State) : Out :=
  execAlu
  { h := f.h, ll := f.ty == .f64 || f.tys == .f64, srcs := [tySrc f.tys f.a], dst := tyDst f.ty f.d, scalar := false
    fn := strict (fun m l => cvtBits f.ty f.tys f.rm f.nan m (arg l 0)) } s
/-- QDEC (R286). -/
def execQdec (f : F0) (s : State) : Out :=
  execAlu
  { h := f.h, ll := false, srcs := [.reg f.a.toNat, .reg f.b.toNat, .reg f.c.toNat], dst := .reg f.d.toNat, scalar := false
    fn := strict (fun m l => qdecBits (fmtOf f.ty) (rmOf f.rm m) (ftzOn m) (arg l 0) (arg l 1) (arg l 2) (f.mod.toNat % 8)) } s
/-- HWCVT under a directed or nearest mode (R287). -/
def execHwcvt (f : F0) (s : State) : Out :=
  execAlu
  { h := f.h, ll := false, srcs := [.quad f.a.toNat], dst := .reg f.d.toNat, scalar := false
    fn := strict (fun _ l => (hwcvtBits f.ty { mode := f.rm.toNat, nan := f.nan, seed := 0, tx := 0, ty := 0 }
      (l.getD 0 (0, false)).1, 0)) } s
/-- HWCVT with .sr: seed in the pair B, coordinates in the pair C (R287, R73). -/
def execHwcvtSr (f : F0) (s : State) : Out :=
  execAlu
  { h := f.h, ll := false, srcs := [.quad f.a.toNat, .pair f.b.toNat, .pair f.c.toNat], dst := .reg f.d.toNat, scalar := false
    fn := strict (fun _ l => (hwcvtBits f.ty (srMode f.nan (arg l 1) (arg l 2)) (l.getD 0 (0, false)).1, 0)) } s

end Sys2Proof.Machine
end

