-- ==== Sys2Proof/Machine/Matrix.lean ====
section
/-! DEFINITION. Sys2Proof/Machine/Matrix.lean: MXCFG, MXOP and MXDRAIN, and the matrix engine's own steps (R93, R94, R168 to R187, R356 to
R359). -/
namespace Sys2Proof.Machine

/-! ### Configuration (R169, R172, R173, R356) -/

/-- The configuration a word gives, when it keeps R172: INT goes with INT, of any two precisions (DESIGN CHOICE log 137), and E4M3, E5M2 and
Q16N with E4M3 or E5M2. -/
def mxCfgOf (w : W64) : Option MxCfg :=
  let n := w.toNat
  let c : MxCfg := { afmt := n / 2 ^ 12 % 16, aprec := n / 2 ^ 8 % 16, bfmt := n / 16 % 16, bprec := n % 16 }
  let prec := fun fmt p => if fmt = 0 then decide (1 ≤ p) && decide (p ≤ 8) else p == 0
  if n / 2 ^ 16 % 2 ^ 32 = 0 ∧ (c.afmt = 0 ↔ c.bfmt = 0) ∧ c.afmt ≤ 3 ∧ c.bfmt ≤ 2 ∧ prec c.afmt c.aprec ∧ prec c.bfmt c.bprec then some c else none

def getTile (cl : Cluster) (t : Nat) : Tile := kget cl.tiles t Tile.init

/-- A tile is claimed by a gang. -/
def claimed (cl : Cluster) (gid t : Nat) : Bool := (getTile cl t).holder == some gid && !(getTile cl t).releasing

/-- The tile an operation works on. -/
def tileOf (op : MxOp) : Nat :=
  match op.kind with
  | .mul t _ _ _ _ _ => t
  | .drain b => b.src

/-- Operations of a gang on a tile that are queued, running or still draining. -/
def pendingOn (s : State) (c gid t : Nat) : Bool :=
  let cl := getCluster s c
  s.drains.any (fun d => d.2.cluster == c && !d.2.haulPath && d.2.gang == gid && d.2.blk.src == t) ||
  cl.queues.any (fun q => q.2.any (fun o => o.gang == gid && tileOf o == t)) ||
  (match cl.running with | some o => o.gang == gid && tileOf o == t | none => false)

/-- The tiles after a claim that is not BUSY (R173). -/
def claimTiles (s : State) (c gid : Nat) (claim : BitVec 16) : KMap Tile :=
  let cl := getCluster s c
  (List.range 16).foldl (fun m t =>
    if claim.getLsbD t then (if claimed cl gid t then m else kset m t { Tile.init with holder := some gid })
    else if claimed cl gid t then
      (if pendingOn s c gid t then kset m t { getTile cl t with releasing := true } else kset m t Tile.init)
    else m) cl.tiles

/-- Free the released tiles on which nothing is pending. -/
def settleTiles (c : Nat) (s : State) : State :=
  let cl := getCluster s c
  setCluster s c { cl with tiles := cl.tiles.map (fun e =>
    match e.2.holder with
    | some gid => if e.2.releasing && !pendingOn s c gid e.1 then (e.1, Tile.init) else e
    | none => e) }

/-- The lowest free matrix queue of a cluster. -/
def freeQueue (cl : Cluster) : Option Nat := (List.range 16).find? (fun q => (kget? cl.queueOwner q).isNone)

/-- MXCFG (R173, R356). A tile of the gang's own that is still being released is awaited. -/
def execMxcfg (f : F4) (s : State) : Out :=
  let word := fun (e : Env) (a : Nat) => (readPair (getFibre e.g a) f.a.toNat).1
  execOnce f 2 true [.pair f.a.toNat] (fun e s => e.g.mxQueue.isSome || (freeQueue (getCluster s (clusterOf e.core))).isSome)
    (fun e a _ => if (mxCfgOf (word e a)).isNone then [(a, 10, word e a)] else [])
    (fun e act a s =>
    let c := clusterOf e.core
    let cl := getCluster s c
    let w := word e a
    let claim : BitVec 16 := w.extractLsb' 48 16
    let fresh := (List.range 16).filter (fun t => claim.getLsbD t && !claimed cl e.gid t)
    match (match e.g.mxQueue with | some q => some q | none => freeQueue cl), mxCfgOf w with
    | none, _ => .next s
    | _, none => .next s
    | some q, some cfg =>
      let s1 := setCluster (setGang s e.gid { e.g with mxQueue := some q }) c { cl with queueOwner := kset cl.queueOwner q e.gid }
      if fresh.any (fun t => match (getTile cl t).holder with | some g => g != e.gid | none => false) then
        .next (retireStatus f e 2 act 1 s1)
      else if fresh.any (fun t => (getTile cl t).releasing) then .next s
      else
        let s2 := setGang s1 e.gid { e.g with mxQueue := some q, mxCfg := some cfg }
        .next (retireStatus f e 2 act 0 (setCluster s2 c { cl with queueOwner := kset cl.queueOwner q e.gid, tiles := claimTiles s c e.gid claim }))) s

/-! ### Queuing (R169, R170, R175, R180) -/

/-- The gang's queue has room, or the gang has none; an operation that has started holds none (R169, DESIGN CHOICE log 138). -/
def queueRoom (e : Env) (s : State) : Bool :=
  match e.g.mxQueue with
  | none => true
  | some q => decide ((kget (getCluster s (clusterOf e.core)).queues q []).length < 16)

/-- Enter an operation in the gang's queue, with the tile's scale domain after it. -/
def enqueueMx (e : Env) (act : List Nat) (kind : MxKind) (t : Nat) (dom : Dom) (s : State) : State :=
  let c := clusterOf e.core
  let cl := getCluster s c
  let q := e.g.mxQueue.getD 0
  let op : MxOp := { id := s.ids, gang := e.gid, fids := act, kind := kind }
  setCluster { s with ids := s.ids + 1 } c { cl with
    queues := kset cl.queues q (kget cl.queues q [] ++ [op])
    tiles := kset cl.tiles t { getTile cl t with dom := dom } }

/-- Extent of an operand (R93, R94). -/
def operandBytes (fmt : Nat) : Nat := if fmt = 3 then 8448 else 16384

/-- The scale domain an operation works in. -/
def opDom (cfg : MxCfg) (bs : List Byte) : Dom :=
  if cfg.afmt = 3 then .q16 (BitVec.ofNat 32 (field bs 16 4)) (BitVec.ofNat 32 (field bs 20 4)) else .plain

/-- The checks of an MXOP block (R175, R180, R357). -/
def mxopChecks (e : Env) (off : Nat) (bs : List Byte) (s : State) : List Check :=
  let cl := getCluster s (clusterOf e.core)
  let fl := byteAt bs 9
  let t := byteAt bs 8
  let aoff := field bs 0 4
  let boff := field bs 4 4
  let so := field bs 12 4
  let sync := fl.testBit 1
  let cfg := e.g.mxCfg.getD { afmt := 0, aprec := 1, bfmt := 0, bprec := 1 }
  let scaled := decide (field bs 16 8 ≠ 0)
  let cur := (getTile cl t).dom
  [(e.g.mxCfg.isNone || !allZero ((bs.drop 10).take 2) || !allZero ((bs.drop 24).take 36) || decide (3 < fl) || decide (15 < t) ||
      !claimed cl e.gid t || (scaled && cfg.afmt != 3), 10, off)] ++ syncParam sync so off ++
  [(aoff % 256 != 0, 4, aoff), (boff % 256 != 0, 4, boff)] ++ syncAlign sync so ++
  [(!inNeed e.g aoff (operandBytes cfg.afmt), 7, aoff), (!inNeed e.g boff 16384, 7, boff)] ++ syncBound e.g sync so ++
  [blockPoison e.g off, (!fl.testBit 0 && cur != .none && cur != opDom cfg bs, 11, t)]

/-- MXOP (R175 to R181, R357). -/
def execMxop (f : F4) (s : State) : Out :=
  execBlock f 2 false queueRoom mxopChecks (fun e act _ bs s =>
    let fl := byteAt bs 9
    let t := byteAt bs 8
    let cfg := e.g.mxCfg.getD { afmt := 0, aprec := 1, bfmt := 0, bprec := 1 }
    .next (retireQueued f e 2 act (enqueueMx e act
      (.mul t (field bs 0 4) (field bs 4 4) (fl.testBit 0) (syncOff (fl.testBit 1) (field bs 12 4)) cfg) t (opDom cfg bs) s))) s

/-- The scale a drain takes from its tile's domain. -/
def scaleOfDom : Dom → Option Word
  | .q16 _ sc => some sc
  | _ => none

/-- MXDRAIN and its haul forms: queued for the gang's matrix queue; without KEEP the tile's domain is none for what follows. -/
def queueDrain (f : F4) (disps : List Nat) (s : State) : Out :=
  execBlock f 2 false queueRoom
    (fun e off bs s => drainChecks e.g off bs disps false
      (e.g.mxCfg.isNone || decide (15 < byteAt bs 0) || !claimed (getCluster s (clusterOf e.core)) e.gid (byteAt bs 0)))
    (fun e act off bs s =>
      let t := byteAt bs 0
      let dom := (getTile (getCluster s (clusterOf e.core)) t).dom
      let b := drainBlk off bs (scaleOfDom dom)
      .next (retireQueued f e 2 act (enqueueMx e act (.drain b) t (if b.keep then dom else .none) s))) s

/-- MXDRAIN (R182, R358, R359). -/
def execMxdrain (f : F4) (s : State) : Out := queueDrain f [0, 1, 2, 3, 4] s

/-! ### The product (R70, R93, R94, R176, R177) -/

/-- Bit `p` of an operand's encoding at row (or column) `r`, index `k`. -/
def planeBit (m : Mem) (base p r k : Nat) : Bool := (readByte m (base + p * 2048 + r * 32 + k / 8)).getLsbD (k % 8)

def planeBits (m : Mem) (base np r k : Nat) : Nat :=
  (List.range np).foldl (fun n p => n + if planeBit m base p r k then 2 ^ p else 0) 0

/-- The planes of an operand that are read. -/
def planesRead (fmt prec : Nat) : Nat := match fmt with | 0 => prec | 3 => 4 | _ => 8

/-- An element of an operand: an INT of its declared precision, an FP8 value, or c(i)·s8. -/
def operandVal (m : Mem) (base fmt prec r k : Nat) : Cls :=
  let n := planeBits m base (planesRead fmt prec) r k
  match fmt with
  | 0 => ofInt (asInt true prec n) 0 false
  | 1 => classify e4m3 n
  | 2 => classify e5m2 n
  | _ => ofInt (codeOf n * Int.ofNat (readByte m (base + 8192 + r * 4 + k / 64)).toNat) 0 false

/-- One element of a tile: the products added to the element's word, and whether an addition overflowed. -/
def mxElem (mem : Mem) (aoff boff : Nat) (cfg : MxCfg) (acc : Quad) (m n : Nat) : Quad × Bool :=
  (List.range 256).foldl (fun r k =>
    let x := haulAdd r.1 (haulMul (operandVal mem aoff cfg.afmt cfg.aprec m k) (operandVal mem boff cfg.bfmt cfg.bprec n k))
    (x.1, r.2 || x.2)) (acc, false)

/-- Some sector read of an operand is poisoned (R181). -/
def operandPoison (g : Gang) (base fmt prec : Nat) : Bool :=
  let bytes := if fmt = 3 then 8448 else planesRead fmt prec * 2048
  (List.range ((bytes + 127) / 128)).any (fun i => g.scratchPoison.contains (base / 128 + i))

/-- The tile after an MXOP (R176, R181). -/
def mxResult (g : Gang) (t : Tile) (aoff boff : Nat) (zero : Bool) (cfg : MxCfg) : Tile :=
  let t0 := if zero then { t with elems := [], ovf := false, poison := false } else t
  let vals := (List.range 4096).map (fun e => (e, mxElem g.scratch aoff boff cfg (kget t0.elems e 0) (e / 64) (e % 64)))
  { t0 with
    elems := (vals.filter (fun v => v.2.1 != 0)).map (fun v => (v.1, v.2.1))
    ovf := t0.ovf || vals.any (fun v => v.2.2)
    poison := t0.poison || operandPoison g aoff cfg.afmt cfg.aprec || operandPoison g boff cfg.bfmt cfg.bprec }

/-! ### The engine's steps (R170, R179, R182, R184, R186, R191) -/

/-- The next queue in round-robin order: not empty, and no drain of it under way (R170, R187). -/
def nextQueue (s : State) (c : Nat) (cl : Cluster) : Option Nat :=
  ((List.range 16).map (fun i => (cl.lastQueue + 1 + i) % 16)).find? (fun q =>
    !(kget cl.queues q []).isEmpty && !s.drains.any (fun d => !d.2.haulPath && d.2.cluster == c && d.2.queue == q))

/-- The gang of a handle's chain takes a send from a member: ARMED and published, the sender in the mask, and the bin below NB (R191). -/
def canSend (s : State) (sender h bin : Nat) : Bool :=
  let g := getGang s sender
  let hd := kget (getCrew s g.crew).handles h Handle.init
  hd.st == .armed && hd.published && hd.mask.getLsbD g.gid && decide (bin < hd.nb)

/-- The handles a haul disposition names. -/
def destHandles (b : DrainBlk) : List Nat :=
  if b.disp = 3 then [b.dest.toNat % 64] else (List.range 64).filter (fun h => b.dest.getLsbD h)

/-- The packets of a tile for one handle: 256 beats of 16 words (DESIGN CHOICE log 13). -/
def sendTile (elem : Nat → Quad) (op : MxOp) (h bin : Nat) (s : State) : State :=
  let crew := (getGang s op.gang).crew
  { s with
    ids := s.ids + 256
    packets := s.packets ++ (List.range 256).map (fun i =>
      { id := s.ids + i, crew := crew, handle := h, bin := bin, first := 16 * i, words := (List.range 16).map (fun j => elem (16 * i + j)),
        gang := op.gang, fids := op.fids, ctx := (getGang s op.gang).ctx, cluster := clusterOf (getGang s op.gang).core, op := op.id : Packet }) }

/-- A queued drain starts: its tile is read, and armed again without KEEP; a store begins its delivery, and a haul send its packets, unless the
tile is poisoned or a handle's check fails: then it sends nothing and writes no STATUS (DESIGN CHOICE log 85). Of several handles that
fail, TRAPVAL names the lowest (R191, DESIGN CHOICE log 148). -/
def startDrain (c q : Nat) (op : MxOp) (b : DrainBlk) (s : State) : State :=
  let cl := getCluster s c
  let t := getTile cl b.src
  let elem := fun e => kget t.elems e 0
  let s1 := if b.keep then s
    else setCluster s c { cl with tiles := kset cl.tiles b.src { t with elems := [], ovf := false, poison := false } }
  let vals := if 3 ≤ b.disp then [] else drainVals elem b t.ovf
  let d : Drain := {
    id := op.id, gang := op.gang, fids := op.fids, cluster := c, queue := q, haulPath := false, blk := b,
    pieces := if 3 ≤ b.disp then [] else drainPieces b vals
    next := 0, lost := [], status := drainStatus elem t.ovf t.poison (vals.any (·.2)) false, stall := none,
    packets := 256 * (destHandles b).length, accepted := 0, poison := t.poison }
  if b.disp < 3 then sendDrain op.id { s1 with drains := kset s1.drains op.id d }
  else if t.poison then (raiseWave op.gang op.fids 14 0 s1).getD s1
  else
    match (destHandles b).find? (fun h => !canSend s op.gang h b.bin) with
    | some h => (raiseWave op.gang op.fids 17 (BitVec.ofNat 64 h) s1).getD s1
    | none =>
      if (destHandles b).isEmpty then endDrain d d.status 0 s1
      else (destHandles b).foldl (fun s h => sendTile elem op h b.bin s) { s1 with drains := kset s1.drains op.id d }

/-- MATRIX_OPERATION_START (R170): the oldest operation of the next queue; an MXOP reads its operands now. -/
def execMatrixOperationStart (c : Nat) (s : State) : Out :=
  let cl := getCluster s c
  match cl.running, nextQueue s c cl with
  | none, some q =>
    match kget cl.queues q [] with
    | [] => .fault .notEnabled
    | op :: rest =>
      let cl1 := { cl with queues := kset cl.queues q rest, lastQueue := q }
      match op.kind with
      | .mul t a b zero _ cfg =>
        .next (setCluster s c { cl1 with running := some op, runTile := some (mxResult (getGang s op.gang) (getTile cl t) a b zero cfg) })
      | .drain b => .next (settleTiles c (startDrain c q op b (setCluster s c cl1)))
  | _, _ => .fault .notEnabled

/-- MXOP_COMPLETE (R186): the sums stand in the tile, and the sync word counts 65,536 bytes. -/
def execMxopComplete (c : Nat) (s : State) : Out :=
  let cl := getCluster s c
  match cl.running, cl.runTile with
  | some op, some r =>
    match op.kind with
    | .mul t _ _ _ sync _ =>
      let cur := getTile cl t
      let s1 := setCluster s c { cl with running := none, runTile := none,
                                         tiles := kset cl.tiles t { cur with elems := r.elems, ovf := r.ovf, poison := r.poison } }
      .next (settleTiles c (syncBytes op.gang sync 65536 s1))
    | .drain _ => .fault .notEnabled
  | _, _ => .fault .notEnabled

/-- MATRIX_DRAIN_COMPLETE (R185, R186); a released tile that waited for it is freed (R173). -/
def execMatrixDrainComplete (op : Nat) (s : State) : Out :=
  match completeDrain false op s with
  | .next s1 => .next (match kget? s.drains op with | some d => settleTiles d.cluster s1 | none => s1)
  | x => x

end Sys2Proof.Machine
end

