-- ==== Sys2Proof/Machine/Haul.lean ====
section
/-! DEFINITION. Sys2Proof/Machine/Haul.lean: haul chains: arming, sending, arrival, acknowledgement, draining and freeing (R188 to R198,
R359 to R362). -/
namespace Sys2Proof.Machine

def getHandle (s : State) (crew h : Nat) : Handle := kget (getCrew s crew).handles h Handle.init
def setHandle (crew h : Nat) (v : Handle) (s : State) : State :=
  setCrew s crew { getCrew s crew with handles := kset (getCrew s crew).handles h v }

/-! ### Arming (R188, R189, R360) -/

/-- The checks of an HCHAIN block. -/
def chainChecks (e : Env) (off : Nat) (bs : List Byte) (s : State) : List Check :=
  let nb := byteAt bs 1
  let fl := byteAt bs 2
  let base := field bs 4 4
  let ex := field bs 8 4
  let mask := field bs 12 2
  let so := field bs 16 4
  let sync := fl.testBit 0
  let top := base + nb * 65536
  let meets := fun lo n => decide (base < lo + n) && decide (lo < top)
  [(byteAt bs 3 != 0 || !allZero ((bs.drop 14).take 2) || !allZero ((bs.drop 20).take 40) || decide (1 < fl) || decide (63 < byteAt bs 0) ||
      nb == 0 || decide (16 < nb) || decide (ex < 16) || ex % 16 != 0 || decide (2 ^ (getCrew s e.g.crew).size ≤ mask), 10, off)] ++
  syncParam sync so off ++ [(meets off 64 || (sync && meets so 16), 10, off)] ++
  [(base % 256 != 0, 4, base)] ++ syncAlign sync so ++
  [(!inNeed e.g base (nb * 65536), 7, base)] ++ syncBound e.g sync so ++ [blockPoison e.g off]

/-- HCHAIN (R189, R360): BUSY at once, or the chain is armed and its status follows with publication. -/
def execHchain (f : F4) (s : State) : Out :=
  execBlock f 4 true (fun _ _ => true) chainChecks (fun e act _ bs s =>
    let h := byteAt bs 0
    if (getHandle s e.g.crew h).st ≠ .free then .next (retireStatus f e 4 act 1 s)
    else
      let nb := byteAt bs 1
      let base := field bs 4 4
      let wid := s.ids
      let wr : Wr := { regs := [(f.d.toNat, 0, false)], preds := [], flags := 0 }
      let s1 := retire e 4 (fun _ => Wr.none)
        (fun fid => if act.contains fid then some (newWindow wid f.h.la.toNat wr true) else none)
        (fun _ => nextPc e.pc) { s with ids := wid + 1 }
      .next (setHandle e.g.crew h { Handle.init with
        st := .armed, gang := e.gid, base := base, nb := nb, binexp := field bs 8 4, mask := BitVec.ofNat 16 (field bs 12 2),
        sync := syncOff ((byteAt bs 2).testBit 0) (field bs 16 4), waiters := act.map (fun fid => (fid, wid)) }
        (scratchClear e.gid base (nb * 65536) s1))) s

/-- HCHAIN_PUBLISHED (R189): the handle is known to its senders, and the status is written. -/
def execHchainPublished (crew h : Nat) (s : State) : Out :=
  let hd := getHandle s crew h
  if hd.st ≠ .armed ∨ hd.published then .fault .notEnabled
  else .next (hd.waiters.foldl (fun s w => setFibre hd.gang w.1 (fun f => finishWindow f w.2) s)
    (setHandle crew h { hd with published := true, waiters := [] } s))

/-! ### Sending (R191, R361) -/

/-- HSEND (R191, R359). -/
def execHsend (f : F4) (s : State) : Out := queueDrain f [3] s
/-- HCAST (R191, R359). -/
def execHcast (f : F4) (s : State) : Out := queueDrain f [4] s

/-- A HSENDV target: handle, bin and element. -/
def sendTarget (f : F4) (g : Gang) (fid : Nat) : Nat := (readReg (getFibre g fid) f.b.toNat).1.toNat
def sendPasses (f : F4) (e : Env) (s : State) (fid : Nat) : Bool :=
  canSend s e.gid (sendTarget f e.g fid % 64) (sendTarget f e.g fid / 64 % 16)

/-- The words of lanes go out, one packet each. -/
def sendWords (f : F4) (e : Env) (fids : List Nat) (s : State) : State :=
  fids.foldl (fun s fid =>
    let t := sendTarget f e.g fid
    { s with
      ids := s.ids + 1
      packets := s.packets ++ [{ id := s.ids, crew := e.g.crew, handle := t % 64, bin := t / 64 % 16, first := t / 1024 % 4096,
                                 words := [(readQuad (getFibre e.g fid) f.a.toNat).1], gang := e.gid, fids := [fid], ctx := e.g.ctx,
                                 cluster := clusterOf e.core, op := 0 }] }) s

/-- HSENDV (R191, R361): a poisoned lane traps at once and sends nothing, and the other lanes that pass the check send; when the wave issues it
again, each lane acts as it then is (R222, DESIGN CHOICE log 118). Lanes whose check fails send nothing and take HTARGET before the wave's
next instruction; the others send one word each. -/
def execHsendv (f : F4) (s : State) : Out :=
  issue f.h false s (noScalar s) (fun e act s =>
    forbidInTxn e act s (
    orTrap e (regTraps e act [(f.a.toNat, 4), (f.b.toNat, 1)]) s (
    if !acquiresDone s e.gid act then .next (splitParked e act s)
    else
      let target := sendTarget f e.g
      let poisoned := actingPoison f.h e act [.reg f.b.toNat, .quad f.a.toNat]
      let raised := poisoned ++ (act.filter (fun fid => decide (2 ^ 22 ≤ target fid))).map (fun fid => (fid, 10, BitVec.ofNat 64 (target fid)))
      let fids := sortBy lane act
      let good := fids.filter (sendPasses f e s)
      let bad := fids.filter (fun fid => !sendPasses f e s fid)
      match pickCause raised with
      | some (14, _, _) =>
        if windowsRunning e then .next s
        else takeTrap e raised (sendWords f e (good.filter (fun fid => !poisoned.any (·.1 == fid))) s)
      | some _ => takeTrap e raised s
      | none =>
        .next ((raiseWave e.gid bad 17 (BitVec.ofNat 64 (target (bad.headD 0) % 64)) (sendWords f e good (retireQueued f e 4 act s))).getD
          (sendWords f e good (retireQueued f e 4 act s))))))

/-! ### Arrival and acknowledgement (R192 to R194, R197) -/

/-- haul_add of two packets' words, and whether an addition overflowed (R193). -/
def addWords (a b : List Quad) : List Quad × Bool :=
  let l := a.zipWith haulAdd b
  (l.map (·.1), l.any (·.2))

/-- The combined words of packets to the same elements. -/
def combine : List Quad → List Packet → List Quad × Bool
  | ws, [] => (ws, false)
  | ws, p :: ps =>
    let x := addWords ws p.words
    let y := combine x.1 ps
    (y.1, x.2 || y.2)

def packetBytes (p : Packet) : Nat := 16 * p.words.length

/-- The words are added into the bin at the receiver's bank, counted, and counted at the sync word (R192). -/
def addToBin (crew h : Nat) (p : Packet) (words : List Quad) (ovf : Bool) (bytes : Nat) (s : State) : State :=
  let hd := getHandle s crew h
  let at_ := hd.base + 65536 * p.bin + 16 * p.first
  let sums := words.zipIdx.map (fun w => haulAdd (BitVec.ofNat 128 (scratchRead s hd.gang (at_ + 16 * w.2) 16)) w.1)
  let n := 16 * words.length
  let bad := (List.range ((at_ % 128 + n + 127) / 128)).any (fun i => (getGang s hd.gang).scratchPoison.contains (at_ / 128 + i))
  let s1 := engineWrite pathHaul hd.gang at_ ((sums.map (fun x => bytesOfNat 16 x.1.toNat)).flatten) s
  let s2 := setHandle crew h { hd with
    received := kset hd.received p.bin (kget hd.received p.bin 0 + bytes)
    ovf := if ovf || sums.any (·.2) then insertNat p.bin hd.ovf else hd.ovf
    poison := if bad then insertNat p.bin hd.poison else hd.poison } s1
  syncBytes hd.gang hd.sync bytes s2

/-- The cause for which the port rejects packets to a bin, 0 for none (R194). -/
def rejectCause (s : State) (crew h bin bytes : Nat) : Nat :=
  let hd := getHandle s crew h
  if hd.st ≠ .armed ∨ (kget? s.gangs hd.gang).isNone then 17
  else if hd.binexp < kget hd.received bin 0 + bytes then 18
  else 0

/-- HAUL_PACKET_ARRIVAL (R192 to R194): one packet, or several that the haulway combined, reach the receiver's port. -/
def execHaulPacketArrival (ids : List Nat) (s : State) : Out :=
  let ps := ids.filterMap (fun i => s.packets.find? (fun p => p.id == i))
  match ps with
  | [] => .fault .notEnabled
  | p :: rest =>
    let same := fun (x : Packet) => x.crew == p.crew && x.handle == p.handle && x.bin == p.bin && x.first == p.first &&
      x.words.length == p.words.length
    if ps.length ≠ ids.length ∨ !allDistinct ids ∨ !rest.all same then .fault .notEnabled
    else
      let bytes := (ps.map packetBytes).foldl (· + ·) 0
      let cause := rejectCause s p.crew p.handle p.bin bytes
      let c := combine p.words rest
      let s1 := { s with
        packets := s.packets.filter (fun x => !ids.contains x.id)
        acks := s.acks ++ ps.map (fun x => { id := x.id, crew := x.crew, handle := x.handle, gang := x.gang, fids := x.fids, ctx := x.ctx, cluster := x.cluster, op := x.op,
                                             bytes := packetBytes x, cause := cause : HaulAck }) }
      .next (if cause = 0 then addToBin p.crew p.handle p c.1 c.2 bytes s1 else s1)

/-- A DRAINING handle with nothing outstanding becomes FREE (R197). -/
def settleHandle (crew h : Nat) (s : State) : State :=
  if (getHandle s crew h).st = .draining ∧ !s.packets.any (fun p => p.crew == crew && p.handle == h) ∧
      !s.acks.any (fun a => a.crew == crew && a.handle == h) then setHandle crew h Handle.init s
  else s

/-- A reject reaches a sender: its wave takes the trap, or the fault ring the record when nothing of it lives (R194). -/
def rejectSender (a : HaulAck) (s : State) : State :=
  match raiseWave a.gang a.fids a.cause (BitVec.ofNat 64 a.handle) s with
  | some s1 => s1
  | none => report { FaultRec.blank with kind := 5, ref := .noted, ctx := a.ctx, unit := a.cluster, ident := BitVec.ofNat 32 a.handle } s

/-- A send drain hears of one packet; it ends with the last (R185, R186). -/
def answerDrain (a : HaulAck) (s : State) : State :=
  match kget? s.drains a.op with
  | none => s
  | some d =>
    let d1 := { d with packets := d.packets - 1, accepted := d.accepted + (if a.cause = 0 then a.bytes else 0),
                       status := if a.cause = 0 then d.status else d.status ||| 32 }
    if d1.packets = 0 then settleTiles d.cluster (endDrain d1 d1.status d1.accepted s) else { s with drains := kset s.drains a.op d1 }

/-- HAUL_ACKNOWLEDGEMENT (R192, R194, R197). -/
def execHaulAcknowledgement (id : Nat) (s : State) : Out :=
  match s.acks.find? (fun a => a.id == id) with
  | none => .fault .notEnabled
  | some a =>
    let s1 := { s with acks := s.acks.filter (fun x => x.id != id) }
    let s2 := if a.cause = 0 then s1 else rejectSender a s1
    .next (settleHandle a.crew a.handle (answerDrain a s2))

/-! ### Draining and freeing (R196, R197, R359, R362) -/

/-- The gang has armed the handle. -/
def armedBy (s : State) (g : Gang) (gid h : Nat) : Bool :=
  (getHandle s g.crew h).st == .armed && (getHandle s g.crew h).gang == gid

/-- HDRAIN (R196, R359): the bin is read at issue, and armed again without KEEP; the delivery follows on the HAUL path. -/
def execHdrain (f : F4) (s : State) : Out :=
  execBlock f 4 false (fun _ _ => true)
    (fun e off bs s =>
      let src := byteAt bs 0
      drainChecks e.g off bs [0, 1] true
        (decide (64 ≤ src) || !armedBy s e.g e.gid (src % 64) || decide ((getHandle s e.g.crew (src % 64)).nb ≤ byteAt bs 4)))
    (fun e act off bs s =>
      let b := drainBlk off bs none
      let hd := getHandle s e.g.crew b.src
      let base := hd.base + 65536 * b.bin
      let elem := fun i => BitVec.ofNat 128 (scratchRead s e.gid (base + 16 * i) 16)
      let ovf := hd.ovf.contains b.bin
      let poison := hd.poison.contains b.bin || (List.range 512).any (fun i => e.g.scratchPoison.contains (base / 128 + i))
      let vals := drainVals elem b ovf
      let id := s.ids
      let d : Drain := {
        id := id, gang := e.gid, fids := act, cluster := clusterOf e.core, queue := 16, haulPath := true, blk := b,
        pieces := drainPieces b vals, next := 0, lost := [],
        status := drainStatus elem ovf poison (vals.any (·.2)) (decide (kget hd.received b.bin 0 < hd.binexp)), stall := none,
        packets := 0, accepted := 0, poison := poison }
      let s1 := retireQueued f e 4 act { s with ids := id + 1, drains := kset s.drains id d }
      let s2 := if b.keep then s1
        else setHandle e.g.crew b.src { hd with
          received := kdel hd.received b.bin, ovf := without hd.ovf [b.bin], poison := without hd.poison [b.bin] }
          (scratchClear e.gid base 65536 s1)
      .next (sendDrain id s2)) s

/-- HAUL_DRAIN_COMPLETE (R196). -/
def execHaulDrainComplete (op : Nat) (s : State) : Out := completeDrain true op s

/-- HFREE (R197, R362); publication that has not completed is awaited. -/
def execHfree (f : F4) (s : State) : Out :=
  let h := f.mod.toNat % 64
  execOnce f 4 false [] anyTime (fun e a s => if armedBy s e.g e.gid h then [] else [(a, 10, BitVec.ofNat 64 h)]) (fun e act _ s =>
    if !(getHandle s e.g.crew h).published then .next s
    else .next (settleHandle e.g.crew h (setHandle e.g.crew h { getHandle s e.g.crew h with st := .draining } (retireQueued f e 4 act s)))) s

end Sys2Proof.Machine
end

