-- ==== Sys2Proof/Machine/Management.lean ====
section
/-! DEFINITION. Sys2Proof/Machine/Management.lean: what the operator sees (chapter 28): resets and the boot ROM, leases and scrub, the
management port, fences, the error log and ageing. Byte layouts of replies that the manual does not give are in DESIGN CHOICE log 42. -/
namespace Sys2Proof.Machine

def setMgmt (m : Mgmt) (s : State) : State := { s with mgmt := m }

/-! ### Units and fences (R434, R435) -/

/-- How many units a kind has. -/
def unitCount : UnitKind → Nat
  | .core => 576
  | .cluster => 144
  | .home => 256
  | .loop => 80
  | .derrick => 4

/-- The cause of a task that a fence fails is not given: a free value (DESIGN CHOICE log 18). -/
def fenceCause (s : State) : Nat := (free s 8 0).toNat % 256

/-- A gang whose retirement is due when its unit is fenced retires (R231, R434). -/
def retireFirst (gid : Nat) (s : State) : State :=
  match execGangEnd gid s with
  | .next t => if (kget? t.gangs gid).isNone then t else s
  | _ => s

/-- The gangs of a core end, their tasks failing (R227, R434). -/
def failCore (core : Nat) (s : State) : State :=
  (getCore s core).gangs.foldl (fun s g =>
    let t := retireFirst g s
    match kget? t.gangs g with | some x => failTask x.task (fenceCause t) t | none => t) s

/-- The queues of a Derrick core are unmapped; those with work map again under R398. -/
def unmapDerrick (k : Nat) (s : State) : State :=
  let mine := fun (u : Queue) => match u.slot with | some t => t / 32 == k | none => false
  { s with
    ids := s.ids + 1
    queues := s.queues.map (fun e => if mine e.2 then
      (e.1, { e.2 with slot := none, waiting := if queueEmpty e.2 then none else some s.ids }) else e) }

/-- Fence a unit at once, with its effect on resident work and its log entry. -/
def fenceUnit (kind : UnitKind) (i : Nat) (s : State) : State :=
  if s.mgmt.fenced.contains (kind, i) then s
  else
    let s1 := logError kind i 4 0 { s with mgmt := { s.mgmt with fenced := s.mgmt.fenced ++ [(kind, i)] } }
    match kind with
    | .core => failCore i s1
    | .cluster => (List.range 4).foldl (fun s k => failCore (4 * i + k) s) s1
    | .home => wakeAll (s1.wakes.filter (fun w => w.place == .home i)) s1
    | .loop => s1
    | .derrick => unmapDerrick i s1

/-- Bits 0 to 8n − 1 as bytes. -/
def bitBytes (p : Nat → Bool) (n : Nat) : List Byte :=
  (List.range n).map (fun b => BitVec.ofNat 8 (((List.range 8).filter (fun k => p (8 * b + k))).foldl (fun a k => a + 2 ^ k) 0))

/-- One bit for each unit of every kind. -/
def unitBytes (l : List (UnitKind × Nat)) : List Byte :=
  let m := fun k n => bitBytes (fun i => l.contains (k, i)) n
  m .core 72 ++ m .cluster 18 ++ m .home 32 ++ m .loop 10 ++ m .derrick 1

/-- The fence map: 266 bytes. -/
def fenceMap (s : State) : List Byte := unitBytes s.mgmt.fenced ++ unitBytes s.mgmt.pinned

/-! ### Resets (R404, R414, R425 to R427) -/

/-- A reset of any kind: everything starts afresh but always-on storage, flash, memory with its keys, and what lies outside the
package (DESIGN CHOICE log 43). -/
def resetPackage (s : State) : State :=
  { State.reset with
    agenda := s.agenda
    steps := s.steps
    ids := s.ids
    mem := s.mem
    hostMem := s.hostMem
    peerMem := s.peerMem
    poison := s.poison
    sectorKeys := s.sectorKeys
    keys := s.keys
    saves := s.saves
    tiers := s.tiers
    links := s.links
    outputs := s.outputs
    mgmt := { s.mgmt with
      pkg := .rom, scrubClass := 0, romFailure := 0, measured := [], resetting := false, errCount := [],
      errlog := s.mgmt.errlog.map (fun e => { e with fresh := false }) } }

/-- PACKAGE_RESET (R426). -/
def execPackageReset (s : State) : Out := .next (resetPackage s)

/-- A flash image: the factory's bytes with what has been written over them. -/
def flashImage (base : List Byte) (written : Mem) : List Byte :=
  let top := written.foldl (fun n e => max n (e.1 + 1)) base.length
  (List.range top).map (fun i => (kget? written i).getD (base.getD i 0))

def slot0Image (s : State) : List Byte := flashImage Config.defaultImage s.mgmt.slot0
def tenantImage (s : State) (k : Nat) : List Byte := flashImage [] (kget s.mgmt.tenant k [])

/-- Firmware runs, and may write flash outside slot 0: not in ROM, nor during a scrub (R425, R426). -/
def firmwareRuns (s : State) : Bool := s.mgmt.pkg == .idle || s.mgmt.pkg == .leased

/-- Firmware writes bytes of a tenant slot of 64 MiB (R426, DESIGN CHOICE log 139); a slot that a scrub has failed is held in reset (R430, DESIGN
CHOICE log 141). -/
def writeFlash (slot off : Nat) (bs : List Byte) (s : State) : Out :=
  if !firmwareRuns s ∨ slot < 1 ∨ 3 < slot ∨ 2 ^ 26 < off + bs.length then .fault .notEnabled
  else if unitFailed s 15 (slot - 1) then .next s
  else
    let img := bs.zipIdx.foldl (fun m b => kset m (off + b.2) b.1) (kget s.mgmt.tenant slot [])
    .next (setMgmt { s.mgmt with tenant := kset s.mgmt.tenant slot img } s)

/-- Firmware writes the boot selector word (R426, DESIGN CHOICE log 139). -/
def writeSelector (n : Nat) (s : State) : Out :=
  if !firmwareRuns s then .fault .notEnabled else .next (setMgmt { s.mgmt with selector := n } s)

/-- The ROM boots the image that the selector names (R426 steps 3 to 5). -/
def bootImage (s : State) : State :=
  let m := s.mgmt
  let tenant := decide (1 ≤ m.selector) && decide (m.selector ≤ 3)
  let img := if tenant then tenantImage s m.selector else slot0Image s
  if !tenant && !Config.imageVerifies img then setMgmt { m with romFailure := 1 } s
  else
    let slot := if tenant then m.selector else 0
    setMgmt { m with
      pkg := if tenant then .leased else .idle
      measured := [(1, Config.shake256 Config.romBytes 64), (2, Config.shake256 (BitVec.ofNat 8 slot :: img) 64),
                   (3, Config.shake256 Config.fuses 64)] } s

/-! ### Scrub (R429, R430) -/

/-- Units of a class, and bytes of a unit. -/
def scrubUnits (s : State) : Nat → Nat × Nat
  | 1 => (256, 2147483648)
  | 2 => (256, 524288)
  | 3 => (4, 50331648)
  | 4 => (144, 4194304)
  | 5 => (576, 262144)
  | 6 => (576, 524288)
  | 7 => (18432, 6400)
  | 8 => (2304, 65536)
  | 9 => (144, 65536)
  | 10 => (400, 0)
  | 11 => (4, 294912)
  | 12 => (256, 32768)
  | 13 => (4096, 72)
  | 14 => (4, 8388608)
  | 15 => (3, 67108864)
  | 16 => (8192, 64)
  | 17 => (s.tiers.length, 0)
  | _ => (0, 0)

/-- The function that a unit of a class belongs to. -/
def scrubFence (c i : Nat) : Option (UnitKind × Nat) :=
  match c with
  | 1 | 2 | 12 => some (.home, i)
  | 4 | 9 => some (.cluster, i)
  | 5 | 6 => some (.core, i)
  | 7 => some (.core, i / 32)
  | 8 => some (.cluster, i / 16)
  | 10 => some (if i < 256 then (.home, i) else (.cluster, i - 256))
  | 14 => some (.derrick, i)
  | _ => none

/-- The second tier is scrubbed. -/
def coversTier (s : State) : Bool := s.mgmt.leaseFlags.getLsbD 0

/-- Numbers of the units that fail in a class that is scrubbed. -/
def badUnits (s : State) (c : Nat) : List Nat :=
  if c = 17 ∧ !coversTier s then [] else (Config.scrubFailures c (s.mgmt.leaseCount.toNat + 1)).filter (fun i => decide (i < (scrubUnits s c).1))

/-- The functions of R434 whose units fail in a class. -/
def failedIn (s : State) (c : Nat) : List (UnitKind × Nat) := (badUnits s c).filterMap (scrubFence c)

/-- The units of a class that fail and belong to no function of R434. -/
def failedAlone (s : State) (c : Nat) : List (Nat × Nat) := ((badUnits s c).filter (fun i => (scrubFence c i).isNone)).map (fun i => (c, i))

/-- Some unit of a class that is scrubbed fails. -/
def classFails (s : State) (c : Nat) : Bool := !(badUnits s c).isEmpty

/-- The final state of a class: its storage holds zeros and nothing valid. With the fresh keys of class 16, HBM is written with zero plaintext under key 0, whatever has come to stand there
since class 1 (R429). -/
def scrubClassState (c : Nat) (s : State) : State :=
  let keep := fun (p : Nat → Bool) => { s with mem := s.mem.filter (fun e => p e.1), poison := s.poison.filter (fun x => p (x * 128)),
                                               sectorKeys := s.sectorKeys.filter (fun e => p (e.1 * 128)) : State }
  match c with
  | 1 => keep (fun a => decide (2 ^ 39 ≤ a))
  | 2 => { s with lines := [], refill := [], stamps := [] }
  | 3 => { s with slabs := s.slabs.map (fun e => (e.1, { e.2 with copies := [] })) }
  | 4 => { s with gangs := [] }
  | 5 => { s with l1 := [], wcb := [] }
  | 6 => { s with cores := s.cores.map (fun e => (e.1, { e.2 with table := [], blocks := [] })) }
  | 7 => { s with slots := [] }
  | 8 => { s with clusters := s.clusters.map (fun e => (e.1, { e.2 with tiles := [] })) }
  | 9 => { s with packets := [] }
  | 10 => { s with wakes := [], sleepers := [] }
  | 11 => { s with quarries := [] }
  | 12 => { s with leaves := [] }
  | 13 => { s with queues := [], rings := [] }
  | 14 => { s with ctxs := [], cmds := [], launches := [], tasks := [], crews := [], faults := [], faultsOut := [] }
  | 15 => setMgmt { s.mgmt with tenant := [], selector := 0 } s
  | 16 => { keep (fun a => decide (2 ^ 39 ≤ a)) with
      mgmt := { s.mgmt with zeroed := some (Config.drbgKey 0 (s.mgmt.leaseCount.toNat + 1)) }
      keys := (List.range 8192).map (fun i => (i, Config.drbgKey i (s.mgmt.leaseCount.toNat + 1))) }
  | 17 => keep (fun a => !s.tiers.any (fun t => decide (t.2.1 ≤ a) && decide (a < t.2.1 + t.2.2)))
  | _ => s

/-- A unit of a class is left fenced. -/
def leftFenced (s : State) (c i : Nat) : Bool := match scrubFence c i with | some u => s.mgmt.fenced.contains u | none => false

/-- Bytes of a class's verified units. -/
def verifiedBytes (s : State) (c : Nat) (ok : Nat → Bool) : Nat :=
  let n := scrubUnits s c
  if c = 10 then ((List.range n.1).filter ok).foldl (fun a i => a + if i < 256 then 16384 else 4096) 0
  else if c = 17 then (s.tiers.zipIdx.filter (fun t => ok t.2)).foldl (fun a t => a + t.1.2.2) 0
  else n.2 * ((List.range n.1).filter ok).length

/-- A class entry of the record (R431). -/
def classEntry (s : State) (c : Nat) : List Byte :=
  if c = 0 ∨ 17 < c ∨ (c = 17 ∧ !coversTier s) then List.replicate 32 0
  else
    let n := (scrubUnits s c).1
    let bad := Config.scrubFailures c (s.mgmt.leaseCount.toNat + 1)
    let ok := fun i => !leftFenced s c i && !bad.contains i
    bytesOfNat 8 (verifiedBytes s c ok) ++ bytesOfNat 4 n ++ bytesOfNat 4 ((List.range n).filter ok).length ++
    bytesOfNat 4 ((List.range n).filter (fun i => leftFenced s c i || bad.contains i)).length ++ bytesOfNat 4 (Config.scrubRetries c (s.mgmt.leaseCount.toNat + 1)) ++
    [BitVec.ofNat 8 c] ++ List.replicate 7 0

/-- A byte string cut or filled with zeros to a length. -/
def padTo (n : Nat) (bs : List Byte) : List Byte := (bs ++ List.replicate n 0).take n

/-- The scrub record (R431, R432); bytes 15:8, which its table leaves out, are a free value (DESIGN CHOICE log 41). -/
def scrubRecord (s : State) : List Byte :=
  let m := s.mgmt
  let partial_ := (List.range 18).any (classFails s)
  let body := bytesOfNat 4 0x52435359 ++ bytesOfNat 2 1 ++ bytesOfNat 1 (if partial_ then 1 else 0) ++ bytesOfNat 1 (m.leaseFlags.toNat % 2) ++
    bytesOfNat 8 (free s 9 1).toNat ++ bytesOfNat 8 (m.leaseCount.toNat + 1) ++ bytesOfNat 8 ((now s - m.scrubStart) / usCycles 1) ++ bytesOfNat 32 m.nonce.toNat ++
    ((List.range 32).map (classEntry s)).flatten ++ padTo 288 (fenceMap s)
  let digest := padTo 64 (Config.shake256 body 64)
  let sig := Config.sign 0 digest
  body ++ digest ++ bytesOfNat 4 sig.length ++ List.replicate 92 0 ++ padTo 1536 sig

/-- After the last class: units that verified are unfenced unless pinned, the record is signed and stored, and the flag is cleared. A loop or
bridge belongs to no class, so no scrub verifies it and its fence stays (R435, DESIGN CHOICE log 41). A second-tier range that failed is no
longer attached (R430, DESIGN CHOICE log 141). -/
def endScrub (s : State) : State :=
  let failed := ((List.range 18).map (failedIn s)).flatten
  let s1 := setMgmt { s.mgmt with fenced := s.mgmt.fenced.filter (fun u => u.1 == .loop || s.mgmt.pinned.contains u || failed.contains u) } s
  setMgmt { s1.mgmt with
    record := scrubRecord s1, leaseCount := s1.mgmt.leaseCount + 1, leasePending := false, scrubClass := 0, pkg := .rom }
    { s1 with tiers := (s1.tiers.zipIdx.filter (fun t => !(badUnits s 17).contains t.2)).map (·.1) }

/-- The next class is scrubbed; a unit that fails is fenced at once, or held in reset where it belongs to no function that a fence names. -/
def scrubStep (s : State) : State :=
  let c := s.mgmt.scrubClass
  let s0 := (failedIn s c).foldl (fun s u => fenceUnit u.1 u.2 s) (scrubClassState c s)
  let s1 := setMgmt { s0.mgmt with failed := s0.mgmt.failed.filter (fun u => u.1 != c) ++ failedAlone s c } s0
  if c < 16 ∨ (c = 16 ∧ coversTier s) then setMgmt { s1.mgmt with scrubClass := c + 1 } s1 else endScrub s1

/-- The boot ROM goes on (R426): a pending lease is scrubbed, otherwise an image boots. -/
def romTurn (s : State) : Out :=
  if s.mgmt.resetting then .fault .notEnabled
  else match s.mgmt.pkg with
  | .rom =>
    if s.mgmt.leasePending then .next (setMgmt { s.mgmt with pkg := .scrub, scrubClass := 1, scrubStart := now s } s)
    else if s.mgmt.romFailure ≠ 0 then .fault .notEnabled
    else .next (bootImage s)
  | .scrub => .next (scrubStep s)
  | _ => .fault .notEnabled

/-! ### The management port (R428) -/

/-- A reply: the command byte, a status byte, and data. -/
def manage (cmd status : Nat) (data : List Byte) (s : State) : State :=
  { s with outputs := s.outputs ++ [.management (bytesOfNat 1 cmd ++ bytesOfNat 1 status ++ data)] }

/-- A command in a state that the table lists for it. -/
def inState (cmd : Nat) (p : PkgState) : Bool :=
  match cmd with
  | 4 | 5 => p != .scrub
  | 9 => p == .idle
  | _ => true

/-- Answer a command: WRONGSTATE, BADOPERAND, or OK with its data and effect. -/
def answerCmd (cmd : Nat) (operands : Bool) (data : List Byte) (go : State → State) (s : State) : Out :=
  if !inState cmd s.mgmt.pkg then .next (manage cmd 3 [] s)
  else if !operands then .next (manage cmd 2 [] s)
  else .next (manage cmd 0 data (go s))

/-- LEASERESET (R427). -/
def execLeasereset (nonce : BitVec 256) (flags : Byte) (s : State) : Out :=
  answerCmd 1 true [] (fun s => setMgmt { s.mgmt with nonce := nonce, leaseFlags := flags, leasePending := true, resetting := true } s) s

def stateCode : PkgState → Nat
  | .rom => 0
  | .scrub => 1
  | .idle => 2
  | .leased => 3

/-- STATUS. -/
def execStatus (s : State) : Out :=
  let m := s.mgmt
  answerCmd 2 true (bytesOfNat 1 (stateCode m.pkg) ++ bytesOfNat 1 (if m.leasePending then 1 else 0) ++ bytesOfNat 8 m.leaseCount.toNat ++
    bytesOfNat 1 m.scrubClass ++ bytesOfNat 1 m.romFailure) id s

/-- A slice of a byte string, zero beyond its end. -/
def sliceOf (bs : List Byte) (off len : Nat) : List Byte := (List.range len).map (fun i => bs.getD (off + i) 0)

/-- GETRECORD. -/
def execGetrecord (off len : Nat) (s : State) : Out :=
  answerCmd 3 (decide (1 ≤ len) && decide (len ≤ 256) && decide (off + len ≤ 3072)) (sliceOf s.mgmt.record off len) id s

/-- FENCEMAP. -/
def execFencemap (s : State) : Out := answerCmd 4 true (fenceMap s) id s

/-- The unit kind of a code (R435). -/
def kindOfCode : Nat → Option UnitKind
  | 0 => some .core
  | 1 => some .cluster
  | 2 => some .home
  | 3 => some .loop
  | 4 => some .derrick
  | _ => none

/-- FENCESET for a unit that exists; other operands are bad. -/
def fenceset (kind i : Nat) (go : UnitKind → State → State) (s : State) : Out :=
  match kindOfCode kind with
  | some k => answerCmd 5 (decide (i < unitCount k)) [] (go k) s
  | none => answerCmd 5 false [] id s

/-- FENCESET that pins: the unit is fenced at once. -/
def execFencesetPin (kind i : Nat) (s : State) : Out :=
  fenceset kind i (fun k s =>
    let p := s.mgmt.pinned
    fenceUnit k i (setMgmt { s.mgmt with pinned := if p.contains (k, i) then p else p ++ [(k, i)] } s)) s

/-- FENCESET that unpins: the next scrub may unfence the unit. -/
def execFencesetUnpin (kind i : Nat) (s : State) : Out :=
  fenceset kind i (fun k s => setMgmt { s.mgmt with pinned := s.mgmt.pinned.filter (· != (k, i)) } s) s

/-- AGEREAD. -/
def execAgeread (slab : Nat) (s : State) : Out :=
  let a := kget s.mgmt.ageing slab Ageing.init
  answerCmd 6 (decide (slab < 4)) (bytesOfNat 4 a.margin.toNat ++ bytesOfNat 4 a.lossRate.toNat ++ bytesOfNat 4 a.errors.toNat ++
    bytesOfNat 1 a.refresh ++ bytesOfNat 2 a.days.toNat) id s

/-- The 32 bytes of an error-log entry (R436). -/
def errBytes (e : ErrEntry) : List Byte :=
  bytesOfNat 8 0 ++ bytesOfNat 8 e.time.toNat ++ bytesOfNat 1 e.event ++ bytesOfNat 1 e.kind ++ bytesOfNat 2 e.unit ++ bytesOfNat 4 e.count ++
  bytesOfNat 8 e.pa

/-- ERRLOG. -/
def execErrlog (index : Nat) (s : State) : Out :=
  match s.mgmt.errlog[index]? with
  | some e => answerCmd 7 true (errBytes e) id s
  | none => answerCmd 7 false [] id s

/-- IDCERT. -/
def execIdcert (off len : Nat) (s : State) : Out :=
  answerCmd 8 (decide (1 ≤ len) && decide (len ≤ 256)) (sliceOf (Config.certChain 0) off len) id s

/-- OPIMAGE: 256 bytes of slot 0. -/
def execOpimage (off : Nat) (data : List Byte) (s : State) : Out :=
  answerCmd 9 (decide (data.length = 256)) [] (fun s =>
    setMgmt { s.mgmt with slot0 := data.zipIdx.foldl (fun m b => kset m (off + b.2) b.1) s.mgmt.slot0 } s) s

/-- UNKNOWN_MANAGEMENT_COMMAND: BADCMD outside the table, WRONGSTATE in a state that is not listed, BADOPERAND for a command of the table whose
operands no row carries (DESIGN CHOICE log 140). -/
def execUnknownManagementCommand (cmd : Byte) (s : State) : Out :=
  let c := cmd.toNat
  if c < 1 ∨ 9 < c then .next (manage c 1 [] s)
  else answerCmd c false [] id s

/-! ### MCTP and SPDM (R428, R433) -/

/-- A reply whose framing other standards give. -/
def framed (code : Nat) (msg body : List Byte) (s : State) : Out :=
  .next { s with outputs := s.outputs ++ [.management (Config.replyFrame code msg s.steps ++ body)] }

/-- MCTP_CONTROL_MESSAGE. -/
def execMctpControlMessage (msg : List Byte) (s : State) : Out := framed 0 msg [] s
/-- GET_VERSION: version 1.2. -/
def execGetVersion (msg : List Byte) (s : State) : Out := framed 0x84 msg [0x12] s
/-- GET_CAPABILITIES. -/
def execGetCapabilities (msg : List Byte) (s : State) : Out := framed 0xE1 msg [] s
/-- NEGOTIATE_ALGORITHMS. -/
def execNegotiateAlgorithms (msg : List Byte) (s : State) : Out := framed 0xE3 msg [] s
/-- GET_DIGESTS. -/
def execGetDigests (msg : List Byte) (s : State) : Out := framed 0x81 msg [] s
/-- GET_CERTIFICATE: the attestation key's chain. -/
def execGetCertificate (msg : List Byte) (s : State) : Out := framed 0x82 msg (Config.certChain 1) s
/-- CHALLENGE: signed with the attestation key. -/
def execChallenge (msg : List Byte) (s : State) : Out := framed 0x83 msg (Config.sign 1 msg) s

/-- The measurements: indices 1 to 3 as the ROM fixed them, 4 and 5 of the last record and the current map. -/
def measurements (s : State) : List (Nat × List Byte) :=
  s.mgmt.measured ++ [(4, Config.shake256 (s.mgmt.record.take 1440) 64), (5, Config.shake256 (fenceMap s) 64)]

/-- GET_MEASUREMENTS. -/
def execGetMeasurements (msg : List Byte) (s : State) : Out :=
  let body := ((measurements s).map (fun m => bytesOfNat 1 m.1 ++ padTo 64 m.2)).flatten
  framed 0xE0 msg (body ++ Config.sign 1 (msg ++ body)) s

/-! ### Errors (R434, R436) -/

/-- An hour in main-clock cycles, and in ticks of TIMER. -/
def hourCycles : Nat := 2100000000 * 3600
def hourTimer : Nat := 100000000 * 3600

def kindCode : UnitKind → Nat
  | .core => 0
  | .cluster => 1
  | .home => 2
  | .loop => 3
  | .derrick => 4

/-- Corrected events at one PA within one hour merge; an entry from before a reset counts from another start of TIMER. -/
def mergeError (kind : UnitKind) (i pa : Nat) (s : State) : State :=
  let same := fun (e : ErrEntry) => e.event == 1 && e.pa == pa && e.kind == kindCode kind && e.unit == i &&
    e.fresh && decide ((timer s).toNat < e.time.toNat + hourTimer)
  if s.mgmt.errlog.any same then
    setMgmt { s.mgmt with errlog := s.mgmt.errlog.map (fun e => if same e then { e with count := e.count + 1 } else e) } s
  else logError kind i 1 pa s

/-- The count of a unit's corrected errors in the hour that its first one began (DESIGN CHOICE log 44). -/
def countError (kind : UnitKind) (i : Nat) (s : State) : Nat × State :=
  let mine := fun (c : UnitKind × Nat × Nat × Nat) => c.1 == kind && c.2.1 == i
  let old := match s.mgmt.errCount.find? mine with
    | some c => if now s < c.2.2.1 + hourCycles then (c.2.2.1, c.2.2.2) else (now s, 0)
    | none => (now s, 0)
  (old.2 + 1, setMgmt { s.mgmt with errCount := s.mgmt.errCount.filter (fun c => !mine c) ++ [(kind, i, old.1, old.2 + 1)] } s)

/-- The PA of an error: 0 for a unit that is no memory (R436). -/
def errorPa (kind : UnitKind) (pa : Nat) : Nat := if kind = .home then pa else 0

/-- CORRECTED_ERROR: logged; more than 1,024 in an hour fence the unit. -/
def execCorrectedError (kind : UnitKind) (i pa : Nat) (s : State) : Out :=
  if unitCount kind ≤ i then .fault .notEnabled
  else
    let r := countError kind i (mergeError kind i (errorPa kind pa) s)
    .next (if 1024 < r.1 then fenceUnit kind i r.2 else r.2)

/-- One sector of an L1 line is poisoned. -/
def poisonL1 (core ctx sector : Nat) (s : State) : State :=
  let mark := fun (n : Nat) (x : L1Sector) => if n = sector then { x with poison := true } else x
  { s with l1 := s.l1.map (fun e => if e.1 = core then (e.1, e.2.map (fun l => if l.ctx = ctx then mapLine mark l else l)) else e) }

/-- UNCORRECTABLE_DATA_ERROR: the sector that it strikes is poisoned, as far as one is there, and the log has its entry: PA for memory, 0 for
another unit. A slab's core-side cache has no unit kind and is logged under the sector's home (DESIGN CHOICE log 44). -/
def execUncorrectableDataError (site : DataSite) (s : State) : Out :=
  let cluster := fun (gid : Nat) => clusterOf (getGang s gid).core
  match site with
  | .memory pa =>
    if 2 ^ 48 ≤ pa then .fault .notEnabled else .next (logError .home (homeOf pa) 2 pa { s with poison := insertNat (pa / 128) s.poison })
  | .scratch gid off =>
    if (kget? s.gangs gid).isNone then .fault .notEnabled else .next (logError .cluster (cluster gid) 2 0 (scratchMark gid off 1 true s))
  | .shadow gid off =>
    if (kget? s.gangs gid).isNone then .fault .notEnabled
    else .next (logError .cluster (cluster gid) 2 0 (setGang s gid { getGang s gid with shadowPoison := insertNat (off / 128) (getGang s gid).shadowPoison }))
  | .l1 core ctx sector => if 576 ≤ core then .fault .notEnabled else .next (logError .core core 2 0 (poisonL1 core ctx sector s))
  | .buffer core ctx sector =>
    if 576 ≤ core then .fault .notEnabled
    else .next (logError .core core 2 0 { s with wcb := s.wcb.map (fun e => if e.1 = core then
      (e.1, e.2.map (fun w => if w.ctx = ctx ∧ w.sector = sector then { w with poison := true } else w)) else e) })
  | .slice slab ctx sector =>
    if 4 ≤ slab then .fault .notEnabled
    else .next (logError .home (homeOf (sector * 128)) 2 0 (setSlab s slab { getSlab s slab with
      copies := (getSlab s slab).copies.map (fun c => if c.ctx = ctx ∧ c.sector = sector then { c with poison := true } else c) }))
  | .register gid fid n =>
    if (kget? s.gangs gid).isNone then .fault .notEnabled
    else .next (logError .core (getGang s gid).core 2 0 (setFibre gid fid (fun f => { f with regPoison := setBit f.regPoison n true }) s))
  | .tile c t =>
    if 144 ≤ c ∨ 16 ≤ t then .fault .notEnabled
    else .next (logError .cluster c 2 0 (setCluster s c { getCluster s c with
      tiles := (getCluster s c).tiles.map (fun e => if e.1 = t then (e.1, { e.2 with poison := true }) else e) }))

/-- CONTROL_STATE_ERROR: the function is fenced. -/
def execControlStateError (kind : UnitKind) (i : Nat) (s : State) : Out :=
  if unitCount kind ≤ i then .fault .notEnabled else .next (fenceUnit kind i s)

/-- PATROL_SCRUB: a slice reads its channel and writes corrected words back; no byte changes. -/
def execPatrolScrub (home : Nat) (s : State) : Out := if 256 ≤ home then .fault .notEnabled else .next s

/-! ### Ageing (R437) -/

/-- What a monitor reports: it rises towards its limit, and the time until it gets there, in days rounded down and rounded up, if it does. -/
structure Trend where
  rising : Bool
  left : Option (Nat × Nat)
  deriving DecidableEq, Repr

/-- A time of `n / d` days. -/
def daysLeft (n d : Nat) : Nat × Nat := (n / d, (n + d - 1) / d)

/-- A path: its margin goes at a loss rate, both in hundredths of a picosecond, the rate for 1,000 hours; its limit is 0 (DESIGN CHOICE log
45). -/
def pathTrend (margin rate : Nat) : Trend :=
  { rising := rate != 0, left := if margin = 0 then some (0, 0) else if rate = 0 then none else some (daysLeft (margin * 1000) (rate * 24)) }

/-- A reading that rises by `rise` thousandths a day to its limit (DESIGN CHOICE log 45). -/
def limitTrend (limit v rise : Nat) : Trend :=
  { rising := rise != 0, left := if limit ≤ v then some (0, 0) else if rise = 0 then none else some (daysLeft ((limit - v) * 1000) rise) }

/-- DAYS: the least time of the monitors, rounded down; 0xFFFF when none rises, or when the least time exceeds 65,534 days. -/
def daysOf (ts : List Trend) : BitVec 16 :=
  match ts.any (·.rising), leastBy (fun (n : Nat × Nat) => n.1 + n.2) (ts.filterMap (·.left)) with
  | true, some d => if 65534 < d.2 then 0xFFFF else BitVec.ofNat 16 d.1
  | _, _ => 0xFFFF

/-- AGEING_UPDATE: the readings of the monitors are free values; MARGIN and its loss rate are those of the worst path, and DAYS follows from
every path, the errors with their limit of 10^6 a day, and the refresh multiplier with its limit of 8. -/
def execAgeingUpdate (slab : Nat) (s : State) : Out :=
  if 4 ≤ slab then .fault .notEnabled
  else
    let r := fun i => (free s 10 (64 * slab + i)).toNat
    let paths := (List.range (1 + r 0 % 16)).map (fun i => (r (8 + 2 * i) % 2 ^ 32, r (9 + 2 * i) % 2 ^ 32))
    let worst := (leastBy (fun (p : Nat × Nat) => p.1) paths).getD (0, 0)
    let errors := r 1 % 2 ^ 32
    let refresh := 1 + r 2 % 8
    let a : Ageing := {
      margin := BitVec.ofNat 32 worst.1, lossRate := BitVec.ofNat 32 worst.2, errors := BitVec.ofNat 32 errors, refresh := refresh,
      days := daysOf (paths.map (fun p => pathTrend p.1 p.2) ++ [limitTrend 1000000 errors (r 3), limitTrend 8 refresh (r 4)]) }
    .next (setMgmt { s.mgmt with ageing := kset s.mgmt.ageing slab a } s)

end Sys2Proof.Machine
end

