-- ==== Sys2Proof/Machine/Dispatch.lean ====
section
/-! DEFINITION. Sys2Proof/Machine/Dispatch.lean: the one match from rows to meanings. -/
namespace Sys2Proof.Machine

def exec (i : Instr) (s : State) : Host.Outcome State Fault Refusal :=
  match i with
  | .iadd f => Sys2Proof.Machine.execIadd f s
  | .iaddImm f => Sys2Proof.Machine.execIaddImm f s
  | .isub f => Sys2Proof.Machine.execIsub f s
  | .isubImm f => Sys2Proof.Machine.execIsubImm f s
  | .imul f => Sys2Proof.Machine.execImul f s
  | .imulImm f => Sys2Proof.Machine.execImulImm f s
  | .imulh f => Sys2Proof.Machine.execImulh f s
  | .imulhImm f => Sys2Proof.Machine.execImulhImm f s
  | .imad f => Sys2Proof.Machine.execImad f s
  | .imadImm f => Sys2Proof.Machine.execImadImm f s
  | .idiv f => Sys2Proof.Machine.execIdiv f s
  | .irem f => Sys2Proof.Machine.execIrem f s
  | .imin f => Sys2Proof.Machine.execImin f s
  | .iminImm f => Sys2Proof.Machine.execIminImm f s
  | .imax f => Sys2Proof.Machine.execImax f s
  | .imaxImm f => Sys2Proof.Machine.execImaxImm f s
  | .iabs f => Sys2Proof.Machine.execIabs f s
  | .ineg f => Sys2Proof.Machine.execIneg f s
  | .and_ f => Sys2Proof.Machine.execAnd f s
  | .andImm f => Sys2Proof.Machine.execAndImm f s
  | .or_ f => Sys2Proof.Machine.execOr f s
  | .orImm f => Sys2Proof.Machine.execOrImm f s
  | .xor_ f => Sys2Proof.Machine.execXor f s
  | .xorImm f => Sys2Proof.Machine.execXorImm f s
  | .andn f => Sys2Proof.Machine.execAndn f s
  | .andnImm f => Sys2Proof.Machine.execAndnImm f s
  | .not_ f => Sys2Proof.Machine.execNot f s
  | .shl f => Sys2Proof.Machine.execShl f s
  | .shlImm f => Sys2Proof.Machine.execShlImm f s
  | .shr f => Sys2Proof.Machine.execShr f s
  | .shrImm f => Sys2Proof.Machine.execShrImm f s
  | .sar f => Sys2Proof.Machine.execSar f s
  | .sarImm f => Sys2Proof.Machine.execSarImm f s
  | .rol f => Sys2Proof.Machine.execRol f s
  | .rolImm f => Sys2Proof.Machine.execRolImm f s
  | .ror f => Sys2Proof.Machine.execRor f s
  | .rorImm f => Sys2Proof.Machine.execRorImm f s
  | .bfe f => Sys2Proof.Machine.execBfe f s
  | .bfeImm f => Sys2Proof.Machine.execBfeImm f s
  | .bfi f => Sys2Proof.Machine.execBfi f s
  | .bfiImm f => Sys2Proof.Machine.execBfiImm f s
  | .popc f => Sys2Proof.Machine.execPopc f s
  | .clz f => Sys2Proof.Machine.execClz f s
  | .ctz f => Sys2Proof.Machine.execCtz f s
  | .brev f => Sys2Proof.Machine.execBrev f s
  | .lea f => Sys2Proof.Machine.execLea f s
  | .mov f => Sys2Proof.Machine.execMov f s
  | .movi f => Sys2Proof.Machine.execMovi f s
  | .sel f => Sys2Proof.Machine.execSel f s
  | .selImm f => Sys2Proof.Machine.execSelImm f s
  | .icmp f => Sys2Proof.Machine.execIcmp f s
  | .icmpImm f => Sys2Proof.Machine.execIcmpImm f s
  | .iset f => Sys2Proof.Machine.execIset f s
  | .isetImm f => Sys2Proof.Machine.execIsetImm f s
  | .pand f => Sys2Proof.Machine.execPand f s
  | .por f => Sys2Proof.Machine.execPor f s
  | .pxor f => Sys2Proof.Machine.execPxor f s
  | .pnot f => Sys2Proof.Machine.execPnot f s
  | .pmov f => Sys2Proof.Machine.execPmov f s
  | .pmovToRegister f => Sys2Proof.Machine.execPmovToRegister f s
  | .pmovFromRegister f => Sys2Proof.Machine.execPmovFromRegister f s
  | .idot4 f => Sys2Proof.Machine.execIdot4 f s
  | .idot4Imm f => Sys2Proof.Machine.execIdot4Imm f s
  | .fadd f => Sys2Proof.Machine.execFadd f s
  | .faddImm f => Sys2Proof.Machine.execFaddImm f s
  | .fsub f => Sys2Proof.Machine.execFsub f s
  | .fsubImm f => Sys2Proof.Machine.execFsubImm f s
  | .fmul f => Sys2Proof.Machine.execFmul f s
  | .fmulImm f => Sys2Proof.Machine.execFmulImm f s
  | .ffma f => Sys2Proof.Machine.execFfma f s
  | .ffmaImm f => Sys2Proof.Machine.execFfmaImm f s
  | .fmin f => Sys2Proof.Machine.execFmin f s
  | .fminImm f => Sys2Proof.Machine.execFminImm f s
  | .fmax f => Sys2Proof.Machine.execFmax f s
  | .fmaxImm f => Sys2Proof.Machine.execFmaxImm f s
  | .fabs f => Sys2Proof.Machine.execFabs f s
  | .fneg f => Sys2Proof.Machine.execFneg f s
  | .fcmp f => Sys2Proof.Machine.execFcmp f s
  | .fcmpImm f => Sys2Proof.Machine.execFcmpImm f s
  | .fclass f => Sys2Proof.Machine.execFclass f s
  | .fdiv f => Sys2Proof.Machine.execFdiv f s
  | .fsqrt f => Sys2Proof.Machine.execFsqrt f s
  | .frsq f => Sys2Proof.Machine.execFrsq f s
  | .frcp f => Sys2Proof.Machine.execFrcp f s
  | .fexp2 f => Sys2Proof.Machine.execFexp2 f s
  | .flog2 f => Sys2Proof.Machine.execFlog2 f s
  | .frnd f => Sys2Proof.Machine.execFrnd f s
  | .dadd f => Sys2Proof.Machine.execDadd f s
  | .dmul f => Sys2Proof.Machine.execDmul f s
  | .dfma f => Sys2Proof.Machine.execDfma f s
  | .ddiv f => Sys2Proof.Machine.execDdiv f s
  | .dsqrt f => Sys2Proof.Machine.execDsqrt f s
  | .dcmp f => Sys2Proof.Machine.execDcmp f s
  | .dmin f => Sys2Proof.Machine.execDmin f s
  | .dmax f => Sys2Proof.Machine.execDmax f s
  | .hadd2 f => Sys2Proof.Machine.execHadd2 f s
  | .hmul2 f => Sys2Proof.Machine.execHmul2 f s
  | .hfma2 f => Sys2Proof.Machine.execHfma2 f s
  | .bfma2 f => Sys2Proof.Machine.execBfma2 f s
  | .cvt f => Sys2Proof.Machine.execCvt f s
  | .qdec f => Sys2Proof.Machine.execQdec f s
  | .hwcvt f => Sys2Proof.Machine.execHwcvt f s
  | .hwcvtSr f => Sys2Proof.Machine.execHwcvtSr f s
  | .lshfl f => Sys2Proof.Machine.execLshfl f s
  | .lshflImm f => Sys2Proof.Machine.execLshflImm f s
  | .lshfu f => Sys2Proof.Machine.execLshfu f s
  | .lshfuImm f => Sys2Proof.Machine.execLshfuImm f s
  | .lshfd f => Sys2Proof.Machine.execLshfd f s
  | .lshfdImm f => Sys2Proof.Machine.execLshfdImm f s
  | .lxor f => Sys2Proof.Machine.execLxor f s
  | .lxorImm f => Sys2Proof.Machine.execLxorImm f s
  | .lbcast f => Sys2Proof.Machine.execLbcast f s
  | .lbcastImm f => Sys2Proof.Machine.execLbcastImm f s
  | .lpfx f => Sys2Proof.Machine.execLpfx f s
  | .lred f => Sys2Proof.Machine.execLred f s
  | .vote f => Sys2Proof.Machine.execVote f s
  | .ballot f => Sys2Proof.Machine.execBallot f s
  | .match_ f => Sys2Proof.Machine.execMatch f s
  | .elect f => Sys2Proof.Machine.execElect f s
  | .lget f => Sys2Proof.Machine.execLget f s
  | .lput f => Sys2Proof.Machine.execLput f s
  | .bra f => Sys2Proof.Machine.execBra f s
  | .brx f => Sys2Proof.Machine.execBrx f s
  | .call f => Sys2Proof.Machine.execCall f s
  | .ret f => Sys2Proof.Machine.execRet f s
  | .join f => Sys2Proof.Machine.execJoin f s
  | .spawn f => Sys2Proof.Machine.execSpawn f s
  | .quit f => Sys2Proof.Machine.execQuit f s
  | .yield f => Sys2Proof.Machine.execYield f s
  | .bar f => Sys2Proof.Machine.execBar f s
  | .barx f => Sys2Proof.Machine.execBarx f s
  | .ld f => Sys2Proof.Machine.execLd f s
  | .st f => Sys2Proof.Machine.execSt f s
  | .lds f => Sys2Proof.Machine.execLds f s
  | .sts f => Sys2Proof.Machine.execSts f s
  | .xst f => Sys2Proof.Machine.execXst f s
  | .xstCount f => Sys2Proof.Machine.execXstCount f s
  | .ldpl f => Sys2Proof.Machine.execLdpl f s
  | .stpl f => Sys2Proof.Machine.execStpl f s
  | .pref f => Sys2Proof.Machine.execPref f s
  | .flushr f => Sys2Proof.Machine.execFlushr f s
  | .invr f => Sys2Proof.Machine.execInvr f s
  | .aadd f => Sys2Proof.Machine.execAadd f s
  | .amin f => Sys2Proof.Machine.execAmin f s
  | .amax f => Sys2Proof.Machine.execAmax f s
  | .aand f => Sys2Proof.Machine.execAand f s
  | .aor f => Sys2Proof.Machine.execAor f s
  | .axor f => Sys2Proof.Machine.execAxor f s
  | .axchg f => Sys2Proof.Machine.execAxchg f s
  | .acas f => Sys2Proof.Machine.execAcas f s
  | .ainc f => Sys2Proof.Machine.execAinc f s
  | .fence f => Sys2Proof.Machine.execFence f s
  | .fencex f => Sys2Proof.Machine.execFencex f s
  | .tbegin f => Sys2Proof.Machine.execTbegin f s
  | .tend f => Sys2Proof.Machine.execTend f s
  | .tabort f => Sys2Proof.Machine.execTabort f s
  | .tretry f => Sys2Proof.Machine.execTretry f s
  | .tretryt f => Sys2Proof.Machine.execTretryt f s
  | .torelse f => Sys2Proof.Machine.execTorelse f s
  | .swinit f => Sys2Proof.Machine.execSwinit f s
  | .swexpect f => Sys2Proof.Machine.execSwexpect f s
  | .swarrive f => Sys2Proof.Machine.execSwarrive f s
  | .taskpost f => Sys2Proof.Machine.execTaskpost f s
  | .tasktake f => Sys2Proof.Machine.execTasktake f s
  | .taskdone f => Sys2Proof.Machine.execTaskdone f s
  | .sbset f => Sys2Proof.Machine.execSbset f s
  | .qkeyParent f => Sys2Proof.Machine.execQkeyParent f s
  | .qkeyChild f => Sys2Proof.Machine.execQkeyChild f s
  | .qkeyNbr f => Sys2Proof.Machine.execQkeyNbr f s
  | .qfind f => Sys2Proof.Machine.execQfind f s
  | .qowner f => Sys2Proof.Machine.execQowner f s
  | .qrefine f => Sys2Proof.Machine.execQrefine f s
  | .qcoarsen f => Sys2Proof.Machine.execQcoarsen f s
  | .qcost f => Sys2Proof.Machine.execQcost f s
  | .qrebal f => Sys2Proof.Machine.execQrebal f s
  | .qgen f => Sys2Proof.Machine.execQgen f s
  | .qsweep f => Sys2Proof.Machine.execQsweep f s
  | .mxcfg f => Sys2Proof.Machine.execMxcfg f s
  | .mxop f => Sys2Proof.Machine.execMxop f s
  | .mxdrain f => Sys2Proof.Machine.execMxdrain f s
  | .cpy f => Sys2Proof.Machine.execCpy f s
  | .cpyp f => Sys2Proof.Machine.execCpyp f s
  | .cpyg f => Sys2Proof.Machine.execCpyg f s
  | .cpys f => Sys2Proof.Machine.execCpys f s
  | .cpycan f => Sys2Proof.Machine.execCpycan f s
  | .hchain f => Sys2Proof.Machine.execHchain f s
  | .hsend f => Sys2Proof.Machine.execHsend f s
  | .hsendv f => Sys2Proof.Machine.execHsendv f s
  | .hcast f => Sys2Proof.Machine.execHcast f s
  | .hdrain f => Sys2Proof.Machine.execHdrain f s
  | .hfree f => Sys2Proof.Machine.execHfree f s
  | .spxi f => Sys2Proof.Machine.execSpxi f s
  | .spxg f => Sys2Proof.Machine.execSpxg f s
  | .trap f => Sys2Proof.Machine.execTrap f s
  | .rett f => Sys2Proof.Machine.execRett f s
  | .csrr f => Sys2Proof.Machine.execCsrr f s
  | .csrw f => Sys2Proof.Machine.execCsrw f s
  | .csrx f => Sys2Proof.Machine.execCsrx f s
  | .sread f => Sys2Proof.Machine.execSread f s
  | .nop f => Sys2Proof.Machine.execNop f s
  | .brk f => Sys2Proof.Machine.execBrk f s
  | .perfr f => Sys2Proof.Machine.execPerfr f s
  | .illegalInstruction w => Sys2Proof.Machine.execIllegalInstruction w s
  | .asyncTrap => Sys2Proof.Machine.execAsyncTrap s
  | .fetchParityMismatch => Sys2Proof.Machine.execFetchParityMismatch s
  | .fetchPageFault => Sys2Proof.Machine.execFetchPageFault s
  | .waveFill core slot => Sys2Proof.Machine.execWaveFill core slot s
  | .waveMerge core a b => Sys2Proof.Machine.execWaveMerge core a b s
  | .waveSlotTimeout core slot => Sys2Proof.Machine.execWaveSlotTimeout core slot s
  | .registerCompaction gang fid base => Sys2Proof.Machine.execRegisterCompaction gang fid base s
  | .fusedModeChange cluster => Sys2Proof.Machine.execFusedModeChange cluster s
  | .gangAdmit task core => Sys2Proof.Machine.execGangAdmit task core s
  | .crewAdmit task cores => Sys2Proof.Machine.execCrewAdmit task cores s
  | .taskDispatch launch => Sys2Proof.Machine.execTaskDispatch launch s
  | .sweepTaskDispatch launch index => Sys2Proof.Machine.execSweepTaskDispatch launch index s
  | .gangEnd gang => Sys2Proof.Machine.execGangEnd gang s
  | .tick => Sys2Proof.Machine.execTick s
  | .deliveryReport d => Sys2Proof.Machine.execDeliveryReport d s
  | .coreSideForward slab => Sys2Proof.Machine.execCoreSideForward slab s
  | .homeApplyWrite home agent => Sys2Proof.Machine.execHomeApplyWrite home agent s
  | .homeServe req evict => Sys2Proof.Machine.execHomeServe req evict s
  | .coreSideCopyExpiry slab ctx line => Sys2Proof.Machine.execCoreSideCopyExpiry slab ctx line s
  | .memoryReply req => Sys2Proof.Machine.execMemoryReply req s
  | .writeProbeReply req => Sys2Proof.Machine.execWriteProbeReply req s
  | .loggedAccessFault req => Sys2Proof.Machine.execLoggedAccessFault req s
  | .transactionRevalidate core slot => Sys2Proof.Machine.execTransactionRevalidate core slot s
  | .tretrytExpiry sleeper => Sys2Proof.Machine.execTretrytExpiry sleeper s
  | .matrixOperationStart cluster => Sys2Proof.Machine.execMatrixOperationStart cluster s
  | .mxopComplete cluster => Sys2Proof.Machine.execMxopComplete cluster s
  | .matrixDrainComplete op => Sys2Proof.Machine.execMatrixDrainComplete op s
  | .drainWriteFault op => Sys2Proof.Machine.execDrainWriteFault op s
  | .hchainPublished crew handle => Sys2Proof.Machine.execHchainPublished crew handle s
  | .haulPacketArrival packets => Sys2Proof.Machine.execHaulPacketArrival packets s
  | .haulAcknowledgement packet => Sys2Proof.Machine.execHaulAcknowledgement packet s
  | .haulDrainComplete op => Sys2Proof.Machine.execHaulDrainComplete op s
  | .copyCommandStart core => Sys2Proof.Machine.execCopyCommandStart core s
  | .copySectorLand core piece => Sys2Proof.Machine.execCopySectorLand core piece s
  | .copyFault core piece => Sys2Proof.Machine.execCopyFault core piece s
  | .migrationCopyStart quarry key => Sys2Proof.Machine.execMigrationCopyStart quarry key s
  | .migrationCopyLand quarry key => Sys2Proof.Machine.execMigrationCopyLand quarry key s
  | .migrationComplete quarry => Sys2Proof.Machine.execMigrationComplete quarry s
  | .quarryAccessFault quarry => Sys2Proof.Machine.execQuarryAccessFault quarry s
  | .quarryCorruption quarry => Sys2Proof.Machine.execQuarryCorruption quarry s
  | .gangSave gang => Sys2Proof.Machine.execGangSave gang s
  | .drainComplete ctx => Sys2Proof.Machine.execDrainComplete ctx s
  | .deadlineExpiry ctx => Sys2Proof.Machine.execDeadlineExpiry ctx s
  | .queueDoorbell queue w => Sys2Proof.Machine.execQueueDoorbell queue w s
  | .queueMap queue => Sys2Proof.Machine.execQueueMap queue s
  | .queueIdleUnmap queue => Sys2Proof.Machine.execQueueIdleUnmap queue s
  | .launchPacket queue => Sys2Proof.Machine.execLaunchPacket queue s
  | .copyPacket queue => Sys2Proof.Machine.execCopyPacket queue s
  | .waitPacket queue => Sys2Proof.Machine.execWaitPacket queue s
  | .waitPacketWake queue => Sys2Proof.Machine.execWaitPacketWake queue s
  | .waitPacketTimeout queue => Sys2Proof.Machine.execWaitPacketTimeout queue s
  | .signalPacket queue => Sys2Proof.Machine.execSignalPacket queue s
  | .graphPacket queue => Sys2Proof.Machine.execGraphPacket queue s
  | .recordPacket queue => Sys2Proof.Machine.execRecordPacket queue s
  | .packetComplete queue index => Sys2Proof.Machine.execPacketComplete queue index s
  | .nodeStart queue node => Sys2Proof.Machine.execNodeStart queue node s
  | .nodeComplete queue node => Sys2Proof.Machine.execNodeComplete queue node s
  | .derrickAccessFault queue => Sys2Proof.Machine.execDerrickAccessFault queue s
  | .completionRecordWrite ring => Sys2Proof.Machine.execCompletionRecordWrite ring s
  | .eventRingTimeExpiry ring => Sys2Proof.Machine.execEventRingTimeExpiry ring s
  | .faultRecordWrite => Sys2Proof.Machine.execFaultRecordWrite s
  | .dcrdb w => Sys2Proof.Machine.execDcrdb w s
  | .dcrerrRead => Sys2Proof.Machine.execDcrerrRead s
  | .hostRegisterWrite reg v => Sys2Proof.Machine.execHostRegisterWrite reg v s
  | .commandStart => Sys2Proof.Machine.execCommandStart s
  | .ctxcreate => Sys2Proof.Machine.execCtxcreate s
  | .ctxdestroy => Sys2Proof.Machine.execCtxdestroy s
  | .winload => Sys2Proof.Machine.execWinload s
  | .qbind => Sys2Proof.Machine.execQbind s
  | .qbindUnbind => Sys2Proof.Machine.execQbindUnbind s
  | .queueset => Sys2Proof.Machine.execQueueset s
  | .evrset => Sys2Proof.Machine.execEvrset s
  | .drain => Sys2Proof.Machine.execDrain s
  | .restore => Sys2Proof.Machine.execRestore s
  | .resume => Sys2Proof.Machine.execResume s
  | .deadline => Sys2Proof.Machine.execDeadline s
  | .tlbinv => Sys2Proof.Machine.execTlbinv s
  | .faultansReplay => Sys2Proof.Machine.execFaultansReplay s
  | .faultansReflect => Sys2Proof.Machine.execFaultansReflect s
  | .faultansKill => Sys2Proof.Machine.execFaultansKill s
  | .faultansEnd => Sys2Proof.Machine.execFaultansEnd s
  | .peerset => Sys2Proof.Machine.execPeerset s
  | .tierset => Sys2Proof.Machine.execTierset s
  | .keyload => Sys2Proof.Machine.execKeyload s
  | .debugRelease => Sys2Proof.Machine.execDebugRelease s
  | .debugClaim => Sys2Proof.Machine.execDebugClaim s
  | .debugHalt => Sys2Proof.Machine.execDebugHalt s
  | .debugResume => Sys2Proof.Machine.execDebugResume s
  | .debugResumeParked => Sys2Proof.Machine.execDebugResumeParked s
  | .perfsel => Sys2Proof.Machine.execPerfsel s
  | .packageReset => Sys2Proof.Machine.execPackageReset s
  | .mctpControlMessage msg => Sys2Proof.Machine.execMctpControlMessage msg s
  | .leasereset nonce flags => Sys2Proof.Machine.execLeasereset nonce flags s
  | .status => Sys2Proof.Machine.execStatus s
  | .getrecord off len => Sys2Proof.Machine.execGetrecord off len s
  | .fencemap => Sys2Proof.Machine.execFencemap s
  | .fencesetPin kind index => Sys2Proof.Machine.execFencesetPin kind index s
  | .fencesetUnpin kind index => Sys2Proof.Machine.execFencesetUnpin kind index s
  | .ageread slab => Sys2Proof.Machine.execAgeread slab s
  | .errlog index => Sys2Proof.Machine.execErrlog index s
  | .idcert off len => Sys2Proof.Machine.execIdcert off len s
  | .opimage off data => Sys2Proof.Machine.execOpimage off data s
  | .unknownManagementCommand cmd => Sys2Proof.Machine.execUnknownManagementCommand cmd s
  | .getVersion msg => Sys2Proof.Machine.execGetVersion msg s
  | .getCapabilities msg => Sys2Proof.Machine.execGetCapabilities msg s
  | .negotiateAlgorithms msg => Sys2Proof.Machine.execNegotiateAlgorithms msg s
  | .getDigests msg => Sys2Proof.Machine.execGetDigests msg s
  | .getCertificate msg => Sys2Proof.Machine.execGetCertificate msg s
  | .challenge msg => Sys2Proof.Machine.execChallenge msg s
  | .getMeasurements msg => Sys2Proof.Machine.execGetMeasurements msg s
  | .correctedError kind index pa => Sys2Proof.Machine.execCorrectedError kind index pa s
  | .uncorrectableDataError site => Sys2Proof.Machine.execUncorrectableDataError site s
  | .controlStateError kind index => Sys2Proof.Machine.execControlStateError kind index s
  | .patrolScrub home => Sys2Proof.Machine.execPatrolScrub home s
  | .ageingUpdate slab => Sys2Proof.Machine.execAgeingUpdate slab s
  | .longLatencyCompletion gang fid window => Sys2Proof.Machine.execLongLatencyCompletion gang fid window s
  | .writeAcknowledgement write => Sys2Proof.Machine.execWriteAcknowledgement write s
  | .hostMemoryWrite pa data => Sys2Proof.Machine.execHostMemoryWrite pa data s
  | .tlbinvCompletion index => Sys2Proof.Machine.execTlbinvCompletion index s
  | .eventRingHeadWrite ring head => Sys2Proof.Machine.execEventRingHeadWrite ring head s
  | .linkStateChange kind port up => Sys2Proof.Machine.execLinkStateChange kind port up s

end Sys2Proof.Machine
end

