-- ==== Sys2Proof/Machine/Pairs.lean ====
section
/-! DEFINITION. Sys2Proof/Machine/Pairs.lean: what an instruction is for its issue: its class and unit, whether it is long-latency, and the
registers and predicates it reads and writes (R251, R385, R386). -/
namespace Sys2Proof.Machine

/-- The issue shape of an instruction: header, unit of R39 (0 the vector pipe, 1 the memory port, 2 the matrix queue, 3 the copy queue, 4
the haul port, 5 the control unit), long-latency, registers and predicates read and written; the guard is not among those read. -/
structure Shape where
  h : Hdr
  unit : Nat
  ll : Bool
  reads : List RegUse
  writes : List RegUse
  preads : List Nat
  pwrites : List Nat
  deriving DecidableEq, Repr

/-- Predicates of a source and of a destination. -/
def srcPreds : Src → List Nat
  | .pred n => [n]
  | .predWord => (List.range 15).map (· + 1)
  | _ => []
def dstPreds : Dst → List Nat
  | .pred n => [n]
  | .predWord => (List.range 15).map (· + 1)
  | _ => []

/-- A vector instruction by its sources and destination. -/
def vecShape (h : Hdr) (ll : Bool) (d : List Dst) (srcs : List Src) : Shape :=
  { h := h, unit := 0, ll := ll, reads := (srcs.map srcUse).flatten, writes := (d.map dstUse).flatten,
    preads := (srcs.map srcPreds).flatten, pwrites := (d.map dstPreds).flatten }

/-- Any other instruction by the registers it reads and writes. -/
def unitShape (h : Hdr) (u : Nat) (ll : Bool) (writes reads : List RegUse) : Shape :=
  { h := h, unit := u, ll := ll, reads := reads, writes := writes, preads := [], pwrites := [] }

/-- Format 0 at its type: A, B, and C. -/
def f0Un (f : F0) (ll : Bool) (d : Dst) : Shape := vecShape f.h ll [d] [tySrc f.ty f.a]
def f0Bin (f : F0) (ll : Bool) (d : Dst) : Shape := vecShape f.h ll [d] [tySrc f.ty f.a, tySrc f.ty f.b]
def f0Tri (f : F0) (ll : Bool) (d : Dst) : Shape := vecShape f.h ll [d] [tySrc f.ty f.a, tySrc f.ty f.b, tySrc f.ty f.c]
def f1Un (f : F1) (d : Dst) : Shape := vecShape f.h false [d] [tySrc f.ty f.a]
def f1Bin (f : F1) (d : Dst) : Shape := vecShape f.h false [d] [tySrc f.ty f.a, tySrc f.ty f.b]

/-- A memory access: its base of `k` registers, the index, and what else it reads. -/
def memShape (f : F2) (ll : Bool) (k : Nat) (writes data : List RegUse) : Shape :=
  unitShape f.h 1 ll writes ([(f.a.toNat, k)] ++ idxUse f ++ data)

def d1 (r : Reg) : RegUse := (r.toNat, 1)
def d2 (r : Reg) : RegUse := (r.toNat, 2)
def d4 (r : Reg) : RegUse := (r.toNat, 4)

/-- The issue shape under an encoding version; none for a row that no wave fetches. -/
def shapeOf (version : Nat) : Instr → Option Shape
  | .iadd f | .isub f | .imul f | .imulh f | .imin f | .imax f | .and_ f | .or_ f | .xor_ f | .andn f =>
    some (f0Bin f false (tyDst f.ty f.d))
  | .idiv f | .irem f => some (f0Bin f true (tyDst f.ty f.d))
  | .iaddImm f | .isubImm f | .imulImm f | .imulhImm f | .iminImm f | .imaxImm f | .andImm f | .orImm f | .xorImm f | .andnImm f
  | .shlImm f | .shrImm f | .sarImm f | .rolImm f | .rorImm f | .bfeImm f => some (f1Un f (tyDst f.ty f.d))
  | .imad f => some (f0Tri f false (tyDst f.ty f.d))
  | .imadImm f | .bfiImm f => some (f1Bin f (tyDst f.ty f.d))
  | .iabs f | .ineg f | .not_ f | .brev f => some (f0Un f false (tyDst f.ty f.d))
  | .popc f | .clz f | .ctz f => some (f0Un f false (.reg f.d.toNat))
  | .shl f | .shr f | .sar f | .rol f | .ror f | .bfe f => some (vecShape f.h false [tyDst f.ty f.d] [tySrc f.ty f.a, .reg f.b.toNat])
  | .bfi f => some (vecShape f.h false [tyDst f.ty f.d] [tySrc f.ty f.a, tySrc f.ty f.b, .reg f.c.toNat])
  | .lea f => some (vecShape f.h false [.pair f.d.toNat] [.pair f.a.toNat, tySrc f.ty f.b])
  | .mov f => some (vecShape f.h false [laneDst f.ty f.d] [laneSrc f.ty f.a])
  | .movi f => some (vecShape f.h false [tyDst f.ty f.d] [])
  | .sel f => some (vecShape f.h false [tyDst f.ty f.d] [tySrc f.ty f.a, tySrc f.ty f.b, .pred (f.mod.toNat % 16)])
  | .selImm f => some (vecShape f.h false [tyDst f.ty f.d] [tySrc f.ty f.a, .pred (f.mod.toNat % 16)])
  | .icmp f => some (f0Bin f false (.pred f.d.toNat))
  | .icmpImm f => some (f1Un f (.pred f.d.toNat))
  | .iset f => some (f0Bin f false (.reg f.d.toNat))
  | .isetImm f => some (f1Un f (.reg f.d.toNat))
  | .pand f | .por f | .pxor f => some (vecShape f.h false [.pred f.d.toNat] [.pred f.a.toNat, .pred f.b.toNat])
  | .pnot f | .pmov f | .vote f => some (vecShape f.h false [.pred f.d.toNat] [.pred f.a.toNat])
  | .pmovToRegister f => some (vecShape f.h false [.reg f.d.toNat] [.predWord])
  | .pmovFromRegister f => some (vecShape f.h false [.predWord] [.reg f.a.toNat])
  | .idot4 f | .hfma2 f | .bfma2 f | .qdec f =>
    some (vecShape f.h false [.reg f.d.toNat] [.reg f.a.toNat, .reg f.b.toNat, .reg f.c.toNat])
  | .idot4Imm f => some (vecShape f.h false [.reg f.d.toNat] [.reg f.a.toNat, .reg f.b.toNat])
  | .fadd f | .fsub f | .fmul f | .fmin f | .fmax f | .hadd2 f | .hmul2 f => some (f0Bin f false (.reg f.d.toNat))
  | .faddImm f | .fsubImm f | .fmulImm f | .fminImm f | .fmaxImm f => some (f1Un f (.reg f.d.toNat))
  | .ffma f => some (f0Tri f false (.reg f.d.toNat))
  | .ffmaImm f => some (f1Bin f (.reg f.d.toNat))
  | .fabs f | .fneg f | .fclass f | .frnd f => some (f0Un f false (.reg f.d.toNat))
  | .fcmp f => some (f0Bin f false (.pred f.d.toNat))
  | .fcmpImm f => some (f1Un f (.pred f.d.toNat))
  | .fdiv f => some (f0Bin f true (.reg f.d.toNat))
  | .fsqrt f | .frsq f | .frcp f | .fexp2 f | .flog2 f => some (f0Un f true (.reg f.d.toNat))
  | .dadd f | .dmul f | .ddiv f | .dmin f | .dmax f => some (f0Bin f true (.pair f.d.toNat))
  | .dfma f => some (f0Tri f true (.pair f.d.toNat))
  | .dsqrt f => some (f0Un f true (.pair f.d.toNat))
  | .dcmp f => some (f0Bin f true (.pred f.d.toNat))
  | .cvt f => some (vecShape f.h (f.ty == .f64 || f.tys == .f64) [tyDst f.ty f.d] [tySrc f.tys f.a])
  | .hwcvt f => some (vecShape f.h false [.reg f.d.toNat] [.quad f.a.toNat])
  | .hwcvtSr f => some (vecShape f.h false [.reg f.d.toNat] [.quad f.a.toNat, .pair f.b.toNat, .pair f.c.toNat])
  | .lshfl f | .lshfu f | .lshfd f | .lxor f | .lbcast f =>
    some (vecShape f.h true [laneDst f.ty f.d] [laneSrc f.ty f.a, .reg f.b.toNat])
  | .lshflImm f | .lshfuImm f | .lshfdImm f | .lxorImm f | .lbcastImm f | .lpfx f | .lred f =>
    some (vecShape f.h true [laneDst f.ty f.d] [laneSrc f.ty f.a])
  | .ballot f => some (vecShape f.h false [.reg f.d.toNat] [.pred f.a.toNat])
  | .match_ f => some (vecShape f.h true [.reg f.d.toNat] [laneSrc f.ty f.a])
  | .elect f => some (vecShape f.h false [.pred f.d.toNat] [])
  | .lget f => some (vecShape f.h false [.reg f.d.toNat] [.reg f.a.toNat])
  | .lput f => some (vecShape f.h false [] [.reg f.a.toNat, .reg f.b.toNat])
  | .bra f | .join f | .quit f | .yield f | .bar f | .barx f => some (unitShape f.h 5 false [] [])
  | .brx f | .ret f => some (unitShape f.h 5 false [] [d2 f.a])
  | .call f => some (unitShape f.h 5 false [d2 f.d] [])
  | .spawn f => some { unitShape f.h 5 false [] [] with pwrites := [f.d.toNat] }
  | .ld f => some (memShape f true 2 (dstUse (laneDst f.ty f.d)) [])
  | .st f => some (memShape f false 2 [] (srcUse (dataSrc f.ty f.b)))
  | .lds f => some (memShape f true 1 (dstUse (laneDst f.ty f.d)) [])
  | .sts f | .xst f => some (memShape f false 1 [] (srcUse (dataSrc f.ty f.b)))
  | .xstCount f => some (memShape f false 1 [] (d1 f.d :: srcUse (dataSrc f.ty f.b)))
  | .ldpl f => some (memShape f true 1 [d2 f.d] [])
  | .stpl f => some (memShape f false 1 [] [d2 f.b])
  | .pref f => some (memShape f false 2 [] [])
  | .flushr f | .invr f => some (memShape f false 2 [] [d1 f.b])
  | .aadd f | .amin f | .amax f | .aand f | .aor f | .axor f | .axchg f =>
    some (memShape f true 2 (dstUse (laneDst f.ty f.d)) (srcUse (dataSrc f.ty f.b)))
  | .acas f => some (unitShape f.h 1 true (dstUse (laneDst f.ty f.d)) (d2 f.a :: srcUse (dataSrc f.ty f.b) ++ srcUse (dataSrc f.ty f.c)))
  | .ainc f => some (memShape f true 2 (dstUse (laneDst f.ty f.d)) [])
  | .fence f | .fencex f => some (unitShape f.h 1 false [] [])
  | .tbegin f | .tend f | .tabort f | .tretry f | .tretryt f | .torelse f | .sbset f => some (unitShape f.h 5 false [] [])
  | .swinit f => some (unitShape f.h 5 false [] [d1 f.a, d1 f.b, d1 f.c])
  | .swexpect f => some (unitShape f.h 5 false [] [d1 f.a, d1 f.b])
  | .swarrive f => some (unitShape f.h 5 false [] [d1 f.a])
  | .taskpost f | .tasktake f => some (unitShape f.h 5 true [d1 f.d] [d2 f.a, d1 f.b])
  | .taskdone f => some (unitShape f.h 5 false [] [d2 f.a])
  | .qkeyParent f | .qkeyChild f | .qkeyNbr f => some (unitShape f.h 5 false [d2 f.d, d1 f.b] [d2 f.a])
  | .qfind f => some (unitShape f.h 5 true [d4 f.d, d1 f.b] [d2 f.a, d1 f.c])
  | .qowner f => some (unitShape f.h 5 true [d1 f.d, d1 f.b] [d2 f.a, d1 f.c])
  | .qrefine f | .qcoarsen f => some (unitShape f.h 5 true [d2 f.d, d1 f.b] [d2 f.a])
  | .qcost f => some (unitShape f.h 5 true [d1 f.b] [d2 f.a, d2 f.c])
  | .qrebal f => some (unitShape f.h 5 true [if version = 3 then (f.d.toNat, 6) else (f.d.toNat + 1, 5), d1 f.b] [])
  | .qgen f => some (unitShape f.h 5 true [d2 f.d] [])
  | .qsweep f => some (unitShape f.h 5 false [] [d2 f.a, d2 f.c])
  | .mxcfg f => some (unitShape f.h 2 true [d1 f.d] [d2 f.a])
  | .mxop f | .mxdrain f | .hsend f | .hcast f => some (unitShape f.h 2 true [] [d1 f.a])
  | .cpy f | .cpyp f | .cpyg f | .cpys f => some (unitShape f.h 3 true [d1 f.d] [d1 f.a])
  | .cpycan f => some (unitShape f.h 3 true [d1 f.d] [d1 f.b])
  | .hchain f => some (unitShape f.h 4 true [d1 f.d] [d1 f.a])
  | .hsendv f => some (unitShape f.h 4 true [] [d4 f.a, d1 f.b])
  | .hdrain f => some (unitShape f.h 4 true [] [d1 f.a])
  | .hfree f => some (unitShape f.h 4 true [] [])
  | .spxi f => some (unitShape f.h 0 false [d4 f.d] [d1 f.a, d1 f.b, d2 f.c])
  | .spxg f => some (unitShape f.h 1 true [d2 f.d] [d2 f.a, d2 f.b, d1 f.c])
  | .trap f | .rett f | .nop f | .brk f => some (unitShape f.h 5 false [] [])
  | .csrr f => some (unitShape f.h 5 false [(f.d.toNat, csrN f.sel.toNat)] [])
  | .csrw f => some (unitShape f.h 5 false [] [(f.a.toNat, csrN f.sel.toNat)])
  | .csrx f => some (unitShape f.h 5 false [(f.d.toNat, csrN f.sel.toNat)] [(f.a.toNat, csrN f.sel.toNat), (f.b.toNat, csrN f.sel.toNat)])
  | .sread f => some (unitShape f.h 5 false [(f.d.toNat, if sregWide f.sel.toNat then 2 else 1)] [])
  | .perfr f => some (unitShape f.h 5 false [d4 f.d] [])
  | _ => none

/-- Instructions that transfer control for the fibres that execute them (R235): a branch, a call, a return, and those whose label it names. -/
def isTransfer : Instr → Bool
  | .bra _ | .brx _ | .call _ | .ret _ | .spawn _ | .tbegin _ | .torelse _ => true
  | _ => false

/-- The instructions of R240. -/
def waitsForAll : Instr → Bool
  | .bar _ | .barx _ | .join _ | .quit _ | .spawn _ | .yield _ | .tbegin _ | .tend _ | .tabort _ | .tretry _ | .tretryt _ | .torelse _
  | .trap _ | .brk _ | .rett _ => true
  | _ => false

/-- The single registers that operands name. -/
def regsIn (l : List RegUse) : List Nat := (l.map (fun u => (List.range u.2).map (u.1 + ·))).flatten

/-- Two lists have no member in common; a write of p0 changes nothing (R23) and counts for none. -/
def apart (a b : List Nat) : Bool := !a.any b.contains

/-- Conditions 1 to 5 of R386 for the instructions in slots i and i + 1; `moves` says that slot i transfers control, as a branch that no
fibre takes does not (R235). -/
def mayPair (moves : Bool) (i j : Instr) (x y : Shape) : Bool :=
  let xw := x.pwrites.filter (· != 0)
  let yw := y.pwrites.filter (· != 0)
  y.unit != 0 && !moves && !waitsForAll i && !waitsForAll j && !(x.ll && x.h.la == 0) &&
  apart (regsIn y.reads) (regsIn x.writes) && apart (y.h.gp.toNat :: y.preads) xw &&
  apart (regsIn y.writes) (regsIn x.writes ++ regsIn x.reads) && apart yw (xw ++ x.h.gp.toNat :: x.preads) &&
  (x.unit != y.unit || x.unit == 0)

end Sys2Proof.Machine
end

