-- ==== Sys2Proof/Machine/Turns.lean ====
section
/-! DEFINITION. Sys2Proof/Machine/Turns.lean: whose turn it is, the choice among a core's waves, pairs, what may happen next, and the time
that passes (R39, R41, R224, R385 to R387; DESIGN CHOICE log 1, DESIGN CHOICE log 4). -/
namespace Sys2Proof.Machine

/-! ### What a wave does at its turn -/

/-- A row of the table that no wave fetches: it has no encoding. -/
def isEvent (i : Instr) : Bool := (encode i).isNone

/-- The leaf that translates a fetch has its A bit set (R83). -/
def touchFetch (e : Env) (s : State) : State := touchFetchAt e.g.ctx e.pc s

/-- What the issuing wave does: a pending asynchronous trap comes first (R224), then the fetched instruction. -/
def waveStep (e : Env) (s : State) : Out :=
  match pendingAsync e with
  | some _ => exec .asyncTrap s
  | none =>
    match fetchNext e s with
    | .instr i => exec i (touchFetch e s)
    | .illegal w => exec (.illegalInstruction w) (touchFetch e s)
    | .parity => exec .fetchParityMismatch (touchFetch e s)
    | .page _ => exec .fetchPageFault s
    | .window c => fetchWindow e c s

/-- The state as the wave of a slot sees it. -/
def asWave (core slot : Nat) (s : State) : State := { s with cur := some (core, slot) }

/-- The instruction that the wave has in front of it. -/
def nextInstr (e : Env) (s : State) : Option Instr := match fetchNext e s with | .instr i => some i | _ => none

/-- A handler's transfer to its own slot issues, and leaves the PC as it was. -/
def selfTransfer (e : Env) (s : State) : Bool :=
  !scalarBusy s e.key && (match nextInstr e s with | some i => isTransfer i | none => false)

/-- A turn of the wave has retired an instruction; in handler mode, moved the handler on, to its own slot it may be, or ended it. -/
def retires (e : Env) (s t : State) : Bool :=
  let sl := getSlot t e.key
  match e.sl.handler, sl.handler with
  | none, _ => sl.lastIssue == now s + 1 && e.sl.lastIssue != now s + 1
  | some h, some k => k.pc != h.pc || selfTransfer e s
  | some _, none => (kget? t.gangs e.gid).isSome

/-- The wave issues when its turn comes now: an instruction retires, traps or ends the transaction. A wait is no issue, whatever it starts. -/
def issuesNow (e : Env) (s : State) : Bool :=
  let fresh : Env := { e with sl := { e.sl with lastIssue := 0 } }
  match waveStep fresh (setSlot s e.key fresh.sl) with
  | .next t =>
    let sl := getSlot t e.key
    retires fresh s t || sl.handler.isSome != e.sl.handler.isSome || (kget? t.gangs e.gid).isNone || (e.sl.txn.isSome && sl.txn.isNone)
  | _ => false

/-! ### The choice among the ready waves of a core (R39) -/

/-- The unit that a wave's next instruction targets; what has no instruction goes to the control unit. -/
def nextUnit (e : Env) (s : State) : Nat :=
  match (nextInstr e s).bind (shapeOf e.g.kernel.version) with
  | some x => x.unit
  | none => 5

/-- Steps 1 to 4 of R39 as numbers, each compared when those before it are equal: ready for 2,048 cycles or more, and since when; the least
progress of its fibres, on whatever path of a transaction they are (R146); the last use of the unit before this cycle; the slot's last issue. -/
def rankOf (e : Env) (s : State) : List Nat :=
  let use := kget (getCore s e.core).unitUse (nextUnit e s) (0, 0)
  let late := match e.sl.readySince with | some t => decide (t + 2048 ≤ now s) | none => false
  [if late then 0 else 1, if late then e.sl.readySince.getD 0 else 0,
   (e.sl.fids.map (fun f => (getFibre e.g f).progress)).foldl min 0xFFFFFFFF, (if use.1 = now s + 1 then use.2 else use.1), e.sl.lastIssue]

/-- Lexical order. -/
def before : List Nat → List Nat → Bool
  | a :: as, b :: bs => decide (a < b) || (a == b && before as bs)
  | _, _ => false

/-- The wave of a slot, when it may issue in this cycle under R39: it holds fibres, is in no handler (R225) and has not issued. -/
def contender (s : State) (core slot : Nat) : Option Env :=
  let sl := getSlot s (slotKey core slot)
  if sl.fids.isEmpty || sl.handler.isSome || sl.lastIssue == now s + 1 then none else envOf (asWave core slot s)

/-- The wave takes the core's next pipe in this cycle: a pipe is left, and no ready wave that has not issued comes before it. So the first
wave in the order issues on pipe 0, and the second after it on pipe 1 (R39, R170). -/
def selected (e : Env) (s : State) : Bool :=
  decide (pipesUsed s e.core < 2) && e.sl.lastIssue != now s + 1 &&
  (List.range 32).all (fun w => match contender s e.core w with
    | some x => x.key == e.key || !(before (rankOf x s) (rankOf e s) && issuesNow x (asWave e.core w s))
    | none => true)

/-! ### Pairs (R386, R387) -/

/-- Conditions 1 to 5 and 7 of R386 for the wave's next two slots. -/
def pairable (e : Env) (s : State) : Bool :=
  let v := e.g.kernel.version
  match nextInstr e s, fetch s e.g.ctx v (nextPc e.pc) with
  | some i, .instr j =>
    match shapeOf v i, shapeOf v j with
    | some x, some y => e.sl.handler.isNone && mayPair (isTransfer i && !(executing x.h e).isEmpty) i j x y
    | _, _ => false
  | _, _ => false

/-- The wave in the same cycle at the second slot, when it issues there (condition 6): slot i has left the wave as it was. -/
def secondSlot (e : Env) (t : State) : Option State :=
  match envOf t with
  | none => none
  | some e2 =>
    if e2.key = e.key ∧ e2.fids = e.fids ∧ e2.pc = nextPc e.pc ∧ e2.sl.handler.isNone ∧ e2.g.fibres.all (fun f => !e2.fids.contains f.1 || f.2.pc == e2.pc) ∧
        pendingAsync e2 = none ∧ !slotExpired t e.core (e.key % 32) ∧ issuesNow e2 t then
      match waveStep e2 t with | .next u => some u | _ => none
    else none

/-- After slot i: with its PAIR bit set, slot i + 1 issues in the same cycle or the core counts that it does not, as event 3, in handler mode
too (condition 7). A slot that traps counts for neither (R387, DEDUCED log 66). -/
def pairUp (e : Env) (s : State) (r : Out) : Out :=
  match r with
  | .next t =>
    if pairBit s e.g.ctx e.pc && retires e s t then
      match (if pairable e s then secondSlot e t else none) with
      | some u => .next u
      | none => .next (perfEvent e.core 3 1 t)
    else .next t
  | _ => r

/-- On a halted core nothing issues, but lanes that are parked on a fault leave their wave, so that a drain finds them parked (R219, R228). -/
def haltedTurn (core slot : Nat) (s : State) : Out :=
  match envOf (asWave core slot s) with
  | none => .fault .notEnabled
  | some e =>
    let parked := (stuckFids false e).any (fun fid => (getFibre e.g fid).park != .no)
    if parked && e.sl.handler.isNone && e.sl.txn.isNone then .next (splitParked e (stuckFids false e) s) else .fault .notEnabled

/-- The wave of a slot has its turn, unless its core has stopped issue (R232, R427): its time in the slot may be up (R41); a handler's
instructions issue outside the selection (R225), and a wave that cannot issue yet takes no pipe. A transaction whose running path has no fibre left goes on with another path (R299). -/
def waveTurn (core slot : Nat) (s : State) : Out :=
  if s.mgmt.resetting then .fault .notEnabled
  else if (getCore s core).halted then haltedTurn core slot s
  else if slotExpired s core slot then execWaveSlotTimeout core slot s
  else
    let s1 := asWave core slot s
    match envOf s1 with
    | none =>
      let sl := getSlot s (slotKey core slot)
      if sl.txn.isSome then .next (pickPath core (slotKey core slot) sl.gang s) else .fault .notEnabled
    | some e =>
      if e.sl.handler.isSome || selected e s1 || !issuesNow e s1 then pairUp e s1 (waveStep e s1)
      else .fault .notEnabled

/-- A row that only the turn of its wave performs, in place of an instruction. -/
def isWaveRow : Instr → Bool
  | .asyncTrap | .illegalInstruction _ | .fetchParityMismatch | .fetchPageFault => true
  | _ => false

/-- One turn. -/
def runTurn (t : Turn) (s : State) : Out :=
  match t with
  | .event i => if isEvent i && !isWaveRow i then exec i s else .fault .notEnabled
  | .wave c w => waveTurn c w s
  | .rom => romTurn s
  | .flash slot off bytes => writeFlash slot off bytes s
  | .selector n => writeSelector n s

/-! ### The default scheduler (DESIGN CHOICE log 1): what may happen next, tried from a place that moves on with every step -/

/-- Something that may happen. -/
abbrev Chance := State → Out

/-- A core on which a gang of the task can start. -/
def admitChances (s : State) (tid : Nat) (t : Task) : List Chance :=
  let k := (kget s.launches t.launch Launch.init).kernel
  let fits := fun c => (canAdmit s k s.ids c).isSome && (match t.cluster with | some x => clusterOf c == x | none => true)
  if k.crew = 1 then (match (List.range 576).find? fits with | some c => [execGangAdmit tid c] | none => [])
  else (List.range 4).map (fun b =>
    let first := (List.range 36).filterMap (fun i => (List.range 4).findSome? (fun j =>
      let c := 144 * b + 4 * i + j
      if (canAdmit s k s.ids c).isSome then some c else none))
    let cores := match t.cluster with
      | some x => (((List.range 4).map (4 * x + ·)).filter (fun c => (canAdmit s k s.ids c).isSome)).take (max 1 (clusterHolds s k x)) ++
          first.filter (fun c => clusterOf c != x)
      | none => first
    execCrewAdmit tid (cores.take k.crew))

/-- Chances of saved gangs to return to a core. -/
def returnChances (s : State) : List Chance :=
  (s.ctxs.map (fun c => (c.2.saved.map (fun v => (List.range 576).map (fun k => execGangAdmit v.gang.task k))).flatten)).flatten

/-- Chances of the memory system. -/
def memoryChances (s : State) : List Chance :=
  (s.reqs.map (fun r => match r.phase with
    | .toHome => execHomeServe r.id none
    | .faulted _ => execLoggedAccessFault r.id
    | _ => if r.kind = .probe then execWriteProbeReply r.id else execMemoryReply r.id)) ++
  (List.range 4).map execCoreSideForward ++
  s.held.map (fun m => execHomeApplyWrite (homeOfMsg m) m.agent) ++
  s.applied.map (fun m => execWriteAcknowledgement m.id) ++
  (List.range 5).map (fun a => execDeliveryReport { agent := a, home := none })

/-- Chances of the gangs: windows that complete, and their ends. -/
def gangChances (s : State) : List Chance :=
  (s.gangs.map (fun g => execGangEnd g.1 ::
    (g.2.fibres.map (fun f => (f.2.windows.filter (fun w => !w.done && !w.ext)).map (fun w => execLongLatencyCompletion g.1 f.1 w.id))).flatten)).flatten

/-- Chances of the engines of the clusters and cores. -/
def engineChances (s : State) : List Chance :=
  (s.clusters.map (fun c => [execMatrixOperationStart c.1, execMxopComplete c.1])).flatten ++
  (s.drains.map (fun d => [execMatrixDrainComplete d.1, execHaulDrainComplete d.1, execDrainWriteFault d.1])).flatten ++
  s.packets.map (fun p => execHaulPacketArrival [p.id]) ++ s.acks.map (fun a => execHaulAcknowledgement a.id) ++
  (s.cores.map (fun c => match c.2.copyq.cmds with
    | [] => []
    | k :: _ => execCopyCommandStart c.1 :: ((copyPieces k).map (fun p => [execCopySectorLand c.1 p, execCopyFault c.1 p])).flatten)).flatten

/-- Chances of the dispatcher, the batcher and the cores' waves. -/
def coreChances (s : State) : List Chance :=
  (s.launches.map (fun l => execTaskDispatch l.1 :: l.2.blocks.map (fun b => execSweepTaskDispatch l.1 b.index))).flatten ++
  ((s.tasks.filter (fun t => t.2.st == .admitting)).map (fun t => admitChances s t.1 t.2)).flatten ++
  (s.cores.map (fun c => if c.2.table.any (fun b => b.wait == .ready)
    then (List.range 32).map (fun w => execWaveFill c.1 w) else [])).flatten ++
  (s.slots.filter (fun k => !k.2.fids.isEmpty)).map (fun k => waveTurn (k.1 / 32) (k.1 % 32))

/-- Chances of queues and event rings. -/
def queueChances (s : State) : List Chance :=
  (s.queues.map (fun e =>
    let q := e.1
    ([execQueueMap, execQueueIdleUnmap, execLaunchPacket, execCopyPacket, execWaitPacket, execSignalPacket, execGraphPacket, execRecordPacket, execWaitPacketWake,
      execWaitPacketTimeout, execDerrickAccessFault].map (fun f => f q)) ++
      (e.2.runs.map (fun r => execPacketComplete q r.index :: (match r.graph with
        | some g => (g.nodes.map (fun n => [execNodeStart q n.1, execNodeComplete q n.1])).flatten
        | none => []))).flatten)).flatten ++
  (s.rings.map (fun r => [execCompletionRecordWrite r.1, execEventRingTimeExpiry r.1])).flatten ++ [execFaultRecordWrite]

/-- Chances of the command ring and of contexts. -/
def commandChances (s : State) : List Chance :=
  [execCommandStart] ++
  (s.cmds.map (fun c => [execCtxcreate, execCtxdestroy, execWinload, execQbind, execQbindUnbind, execQueueset, execEvrset, execDrain,
    execRestore, execResume, execDeadline, execTlbinv, execFaultansReplay, execFaultansReflect, execFaultansKill, execFaultansEnd,
    execPeerset, execTierset, execKeyload, execDebugRelease, execDebugClaim, execDebugHalt, execDebugResume, execDebugResumeParked,
    execPerfsel, execTlbinvCompletion c.index])).flatten ++
  s.gangs.map (fun g => execGangSave g.1) ++ (s.ctxs.map (fun c => [execDrainComplete c.1, execDeadlineExpiry c.1])).flatten

/-- The blocks of a quarry that a migration moves, as its table stands in memory. -/
def movingKeys (s : State) (q : Nat) : List W64 :=
  let peek := fun (va : W64) (n : Nat) => match unitSpot s (q / 8) va pathVec true false (fun _ => .wait) with
    | .ok (_, p) => spotBytes s p n
    | .error _ => List.replicate n 0
  let desc := (getQuarry s q).desc
  let d := parseDesc (peek desc 128 ++ peek (desc + 128) 128)
  (((List.range (tableSize d)).map (fun i => parseEntry (peek (BitVec.ofNat 64 (d.table + 64 * i)) 64))).filter (·.state == 2)).map (·.key)

/-- Chances of the quarry units. -/
def quarryChances (s : State) : List Chance :=
  (s.quarries.map (fun q => execQuarryAccessFault q.1 :: execQuarryCorruption q.1 ::
    (match q.2.mig with
     | some m => execMigrationComplete q.1 :: m.copying.map (fun k => execMigrationCopyLand q.1 k.key) ++
        (movingKeys s q.1).map (fun k => execMigrationCopyStart q.1 k)
     | none => []))).flatten

/-- Everything the default scheduler tries; a tick comes last. -/
def defaultChances (s : State) : List Chance :=
  if s.mgmt.resetting then [execPackageReset]
  else if s.mgmt.pkg == .rom || s.mgmt.pkg == .scrub then [romTurn, execTick]
  else
    let l := memoryChances s ++ gangChances s ++ engineChances s ++ coreChances s ++ returnChances s ++ queueChances s ++ commandChances s ++
      quarryChances s
    let k := s.steps % (l.length + 1)
    l.drop k ++ l.take k ++ [execTick]

/-- The first chance that changes the machine. -/
def firstChance (s : State) : List Chance → Out
  | [] => .fault .notEnabled
  | f :: fs =>
    match f s with
    | .next s1 => if { s1 with cur := s.cur } = s then firstChance s fs else .next s1
    | _ => firstChance s fs

/-! ### The time that passes -/

/-- When each wave became ready that has not issued since (R39). -/
def noteReady (s : State) : State :=
  { s with slots := s.slots.map (fun k =>
      let w := asWave (k.1 / 32) (k.1 % 32) s
      let ready := match envOf w with | some e => e.sl.handler.isNone && issuesNow e w | none => false
      (k.1, { k.2 with readySince := if ready then some (k.2.readySince.getD (now s)) else none })) }

/-- The time that a step takes (DESIGN CHOICE log 4), counted by the cores that count cycles. -/
def passCycles (s : State) : State :=
  let n := min (Config.stepCycles s.steps) (127 - s.phase)
  { s with
    steps := s.steps + 1
    phase := s.phase + n
    cores := s.cores.map (fun e => (e.1, perfBump 1 n e.2)) }

/-- After a turn: the quarry units go on with their orders (R125), the releases of failed tasks go on (R46, R227), and time passes. -/
def passTime (s : State) : State := noteReady (passCycles (settleFlushes (serveQuarries s)))

end Sys2Proof.Machine
end

