-- ==== Sys2Proof/Machine/Step.lean ====
section
/-! DEFINITION. Sys2Proof/Machine/Step.lean: one step, and the placing of an instruction (DESIGN CHOICE log 1, DESIGN CHOICE log 5). -/
namespace Sys2Proof.Machine

/-! ### The step -/

/-- A turn that is over lets time pass. -/
def afterTurn : Out → Out
  | .next s => .next (passTime s)
  | .fault r => .fault r
  | .refused r => .refused r

/-- One step: the next turn of the agenda, or one that the default scheduler finds. -/
def step (s : State) : Host.Outcome State Fault Refusal :=
  match s.agenda with
  | t :: ts => afterTurn (runTurn t { s with agenda := ts })
  | [] => afterTurn (firstChance s (defaultChances s))

/-! ### Placing an instruction where the next step fetches it (DESIGN CHOICE log 5) -/

/-- The parity bits of a line's slots (R234). -/
def lineParity (l : Nat) : Nat :=
  (List.range 16).foldl (fun a j =>
    if (List.range 30).foldl (fun b i => b != l.testBit (30 * j + i)) false then a + 2 ^ (16 + j) else a) 0

/-- A line whose slot 0 holds a word. -/
def lineOfWord (w : Nat) : Nat := w % 2 ^ 96 + 2 ^ 240 * (2 ^ 240 * lineParity (w % 2 ^ 96))

/-- Where the placed program stands: its line, and the tables that map the first GiB to itself. -/
def placePc : Nat := 0x10000
def placeRoot : Nat := 0x20000
def placeTable : Nat := 0x30000

/-- The kernel, gang and wave slot of the placed program: one fibre with 256 registers and 64 KiB of scratchpad on core 0. -/
def placeKernel : Kernel := { Kernel.init with va := 0, regs := 256, spad := 65536, entry := BitVec.ofNat 64 placePc }
def placeFibre : Fibre := initialFibre placeKernel 0 0
def placeGang (launch task crew : Nat) : Gang :=
  { Gang.init with
    launch := launch, task := task, crew := crew, kernel := placeKernel, fibres := [(0, placeFibre)], granule := 0, shadowGranule := 1024,
    granules := blockGranules placeKernel.spad }
def placeCtx : Ctx :=
  { Ctx.init with st := .live, root := placeRoot, windows := [(0, 0x800000000000001E, 0, 0x1F07)] }

/-- A context, a gang of one fibre and its wave, with the instruction at its PC; the wave has the next turn. -/
def State.withFetchWord (s : State) (nbits w : Nat) : State :=
  let launch := s.ids
  let task := s.ids + 1
  let crew := s.ids + 2
  let gid := s.ids + 3
  let core : Core := { Core.init with gangs := [gid], blocks := [{ base := 0, size := 256, gang := gid, fid := 0 }] }
  let m1 := writeLE s.mem placePc 64 (lineOfWord (w % 2 ^ nbits))
  let m2 := writeLE m1 placeRoot 8 (placeTable + 1)
  let m3 := writeLE m2 placeTable 8 0x1F
  { s with
    agenda := .wave 0 0 :: s.agenda
    ids := s.ids + 4
    mem := m3
    sectorKeys := s.sectorKeys.filter (fun e => !([placePc / 128, placeRoot / 128, placeTable / 128].contains e.1))
    mgmt := { s.mgmt with resetting := false, zeroed := none }
    ctxs := kset s.ctxs 0 placeCtx
    cores := kset s.cores 0 core
    slots := kset s.slots 0 { Slot.init with gang := gid, fids := [0] }
    gangs := kset s.gangs gid (placeGang launch task crew)
    crews := kset s.crews crew { Crew.init with size := 1, gangs := [gid], live := [gid] }
    tasks := kset s.tasks task { Task.init with launch := launch, st := .running, crew := crew, gangsLeft := 1 }
    launches := kset s.launches launch { Launch.init with kernel := placeKernel, next := 1, left := 1 } }

end Sys2Proof.Machine
end

