-- ==== Sys2Proof/Safety.lean ====
section
/-! DEFINITION. Sys2Proof/Safety.lean: the words in which claims about the machine are stated: the wave that issues, operands that
can be read, what an instruction writes, frames, and the invariant every step keeps. -/
namespace Sys2Proof.Machine

/-! ### The wave that issues -/

/-- A wave with no handler has the issue slot, and no lookahead window makes any of its fibres wait: the form of instruction that
waits for every open window (R240) when `waits`, the other form otherwise. -/
structure Issues (waits : Bool) (s : State) (e : Env) : Prop where
  env : envOf s = some e
  user : e.sl.handler = none
  ready : ∀ fid ∈ e.fids, mustWait waits (getFibre e.g fid) = false

/-- A wave whose handler runs has the issue slot, and its scalar unit waits for no access (R225, R240). -/
structure Handling (s : State) (e : Env) (h : Handler) : Prop where
  env : envOf s = some e
  handler : e.sl.handler = some h
  idle : scalarBusy s e.key = false

/-- Fibre `fid` of gang `gid`. -/
def fibreAt (s : State) (gid fid : Nat) : Fibre := getFibre (getGang s gid) fid

/-- Every fibre of the wave is a fibre of its gang. -/
def Live (e : Env) : Prop := ∀ fid ∈ e.fids, (kget? e.g.fibres fid).isSome = true

/-! ### Operands -/

/-- Every register operand of the executing fibres is aligned and inside the fibre's window (R24). -/
def RegsOk (e : Env) (act : List Nat) (uses : List RegUse) : Prop :=
  ∀ fid ∈ act, ∀ u ∈ uses, u.1 % u.2 = 0 ∧ u.1 < (getFibre e.g fid).win

/-- No fibre of the wave has a poisoned guard. -/
def GuardsClean (h : Hdr) (e : Env) : Prop := ∀ fid ∈ e.fids, (guard h (getFibre e.g fid)).2 = false

/-- The wave is outside a transaction, and no guard of it is poisoned. -/
structure Plain (h : Hdr) (e : Env) : Prop where
  txn : e.sl.txn = none
  clean : GuardsClean h e

/-- None of some fibres reads poison in its guard or in one of some operands (R333, R353). -/
def SourcesClean (h : Hdr) (e : Env) (act : List Nat) (srcs : List Src) : Prop :=
  ∀ fid ∈ act, (guard h (getFibre e.g fid)).2 = false ∧ ∀ r ∈ srcs, (readSrc (getFibre e.g fid) r).2 = false

/-- The fetch of the target's line by each of some fibres sets A of the page, and nothing else (R83). -/
def targetsSeen (e : Env) (act : List Nat) (dest : Nat → W64) (s : State) : State :=
  act.foldl (fun s fid => touchFetchAt e.g.ctx (dest fid) s) s

/-- The fibres have no access under way and no region maintenance to wait for: what a release at scope g waits for has been performed. -/
def Idle (s : State) (e : Env) (act : List Nat) : Prop :=
  ∀ fid ∈ act, hasReq s e.gid fid = false ∧ (getFibre e.g fid).flushWait = none

/-- No wave of a gang sleeps. -/
def NoSleeper (s : State) (gid : Nat) : Prop := ∀ p ∈ s.sleepers, p.2.gang ≠ gid

/-- A register operand of a type, for R24. -/
def tyUse (t : Ty) (r : Reg) : List RegUse := [(r.toNat, if t.bits = 64 then 2 else 1)]

/-- The bits of a register operand, its value at the type (get of R255), and its poison. -/
def rawOf (t : Ty) (r : Reg) (x : Fibre) : Nat := (readSrc x (tySrc t r)).1.toNat
def valOf (t : Ty) (r : Reg) (x : Fibre) : Int := getTy t (rawOf t r x)
def poiOf (t : Ty) (r : Reg) (x : Fibre) : Bool := (readSrc x (tySrc t r)).2
/-- One 32-bit register, whatever the type. -/
def wordOf (r : Reg) (x : Fibre) : Nat := rawOf .n32 r x
def wordPoi (r : Reg) (x : Fibre) : Bool := poiOf .n32 r x

/-- The immediate at a type (R244). -/
def immVal (f : F1) : Int := getTy f.ty (immAt f.ty f.imm).toNat

/-- A value put into a register at its type (put of R255), with its poison, under a guard whose poison adds to it (R256). -/
def putsAt (h : Hdr) (t : Ty) (d : Reg) (v : Int) (p : Bool) (x : Fibre) : Wr :=
  taint (guard h x).2 (dstWr (tyDst t d) { val := BitVec.ofNat 128 (putTy t v), flags := 0, poison := p })

/-- A predicate written. -/
def putsPred (h : Hdr) (d : Reg) (v p : Bool) (x : Fibre) : Wr :=
  taint (guard h x).2 (dstWr (.pred d.toNat) { val := BitVec.ofNat 128 v.toNat, flags := 0, poison := p })

/-- Bits with flags written to a register of a type. -/
def putsBits (h : Hdr) (t : Ty) (d : Reg) (r : Nat × Word) (p : Bool) (x : Fibre) : Wr :=
  taint (guard h x).2 (dstWr (tyDst t d) { val := BitVec.ofNat 128 r.1, flags := r.2, poison := p })

/-! ### Completion -/

/-- In handler mode the instruction completes on the scalar unit when its k-registers are k0 to k15 and its guard holds: the handler state
changes as `wr` says and goes on at the next slot (R225, R270, R271). -/
def ComputesScalar (i : Instr) (h : Hdr) (uses : List Nat) (wr : Handler → Handler) : Prop :=
  ∀ s e hd, Handling s e hd → (∀ n ∈ uses, n < 16) → (guardK h hd).1 = true → exec i s = .next (handlerNext e (wr hd) s)

/-- The instruction completes whenever its operands can be read: every executing fibre writes what `wr` says, and every fibre of the
wave goes on at the next slot. -/
def Computes (i : Instr) (h : Hdr) (ll : Bool) (uses : List RegUse) (wr : Fibre → Wr) : Prop :=
  ∀ s e, Issues false s e → RegsOk e (executing h e) uses →
    exec i s = .next (retireWr h ll e 0 (executing h e) (fun fid => wr (getFibre e.g fid)) s)

/-- The same for an instruction whose result depends on the executing fibres together, by rising lane (R288). -/
def ComputesAcross (i : Instr) (h : Hdr) (ll : Bool) (uses : List RegUse) (wr : Env → List Nat → Nat → Wr) : Prop :=
  ∀ s e, Issues false s e → RegsOk e (executing h e) uses →
    exec i s = .next (retireWr h ll e 0 (executing h e)
      (fun fid => taint (guard h (getFibre e.g fid)).2 (wr e (sortBy lane (executing h e)) fid)) s)

/-- Two register sources at the type. -/
def Binary (i : Instr) (f : F0) (op : Int → Int → Int) : Prop :=
  Computes i f.h false (tyUse f.ty f.d ++ tyUse f.ty f.a ++ tyUse f.ty f.b) (fun x =>
    putsAt f.h f.ty f.d (op (valOf f.ty f.a x) (valOf f.ty f.b x)) (poiOf f.ty f.a x || poiOf f.ty f.b x) x)

/-- A register source and an immediate at the type. -/
def BinaryImm (i : Instr) (f : F1) (op : Int → Int → Int) : Prop :=
  Computes i f.h false (tyUse f.ty f.d ++ tyUse f.ty f.a) (fun x =>
    putsAt f.h f.ty f.d (op (valOf f.ty f.a x) (immVal f)) (poiOf f.ty f.a x) x)

/-- A source at the type as unsigned bits, and a 32-bit count or descriptor; `op` gets the width first. -/
def Counted (i : Instr) (f : F0) (op : Nat → Nat → Nat → Int) : Prop :=
  Computes i f.h false (tyUse f.ty f.d ++ tyUse f.ty f.a ++ [(f.b.toNat, 1)]) (fun x =>
    putsAt f.h f.ty f.d (op f.ty.bits (rawOf f.ty f.a x % 2 ^ f.ty.bits) (wordOf f.b x)) (poiOf f.ty f.a x || wordPoi f.b x) x)

def CountedImm (i : Instr) (f : F1) (op : Nat → Nat → Nat → Int) : Prop :=
  Computes i f.h false (tyUse f.ty f.d ++ tyUse f.ty f.a) (fun x =>
    putsAt f.h f.ty f.d (op f.ty.bits (rawOf f.ty f.a x % 2 ^ f.ty.bits) f.imm.toNat) (poiOf f.ty f.a x) x)

/-- One source at the type as unsigned bits. -/
def Unary (i : Instr) (f : F0) (op : Nat → Nat → Int) : Prop :=
  Computes i f.h false (tyUse f.ty f.d ++ tyUse f.ty f.a) (fun x =>
    putsAt f.h f.ty f.d (op f.ty.bits (rawOf f.ty f.a x % 2 ^ f.ty.bits)) (poiOf f.ty f.a x) x)

/-- A floating-point operation on register sources read at a type under the flush mode (R65), rounded by RM or FPMODE.RM (R63). -/
def Floats (i : Instr) (h : Hdr) (ll : Bool) (t : Ty) (rm : BitVec 3) (srcs : List Reg) (d : Reg)
    (op : Nat → Bool → List Cls → Nat × Word) : Prop :=
  Computes i h ll (tyUse t d ++ (srcs.map (tyUse t)).flatten) (fun x =>
    putsBits h t d (op (rmOf rm x.fpmode) (ftzOn x.fpmode) (srcs.map (fun r => ftzIn (ftzOn x.fpmode) (fmtOf t) (rawOf t r x))))
      (srcs.any (fun r => poiOf t r x)) x)

/-- The same with an immediate FP32 as the last source. -/
def FloatsImm (i : Instr) (f : F1) (srcs : List Reg) (op : Nat → Bool → List Cls → Nat × Word) : Prop :=
  Computes i f.h false (tyUse .f32 f.d ++ (srcs.map (tyUse .f32)).flatten) (fun x =>
    putsBits f.h .f32 f.d (op (rmOf f.rm x.fpmode) (ftzOn x.fpmode)
      (srcs.map (fun r => ftzIn (ftzOn x.fpmode) fp32 (rawOf .f32 r x)) ++ [ftzIn (ftzOn x.fpmode) fp32 f.imm.toNat]))
      (srcs.any (fun r => poiOf .f32 r x)) x)

/-! ### Instructions that only compute -/

/-- Registers a result of a type takes, alone or as a pair; and for a cross-lane result, as a quad too. -/
def tyRegs (t : Ty) (d : Reg) : List Nat := if t.bits = 64 then [d.toNat, d.toNat + 1] else [d.toNat]
def laneRegs (t : Ty) (d : Reg) : List Nat := if t = .b128 then (List.range 4).map (d.toNat + ·) else tyRegs t d

/-- What an instruction that only computes names: the register operands of R24, and the registers and predicates it writes. -/
def computing : Instr → Option (List RegUse × List Nat × List Nat)
  | .iadd f | .isub f | .imul f | .imulh f | .imin f | .imax f | .idiv f | .irem f | .and_ f | .or_ f | .xor_ f | .andn f =>
    some (tyUse f.ty f.d ++ tyUse f.ty f.a ++ tyUse f.ty f.b, tyRegs f.ty f.d, [])
  | .iaddImm f | .isubImm f | .imulImm f | .imulhImm f | .iminImm f | .imaxImm f | .andImm f | .orImm f | .xorImm f | .andnImm f | .shlImm f | .shrImm f | .sarImm f | .rolImm f | .rorImm f | .bfeImm f =>
    some (tyUse f.ty f.d ++ tyUse f.ty f.a, tyRegs f.ty f.d, [])
  | .shl f | .shr f | .sar f | .rol f | .ror f | .bfe f =>
    some (tyUse f.ty f.d ++ tyUse f.ty f.a ++ [(f.b.toNat, 1)], tyRegs f.ty f.d, [])
  | .imad f => some (tyUse f.ty f.d ++ tyUse f.ty f.a ++ tyUse f.ty f.b ++ tyUse f.ty f.c, tyRegs f.ty f.d, [])
  | .bfi f => some (tyUse f.ty f.d ++ tyUse f.ty f.a ++ tyUse f.ty f.b ++ [(f.c.toNat, 1)], tyRegs f.ty f.d, [])
  | .imadImm f | .bfiImm f => some (tyUse f.ty f.d ++ tyUse f.ty f.a ++ tyUse f.ty f.b, tyRegs f.ty f.d, [])
  | .iabs f | .ineg f | .not_ f | .brev f => some (tyUse f.ty f.d ++ tyUse f.ty f.a, tyRegs f.ty f.d, [])
  | .popc f | .clz f | .ctz f => some ((f.d.toNat, 1) :: tyUse f.ty f.a, [f.d.toNat], [])
  | .lea f => some ([(f.d.toNat, 2), (f.a.toNat, 2)] ++ tyUse f.ty f.b, [f.d.toNat, f.d.toNat + 1], [])
  | .mov f =>
    if f.ty = .b128 then some ([(f.d.toNat, 4), (f.a.toNat, 4)], (List.range 4).map (f.d.toNat + ·), [])
    else some (tyUse f.ty f.d ++ tyUse f.ty f.a, tyRegs f.ty f.d, [])
  | .movi f => some (tyUse f.ty f.d, tyRegs f.ty f.d, [])
  | .sel f => some (tyUse f.ty f.d ++ tyUse f.ty f.a ++ tyUse f.ty f.b, tyRegs f.ty f.d, [])
  | .selImm f => some (tyUse f.ty f.d ++ tyUse f.ty f.a, tyRegs f.ty f.d, [])
  | .icmp f => some (tyUse f.ty f.a ++ tyUse f.ty f.b, [], [f.d.toNat])
  | .icmpImm f => some (tyUse f.ty f.a, [], [f.d.toNat])
  | .iset f => some ((f.d.toNat, 1) :: (tyUse f.ty f.a ++ tyUse f.ty f.b), [f.d.toNat], [])
  | .isetImm f => some ((f.d.toNat, 1) :: tyUse f.ty f.a, [f.d.toNat], [])
  | .pand f | .por f | .pxor f | .pnot f | .pmov f | .vote f | .elect f => some ([], [], [f.d.toNat])
  | .pmovToRegister f | .ballot f => some ([(f.d.toNat, 1)], [f.d.toNat], [])
  | .pmovFromRegister f => some ([(f.a.toNat, 1)], [], (List.range 15).map (· + 1))
  | .idot4 f | .ffma f | .qdec f | .hfma2 f | .bfma2 f =>
    some ([(f.d.toNat, 1), (f.a.toNat, 1), (f.b.toNat, 1), (f.c.toNat, 1)], [f.d.toNat], [])
  | .idot4Imm f | .ffmaImm f => some ([(f.d.toNat, 1), (f.a.toNat, 1), (f.b.toNat, 1)], [f.d.toNat], [])
  | .fadd f | .fsub f | .fmul f | .fmin f | .fmax f | .fdiv f | .hadd2 f | .hmul2 f =>
    some ([(f.d.toNat, 1), (f.a.toNat, 1), (f.b.toNat, 1)], [f.d.toNat], [])
  | .faddImm f | .fsubImm f | .fmulImm f | .fminImm f | .fmaxImm f => some ([(f.d.toNat, 1), (f.a.toNat, 1)], [f.d.toNat], [])
  | .fabs f | .fneg f | .fclass f | .fsqrt f | .frsq f | .frcp f | .fexp2 f | .flog2 f | .frnd f =>
    some ([(f.d.toNat, 1), (f.a.toNat, 1)], [f.d.toNat], [])
  | .dadd f | .dmul f | .ddiv f | .dmin f | .dmax f =>
    some ([(f.d.toNat, 2), (f.a.toNat, 2), (f.b.toNat, 2)], [f.d.toNat, f.d.toNat + 1], [])
  | .dfma f => some ([(f.d.toNat, 2), (f.a.toNat, 2), (f.b.toNat, 2), (f.c.toNat, 2)], [f.d.toNat, f.d.toNat + 1], [])
  | .dsqrt f => some ([(f.d.toNat, 2), (f.a.toNat, 2)], [f.d.toNat, f.d.toNat + 1], [])
  | .fcmp f => some ([(f.a.toNat, 1), (f.b.toNat, 1)], [], [f.d.toNat])
  | .fcmpImm f => some ([(f.a.toNat, 1)], [], [f.d.toNat])
  | .dcmp f => some ([(f.a.toNat, 2), (f.b.toNat, 2)], [], [f.d.toNat])
  | .cvt f => some (tyUse f.ty f.d ++ tyUse f.tys f.a, tyRegs f.ty f.d, [])
  | .hwcvt f => some ([(f.d.toNat, 1), (f.a.toNat, 4)], [f.d.toNat], [])
  | .hwcvtSr f => some ([(f.d.toNat, 1), (f.a.toNat, 4), (f.b.toNat, 2), (f.c.toNat, 2)], [f.d.toNat], [])
  | .lshfl f | .lshfu f | .lshfd f | .lxor f | .lbcast f =>
    some (dstUse (laneDst f.ty f.d) ++ srcUse (laneSrc f.ty f.a) ++ [(f.b.toNat, 1)], laneRegs f.ty f.d, [])
  | .lshflImm f | .lshfuImm f | .lshfdImm f | .lxorImm f | .lbcastImm f | .lpfx f | .lred f =>
    some (dstUse (laneDst f.ty f.d) ++ srcUse (laneSrc f.ty f.a), laneRegs f.ty f.d, [])
  | .match_ f => some ((f.d.toNat, 1) :: srcUse (laneSrc f.ty f.a), [f.d.toNat], [])
  | .spxi f => some ([(f.d.toNat, 4), (f.a.toNat, 1), (f.b.toNat, 1), (f.c.toNat, 2)], (List.range 4).map (f.d.toNat + ·), [])
  | _ => none

/-- Instructions that handler mode has (R225): integer and predicate instructions, global and scratchpad accesses, lane access, CSR and
special-register reads and writes, transfers inside the handler's lines, and RETT. -/
def handlerForm : Instr → Bool
  | .iadd _ | .iaddImm _ | .isub _ | .isubImm _ | .imul _ | .imulImm _ | .imulh _ | .imulhImm _ | .imad _ | .imadImm _ | .idiv _ | .irem _
  | .imin _ | .iminImm _ | .imax _ | .imaxImm _ | .iabs _ | .ineg _ | .and_ _ | .andImm _ | .or_ _ | .orImm _ | .xor_ _ | .xorImm _
  | .andn _ | .andnImm _ | .not_ _ | .shl _ | .shlImm _ | .shr _ | .shrImm _ | .sar _ | .sarImm _ | .rol _ | .rolImm _ | .ror _ | .rorImm _
  | .bfe _ | .bfeImm _ | .bfi _ | .bfiImm _ | .popc _ | .clz _ | .ctz _ | .brev _ | .lea _ | .mov _ | .movi _ | .sel _ | .selImm _
  | .icmp _ | .icmpImm _ | .iset _ | .isetImm _ | .pand _ | .por _ | .pxor _ | .pnot _ | .pmov _ | .pmovToRegister _ | .pmovFromRegister _
  | .idot4 _ | .idot4Imm _ | .ld _ | .st _ | .lds _ | .sts _ | .lget _ | .lput _ | .csrr _ | .csrw _ | .csrx _ | .sread _
  | .bra _ | .brx _ | .call _ | .ret _ | .rett _ => true
  | _ => false

/-- Guard and lookahead of an instruction (R236); a row that no wave fetches has none. -/
def hdrOf : Instr → Option Hdr
  | .iadd f | .isub f | .imul f | .imulh f | .imad f | .idiv f | .irem f | .imin f | .imax f | .iabs f | .ineg f | .and_ f
  | .or_ f | .xor_ f | .andn f | .not_ f | .shl f | .shr f | .sar f | .rol f | .ror f | .bfe f | .bfi f | .popc f | .clz f
  | .ctz f | .brev f | .lea f | .mov f | .sel f | .icmp f | .iset f | .pand f | .por f | .pxor f | .pnot f | .pmov f
  | .pmovToRegister f | .pmovFromRegister f | .idot4 f | .fadd f | .fsub f | .fmul f | .ffma f | .fmin f | .fmax f | .fabs f
  | .fneg f | .fcmp f | .fclass f | .fdiv f | .fsqrt f | .frsq f | .frcp f | .fexp2 f | .flog2 f | .frnd f | .dadd f | .dmul f
  | .dfma f | .ddiv f | .dsqrt f | .dcmp f | .dmin f | .dmax f | .hadd2 f | .hmul2 f | .hfma2 f | .bfma2 f | .cvt f | .qdec f
  | .hwcvt f | .hwcvtSr f | .lshfl f | .lshflImm f | .lshfu f | .lshfuImm f | .lshfd f | .lshfdImm f | .lxor f | .lxorImm f
  | .lbcast f | .lbcastImm f | .lpfx f | .lred f | .vote f | .ballot f | .match_ f | .elect f | .lget f | .lput f => some f.h
  | .iaddImm f | .isubImm f | .imulImm f | .imulhImm f | .imadImm f | .iminImm f | .imaxImm f | .andImm f | .orImm f | .xorImm f
  | .andnImm f | .shlImm f | .shrImm f | .sarImm f | .rolImm f | .rorImm f | .bfeImm f | .bfiImm f | .movi f | .selImm f
  | .icmpImm f | .isetImm f | .idot4Imm f | .faddImm f | .fsubImm f | .fmulImm f | .ffmaImm f | .fminImm f | .fmaxImm f
  | .fcmpImm f => some f.h
  | .bra f | .brx f | .call f | .ret f | .join f | .spawn f | .quit f | .yield f | .bar f | .barx f => some f.h
  | .ld f | .st f | .lds f | .sts f | .xst f | .xstCount f | .ldpl f | .stpl f | .pref f | .flushr f | .invr f | .aadd f | .amin f
  | .amax f | .aand f | .aor f | .axor f | .axchg f | .acas f | .ainc f | .fence f | .fencex f => some f.h
  | .tbegin f | .tend f | .tabort f | .tretry f | .tretryt f | .torelse f | .swinit f | .swexpect f | .swarrive f | .taskpost f
  | .tasktake f | .taskdone f | .sbset f | .qkeyParent f | .qkeyChild f | .qkeyNbr f | .qfind f | .qowner f | .qrefine f
  | .qcoarsen f | .qcost f | .qrebal f | .qgen f | .qsweep f => some f.h
  | .mxcfg f | .mxop f | .mxdrain f | .cpy f | .cpyp f | .cpyg f | .cpys f | .cpycan f | .hchain f | .hsend f | .hsendv f
  | .hcast f | .hdrain f | .hfree f | .spxi f | .spxg f => some f.h
  | .trap f | .rett f | .csrr f | .csrw f | .csrx f | .sread f | .nop f | .brk f | .perfr f => some f.h
  | _ => none

/-! ### Frames -/

/-- Every part of the machine but the wave slots, the cores, the gangs and the identifiers is as before: all memory, the memory
system, contexts, queues, crews, tasks, quarries and firmware. -/
def OutsideKept (s t : State) : Prop := { t with gangs := s.gangs, cores := s.cores, slots := s.slots, ids := s.ids } = s

/-- Every other gang, wave slot and core, every fibre of the gang outside the wave, and the gang's own state are as before; of the
slot and the core only the notes of the issue and the counters change. -/
structure OthersKept (e : Env) (s t : State) : Prop where
  gangs : ∀ g, g ≠ e.gid → kget? t.gangs g = kget? s.gangs g
  slots : ∀ k, k ≠ e.key → kget? t.slots k = kget? s.slots k
  cores : ∀ c, c ≠ e.core → kget? t.cores c = kget? s.cores c
  fibres : ∀ fid, fid ∉ e.fids → fibreAt t e.gid fid = fibreAt s e.gid fid
  gang : { getGang t e.gid with fibres := (getGang s e.gid).fibres } = getGang s e.gid
  slot : { getSlot t e.key with lastIssue := (getSlot s e.key).lastIssue, readySince := (getSlot s e.key).readySince } = getSlot s e.key
  core : { getCore t e.core with
    unitUse := (getCore s e.core).unitUse, issued := (getCore s e.core).issued, perfCount := (getCore s e.core).perfCount } = getCore s e.core

/-- What the retirement of an instruction that writes some registers and predicates leaves of a fibre: every register and predicate that
it does not write and that no open window holds (R239), the mode bits of FPMODE, and every other part but the PC, the windows and the
progress count. -/
structure FibreKept (regs preds : List Nat) (x y : Fibre) : Prop where
  reg : ∀ n, n ∉ regs → (∀ w ∈ x.windows, ∀ v ∈ w.regs, v.1 ≠ n) → readReg y n = readReg x n
  pred : ∀ n, n ∉ preds → (∀ w ∈ x.windows, ∀ v ∈ w.preds, v.1 ≠ n) → readPred y n = readPred x n
  modes : y.fpmode &&& ~~~flagMask = x.fpmode &&& ~~~flagMask
  rest : { y with pc := x.pc, regs := x.regs, regPoison := x.regPoison, preds := x.preds, predPoison := x.predPoison,
                  fpmode := x.fpmode, windows := x.windows, progress := x.progress } = x

/-- Registers, predicates and the mode bits of a fibre are as before, but for what an open window holds; its window size and WAITLIMIT too. -/
structure RegistersKept (x y : Fibre) : Prop where
  reg : ∀ n, (∀ w ∈ x.windows, ∀ v ∈ w.regs, v.1 ≠ n) → readReg y n = readReg x n
  pred : ∀ n, (∀ w ∈ x.windows, ∀ v ∈ w.preds, v.1 ≠ n) → readPred y n = readPred x n
  modes : y.fpmode &&& ~~~flagMask = x.fpmode &&& ~~~flagMask
  win : y.win = x.win
  waitlimit : y.waitlimit = x.waitlimit

/-- Loads, stores, atomics, prefetch, region maintenance and fences; sync words, task queues and SBSET. -/
def memoryForm : Instr → Bool
  | .ld _ | .st _ | .lds _ | .sts _ | .xst _ | .xstCount _ | .ldpl _ | .stpl _ | .pref _ | .flushr _ | .invr _ | .aadd _ | .amin _ | .amax _
  | .aand _ | .aor _ | .axor _ | .axchg _ | .acas _ | .ainc _ | .fence _ | .fencex _ | .swinit _ | .swexpect _ | .swarrive _ | .taskpost _
  | .tasktake _ | .taskdone _ | .sbset _ => true
  | _ => false

/-- No place reads as poisoned to an access of the wave's core, through its L1, its slab's slice or a home (R121, R122). -/
def NoPoisonSeen (s : State) (e : Env) : Prop :=
  ∀ ia, (∀ w, homeSeen s e.core e.g.ctx ia w = false) ∧ ∀ n pol ord sc w, seenPoison s e.core e.g.ctx ia n pol ord sc w = false

/-- Every byte of device, host and peer memory is as before. -/
def MemoryKept (s t : State) : Prop := t.mem = s.mem ∧ t.hostMem = s.hostMem ∧ t.peerMem = s.peerMem

/-- The same, but for bit 4 of a byte of device memory, the A bit of a leaf, which a walk may set (R83). -/
def MemoryKeptButA (s t : State) : Prop := t.hostMem = s.hostMem ∧ t.peerMem = s.peerMem ∧
  ∀ a, readByte t.mem a = readByte s.mem a ∨ readByte t.mem a = readByte s.mem a ||| 0x10

/-- The fibres of the wave stand at given PCs. -/
def StandAt (e : Env) (pc : Nat → W64) (t : State) : Prop := ∀ fid ∈ e.fids, (fibreAt t e.gid fid).pc = pc fid

/-- Requests of the executing fibres are under way, one for each, and no earlier request has gone. -/
def Requests (e : Env) (act : List Nat) (is : Nat → Req → Prop) (s t : State) : Prop :=
  (∀ r ∈ s.reqs, r ∈ t.reqs) ∧ ∀ fid ∈ act, ∃ r ∈ t.reqs, r.gang = e.gid ∧ r.fid = fid ∧ r.pc = e.pc ∧ is fid r

/-! ### Transactions (R147 to R149) -/

/-- Some bytes over the others of a buffer, at their addresses. -/
def buffered (m : KMap Byte) (a : Nat) (bs : List Byte) : KMap Byte := bs.zipIdx.foldl (fun m b => kset m (a + b.2) b.1) m

/-- A read of the wave inside its transaction has its lines in the read set, each with the version that it has now, and no recorded line
is lost; the write set is as before. -/
def ReadsJoined (s t : State) (e : Env) (tx : Txn) (lines : List Nat) : Prop :=
  ∃ tx1, (getSlot t e.key).txn = some tx1 ∧ tx1.writes = tx.writes ∧ tx1.levels = tx.levels ∧ (∀ r ∈ tx.reads, r ∈ tx1.reads) ∧
    ∀ l ∈ lines, ∃ r ∈ tx1.reads, r.scratch = true ∧ r.line = l ∧ r.version = scratchVersion s e.gid l

/-- The read set has room for so many scratchpad lines more, and the scratchpad lines in it are as they were read (R147, R148). -/
def ReadsFit (s : State) (e : Env) (tx : Txn) (n : Nat) : Prop :=
  (tx.reads.filter (fun r => r.scratch)).length + n ≤ 16 ∧ ∀ r ∈ tx.reads, r.scratch = true → r.version = scratchVersion s e.gid r.line

/-- A store of the wave inside its transaction: its bytes stand in the write set, which no other wave sees, and every scratchpad is as
before; the read set and the levels too. -/
def WritesBuffered (s t : State) (e : Env) (tx : Txn) (glob scr : KMap Byte) : Prop :=
  (∃ tx1, (getSlot t e.key).txn = some tx1 ∧ tx1.writes.glob = glob ∧ tx1.writes.scr = scr ∧ tx1.reads = tx.reads ∧ tx1.levels = tx.levels) ∧
  ∀ g, (getGang t g).scratch = (getGang s g).scratch

/-! ### Traps -/

/-- The wave can enter its handler now: none runs, no operation of an open window does, no transaction is open, and HANDLERBASE is
set (R222, R227, R239). -/
structure CanTrap (s : State) (e : Env) : Prop where
  env : envOf s = some e
  user : e.sl.handler = none
  quiet : windowsRunning e = false
  plain : e.sl.txn = none
  base : e.g.handlerBase ≠ 0

/-- The handler state at entry: k0 to k15 and the predicates cleared, at slot 0 of the line at HANDLERBASE (R53, R222). -/
def freshHandler (e : Env) (lanes : Word) : Handler :=
  { k := [], kPoison := 0, preds := 1, predPoison := 0, pc := lineOf e.g.handlerBase, base := lineOf e.g.handlerBase,
    lanes := laneMask e.sl.fids, trapped := lanes, items := [] }

/-- The machine without the releases that the wave's fibres had begun. -/
def releasesForgotten (e : Env) (s : State) : State :=
  setGang s e.gid (mapFibres (getGang s e.gid) (fun fid f => if e.sl.fids.contains fid then { f with relWait := none } else f))

/-- The wave is in its handler after a synchronous trap of some lanes (R222): the trap CSRs hold what they should, the scalar unit starts
at HANDLERBASE with k-registers and predicates clear, no register, predicate or memory byte has changed, and of the gang only a release
that an instruction of the wave had begun is forgotten: it begins anew. -/
structure Trapped (e : Env) (s t : State) (cause : Nat) (lanes : Word) (val : W64) : Prop where
  atCause : (getSlot t e.key).trapcause = BitVec.ofNat 32 cause
  atLanes : (getSlot t e.key).traplanes = lanes
  atPc : (getSlot t e.key).trappc = e.pc
  atVal : (getSlot t e.key).trapval = val
  handler : (getSlot t e.key).handler = some (freshHandler e lanes)
  fids : (getSlot t e.key).fids = e.sl.fids
  gangs : t.gangs = (releasesForgotten e s).gangs
  memory : MemoryKept s t

/-! ### The invariant of every step -/

/-- The scratchpad banks of a gang keep their canonical form. -/
def BanksWf (g : Gang) : Prop := Memory.wf g.scratch = true ∧ Memory.wf g.shadow = true

/-- Memories and scratchpads keep their canonical form, those of saved gangs among them, and a tick has at most 128 cycles (R104). -/
structure StateInv (s : State) : Prop where
  mem : Memory.wf s.mem = true
  host : Memory.wf s.hostMem = true
  peer : Memory.wf s.peerMem = true
  phase : s.phase < 128
  gangs : ∀ g ∈ s.gangs, BanksWf g.2
  saved : ∀ c ∈ s.ctxs, ∀ v ∈ c.2.saved, BanksWf v.gang
  saves : ∀ c ∈ s.saves, ∀ v ∈ c.2.ctx.saved, BanksWf v.gang

end Sys2Proof.Machine
end

