-- ==== Sys2Proof/Certificates/Slice0/Obligations.lean ====
section
/-! DEFINITION. Sys2Proof/Certificates/Slice0/Obligations.lean: the statements for the provers. Each docstring names the rules of spec/
that a statement formalises; `Sys2Proof/Safety.lean` holds the words used. -/
open Sys2Proof Sys2Proof.Machine

/-! ### The instructions that only compute -/

/-- Integer arithmetic (R255, R257 to R259): IADD, ISUB, IMUL, IMULH, IMIN, IMAX, IMAD, IABS, INEG and their immediate forms complete
whenever their operands can be read, and write the exact result put at the type. -/
def Obligations.IntegerArithmeticCompletes : Prop :=
  (∀ f, Binary (.iadd f) f (fun a b => a + b)) ∧ (∀ f, BinaryImm (.iaddImm f) f (fun a b => a + b)) ∧
  (∀ f, Binary (.isub f) f (fun a b => a - b)) ∧ (∀ f, BinaryImm (.isubImm f) f (fun a b => a - b)) ∧
  (∀ f, Binary (.imul f) f (fun a b => a * b)) ∧ (∀ f, BinaryImm (.imulImm f) f (fun a b => a * b)) ∧
  (∀ f, Binary (.imulh f) f (fun a b => a * b / 2 ^ f.ty.bits)) ∧ (∀ f, BinaryImm (.imulhImm f) f (fun a b => a * b / 2 ^ f.ty.bits)) ∧
  (∀ f, Binary (.imin f) f (fun a b => if a ≤ b then a else b)) ∧ (∀ f, BinaryImm (.iminImm f) f (fun a b => if a ≤ b then a else b)) ∧
  (∀ f, Binary (.imax f) f (fun a b => if a ≤ b then b else a)) ∧ (∀ f, BinaryImm (.imaxImm f) f (fun a b => if a ≤ b then b else a)) ∧
  (∀ f, Unary (.iabs f) f (fun w a => if asInt true w a < 0 then -(asInt true w a) else asInt true w a)) ∧
  (∀ f, Unary (.ineg f) f (fun _ a => -(a : Int))) ∧
  (∀ f : F0, Computes (.imad f) f.h false (tyUse f.ty f.d ++ tyUse f.ty f.a ++ tyUse f.ty f.b ++ tyUse f.ty f.c) (fun x =>
    putsAt f.h f.ty f.d (valOf f.ty f.a x * valOf f.ty f.b x + valOf f.ty f.c x)
      (poiOf f.ty f.a x || (poiOf f.ty f.b x || poiOf f.ty f.c x)) x)) ∧
  (∀ f : F1, Computes (.imadImm f) f.h false (tyUse f.ty f.d ++ tyUse f.ty f.a ++ tyUse f.ty f.b) (fun x =>
    putsAt f.h f.ty f.d (valOf f.ty f.a x * valOf f.ty f.b x + immVal f) (poiOf f.ty f.a x || poiOf f.ty f.b x) x))

/-- Integer division (R57, R258): IDIV truncates toward zero and IREM has the sign of its dividend; a zero divisor gives all ones or the
dividend and raises DZI. Both are long-latency (R251). -/
def Obligations.IntegerDivisionCompletes : Prop :=
  (∀ f : F0, Computes (.idiv f) f.h true (tyUse f.ty f.d ++ tyUse f.ty f.a ++ tyUse f.ty f.b) (fun x =>
    putsBits f.h f.ty f.d
      (if valOf f.ty f.b x = 0 then (putTy f.ty (-1), flDZI) else (putTy f.ty ((valOf f.ty f.a x).tdiv (valOf f.ty f.b x)), 0))
      (poiOf f.ty f.a x || poiOf f.ty f.b x) x)) ∧
  (∀ f : F0, Computes (.irem f) f.h true (tyUse f.ty f.d ++ tyUse f.ty f.a ++ tyUse f.ty f.b) (fun x =>
    putsBits f.h f.ty f.d
      (if valOf f.ty f.b x = 0 then (putTy f.ty (valOf f.ty f.a x), flDZI)
       else (putTy f.ty ((valOf f.ty f.a x).tmod (valOf f.ty f.b x)), 0))
      (poiOf f.ty f.a x || poiOf f.ty f.b x) x))

/-- Bitwise operations, shifts and rotates (R261, R262): AND, OR, XOR, ANDN, NOT, SHL, SHR, SAR, ROL, ROR and their immediate forms.
A count is taken modulo the width; a source is read at the width of the type. -/
def Obligations.LogicAndShiftsComplete : Prop :=
  let bits := fun (i : Instr) (f : F0) (op : Nat → Nat → Nat) =>
    Computes i f.h false (tyUse f.ty f.d ++ tyUse f.ty f.a ++ tyUse f.ty f.b) (fun x =>
      putsAt f.h f.ty f.d (op (rawOf f.ty f.a x % 2 ^ f.ty.bits) (rawOf f.ty f.b x % 2 ^ f.ty.bits) : Nat)
        (poiOf f.ty f.a x || poiOf f.ty f.b x) x)
  let bitsImm := fun (i : Instr) (f : F1) (op : Nat → Nat → Nat) =>
    Computes i f.h false (tyUse f.ty f.d ++ tyUse f.ty f.a) (fun x =>
      putsAt f.h f.ty f.d (op (rawOf f.ty f.a x % 2 ^ f.ty.bits) ((immAt f.ty f.imm).toNat % 2 ^ f.ty.bits) : Nat) (poiOf f.ty f.a x) x)
  let shl := fun (w a n : Nat) => ((a * 2 ^ (n % w) : Nat) : Int)
  let shr := fun (w a n : Nat) => ((a / 2 ^ (n % w) : Nat) : Int)
  let sar := fun (w a n : Nat) => asInt true w a / 2 ^ (n % w)
  let rol := fun (w a n : Nat) => ((a * 2 ^ (n % w) + a / 2 ^ (w - n % w) : Nat) : Int)
  let ror := fun (w a n : Nat) => ((a / 2 ^ (n % w) + a * 2 ^ (w - n % w) : Nat) : Int)
  (∀ f, bits (.and_ f) f (fun a b => a &&& b)) ∧ (∀ f, bitsImm (.andImm f) f (fun a b => a &&& b)) ∧
  (∀ f, bits (.or_ f) f (fun a b => a ||| b)) ∧ (∀ f, bitsImm (.orImm f) f (fun a b => a ||| b)) ∧
  (∀ f, bits (.xor_ f) f (fun a b => a ^^^ b)) ∧ (∀ f, bitsImm (.xorImm f) f (fun a b => a ^^^ b)) ∧
  (∀ f, bits (.andn f) f (fun a b => a ^^^ (a &&& b))) ∧ (∀ f, bitsImm (.andnImm f) f (fun a b => a ^^^ (a &&& b))) ∧
  (∀ f, Unary (.not_ f) f (fun w a => ((2 ^ w - 1 - a : Nat) : Int))) ∧
  (∀ f, Counted (.shl f) f shl) ∧ (∀ f, CountedImm (.shlImm f) f shl) ∧
  (∀ f, Counted (.shr f) f shr) ∧ (∀ f, CountedImm (.shrImm f) f shr) ∧
  (∀ f, Counted (.sar f) f sar) ∧ (∀ f, CountedImm (.sarImm f) f sar) ∧
  (∀ f, Counted (.rol f) f rol) ∧ (∀ f, CountedImm (.rolImm f) f rol) ∧
  (∀ f, Counted (.ror f) f ror) ∧ (∀ f, CountedImm (.rorImm f) f ror)

/-- Bit fields, counts and dot products (R260, R263, R264): BFE, BFI, POPC, CLZ, CTZ, BREV, IDOT4 and the immediate forms. A field
descriptor holds a position in bits 7:0 and a length in bits 15:8, clipped at the width. -/
def Obligations.BitFieldsAndCountsComplete : Prop :=
  let pos := fun (n : Nat) => n % 256
  let len := fun (w n : Nat) => if n % 256 < w then min (n / 256 % 256) (w - n % 256) else 0
  let bfe := fun (t : Ty) (w a n : Nat) => if len w n = 0 then 0 else asInt t.signed (len w n) (a / 2 ^ pos n % 2 ^ len w n)
  let bfi := fun (w a b n : Nat) => if len w n = 0 then (a : Int) else
    ((a / 2 ^ (pos n + len w n) * 2 ^ (pos n + len w n) + b % 2 ^ len w n * 2 ^ pos n + a % 2 ^ pos n : Nat) : Int)
  let count := fun (i : Instr) (f : F0) (op : Nat → Nat → Nat) =>
    Computes i f.h false ((f.d.toNat, 1) :: tyUse f.ty f.a) (fun x =>
      putsBits f.h .n32 f.d (op f.ty.bits (rawOf f.ty f.a x % 2 ^ f.ty.bits), 0) (poiOf f.ty f.a x) x)
  let dot := fun (t : Ty) (a b : Nat) (c : Int) =>
    putTy (if t.signed then .i32 else .n32) (asInt t.signed 8 a * asInt t.signed 8 b +
      asInt t.signed 8 (a / 2 ^ 8) * asInt t.signed 8 (b / 2 ^ 8) + asInt t.signed 8 (a / 2 ^ 16) * asInt t.signed 8 (b / 2 ^ 16) +
      asInt t.signed 8 (a / 2 ^ 24) * asInt t.signed 8 (b / 2 ^ 24) + c)
  (∀ f, Counted (.bfe f) f (bfe f.ty)) ∧ (∀ f, CountedImm (.bfeImm f) f (bfe f.ty)) ∧
  (∀ f : F0, Computes (.bfi f) f.h false (tyUse f.ty f.d ++ tyUse f.ty f.a ++ tyUse f.ty f.b ++ [(f.c.toNat, 1)]) (fun x =>
    putsAt f.h f.ty f.d (bfi f.ty.bits (rawOf f.ty f.a x % 2 ^ f.ty.bits) (rawOf f.ty f.b x) (wordOf f.c x))
      (poiOf f.ty f.a x || (poiOf f.ty f.b x || wordPoi f.c x)) x)) ∧
  (∀ f : F1, Computes (.bfiImm f) f.h false (tyUse f.ty f.d ++ tyUse f.ty f.a ++ tyUse f.ty f.b) (fun x =>
    putsAt f.h f.ty f.d (bfi f.ty.bits (rawOf f.ty f.a x % 2 ^ f.ty.bits) (rawOf f.ty f.b x) f.imm.toNat)
      (poiOf f.ty f.a x || poiOf f.ty f.b x) x)) ∧
  (∀ f, count (.popc f) f (fun w a => ((List.range w).filter (fun i => a.testBit i)).length)) ∧
  (∀ f, count (.clz f) f (fun w a => if a = 0 then w else w - 1 - Nat.log2 a)) ∧
  (∀ f, count (.ctz f) f (fun w a => ((List.range w).find? (fun i => a.testBit i)).getD w)) ∧
  (∀ f, Unary (.brev f) f (fun w a => ((List.range w).foldl (fun n i => 2 * n + (a.testBit i).toNat) 0 : Nat))) ∧
  (∀ f : F0, Computes (.idot4 f) f.h false [(f.d.toNat, 1), (f.a.toNat, 1), (f.b.toNat, 1), (f.c.toNat, 1)] (fun x =>
    putsBits f.h .n32 f.d (dot f.ty (wordOf f.a x) (wordOf f.b x) (wordOf f.c x), 0)
      (wordPoi f.a x || (wordPoi f.b x || wordPoi f.c x)) x)) ∧
  (∀ f : F1, Computes (.idot4Imm f) f.h false [(f.d.toNat, 1), (f.a.toNat, 1), (f.b.toNat, 1)] (fun x =>
    putsBits f.h .n32 f.d (dot f.ty (wordOf f.a x) (wordOf f.b x) f.imm.toNat, 0) (wordPoi f.a x || wordPoi f.b x) x))

/-- Moves, addresses, selection and compares (R254, R265 to R268): MOV (each of the four registers of .b128 with its own poison), MOVI,
LEA, SEL, ICMP, ISET and the immediate forms. -/
def Obligations.MovesAndComparesComplete : Prop :=
  let cond := fun (c : Nat) (a b : Int) => match c % 8 with
    | 0 => decide (a = b) | 1 => decide (a ≠ b) | 2 => decide (a < b) | 3 => decide (a ≤ b) | 4 => decide (b < a) | _ => decide (b ≤ a)
  let sel := fun (t : Ty) (n : BitVec 8) (x : Fibre) (a b : Nat × Bool) (h : Hdr) (d : Reg) =>
    let p := readPred x (n.toNat % 16)
    putsAt h t d (getTy t (if p.1 then a.1 else b.1)) ((if p.1 then a.2 else b.2) || p.2) x
  (∀ f : F0, f.ty ≠ .b128 → Unary (.mov f) f (fun _ a => (a : Int))) ∧
  (∀ f : F0, f.ty = .b128 → Computes (.mov f) f.h false [(f.d.toNat, 4), (f.a.toNat, 4)] (fun x => taint (guard f.h x).2
    { regs := (List.range 4).map (fun i => (f.d.toNat + i, (readReg x (f.a.toNat + i)).1, (readReg x (f.a.toNat + i)).2)),
      preds := [], flags := 0 })) ∧
  (∀ f : F1, Computes (.movi f) f.h false (tyUse f.ty f.d) (fun x => putsAt f.h f.ty f.d ((immAt f.ty f.imm).toNat : Int) false x)) ∧
  (∀ f : F0, Computes (.lea f) f.h false ([(f.d.toNat, 2), (f.a.toNat, 2)] ++ tyUse f.ty f.b) (fun x =>
    putsBits f.h .n64 f.d (wrapInt ((rawOf .n64 f.a x : Int) + (if f.ty.bits = 64 then (rawOf f.ty f.b x : Int)
      else asInt f.ty.signed 32 (rawOf f.ty f.b x)) * 2 ^ (f.mod.toNat % 8)) 64, 0) (poiOf .n64 f.a x || poiOf f.ty f.b x) x)) ∧
  (∀ f : F0, Computes (.sel f) f.h false (tyUse f.ty f.d ++ tyUse f.ty f.a ++ tyUse f.ty f.b) (fun x =>
    sel f.ty f.mod x (rawOf f.ty f.a x, poiOf f.ty f.a x) (rawOf f.ty f.b x, poiOf f.ty f.b x) f.h f.d)) ∧
  (∀ f : F1, Computes (.selImm f) f.h false (tyUse f.ty f.d ++ tyUse f.ty f.a) (fun x =>
    sel f.ty f.mod x (rawOf f.ty f.a x, poiOf f.ty f.a x) ((immAt f.ty f.imm).toNat, false) f.h f.d)) ∧
  (∀ f : F0, Computes (.icmp f) f.h false (tyUse f.ty f.a ++ tyUse f.ty f.b) (fun x =>
    putsPred f.h f.d (cond f.mod.toNat (valOf f.ty f.a x) (valOf f.ty f.b x)) (poiOf f.ty f.a x || poiOf f.ty f.b x) x)) ∧
  (∀ f : F1, Computes (.icmpImm f) f.h false (tyUse f.ty f.a) (fun x =>
    putsPred f.h f.d (cond f.mod.toNat (valOf f.ty f.a x) (immVal f)) (poiOf f.ty f.a x) x)) ∧
  (∀ f : F0, Computes (.iset f) f.h false ((f.d.toNat, 1) :: (tyUse f.ty f.a ++ tyUse f.ty f.b)) (fun x =>
    putsBits f.h .n32 f.d ((cond f.mod.toNat (valOf f.ty f.a x) (valOf f.ty f.b x)).toNat, 0)
      (poiOf f.ty f.a x || poiOf f.ty f.b x) x)) ∧
  (∀ f : F1, Computes (.isetImm f) f.h false ((f.d.toNat, 1) :: tyUse f.ty f.a) (fun x =>
    putsBits f.h .n32 f.d ((cond f.mod.toNat (valOf f.ty f.a x) (immVal f)).toNat, 0) (poiOf f.ty f.a x) x))

/-- Predicate instructions (R23, R269): PAND, POR, PXOR, PNOT, PMOV between predicates, and PMOV of the predicate word; p0 reads as one in
the word and is not written from it, and an instruction whose D is p0 retires and leaves every predicate alone. -/
def Obligations.PredicateInstructionsComplete : Prop :=
  let two := fun (i : Instr) (f : F0) (op : Bool → Bool → Bool) => Computes i f.h false [] (fun x =>
    putsPred f.h f.d (op (readPred x f.a.toNat).1 (readPred x f.b.toNat).1) ((readPred x f.a.toNat).2 || (readPred x f.b.toNat).2) x)
  let one := fun (i : Instr) (f : F0) (op : Bool → Bool) => Computes i f.h false [] (fun x =>
    putsPred f.h f.d (op (readPred x f.a.toNat).1) (readPred x f.a.toNat).2 x)
  (∀ f, two (.pand f) f (fun a b => a && b)) ∧ (∀ f, two (.por f) f (fun a b => a || b)) ∧
  (∀ f, two (.pxor f) f (fun a b => a != b)) ∧ (∀ f, one (.pnot f) f (fun a => !a)) ∧ (∀ f, one (.pmov f) f (fun a => a)) ∧
  (∀ f : F0, Computes (.pmovToRegister f) f.h false [(f.d.toNat, 1)] (fun x =>
    putsBits f.h .n32 f.d ((x.preds ||| 1).toNat, 0) (decide (x.predPoison &&& 0xFFFE ≠ 0)) x)) ∧
  (∀ f : F0, Computes (.pmovFromRegister f) f.h false [(f.a.toNat, 1)] (fun x => taint (guard f.h x).2
    { regs := [], flags := 0
      preds := (List.range 15).map (fun i => (i + 1, (wordOf f.a x).testBit (i + 1), wordPoi f.a x)) })) ∧
  (∀ (f : F0) s e, f.d = 0 → Issues false s e → Live e → ∀ i ∈ [Instr.pand f, .por f, .pxor f, .pnot f, .pmov f],
    ∃ t, exec i s = .next t ∧ ∀ fid ∈ executing f.h e, FibreKept [] [] (getFibre e.g fid) (fibreAt t e.gid fid))

/-- FP32 instructions (R63, R65, R272 to R281): operands are read under the flush mode, the operation is rounded once under RM or
FPMODE.RM, and the raised flags go with the result; FABS and FNEG change only the sign bit, FCLASS gives the class mask. The last clause
holds the special operands of R62, R276 and R280 in the four formats that compute. The divide, square root and transcendental forms are long-latency; that they too take FTZ from FPMODE as it is at issue is DESIGN CHOICE log 122. -/
def Obligations.SinglePrecisionCompletes : Prop :=
  (∀ f : F0, Floats (.fadd f) f.h false .f32 f.rm [f.a, f.b] f.d (addOp fp32)) ∧ (∀ f, FloatsImm (.faddImm f) f [f.a] (addOp fp32)) ∧
  (∀ f : F0, Floats (.fsub f) f.h false .f32 f.rm [f.a, f.b] f.d (subOp fp32)) ∧ (∀ f, FloatsImm (.fsubImm f) f [f.a] (subOp fp32)) ∧
  (∀ f : F0, Floats (.fmul f) f.h false .f32 f.rm [f.a, f.b] f.d (mulOp fp32)) ∧ (∀ f, FloatsImm (.fmulImm f) f [f.a] (mulOp fp32)) ∧
  (∀ f : F0, Floats (.ffma f) f.h false .f32 f.rm [f.a, f.b, f.c] f.d (fmaOp fp32)) ∧
  (∀ f, FloatsImm (.ffmaImm f) f [f.a, f.b] (fmaOp fp32)) ∧
  (∀ f : F0, Floats (.fmin f) f.h false .f32 f.rm [f.a, f.b] f.d (minOp false fp32)) ∧
  (∀ f, FloatsImm (.fminImm f) f [f.a] (minOp false fp32)) ∧
  (∀ f : F0, Floats (.fmax f) f.h false .f32 f.rm [f.a, f.b] f.d (minOp true fp32)) ∧
  (∀ f, FloatsImm (.fmaxImm f) f [f.a] (minOp true fp32)) ∧
  (∀ f : F0, Computes (.fabs f) f.h false [(f.d.toNat, 1), (f.a.toNat, 1)] (fun x =>
    putsBits f.h .f32 f.d (wordOf f.a x % 2 ^ 31, 0) (wordPoi f.a x) x)) ∧
  (∀ f : F0, Computes (.fneg f) f.h false [(f.d.toNat, 1), (f.a.toNat, 1)] (fun x =>
    putsBits f.h .f32 f.d (if wordOf f.a x < 2 ^ 31 then wordOf f.a x + 2 ^ 31 else wordOf f.a x - 2 ^ 31, 0) (wordPoi f.a x) x)) ∧
  (∀ f : F0, Computes (.fclass f) f.h false [(f.d.toNat, 1), (f.a.toNat, 1)] (fun x =>
    putsBits f.h .f32 f.d (classMask fp32 (wordOf f.a x), 0) (wordPoi f.a x) x)) ∧
  (∀ f : F0, Floats (.fdiv f) f.h true .f32 f.rm [f.a, f.b] f.d (divOp fp32)) ∧
  (∀ f : F0, Floats (.fsqrt f) f.h true .f32 f.rm [f.a] f.d (unOp sqrtCls fp32)) ∧
  (∀ f : F0, Floats (.frsq f) f.h true .f32 f.rm [f.a] f.d (unOp rsqCls fp32)) ∧
  (∀ f : F0, Floats (.frcp f) f.h true .f32 f.rm [f.a] f.d (unOp rcpCls fp32)) ∧
  (∀ f : F0, Floats (.fexp2 f) f.h true .f32 f.rm [f.a] f.d (unOp exp2Cls fp32)) ∧
  (∀ f : F0, Floats (.flog2 f) f.h true .f32 f.rm [f.a] f.d (unOp log2Cls fp32)) ∧
  (∀ f : F0, Floats (.frnd f) f.h false .f32 f.rm [f.a] f.d (frndOp fp32)) ∧
  (∀ f ∈ [fp64, fp32, fp16, bf16], ∀ (m : Nat) (z : Bool),
    let nan := (canonNan f, flNV)
    let inf := fun a => (infBits f a, (0 : Word))
    let zero := fun a => (signBit f a, (0 : Word))
    let zeroInf := fun (x y : Cls) => match x, y with | .zero _, .inf _ | .inf _, .zero _ => true | _, _ => false
    (∀ x y, isNan x = true ∨ isNan y = true → ∀ op ∈ [addOp f, subOp f, mulOp f, divOp f],
      op m z [x, y] = (canonNan f, nvIf (isSnan x || isSnan y))) ∧
    (∀ x y w, isNan x = true ∨ isNan y = true ∨ isNan w = true →
      fmaOp f m z [x, y, w] = (canonNan f, nvIf (isSnan x || isSnan y || isSnan w || zeroInf x y))) ∧
    (∀ x y w, zeroInf x y = true → fmaOp f m z [x, y, w] = nan ∧ mulOp f m z [x, y] = nan) ∧
    (∀ a b, addOp f m z [.inf a, .inf b] = (if a = b then inf a else nan) ∧ subOp f m z [.inf a, .inf b] = (if a = b then nan else inf a) ∧
      mulOp f m z [.inf a, .inf b] = inf (a != b) ∧ divOp f m z [.inf a, .inf b] = nan ∧ divOp f m z [.zero a, .zero b] = nan ∧
      addOp f m z [.zero a, .zero b] = zero (if a = b then a else m == 3) ∧ mulOp f m z [.zero a, .zero b] = zero (a != b) ∧
      divOp f m z [.zero a, .inf b] = zero (a != b)) ∧
    (∀ a n k t, addOp f m z [.inf a, .fin n k t] = inf a ∧ mulOp f m z [.inf a, .fin n k t] = inf (a != n) ∧
      mulOp f m z [.zero a, .fin n k t] = zero (a != n) ∧ addOp f m z [.fin n k t, .fin (!n) k t] = zero (m == 3) ∧
      divOp f m z [.fin n k t, .zero a] = (infBits f (n != a), flDZ) ∧ divOp f m z [.fin n k t, .inf a] = zero (n != a)) ∧
    (∀ s, ∀ fn ∈ [sqrtCls, rsqCls, rcpCls, exp2Cls, log2Cls], unOp fn f m z [.nan s] = (canonNan f, nvIf s)) ∧
    (∀ fn ∈ [sqrtCls, rsqCls, log2Cls], unOp fn f m z [.inf true] = nan ∧ ∀ k t, unOp fn f m z [.fin true k t] = nan) ∧
    (∀ fn ∈ [sqrtCls, exp2Cls, log2Cls], unOp fn f m z [.inf false] = inf false) ∧
    (∀ a, unOp sqrtCls f m z [.zero a] = zero a ∧ unOp rsqCls f m z [.zero a] = (infBits f a, flDZ) ∧
      unOp rcpCls f m z [.zero a] = (infBits f a, flDZ) ∧ unOp rcpCls f m z [.inf a] = zero a ∧
      unOp log2Cls f m z [.zero a] = (infBits f true, flDZ) ∧ unOp exp2Cls fp32 m z [.zero a] = (0x3F800000, 0)) ∧
    unOp rsqCls f m z [.inf false] = zero false ∧ unOp exp2Cls f m z [.inf true] = zero false ∧
    unOp log2Cls f m z [classify fp32 0x3F800000] = zero false)

/-- FP64, paired FP16 and BF16 instructions, compares into predicates, and conversions (R272, R273, R278, R282 to R287), and the special
operands of CVT, QDEC and HWCVT (R72, R284, R286, R287). That the long-latency forms (FP64, DCMP, and CVT from or to .f64) take FTZ from FPMODE as it is at issue is DESIGN CHOICE log 122. -/
def Obligations.OtherFormatsComplete : Prop :=
  let compare := fun (i : Instr) (h : Hdr) (ll : Bool) (t : Ty) (c : BitVec 8) (d : Reg) (uses : List RegUse)
      (srcs : Fibre → List Nat) (p : Fibre → Bool) =>
    Computes i h ll uses (fun x =>
      let l := (srcs x).map (ftzIn (ftzOn x.fpmode) (fmtOf t))
      let r := fcmpCond (c.toNat % 8) (cls l 0) (cls l 1)
      taint (guard h x).2 { regs := [], preds := [(d.toNat, r.1, p x)], flags := r.2 })
  let pair := fun (i : Instr) (f : F0) (srcs : List Reg) (op : Fmt → Nat → Bool → List Cls → Nat × Word) =>
    Computes i f.h false (([f.d] ++ srcs).map (fun r => (r.toNat, 1))) (fun x =>
      let one := fun k => op (fmtOf f.ty) (rmOf f.rm x.fpmode) (ftzOn x.fpmode)
        (srcs.map (fun r => ftzIn (ftzOn x.fpmode) (fmtOf f.ty) (wordOf r x / 2 ^ (16 * k) % 2 ^ 16)))
      putsBits f.h .n32 f.d ((one 0).1 + (one 1).1 * 2 ^ 16, (one 0).2 ||| (one 1).2) (srcs.any (fun r => wordPoi r x)) x)
  (∀ f : F0, Floats (.dadd f) f.h true .f64 f.rm [f.a, f.b] f.d (addOp fp64)) ∧
  (∀ f : F0, Floats (.dmul f) f.h true .f64 f.rm [f.a, f.b] f.d (mulOp fp64)) ∧
  (∀ f : F0, Floats (.dfma f) f.h true .f64 f.rm [f.a, f.b, f.c] f.d (fmaOp fp64)) ∧
  (∀ f : F0, Floats (.ddiv f) f.h true .f64 f.rm [f.a, f.b] f.d (divOp fp64)) ∧
  (∀ f : F0, Floats (.dsqrt f) f.h true .f64 f.rm [f.a] f.d (unOp sqrtCls fp64)) ∧
  (∀ f : F0, Floats (.dmin f) f.h true .f64 f.rm [f.a, f.b] f.d (minOp false fp64)) ∧
  (∀ f : F0, Floats (.dmax f) f.h true .f64 f.rm [f.a, f.b] f.d (minOp true fp64)) ∧
  (∀ f : F0, compare (.fcmp f) f.h false .f32 f.mod f.d [(f.a.toNat, 1), (f.b.toNat, 1)]
    (fun x => [rawOf .f32 f.a x, rawOf .f32 f.b x]) (fun x => poiOf .f32 f.a x || poiOf .f32 f.b x)) ∧
  (∀ f : F1, compare (.fcmpImm f) f.h false .f32 f.mod f.d [(f.a.toNat, 1)]
    (fun x => [rawOf .f32 f.a x, f.imm.toNat]) (fun x => poiOf .f32 f.a x)) ∧
  (∀ f : F0, compare (.dcmp f) f.h true .f64 f.mod f.d [(f.a.toNat, 2), (f.b.toNat, 2)]
    (fun x => [rawOf .f64 f.a x, rawOf .f64 f.b x]) (fun x => poiOf .f64 f.a x || poiOf .f64 f.b x)) ∧
  (∀ f, pair (.hadd2 f) f [f.a, f.b] addOp) ∧ (∀ f, pair (.hmul2 f) f [f.a, f.b] mulOp) ∧
  (∀ f, pair (.hfma2 f) f [f.a, f.b, f.c] fmaOp) ∧ (∀ f, pair (.bfma2 f) f [f.a, f.b, f.c] fmaOp) ∧
  (∀ f : F0, Computes (.cvt f) f.h (f.ty == .f64 || f.tys == .f64) (tyUse f.ty f.d ++ tyUse f.tys f.a) (fun x =>
    putsBits f.h f.ty f.d (cvtBits f.ty f.tys f.rm f.nan x.fpmode (rawOf f.tys f.a x)) (poiOf f.tys f.a x) x)) ∧
  (∀ f : F0, Computes (.qdec f) f.h false [(f.d.toNat, 1), (f.a.toNat, 1), (f.b.toNat, 1), (f.c.toNat, 1)] (fun x =>
    putsBits f.h .n32 f.d (qdecBits (fmtOf f.ty) (rmOf f.rm x.fpmode) (ftzOn x.fpmode) (wordOf f.a x) (wordOf f.b x) (wordOf f.c x)
      (f.mod.toNat % 8)) (wordPoi f.a x || (wordPoi f.b x || wordPoi f.c x)) x)) ∧
  (∀ f : F0, Computes (.hwcvt f) f.h false [(f.d.toNat, 1), (f.a.toNat, 4)] (fun x =>
    putsBits f.h .n32 f.d (hwcvtBits f.ty { mode := f.rm.toNat, nan := f.nan, seed := 0, tx := 0, ty := 0 } (readQuad x f.a.toNat).1, 0)
      (readQuad x f.a.toNat).2 x)) ∧
  (∀ f : F0, Computes (.hwcvtSr f) f.h false [(f.d.toNat, 1), (f.a.toNat, 4), (f.b.toNat, 2), (f.c.toNat, 2)] (fun x =>
    putsBits f.h .n32 f.d (hwcvtBits f.ty (srMode f.nan (rawOf .n64 f.b x) (rawOf .n64 f.c x)) (readQuad x f.a.toNat).1, 0)
      ((readQuad x f.a.toNat).2 || (poiOf .n64 f.b x || poiOf .n64 f.c x)) x)) ∧
  (∀ (t s : Ty) rm nan (fm : Word) a, s.isInt = true →
    (t.isInt = true → cvtBits t s rm nan fm a = (putTy t (getTy s a), 0)) ∧
    (t.isInt = false → cvtBits t s rm nan fm a = finish (fmtOf t) nan (rmOf rm fm) (ftzOn fm)
      (if getTy s a = 0 then .zero false else .fin (decide (getTy s a < 0)) (getTy s a).natAbs 0))) ∧
  (∀ (t s : Ty) rm nan (fm : Word) a, s.isInt = false → t.isInt = true →
    let lo : Int := if t.signed then -(2 ^ (t.bits - 1)) else 0
    let hi : Int := if t.signed then 2 ^ (t.bits - 1) - 1 else 2 ^ t.bits - 1
    cvtBits t s rm nan fm a = match ftzIn (ftzOn fm) (fmtOf s) (a % 2 ^ s.bits) with
      | .nan _ => (0, flNV)
      | .inf n => (putTy t (if n then lo else hi), flNV)
      | .zero _ => (0, 0)
      | .fin n k e =>
        let r := if 0 ≤ e then (k * 2 ^ e.toNat, false) else roundAt (rmOf rm fm) n k (-e).toNat
        let v : Int := if n then -(r.1 : Int) else r.1
        if hi < v then (putTy t hi, flNV) else if v < lo then (putTy t lo, flNV) else (putTy t v, if r.2 then flNX else 0)) ∧
  (∀ (t s : Ty) rm nan (fm : Word) a, s.isInt = false → t.isInt = false → let x := ftzIn (ftzOn fm) (fmtOf s) (a % 2 ^ s.bits)
    (∀ q, x = .nan q → cvtBits t s rm nan fm a = (canonNan (fmtOf t), nvIf q)) ∧
    (∀ n, x = .inf n → isFp8 (fmtOf t) = false → cvtBits t s rm nan fm a = (infBits (fmtOf t) n, 0)) ∧
    (∀ n, x = .zero n → cvtBits t s rm nan fm a = (signBit (fmtOf t) n, 0)) ∧
    (∀ n k e, x = .fin n k e → cvtBits t s rm nan fm a = finish (fmtOf t) nan (rmOf rm fm) (ftzOn fm) (.fin n k e))) ∧
  (∀ f ∈ [fp32, fp16, bf16], ∀ (m : Nat) (z : Bool) (a b c j : Nat),
    let code : Int := [-127, -94, -73, -57, -43, -30, -18, 0, 9, 19, 30, 42, 55, 71, 92, 127].getD (a / 2 ^ (4 * j) % 16) 0
    qdecBits f m z a b c j = match ftzIn z fp32 c with
      | .nan s => (canonNan f, nvIf s)
      | .inf n => if code = 0 ∨ b % 256 = 0 then (canonNan f, flNV) else (infBits f (n != decide (code < 0)), 0)
      | .zero n => (signBit f (n != decide (code < 0)), 0)
      | .fin n k e => if code = 0 ∨ b % 256 = 0 then (signBit f (n != decide (code < 0)), 0)
        else finish f false m z (quotient (n != decide (code < 0)) (code.natAbs * (b % 256) * k) 32385 e)) ∧
  (∀ (w : Quad) (m : DrainMode), m.mode < 4 → let hf := (w.extractLsb' 126 2).toNat
    let v := (w.extractLsb' 0 126).toInt
    (hf = 3 → hwcvtBits .i32 m w = 0 ∧ ∀ t ∈ [Ty.f32, .f16, .bf16], hwcvtBits t m w = canonNan (fmtOf t)) ∧
    (hf = 1 ∨ hf = 2 → hwcvtBits .i32 m w = (if hf = 2 then 2 ^ 31 else 2 ^ 31 - 1) ∧
      ∀ t ∈ [Ty.f32, .f16, .bf16], hwcvtBits t m w = infBits (fmtOf t) (hf == 2)) ∧
    (hf = 0 → v = 0 → ∀ t ∈ [Ty.i32, .f32, .f16, .bf16], hwcvtBits t m w = 0) ∧
    (hf = 0 → v ≠ 0 → ∀ t ∈ [Ty.f32, .f16, .bf16],
      hwcvtBits t m w = (finish (fmtOf t) m.nan m.mode false (.fin (decide (v < 0)) v.natAbs (-56))).1))

/-- Cross-lane instructions (R288 to R294) and SPXI (R213, R365): each completes for the executing fibres together. A shuffle reads the
source lane when an executing fibre has it and its own value otherwise; a scan folds the executing lanes by rising lane, gives the identity
where it combines no lane, and raises the flags of the whole fold in every fibre; a vote, ballot and match look at every executing fibre; ELECT chooses the lowest lane. SPXI computes the mask of the pairs that match, its count and the two
advanced bases in each executing fibre, when no executing fibre's guard carries poison (R353); poison of its operands goes to the four results
and does not trap (DEDUCED log 88). -/
def Obligations.CrossLaneCompletes : Prop :=
  let shuffles := fun (i : Instr) (f : F0) (uses : List RegUse) (n : Env → List Nat → Nat → Nat × Bool) (src : Int → Int → Int) =>
    ComputesAcross i f.h true (dstUse (laneDst f.ty f.d) ++ srcUse (laneSrc f.ty f.a) ++ uses) (fun e act fid =>
      let own := fun g => readSrc (getFibre e.g g) (laneSrc f.ty f.a)
      let k := n e act fid
      let l := src (lane fid) k.1
      let x := match act.find? (fun g => decide ((lane g : Int) = l)) with | some g => own g | none => own fid
      dstWr (laneDst f.ty f.d) { val := x.1, flags := 0, poison := x.2 || k.2 })
  let imm := fun (f : F0) (_ : Env) (_ : List Nat) (_ : Nat) => (f.mod.toNat % 32, false)
  let own := fun (f : F0) (e : Env) (_ : List Nat) (fid : Nat) => (wordOf f.b (getFibre e.g fid) % 32, wordPoi f.b (getFibre e.g fid))
  let first := fun (f : F0) (e : Env) (act : List Nat) (_ : Nat) =>
    (wordOf f.b (getFibre e.g (act.headD 0)) % 32, wordPoi f.b (getFibre e.g (act.headD 0)))
  let reg := fun (f : F0) => [(f.b.toNat, 1)]
  let xor := fun (l n : Int) => ((l.toNat ^^^ n.toNat : Nat) : Int)
  let preds := fun (f : F0) (e : Env) (act : List Nat) => act.map (fun g => readPred (getFibre e.g g) f.a.toNat)
  let step := fun (f : F0) (m : Nat) (z : Bool) (acc x : Nat) =>
    if f.ty = .f32 then
      if f.mod.toNat % 8 = 0 then addOp fp32 m z [classify fp32 acc, ftzIn z fp32 x]
      else minOp (f.mod.toNat % 8 == 2) fp32 m z [classify fp32 acc, ftzIn z fp32 x]
    else (match f.mod.toNat % 8 with
      | 0 => wrapInt (getTy f.ty acc + getTy f.ty x) f.ty.bits
      | 1 => wrapInt (min (getTy f.ty acc) (getTy f.ty x)) f.ty.bits
      | 2 => wrapInt (max (getTy f.ty acc) (getTy f.ty x)) f.ty.bits
      | 3 => acc &&& x
      | 4 => acc ||| x
      | _ => acc ^^^ x, 0)
  let start := fun (f : F0) (z : Bool) (x : Nat) =>
    if f.ty = .f32 then ((finish fp32 false 0 false (ftzIn z fp32 x)).1, nvIf (isSnan (ftzIn z fp32 x))) else (x, 0)
  let identity := fun (f : F0) => match f.mod.toNat % 8 with
    | 1 => if f.ty = .f32 then 0x7F800000 else if f.ty.signed then 2 ^ (f.ty.bits - 1) - 1 else 2 ^ f.ty.bits - 1
    | 2 => if f.ty = .f32 then 0xFF800000 else if f.ty.signed then 2 ^ (f.ty.bits - 1) else 0
    | 3 => if f.ty = .f32 then 0 else 2 ^ f.ty.bits - 1
    | _ => 0
  let fold := fun (f : F0) (e : Env) (act lanes : List Nat) =>
    let lead := (getFibre e.g (act.headD 0)).fpmode
    lanes.foldl (fun (r : Option Nat × Word) g =>
      let x := (readSrc (getFibre e.g g) (laneSrc f.ty f.a)).1.toNat
      let y := match r.1 with | none => start f (ftzOn lead) x | some acc => step f (rmOf f.rm lead) (ftzOn lead) acc x
      (some y.1, r.2 ||| y.2)) (none, 0)
  let combined := fun (f : F0) (e : Env) (act lanes : List Nat) => dstWr (laneDst f.ty f.d) {
    val := BitVec.ofNat 128 ((fold f e act lanes).1.getD (identity f)), flags := (fold f e act act).2
    poison := lanes.any (fun g => (readSrc (getFibre e.g g) (laneSrc f.ty f.a)).2) }
  (∀ f, shuffles (.lshfl f) f (reg f) (own f) (fun _ n => n)) ∧ (∀ f, shuffles (.lshflImm f) f [] (imm f) (fun _ n => n)) ∧
  (∀ f, shuffles (.lshfu f) f (reg f) (own f) (fun l n => l - n)) ∧ (∀ f, shuffles (.lshfuImm f) f [] (imm f) (fun l n => l - n)) ∧
  (∀ f, shuffles (.lshfd f) f (reg f) (own f) (fun l n => l + n)) ∧ (∀ f, shuffles (.lshfdImm f) f [] (imm f) (fun l n => l + n)) ∧
  (∀ f, shuffles (.lxor f) f (reg f) (own f) xor) ∧ (∀ f, shuffles (.lxorImm f) f [] (imm f) xor) ∧
  (∀ f, shuffles (.lbcast f) f (reg f) (first f) (fun _ n => n)) ∧ (∀ f, shuffles (.lbcastImm f) f [] (imm f) (fun _ n => n)) ∧
  (∀ f : F0, ComputesAcross (.lpfx f) f.h true (dstUse (laneDst f.ty f.d) ++ srcUse (laneSrc f.ty f.a)) (fun e act fid =>
    combined f e act (act.take (act.idxOf fid + if f.mod.getLsbD 3 then 0 else 1)))) ∧
  (∀ f : F0, ComputesAcross (.lred f) f.h true (dstUse (laneDst f.ty f.d) ++ srcUse (laneSrc f.ty f.a)) (fun e act _ =>
    combined f e act act)) ∧
  (∀ f : F0, ComputesAcross (.vote f) f.h false [] (fun e act _ =>
    let ps := preds f e act
    { regs := [], flags := 0, preds := [(f.d.toNat, (match f.mod.toNat % 4 with
        | 0 => ps.all (·.1) | 1 => ps.any (·.1) | _ => ps.all (·.1) || !ps.any (·.1)), ps.any (·.2))] })) ∧
  (∀ f : F0, ComputesAcross (.ballot f) f.h false [(f.d.toNat, 1)] (fun e act _ =>
    { regs := [(f.d.toNat, laneMask (act.filter (fun g => (readPred (getFibre e.g g) f.a.toNat).1)), (preds f e act).any (·.2))],
      preds := [], flags := 0 })) ∧
  (∀ f : F0, ComputesAcross (.match_ f) f.h true ((f.d.toNat, 1) :: srcUse (laneSrc f.ty f.a)) (fun e act fid =>
    let v := fun g => readSrc (getFibre e.g g) (laneSrc f.ty f.a)
    { regs := [(f.d.toNat, laneMask (act.filter (fun g => (v g).1 == (v fid).1)), act.any (fun g => (v g).2))], preds := [], flags := 0 })) ∧
  (∀ f : F0, ComputesAcross (.elect f) f.h false [] (fun _ act fid =>
    { regs := [], preds := [(f.d.toNat, act.headD 0 == fid, false)], flags := 0 })) ∧
  (∀ (f : F4) s e, Issues false s e → RegsOk e (executing f.h e) [(f.d.toNat, 4), (f.a.toNat, 1), (f.b.toNat, 1), (f.c.toNat, 2)] →
    SourcesClean f.h e (executing f.h e) [] → exec (.spxi f) s = .next (retireWr f.h false e 0 (executing f.h e) (fun fid =>
      let x := getFibre e.g fid
      let a := (readReg x f.a.toNat).1
      let b := (readReg x f.b.toNat).1
      let p := (readReg x f.a.toNat).2 || ((readReg x f.b.toNat).2 || (readPair x f.c.toNat).2)
      let bits := fun (w : Word) => ((List.range 32).filter (fun i => w.getLsbD i)).length
      { regs := [(f.d.toNat, a &&& b, p), (f.d.toNat + 1, BitVec.ofNat 32 (bits (a &&& b)), p),
                 (f.d.toNat + 2, (readReg x f.c.toNat).1 + BitVec.ofNat 32 (bits a), p),
                 (f.d.toNat + 3, (readReg x (f.c.toNat + 1)).1 + BitVec.ofNat 32 (bits b), p)],
        preds := [], flags := 0 }) s))

/-! ### Control flow -/

/-- Direct and register transfers (R36, R297 to R299): BRA, CALL, BRX and RET send every executing fibre to the target and the rest of the wave to the
next slot, when the target is a marked slot of a line that can be fetched; CALL leaves the following slot's PC in the pair D. A wave whose
fibres part opens one join set that holds them all, and fibres of one PC keep the slot; one that stays together opens none. Nothing outside the
wave's own machinery changes, but for the A bit of the targets' pages. -/
def Obligations.TransfersComplete : Prop :=
  let lands := fun (i : Instr) (f : F3) (uses : List RegUse) (ok : State → Env → Nat → Prop) (dest : Env → Nat → W64)
      (wrote : Env → Fibre → Prop) =>
    ∀ s e, Issues false s e → Live e → GuardsClean f.h e → RegsOk e (executing f.h e) uses → (∀ fid ∈ executing f.h e, ok s e fid) →
      ∃ t, exec i s = .next t ∧ (e.sl.txn = none →
        StandAt e (fun fid => if (guard f.h (getFibre e.g fid)).1 then dest e fid else nextPc e.pc) t ∧
        OutsideKept (targetsSeen e (executing f.h e) (dest e) s) t ∧ (∀ fid ∈ executing f.h e, wrote e (fibreAt t e.gid fid)) ∧
        let next := fun fid => if (guard f.h (getFibre e.g fid)).1 then dest e fid else nextPc e.pc
        ((∃ x ∈ e.fids, ∃ y ∈ e.fids, next x ≠ next y) →
          (∃ k, kget? (getGang t e.gid).joinSets k = some { members := e.fids, waiting := [] } ∧
            ∀ fid ∈ e.fids, (fibreAt t e.gid fid).joins = k :: (getFibre e.g fid).joins) ∧
          ∀ x ∈ (getSlot t e.key).fids, ∀ y ∈ (getSlot t e.key).fids, next x = next y) ∧
        ((∀ x ∈ e.fids, ∀ y ∈ e.fids, next x = next y) → (getGang t e.gid).joinSets = e.g.joinSets ∧
          ∀ fid ∈ e.fids, (fibreAt t e.gid fid).joins = (getFibre e.g fid).joins))
  let goodTarget := fun (s : State) (e : Env) (v : W64) => targetTrap s e.g.ctx v = none ∧ targetPage s e.g.ctx v = none
  let direct := fun (f : F3) (s : State) (e : Env) (_ : Nat) => goodTarget s e (target3 e.pc f)
  let pair := fun (f : F3) (s : State) (e : Env) (fid : Nat) =>
    (readPair (getFibre e.g fid) f.a.toNat).2 = false ∧ goodTarget s e (readPair (getFibre e.g fid) f.a.toNat).1
  let label := fun (f : F3) (e : Env) (_ : Nat) => target3 e.pc f
  let reg := fun (f : F3) (e : Env) (fid : Nat) => (readPair (getFibre e.g fid) f.a.toNat).1
  let nothing := fun (_ : Env) (_ : Fibre) => True
  (∀ f, lands (.bra f) f [] (fun s e fid => executing f.h e ≠ [] → direct f s e fid) (label f) nothing) ∧
  (∀ f : F3, lands (.call f) f [(f.d.toNat, 2)] (direct f) (label f) (fun e y => readPair y f.d.toNat = (nextPc e.pc, false))) ∧
  (∀ f : F3, lands (.brx f) f [(f.a.toNat, 2)] (pair f) (reg f) nothing) ∧
  (∀ f : F3, lands (.ret f) f [(f.a.toNat, 2)] (pair f) (reg f) nothing)

/-- JOIN and the barriers (R37, R100, R240, R300, R304, R305): once its open windows have closed, the wave retires. A fibre with no open join
set goes on in its slot. Fibres whose innermost set still has members running wait in the table; when every member of the set waits it closes,
and the members of each PC go on as one wave. The fibres at a barrier leave the slot and wait in the table, or are ready again when they were the
last to arrive. A barrier waits for the release of the fibres' earlier accesses, and BARX for an HCHAIN of the gang. That waiting fibres leave the slot
at once, whatever its operand log holds, is DESIGN CHOICE log 31. -/
def Obligations.JoinsAndBarriersComplete : Prop :=
  let queued := fun (e : Env) (act : List Nat) (w : Wait) (t : State) => (∀ fid ∈ act, fid ∉ (getSlot t e.key).fids) ∧
    (act ≠ [] → ∃ b ∈ (getCore t e.core).table, b.gang = e.gid ∧ b.fids = act ∧ (b.wait = w ∨ b.wait = .ready))
  (∀ (f : F3) s e, Issues true s e → Live e → GuardsClean f.h (closedEnv e) →
    ∃ t, exec (.join f) s = .next t ∧ (e.sl.txn = none → StandAt e (fun _ => nextPc e.pc) t ∧ MemoryKept s t ∧
      ∀ fid ∈ executing f.h (closedEnv e), (getFibre e.g fid).joins = [] → fid ∈ (getSlot t e.key).fids)) ∧
  (∀ (f : F3) s e, Issues true s e → Live e → Plain f.h (closedEnv e) →
    (release (closedEnv e) (executing f.h (closedEnv e)) 0 (closedState e s)).1 = true →
    ∃ t, exec (.bar f) s = .next t ∧ StandAt e (fun _ => nextPc e.pc) t ∧ MemoryKept s t ∧
      queued e (executing f.h (closedEnv e)) .bar t) ∧
  (∀ (f : F3) s e k js, Issues true s e → Live e → Plain f.h (closedEnv e) → let act := executing f.h (closedEnv e)
    act ≠ [] → (∀ fid ∈ act, ∃ ks, (getFibre e.g fid).joins = k :: ks) → kget? e.g.joinSets k = some js → js.members ≠ [] →
    ∃ t, exec (.join f) s = .next t ∧ MemoryKept s t ∧ StandAt e (fun _ => nextPc e.pc) t ∧ (∀ fid ∈ act, fid ∉ (getSlot t e.key).fids) ∧
      ((∃ m ∈ js.members, m ∉ js.waiting ∧ m ∉ act) →
        (∃ js1, kget? (getGang t e.gid).joinSets k = some js1 ∧ js1.members = js.members ∧ ∀ fid ∈ act, fid ∈ js1.waiting) ∧
        ∃ b ∈ (getCore t e.core).table, b.gang = e.gid ∧ b.fids = act ∧ b.wait = .join k) ∧
      ((∀ m ∈ js.members, (m ∈ js.waiting ∨ m ∈ act) ∧ isPinned s e.gid m = false) →
        kget? (getGang t e.gid).joinSets k = none ∧ ∀ m ∈ js.members,
          ((kget? e.g.fibres m).isSome = true → (fibreAt t e.gid m).joins = (getFibre e.g m).joins.filter (· != k)) ∧
          ∃ b ∈ (getCore t e.g.core).table, b.gang = e.gid ∧ b.wait = .ready ∧ m ∈ b.fids ∧
            (∀ x ∈ b.fids, (fibreAt t e.gid x).pc = (fibreAt t e.gid m).pc) ∧
            ∀ x ∈ js.members, (fibreAt t e.gid x).pc = (fibreAt t e.gid m).pc → x ∈ b.fids)) ∧
  (∀ (f : F3) s e, Issues true s e → Plain f.h (closedEnv e) → 2 ≤ (getCrew s e.g.crew).size → chainsPending (closedState e s) e.gid = false →
    (release (closedEnv e) (executing f.h (closedEnv e)) 0 (closedState e s)).1 = true →
    ∃ t, exec (.barx f) s = .next t ∧ MemoryKept s t ∧ queued e (executing f.h (closedEnv e)) .barx t)

/-- SPAWN, QUIT and YIELD (R26, R27, R34, R301 to R303) outside a transaction, once their windows have closed. A SPAWN to a good target, whose
fibres have nothing under way, retires: one fibre that finds a free index, a free block and fewer than 2,048 fibres on the core creates
a fibre at the target with the parent's registers 0 to 7 and FPMODE without flags, ready in the table, and sets its predicate; where
it does not, no fibre is made, the predicate is cleared and the failure counted. That the block is the lowest free one, and so which SPAWN finds
one, is DESIGN CHOICE log 11. A QUIT ends its fibres and frees their blocks; yielding fibres go to the table as ready and keep their
progress count (DEDUCED log 63). -/
def Obligations.FibreControlCompletes : Prop :=
  (∀ (f : F3) s e, Issues true s e → Live e → Plain f.h (closedEnv e) →
    let act := executing f.h (closedEnv e)
    let pc := target3 e.pc f
    let win := 16 * 2 ^ f.mod.toNat
    targetTrap s e.g.ctx pc = none → targetPage s e.g.ctx pc = none → Idle s e act →
    ∃ t, exec (.spawn f) s = .next t ∧ MemoryKept (targetsSeen e act (fun _ => pc) s) t ∧
      (NoSleeper s e.gid → StandAt e (fun _ => nextPc e.pc) t) ∧
      ∀ fid, act = [fid] →
        (∀ i b, coreFibres s e.core < 2048 → freeIndex s e.gid = some i → findBlock (heldBlocks s e.core) win = some b →
          let x := getFibre (closedEnv e).g fid
          let y := fibreAt t e.gid i
          (kget? (getGang t e.gid).fibres i).isSome = true ∧ y.win = win ∧ y.block = b ∧ y.fpmode = x.fpmode &&& ~~~flagMask ∧
          y.waitlimit = x.waitlimit ∧ (∀ n < 8, readReg y n = readReg x n) ∧ (NoSleeper s e.gid → y.pc = pc) ∧
          { base := b, size := win, gang := e.gid, fid := i } ∈ (getCore t e.core).blocks ∧
          (∃ r ∈ (getCore t e.core).table, r.gang = e.gid ∧ r.fids = [i] ∧ r.wait = .ready) ∧
          (f.d.toNat < 16 → readPred (fibreAt t e.gid fid) f.d.toNat = (true, false))) ∧
        (2048 ≤ coreFibres s e.core ∨ freeIndex s e.gid = none ∨ findBlock (heldBlocks s e.core) win = none →
          (getGang t e.gid).spfail = e.g.spfail + 1 ∧
          (∀ i, (kget? (getGang t e.gid).fibres i).isSome = (kget? e.g.fibres i).isSome) ∧
          (0 < f.d.toNat → f.d.toNat < 16 → readPred (fibreAt t e.gid fid) f.d.toNat = (false, false)))) ∧
  (∀ (f : F3) s e, Issues true s e → Plain f.h (closedEnv e) →
    ∃ t, exec (.quit f) s = .next t ∧ MemoryKept s t ∧
      (∀ fid ∈ executing f.h (closedEnv e), kget? (getGang t e.gid).fibres fid = none ∧ fid ∉ (getSlot t e.key).fids ∧
        ∀ b ∈ (getCore t e.g.core).blocks, ¬ (b.gang = e.gid ∧ b.fid = fid)) ∧
      (NoSleeper s e.gid → ∀ fid ∈ e.fids, fid ∉ executing f.h (closedEnv e) → (kget? e.g.fibres fid).isSome = true →
        (fibreAt t e.gid fid).pc = nextPc e.pc ∧ fid ∈ (getSlot t e.key).fids)) ∧
  (∀ (f : F3) s e, Issues true s e → Live e → Plain f.h (closedEnv e) →
    ∃ t, exec (.yield f) s = .next t ∧ StandAt e (fun _ => nextPc e.pc) t ∧ MemoryKept s t ∧
      (∀ fid ∈ executing f.h (closedEnv e), fid ∉ (getSlot t e.key).fids ∧ (fibreAt t e.gid fid).progress = (getFibre e.g fid).progress) ∧
      (∀ fid ∈ e.fids, RegistersKept (getFibre (closedEnv e).g fid) (fibreAt t e.gid fid)) ∧
      (executing f.h (closedEnv e) ≠ [] → ∃ b ∈ (getCore t e.core).table, b.gang = e.gid ∧ b.wait = .ready ∧
        b.fids = executing f.h (closedEnv e)))

/-! ### System instructions -/

/-- CSRs, special registers, counters, NOP and BRK (R52, R54, R367 to R377). A read leaves the value in D of every executing fibre, a pair for
a 64-bit register; a CSR write by the executing fibres in lane order is the write of each; BRK of a claimed core halts it, and retires
when the core is resumed (DEDUCED log 129). -/
def Obligations.SystemInstructionsComplete : Prop :=
  let reads := fun (i : Instr) (h : Hdr) (d : Reg) (n : Nat) (wrote : State → Env → Nat → Fibre → Prop) =>
    ∀ s e, Issues false s e → Live e → GuardsClean h e → RegsOk e (executing h e) [(d.toNat, n)] →
      ∃ t, exec i s = .next t ∧ StandAt e (fun _ => nextPc e.pc) t ∧ OutsideKept s t ∧ OthersKept e s t ∧
        ∀ fid ∈ executing h e, wrote s e fid (fibreAt t e.gid fid)
  let holds := fun (wide : Bool) (d : Reg) (v : W64) (y : Fibre) =>
    if wide then readPair y d.toNat = (v, false) else readReg y d.toNat = (v.truncate 32, false)
  (∀ f : F6, reads (.csrr f) f.h f.d (csrN f.sel.toNat) (fun s e fid y =>
    holds (csrWide f.sel.toNat) f.d (csrRead s e.key e.gid fid f.sel.toNat) y)) ∧
  (∀ f : F6, reads (.sread f) f.h f.d (if sregWide f.sel.toNat then 2 else 1) (fun s e fid y =>
    holds (sregWide f.sel.toNat) f.d (sregRead s e.gid fid f.sel.toNat) y)) ∧
  (∀ f : F6, reads (.perfr f) f.h f.d 4 (fun s e _ y =>
    readQuad y f.d.toNat = (BitVec.ofNat 64 (now s) ++ kget (getCore s e.core).perfCount (f.sel.toNat % 8) 0, false))) ∧
  (∀ (f : F6) s e, Issues false s e → Live e → GuardsClean f.h e →
    ∃ t, exec (.nop f) s = .next t ∧ StandAt e (fun _ => nextPc e.pc) t ∧ OutsideKept s t ∧ OthersKept e s t ∧
      ∀ fid ∈ e.fids, FibreKept [] [] (getFibre e.g fid) (fibreAt t e.gid fid)) ∧
  (∀ (f : F6) s e, Issues false s e → GuardsClean f.h e → csrAccess f.sel.toNat = .rw →
    RegsOk e (executing f.h e) [(f.a.toNat, csrN f.sel.toNat)] →
    (∀ fid ∈ executing f.h e, (csrSrc f.sel.toNat (getFibre e.g fid) f.a.toNat).2 = false) →
    exec (.csrw f) s = .next (retirePlain e 5 ((sortBy lane (executing f.h e)).foldl (fun s fid =>
      csrWrite e.key e.gid fid f.sel.toNat (csrSrc f.sel.toNat (getFibre e.g fid) f.a.toNat).1 s) s))) ∧
  (∀ (f : F6) s e, Issues false s e → GuardsClean f.h e → csrAccess f.sel.toNat = .rw →
    RegsOk e (executing f.h e) [(f.d.toNat, csrN f.sel.toNat), (f.a.toNat, csrN f.sel.toNat), (f.b.toNat, csrN f.sel.toNat)] →
    (∀ fid ∈ executing f.h e, (csrSrc f.sel.toNat (getFibre e.g fid) f.a.toNat).2 = false ∧
      (csrSrc f.sel.toNat (getFibre e.g fid) f.b.toNat).2 = false) →
    ∃ t, exec (.csrx f) s = .next t ∧ ∀ fid, executing f.h e = [fid] → (kget? e.g.fibres fid).isSome →
      holds (csrWide f.sel.toNat) f.d (csrRead s e.key e.gid fid f.sel.toNat) (fibreAt t e.gid fid) ∧
      (f.sel.toNat = 2 → csrRead t e.key e.gid fid 2 = csrMerge (csrRead s e.key e.gid fid 2)
        (csrSrc 2 (getFibre e.g fid) f.a.toNat).1 (csrSrc 2 (getFibre e.g fid) f.b.toNat).1)) ∧
  (∀ (f : F6) s e, Issues true s e → Plain f.h (closedEnv e) → executing f.h (closedEnv e) ≠ [] → (getCore s e.core).claimed = true →
    ∃ t, exec (.brk f) s = .next t ∧ (getCore t e.core).halted = true ∧ (getSlot t e.key).atBrk = true ∧
      t.gangs = (closedState e s).gangs ∧ MemoryKept s t) ∧
  (∀ s core w e, w < 32 → (∀ v < 32, (getSlot s (slotKey core v)).atBrk = true ↔ v = w) → envOf { s with cur := some (core, w) } = some e →
    e.sl.handler = none → Live e →
    let t := resumeCore core s
    (getCore t core).halted = false ∧ (getSlot t e.key).atBrk = false ∧ StandAt e (fun _ => nextPc e.pc) t ∧ MemoryKept s t)

/-- What a write of a CSR leaves there for a read by the same fibre (R54, R369, R370): WAITLIMIT and a counter all of it, FPMODE its defined
bits, HANDLERBASE a line address, whose low six bits are stored as 0. -/
def Obligations.CsrWriteThenRead : Prop :=
  ∀ (s : State) key gid fid (v : W64), (kget? (getGang s gid).fibres fid).isSome = true →
    csrRead (csrWrite key gid fid 2 v s) key gid fid 2 = v ∧
    csrRead (csrWrite key gid fid 0 v s) key gid fid 0 = (fpmodeWrite (fibreAt s gid fid).fpmode (v.truncate 32)).zeroExtend 64 ∧
    csrRead (csrWrite key gid fid 0x24 v s) key gid fid 0x24 = v &&& ~~~63 ∧
    (∀ n, 0x40 ≤ n → n ≤ 0x47 → csrRead (csrWrite key gid fid n v s) key gid fid n = v)

/-! ### Traps and handlers -/

/-- TRAP, BRK on a core that no debugger has claimed, and RETT, LGET and LPUT outside a handler (R222, R252, R373, R374): a wave that can trap
takes cause 15 with the code, cause 16, or cause 2, and stands at the start of its handler. That RETT, LGET and LPUT outside a handler are ILLEGAL
for every lane of the wave, whatever their guard, is DEDUCED log 64. -/
def Obligations.TrapInstructionsTrap : Prop :=
  (∀ (f : F6) s e, Issues true s e → CanTrap s e → GuardsClean f.h (closedEnv e) → executing f.h (closedEnv e) ≠ [] →
    (∃ t, exec (.trap f) s = .next t ∧
      Trapped (closedEnv e) (closedState e s) t 15 (laneMask (executing f.h (closedEnv e))) (f.code.zeroExtend 64)) ∧
    ((getCore s e.core).claimed = false → ∃ t, exec (.brk f) s = .next t ∧
      Trapped (closedEnv e) (closedState e s) t 16 (laneMask (executing f.h (closedEnv e))) 0) ∧
    (∃ t, exec (.rett f) s = .next t ∧
      Trapped (closedEnv e) (closedState e s) t 2 (laneMask e.fids) (illegalVal (.rett f)))) ∧
  (∀ (f : F0) s e, Issues false s e → CanTrap s e →
    (∃ t, exec (.lget f) s = .next t ∧ Trapped e s t 2 (laneMask e.fids) (illegalVal (.lget f))) ∧
    (∃ t, exec (.lput f) s = .next t ∧ Trapped e s t 2 (laneMask e.fids) (illegalVal (.lput f))))

/-- Taking a trap (R153, R155, R222, R224): of the causes raised together the lowest is taken, with the lanes that raised it and the value of
the lowest of them. Inside a transaction the transaction aborts first, with cause 8, and TRAPPC holds its abort label. -/
def Obligations.TakingATrap : Prop :=
  (∀ s e (r : Raised) x, CanTrap s e → x ∈ r → (∀ y ∈ r, x.2.1 ≤ y.2.1) → (∀ y ∈ r, y.2.1 = x.2.1 → y ≠ x → lane x.1 < lane y.1) →
    ∃ t, takeTrap e r s = .next t ∧
      Trapped e s t x.2.1 (laneMask ((r.filter (fun y => y.2.1 == x.2.1)).map (·.1))) x.2.2) ∧
  (∀ s e tx fid c v, envOf s = some e → e.sl.handler = none → windowsRunning e = false → e.sl.txn = some tx → e.g.handlerBase ≠ 0 →
    ∃ t, takeTrap e [(fid, c, v)] s = .next t ∧ (getSlot t e.key).txn = none ∧ (getSlot t e.key).trappc = tx.abortPc ∧
      (getSlot t e.key).trapcause = BitVec.ofNat 32 c ∧ (getSlot t e.key).handler.isSome = true ∧
      ∀ g ∈ without e.sl.fids tx.held, (kget? e.g.fibres g).isSome = true →
        (fibreAt t e.gid g).pc = tx.abortPc ∧ ∃ co, (fibreAt t e.gid g).txstatus = txWord 0 co tx.levels.length 8)

/-- RETT in a handler (R226, R375): the handler is over; every lane of the wave resumes at the value last written to its PC item, or at
TRAPPC; a trapping lane left out of TRAPLANES parks. -/
def Obligations.ReturnResumes : Prop :=
  ∀ (f : F6) s e h, Handling s e h → guardK f.h h = (true, false) → returnError h e.sl = false →
    ∃ t, exec (.rett f) s = .next t ∧ (getSlot t e.key).handler = none ∧ MemoryKept s t ∧
      ∀ fid ∈ e.sl.fids, (kget? e.g.fibres fid).isSome = true →
        (fibreAt t e.gid fid).pc = resumePc h e.sl fid ∧
        (resumePc h e.sl fid = e.sl.trappc → e.sl.traplanes.getLsbD (lane fid) = false → h.trapped.getLsbD (lane fid) = true →
          (fibreAt t e.gid fid).park = .handler ∧ fid ∉ (getSlot t e.key).fids)

/-- An instruction that handler mode does not have is a handler error: a trap failure with cause 32, which fails the task (R225, R227). -/
def Obligations.HandlerErrors : Prop :=
  ∀ i w, encode i = some w → handlerForm i = false → ∀ s e h, Handling s e h → exec i s = .next (trapFailure e 32 s)

/-- Instructions on the scalar unit (R225, R270, R271, R307, R331, R369, R372). A computing instruction works on k-registers of 64 bits; a 32-bit operand is
the low half, and poison and the guard's poison go to the result. CSRR, CSRW, CSRX and SREAD read and write for the trapping lanes; a transfer
inside the handler's 1,024 lines goes to its target; LD, ST, LDS and STS send one request, or access the gang's scratchpad at once. MOV of
.b128 is none of handler mode. -/
def Obligations.HandlerInstructionsComplete : Prop :=
  let raw := fun (t : Ty) (r : Reg) (h : Handler) => (readSrcK h (tySrc t r)).1.toNat
  let bits := fun (t : Ty) (r : Reg) (h : Handler) => raw t r h % 2 ^ t.bits
  let half := fun (r : Reg) (h : Handler) => (readSrcK h (.reg r.toNat)).1.toNat
  let bad := fun (r : Reg) (h : Handler) => h.kPoison.getLsbD r.toNat
  let val := fun (t : Ty) (r : Reg) (h : Handler) => getTy t (readSrcK h (tySrc t r)).1.toNat
  let poi := fun (t : Ty) (r : Reg) (h : Handler) => (readSrcK h (tySrc t r)).2
  let puts := fun (hd : Hdr) (t : Ty) (d : Reg) (v : Int) (p : Bool) (h : Handler) =>
    writeK h d.toNat (BitVec.ofNat 64 (putTy t v)) (p || (guardK hd h).2)
  let two := fun (i : Instr) (f : F0) (op : Int → Int → Int) =>
    ComputesScalar i f.h [f.d.toNat, f.a.toNat, f.b.toNat] (fun h =>
      puts f.h f.ty f.d (op (val f.ty f.a h) (val f.ty f.b h)) (poi f.ty f.a h || poi f.ty f.b h) h)
  let imm := fun (i : Instr) (f : F1) (op : Int → Int → Int) =>
    ComputesScalar i f.h [f.d.toNat, f.a.toNat] (fun h => puts f.h f.ty f.d (op (val f.ty f.a h) (immVal f)) (poi f.ty f.a h) h)
  let one := fun (i : Instr) (f : F0) (op : Nat → Nat → Int) => ComputesScalar i f.h [f.d.toNat, f.a.toNat] (fun h =>
    puts f.h f.ty f.d (op f.ty.bits (bits f.ty f.a h)) (poi f.ty f.a h) h)
  let logic := fun (i : Instr) (f : F0) (op : Nat → Nat → Nat) => ComputesScalar i f.h [f.d.toNat, f.a.toNat, f.b.toNat] (fun h =>
    puts f.h f.ty f.d (op (bits f.ty f.a h) (bits f.ty f.b h) : Nat) (poi f.ty f.a h || poi f.ty f.b h) h)
  let logicImm := fun (i : Instr) (f : F1) (op : Nat → Nat → Nat) => ComputesScalar i f.h [f.d.toNat, f.a.toNat] (fun h =>
    puts f.h f.ty f.d (op (bits f.ty f.a h) ((immAt f.ty f.imm).toNat % 2 ^ f.ty.bits) : Nat) (poi f.ty f.a h) h)
  let counted := fun (i : Instr) (f : F0) (op : Nat → Nat → Nat → Int) => ComputesScalar i f.h [f.d.toNat, f.a.toNat, f.b.toNat] (fun h =>
    puts f.h f.ty f.d (op f.ty.bits (bits f.ty f.a h) (half f.b h)) (poi f.ty f.a h || bad f.b h) h)
  let countedImm := fun (i : Instr) (f : F1) (op : Nat → Nat → Nat → Int) => ComputesScalar i f.h [f.d.toNat, f.a.toNat] (fun h =>
    puts f.h f.ty f.d (op f.ty.bits (bits f.ty f.a h) f.imm.toNat) (poi f.ty f.a h) h)
  let number := fun (hd : Hdr) (d : Reg) (n : Nat) (p : Bool) (h : Handler) => writeK h d.toNat (BitVec.ofNat 64 n) (p || (guardK hd h).2)
  let count := fun (i : Instr) (f : F0) (op : Nat → Nat → Nat) => ComputesScalar i f.h [f.d.toNat, f.a.toNat] (fun h =>
    number f.h f.d (op f.ty.bits (bits f.ty f.a h)) (poi f.ty f.a h) h)
  let len := fun (w n : Nat) => if n % 256 < w then min (n / 256 % 256) (w - n % 256) else 0
  let bfe := fun (t : Ty) (w a n : Nat) => if len w n = 0 then 0 else asInt t.signed (len w n) (a / 2 ^ (n % 256) % 2 ^ len w n)
  let bfi := fun (w a b n : Nat) => if len w n = 0 then (a : Int) else
    ((a / 2 ^ (n % 256 + len w n) * 2 ^ (n % 256 + len w n) + b % 2 ^ len w n * 2 ^ (n % 256) + a % 2 ^ (n % 256) : Nat) : Int)
  let dot := fun (t : Ty) (a b : Nat) (c : Int) =>
    putTy (if t.signed then .i32 else .n32) (asInt t.signed 8 a * asInt t.signed 8 b +
      asInt t.signed 8 (a / 2 ^ 8) * asInt t.signed 8 (b / 2 ^ 8) + asInt t.signed 8 (a / 2 ^ 16) * asInt t.signed 8 (b / 2 ^ 16) +
      asInt t.signed 8 (a / 2 ^ 24) * asInt t.signed 8 (b / 2 ^ 24) + c)
  let cond := fun (c : Nat) (a b : Int) => match c % 8 with
    | 0 => decide (a = b) | 1 => decide (a ≠ b) | 2 => decide (a < b) | 3 => decide (a ≤ b) | 4 => decide (b < a) | _ => decide (b ≤ a)
  let pred := fun (h : Handler) (n : Nat) => (decide (n = 0) || h.preds.getLsbD n, decide (n ≠ 0) && h.predPoison.getLsbD n)
  let preds := fun (i : Instr) (f : F0) (op : Bool → Bool → Bool) => ComputesScalar i f.h [] (fun h =>
    let p := pred h f.a.toNat
    let q := pred h f.b.toNat
    writeKPred h f.d.toNat (op p.1 q.1) (p.2 || q.2 || (guardK f.h h).2))
  let predOne := fun (i : Instr) (f : F0) (op : Bool → Bool) => ComputesScalar i f.h [] (fun h =>
    writeKPred h f.d.toNat (op (pred h f.a.toNat).1) ((pred h f.a.toNat).2 || (guardK f.h h).2))
  let sel := fun (hd : Hdr) (t : Ty) (d : Reg) (m : BitVec 8) (a b : Nat × Bool) (h : Handler) =>
    let p := pred h (m.toNat % 16)
    puts hd t d (getTy t (if p.1 then a.1 else b.1)) ((if p.1 then a.2 else b.2) || p.2) h
  let runs := fun (i : Instr) (hd : Hdr) (uses : List Nat) (ok : State → Env → Handler → Prop) (is : State → Env → Handler → State → Prop) =>
    ∀ s e h, Handling s e h → (∀ n ∈ uses, n < 16) → guardK hd h = (true, false) → ok s e h → ∃ t, exec i s = .next t ∧ is s e h t
  let stands := fun (e : Env) (h : Handler) (pc : W64) (t : State) => (getSlot t e.key).handler = some { h with pc := pc }
  let good := fun (s : State) (e : Env) (h : Handler) (v : W64) =>
    (lineOf v - h.base).toNat < 1024 * 64 ∧ targetTrap s e.g.ctx v = none ∧ targetPage s e.g.ctx v = none
  let index := fun (f : F2) => if f.ix then [f.c.toNat] else []
  let access := fun (f : F2) (perm : Nat) (p : Handler → Bool) (s : State) (e : Env) (h : Handler) =>
    f.ty ≠ .b128 ∧ globalFaults s e.g.ctx (handlerAddr f h) (accBytes f.ty) perm (f.ord != 0 && p h) = [] ∧
    scalarPoison s e f (handlerAddr f h) perm = [] ∧ slotClear s e (iaOf s e.g.ctx (handlerAddr f h) perm) = true ∧
    acquiresDone s e.gid e.sl.fids = true
  let off := fun (f : F2) (h : Handler) => (handlerAddr f h).toNat % 2 ^ 32
  (∀ f, two (.iadd f) f (fun a b => a + b)) ∧ (∀ f, imm (.iaddImm f) f (fun a b => a + b)) ∧
  (∀ f, two (.isub f) f (fun a b => a - b)) ∧ (∀ f, imm (.isubImm f) f (fun a b => a - b)) ∧
  (∀ f, two (.imul f) f (fun a b => a * b)) ∧ (∀ f, imm (.imulImm f) f (fun a b => a * b)) ∧
  (∀ f, two (.imulh f) f (fun a b => a * b / 2 ^ f.ty.bits)) ∧ (∀ f, imm (.imulhImm f) f (fun a b => a * b / 2 ^ f.ty.bits)) ∧
  (∀ f, two (.imin f) f (fun a b => if a ≤ b then a else b)) ∧ (∀ f, two (.imax f) f (fun a b => if a ≤ b then b else a)) ∧
  (∀ f, imm (.iminImm f) f (fun a b => if a ≤ b then a else b)) ∧ (∀ f, imm (.imaxImm f) f (fun a b => if a ≤ b then b else a)) ∧
  (∀ f, one (.iabs f) f (fun w a => if asInt true w a < 0 then -(asInt true w a) else asInt true w a)) ∧
  (∀ f, one (.ineg f) f (fun _ a => -(a : Int))) ∧
  (∀ f : F0, ComputesScalar (.imad f) f.h [f.d.toNat, f.a.toNat, f.b.toNat, f.c.toNat] (fun h =>
    puts f.h f.ty f.d (val f.ty f.a h * val f.ty f.b h + val f.ty f.c h) (poi f.ty f.a h || (poi f.ty f.b h || poi f.ty f.c h)) h)) ∧
  (∀ f : F1, ComputesScalar (.imadImm f) f.h [f.d.toNat, f.a.toNat, f.b.toNat] (fun h =>
    puts f.h f.ty f.d (val f.ty f.a h * val f.ty f.b h + immVal f) (poi f.ty f.a h || poi f.ty f.b h) h)) ∧
  (∀ f, two (.idiv f) f (fun a b => if b = 0 then -1 else a.tdiv b)) ∧ (∀ f, two (.irem f) f (fun a b => if b = 0 then a else a.tmod b)) ∧
  (∀ f, logic (.and_ f) f (fun a b => a &&& b)) ∧ (∀ f, logicImm (.andImm f) f (fun a b => a &&& b)) ∧
  (∀ f, logic (.or_ f) f (fun a b => a ||| b)) ∧ (∀ f, logicImm (.orImm f) f (fun a b => a ||| b)) ∧
  (∀ f, logic (.xor_ f) f (fun a b => a ^^^ b)) ∧ (∀ f, logicImm (.xorImm f) f (fun a b => a ^^^ b)) ∧
  (∀ f, logic (.andn f) f (fun a b => a ^^^ (a &&& b))) ∧ (∀ f, logicImm (.andnImm f) f (fun a b => a ^^^ (a &&& b))) ∧
  (∀ f, one (.not_ f) f (fun w a => ((2 ^ w - 1 - a : Nat) : Int))) ∧
  (∀ p ∈ [(Instr.shl, Instr.shlImm, fun w a n => ((a * 2 ^ (n % w) : Nat) : Int)), (.shr, .shrImm, fun w a n => ((a / 2 ^ (n % w) : Nat) : Int)),
      (.sar, .sarImm, fun w a n => asInt true w a / 2 ^ (n % w)),
      (.rol, .rolImm, fun w a n => ((a * 2 ^ (n % w) + a / 2 ^ (w - n % w) : Nat) : Int)),
      (.ror, .rorImm, fun w a n => ((a / 2 ^ (n % w) + a * 2 ^ (w - n % w) : Nat) : Int))],
    (∀ f, counted (p.1 f) f p.2.2) ∧ ∀ f, countedImm (p.2.1 f) f p.2.2) ∧
  (∀ f, counted (.bfe f) f (bfe f.ty)) ∧ (∀ f, countedImm (.bfeImm f) f (bfe f.ty)) ∧
  (∀ f : F0, ComputesScalar (.bfi f) f.h [f.d.toNat, f.a.toNat, f.b.toNat, f.c.toNat] (fun h =>
    puts f.h f.ty f.d (bfi f.ty.bits (bits f.ty f.a h) (raw f.ty f.b h) (half f.c h)) (poi f.ty f.a h || (poi f.ty f.b h || bad f.c h)) h)) ∧
  (∀ f : F1, ComputesScalar (.bfiImm f) f.h [f.d.toNat, f.a.toNat, f.b.toNat] (fun h =>
    puts f.h f.ty f.d (bfi f.ty.bits (bits f.ty f.a h) (raw f.ty f.b h) f.imm.toNat) (poi f.ty f.a h || poi f.ty f.b h) h)) ∧
  (∀ f, count (.popc f) f (fun w a => ((List.range w).filter (fun i => a.testBit i)).length)) ∧
  (∀ f, count (.clz f) f (fun w a => if a = 0 then w else w - 1 - Nat.log2 a)) ∧
  (∀ f, count (.ctz f) f (fun w a => ((List.range w).find? (fun i => a.testBit i)).getD w)) ∧
  (∀ f, one (.brev f) f (fun w a => ((List.range w).foldl (fun n i => 2 * n + (a.testBit i).toNat) 0 : Nat))) ∧
  (∀ f : F0, ComputesScalar (.lea f) f.h [f.d.toNat, f.a.toNat, f.b.toNat] (fun h =>
    number f.h f.d (wrapInt ((raw .n64 f.a h : Int) + (if f.ty.bits = 64 then (raw f.ty f.b h : Int) else asInt f.ty.signed 32 (raw f.ty f.b h)) *
      2 ^ (f.mod.toNat % 8)) 64) (bad f.a h || poi f.ty f.b h) h)) ∧
  (∀ f : F0, f.ty ≠ .b128 → one (.mov f) f (fun _ a => (a : Int))) ∧
  (∀ f : F0, f.ty = .b128 → ∀ s e h, Handling s e h → exec (.mov f) s = .next (trapFailure e 32 s)) ∧
  (∀ f : F0, ComputesScalar (.sel f) f.h [f.d.toNat, f.a.toNat, f.b.toNat] (fun h =>
    sel f.h f.ty f.d f.mod (raw f.ty f.a h, poi f.ty f.a h) (raw f.ty f.b h, poi f.ty f.b h) h)) ∧
  (∀ f : F1, ComputesScalar (.selImm f) f.h [f.d.toNat, f.a.toNat] (fun h =>
    sel f.h f.ty f.d f.mod (raw f.ty f.a h, poi f.ty f.a h) ((immAt f.ty f.imm).toNat, false) h)) ∧
  (∀ f : F0, ComputesScalar (.iset f) f.h [f.d.toNat, f.a.toNat, f.b.toNat] (fun h =>
    number f.h f.d (cond f.mod.toNat (val f.ty f.a h) (val f.ty f.b h)).toNat (poi f.ty f.a h || poi f.ty f.b h) h)) ∧
  (∀ f : F1, ComputesScalar (.isetImm f) f.h [f.d.toNat, f.a.toNat] (fun h =>
    number f.h f.d (cond f.mod.toNat (val f.ty f.a h) (immVal f)).toNat (poi f.ty f.a h) h)) ∧
  (∀ f : F1, ComputesScalar (.icmpImm f) f.h [f.a.toNat] (fun h =>
    writeKPred h f.d.toNat (cond f.mod.toNat (val f.ty f.a h) (immVal f)) (poi f.ty f.a h || (guardK f.h h).2))) ∧
  (∀ f, preds (.pand f) f (fun a b => a && b)) ∧ (∀ f, preds (.por f) f (fun a b => a || b)) ∧ (∀ f, preds (.pxor f) f (fun a b => a != b)) ∧
  (∀ f, predOne (.pnot f) f (fun a => !a)) ∧ (∀ f, predOne (.pmov f) f (fun a => a)) ∧
  (∀ f : F0, ComputesScalar (.pmovToRegister f) f.h [f.d.toNat] (fun h =>
    number f.h f.d (h.preds ||| 1).toNat (decide (h.predPoison &&& 0xFFFE ≠ 0)) h)) ∧
  (∀ f : F0, ComputesScalar (.pmovFromRegister f) f.h [f.a.toNat] (fun h => (List.range 15).foldl (fun k i =>
    writeKPred k (i + 1) ((half f.a h).testBit (i + 1)) (bad f.a h || (guardK f.h h).2)) h)) ∧
  (∀ f : F0, ComputesScalar (.idot4 f) f.h [f.d.toNat, f.a.toNat, f.b.toNat, f.c.toNat] (fun h =>
    number f.h f.d (dot f.ty (half f.a h) (half f.b h) (half f.c h)) (bad f.a h || (bad f.b h || bad f.c h)) h)) ∧
  (∀ f : F1, ComputesScalar (.idot4Imm f) f.h [f.d.toNat, f.a.toNat, f.b.toNat] (fun h =>
    number f.h f.d (dot f.ty (half f.a h) (half f.b h) f.imm.toNat) (bad f.a h || bad f.b h) h)) ∧
  (∀ f : F6, runs (.csrr f) f.h [f.d.toNat] (fun _ _ _ => True) (fun s e h t => t =
    handlerNext e (writeK h f.d.toNat (csrRead s e.key e.gid (handlerFid e h) f.sel.toNat) false) s)) ∧
  (∀ f : F6, runs (.sread f) f.h [f.d.toNat] (fun _ _ _ => True) (fun s e h t => t =
    handlerNext e (writeK h f.d.toNat (sregRead s e.gid (handlerFid e h) f.sel.toNat) false) s)) ∧
  (∀ f : F6, csrAccess f.sel.toNat ≠ .ro → runs (.csrw f) f.h [f.a.toNat]
    (fun _ _ h => bad f.a h = false ∧ (f.sel.toNat = 0x22 → pcOk (kget h.k f.a.toNat 0) = true)) (fun s e h t =>
      let fids := if f.sel.toNat = 0 ∨ f.sel.toNat = 2 then handlerFids e h else [handlerFid e h]
      t = handlerNext e h (fids.foldl (fun s fid => csrWrite e.key e.gid fid f.sel.toNat (kget h.k f.a.toNat 0) s) s))) ∧
  (∀ f : F6, csrAccess f.sel.toNat ≠ .ro → f.sel.toNat ≠ 0x22 → runs (.csrx f) f.h [f.d.toNat, f.a.toNat, f.b.toNat]
    (fun _ _ h => bad f.a h = false ∧ bad f.b h = false) (fun s e h t =>
      stands e (writeK h f.d.toNat (csrRead s e.key e.gid (handlerFid e h) f.sel.toNat) false) (nextPc h.pc) t)) ∧
  (∀ f : F3, runs (.bra f) f.h [] (fun s e h => good s e h (target3 h.pc f)) (fun _ e h t => stands e h (target3 h.pc f) t)) ∧
  (∀ f : F3, runs (.call f) f.h [f.d.toNat] (fun s e h => good s e h (target3 h.pc f)) (fun _ e h t =>
    stands e (writeK h f.d.toNat (nextPc h.pc) false) (target3 h.pc f) t)) ∧
  (∀ f : F3, ∀ i ∈ [Instr.brx f, .ret f], runs i f.h [f.a.toNat] (fun s e h => bad f.a h = false ∧ good s e h (kget h.k f.a.toNat 0))
    (fun _ e h t => stands e h (kget h.k f.a.toNat 0) t)) ∧
  (∀ f : F2, runs (.ld f) f.h ([f.d.toNat, f.a.toNat] ++ index f)
    (fun s e h => access f 1 (handlerAddrPoison f) s e h ∧ scalarReady s e f = true) (fun s e h t => MemoryKept s t ∧
      stands e h (nextPc h.pc) t ∧ ∃ r ∈ t.reqs, r.fid = 1024 ∧ r.va = handlerAddr f h ∧ r.d = f.d.toNat ∧ r.bytes = accBytes f.ty)) ∧
  (∀ f : F2, runs (.st f) f.h ([f.b.toNat, f.a.toNat] ++ index f)
    (fun s e h => access f 2 (fun h => handlerAddrPoison f h || bad f.b h) s e h ∧ (f.ord ≠ 0 → (release e e.sl.fids f.sc s).1 = true))
    (fun s e h t => MemoryKept s t ∧ stands e h (nextPc h.pc) t)) ∧
  (∀ f : F2, runs (.lds f) f.h ([f.d.toNat, f.a.toNat] ++ index f) (fun s e h => f.ty ≠ .b128 ∧ scalarReady s e f = true ∧
      scratchFaults e.g (off f h) (accBytes f.ty) false (f.ord != 0 && (handlerAddrPoison f h || scratchPoisonAt e.g (off f h))) = [])
    (fun s e h t => MemoryKept s t ∧ stands e (writeK h f.d.toNat (ext64 f.ty.signed f.ty.bits (scratchRead s e.gid (off f h) (accBytes f.ty)))
      (handlerAddrPoison f h || scratchPoisonAt e.g (off f h))) (nextPc h.pc) t)) ∧
  (∀ f : F2, runs (.sts f) f.h ([f.b.toNat, f.a.toNat] ++ index f) (fun s e h => f.ty ≠ .b128 ∧ acquiresDone s e.gid e.sl.fids = true ∧
      scratchFaults e.g (off f h) (accBytes f.ty) true (f.ord != 0 && (handlerAddrPoison f h || bad f.b h || scratchPoisonAt e.g (off f h))) = [] ∧
      (f.ord ≠ 0 → (scratchRelease e e.sl.fids f.sc s).1 = true))
    (fun s e h t => MemoryKept s t ∧ stands e h (nextPc h.pc) t ∧ (getGang t e.gid).scratch = writeBytes (getGang s e.gid).scratch (off f h)
      (bytesOfNat (accBytes f.ty) (kget h.k f.b.toNat 0).toNat))) ∧
  (∀ f : F1, ComputesScalar (.movi f) f.h [f.d.toNat] (fun h => puts f.h f.ty f.d ((immAt f.ty f.imm).toNat : Int) false h)) ∧
  (∀ f : F0, ComputesScalar (.icmp f) f.h [f.a.toNat, f.b.toNat] (fun h =>
    let a := val f.ty f.a h
    let b := val f.ty f.b h
    writeKPred h f.d.toNat (match f.mod.toNat % 8 with
      | 0 => decide (a = b) | 1 => decide (a ≠ b) | 2 => decide (a < b) | 3 => decide (a ≤ b) | 4 => decide (b < a) | _ => decide (b ≤ a))
      (poi f.ty f.a h || poi f.ty f.b h || (guardK f.h h).2)))

/-- LGET and LPUT in a handler (R295): they read and write a register, the predicate word or the PC item of the lane that the selector in
A names. -/
def Obligations.LaneAccessCompletes : Prop :=
  ∀ (f : F0) s e h fid kind reg, Handling s e h → (guardK f.h h).1 = true → f.a.toNat < 16 →
    selector e h (kget h.k f.a.toNat 0) = some (fid, kind, reg) →
    (f.d.toNat < 16 → exec (.lget f) s = .next (handlerNext e (writeK h f.d.toNat
      (match kind with
        | 0 => (readReg (getFibre e.g fid) reg).1.zeroExtend 64
        | 1 => ((getFibre e.g fid).preds ||| 1).zeroExtend 64
        | _ => resumePc h e.sl fid)
      ((match kind with
        | 0 => (readReg (getFibre e.g fid) reg).2
        | 1 => decide ((getFibre e.g fid).predPoison &&& 0xFFFE ≠ 0)
        | _ => false) || (guardK f.h h).2)) s)) ∧
    (f.b.toNat < 16 → (kget? e.g.fibres fid).isSome = true →
      (kind = 0 → ∃ t, exec (.lput f) s = .next t ∧
        readReg (fibreAt t e.gid fid) reg = ((kget h.k f.b.toNat 0).truncate 32, h.kPoison.getLsbD f.b.toNat || (guardK f.h h).2)) ∧
      (kind = 1 → ∃ t, exec (.lput f) s = .next t ∧ ∀ n, 1 ≤ n → n < 16 →
        readPred (fibreAt t e.gid fid) n = ((kget h.k f.b.toNat 0).getLsbD n, h.kPoison.getLsbD f.b.toNat || (guardK f.h h).2)) ∧
      (2 ≤ kind → (kget h.k f.b.toNat 0) &&& 0x38 = 0 → (kget h.k f.b.toNat 0).toNat % 8 ≤ 4 → (kget h.k f.b.toNat 0).toNat < 2 ^ 57 →
        exec (.lput f) s = .next (handlerNext e { h with items := kset h.items (lane fid) (kget h.k f.b.toNat 0) } s)))

/-! ### Memory instructions -/

/-- Loads (R122, R147 to R149, R311, R314, R316, R320): LD, LDS and LDPL of lanes that meet no fault retire, with one request for each executing fibre that
carries its address; a scratchpad load's request already holds its value. An ordered LD meets no fault where no poison can be seen when it
issues (DEDUCED log 35). Inside a transaction (R147 to R149) the value is the wave's own buffered bytes over what memory holds, and the line joins
the read set with the version it had: a scratchpad line at the issue, a global one at the home's reply. A changed version closes the transaction,
and so does a line too many. -/
def Obligations.LoadsComplete : Prop :=
  let addr := fun (f : F2) (e : Env) (fid : Nat) => globalAddr f (getFibre e.g fid)
  let off := fun (f : F2) (e : Env) (fid : Nat) => (shortAddr f (getFibre e.g fid)).1.toNat
  (∀ (f : F2) s e, Issues false s e → Live e → e.sl.txn = none →
    RegsOk e (executing f.h e) (dstUse (laneDst f.ty f.d) ++ [(f.a.toNat, 2)] ++ idxUse f) →
    (∀ fid ∈ executing f.h e, globalFaults s e.g.ctx (addr f e fid).1 (accBytes f.ty) 1 (f.ord != 0 && (addr f e fid).2) = []) →
    logReady s e (executing f.h e) e.g.ctx ((executing f.h e).map (fun fid => iaOf s e.g.ctx (addr f e fid).1 1 / 128)) = true →
    acquiresDone s e.gid (executing f.h e) = true →
    (f.ord ≠ 0 → flushDone s e.g (slabOf e.core) (executing f.h e) = true ∧ ∀ fid ∈ executing f.h e,
      seenPoison s e.core e.g.ctx (iaOf s e.g.ctx (addr f e fid).1 1) (accBytes f.ty) f.pol f.ord f.sc false = false) →
    ∃ t, exec (.ld f) s = .next t ∧ StandAt e (fun _ => nextPc e.pc) t ∧ MemoryKept s t ∧
      Requests e (executing f.h e) (fun fid r => r.kind = .load ∧ r.va = (addr f e fid).1 ∧ r.bytes = accBytes f.ty ∧ r.d = f.d.toNat) s t) ∧
  (∀ (f : F2) s e, Issues false s e → Live e → e.sl.txn = none →
    RegsOk e (executing f.h e) (dstUse (laneDst f.ty f.d) ++ [(f.a.toNat, 1)] ++ idxUse f) →
    (∀ fid ∈ executing f.h e, scratchFaults e.g (off f e fid) (accBytes f.ty) false
      (f.ord != 0 && (shortAddr f (getFibre e.g fid)).2) = [] ∧ (f.ord ≠ 0 → scratchPoisonAt e.g (off f e fid) = false)) →
    acquiresDone s e.gid (executing f.h e) = true → (f.ord ≠ 0 → flushDone s e.g (slabOf e.core) (executing f.h e) = true) →
    ∃ t, exec (.lds f) s = .next t ∧ StandAt e (fun _ => nextPc e.pc) t ∧ MemoryKept s t ∧
      Requests e (executing f.h e) (fun fid r => r.phase = .reply ∧ r.d = f.d.toNat ∧
        r.value = BitVec.ofNat 128 (scratchRead s e.gid (off f e fid) (accBytes f.ty))) s t) ∧
  (∀ (f : F2) s e, Issues false s e → Live e → e.sl.txn = none →
    RegsOk e (executing f.h e) ([(f.d.toNat, 2), (f.a.toNat, 1)] ++ idxUse f) →
    (∀ fid ∈ executing f.h e, planeFaults e.g f.ty (off f e fid) = []) → acquiresDone s e.gid (executing f.h e) = true →
    ∃ t, exec (.ldpl f) s = .next t ∧ StandAt e (fun _ => nextPc e.pc) t ∧ MemoryKept s t ∧
      Requests e (executing f.h e) (fun fid r => r.phase = .reply ∧ r.d = f.d.toNat ∧
        r.value = (unplane ((List.range (planes f.ty)).map (fun p =>
          BitVec.ofNat 8 (scratchRead s e.gid (off f e fid + p * 2048 + lane fid) 1)))).zeroExtend 128) s t) ∧
  (∀ (f : F2) s e tx, Issues false s e → Live e → e.sl.txn = some tx →
    RegsOk e (executing f.h e) (dstUse (laneDst f.ty f.d) ++ [(f.a.toNat, 2)] ++ idxUse f) →
    let ia := fun fid => iaOf s e.g.ctx (addr f e fid).1 1
    (∀ fid ∈ executing f.h e, globalFaults s e.g.ctx (addr f e fid).1 (accBytes f.ty) 1 (addr f e fid).2 = [] ∧ isPeer (ia fid) = false ∧
      ia fid / 128 ∉ tx.writes.globPoison ∧ homeSeen s e.core e.g.ctx (ia fid) false = false) →
    fibresClear s e (executing f.h e) ((executing f.h e).map (fun fid => ia fid / 128)) = true →
    ∃ t, exec (.ld f) s = .next t ∧ StandAt e (fun _ => nextPc e.pc) t ∧ MemoryKept s t ∧ (getSlot t e.key).txn = some tx ∧
      Requests e (executing f.h e) (fun fid r => r.kind = .txnRead ∧ r.phase = .toHome ∧ r.va = (addr f e fid).1 ∧ r.ia = ia fid ∧
        r.bytes = accBytes f.ty ∧ r.d = f.d.toNat ∧ ∀ i < accBytes f.ty, i < 16 → let own := kget? tx.writes.glob (ia fid + i)
          r.cmp.getLsbD i = own.isSome ∧ BitVec.ofNat 8 (r.data.toNat / 2 ^ (8 * i)) = own.getD 0) { s with reqs := [] } t) ∧
  (∀ s rid r tx, s.reqs.find? (fun r => r.id == rid && r.phase == .reply && r.kind != .probe) = some r → r.kind = .txnRead → r.ord = 0 →
    let key := slotKey r.core r.slot
    let sl := getSlot s key
    sl.txn = some tx → sl.gang = r.gang → r.fid ∈ sl.fids → r.sectorPoison = false → r.ca % 4 = 0 →
    ∃ t, exec (.memoryReply rid) s = .next t ∧ MemoryKept s t ∧
      let joins := fun (tx1 : Txn) => (getSlot t key).txn = some tx1 ∧ (r.fid ≠ 1024 →
        (kget? (getGang s r.gang).fibres r.fid).isSome = true → fibreAt t r.gang r.fid = fillWindow (fibreAt s r.gang r.fid) r.window
          (loadWr r.ty r.d (BitVec.ofNat 128 (natOfBytes ((List.range r.bytes).map (fun i =>
            BitVec.ofNat 8 ((if r.cmp.getLsbD i then r.data else r.value).toNat / 2 ^ (8 * i)))))) r.poison).regs 0)
      match tx.reads.find? (fun x => x.scratch == false && x.line == r.image) with
      | some x => if x.version = r.version then joins tx else (getSlot t key).txn = none
      | none => if (tx.reads.filter (fun x => x.scratch == false)).length < 32
          then joins { tx with reads := tx.reads ++ [{ scratch := false, line := r.image, version := r.version }] }
          else (getSlot t key).txn = none) ∧
  (∀ (f : F2) s e tx, Issues false s e → Live e → e.sl.txn = some tx →
    RegsOk e (executing f.h e) (dstUse (laneDst f.ty f.d) ++ [(f.a.toNat, 1)] ++ idxUse f) →
    (∀ fid ∈ executing f.h e, scratchFaults e.g (off f e fid) (accBytes f.ty) false (shortAddr f (getFibre e.g fid)).2 = [] ∧
      scratchPoisonAt e.g (off f e fid) = false ∧ off f e fid / 128 ∉ tx.writes.scrPoison) →
    acquiresDone s e.gid (executing f.h e) = true → ReadsFit s e tx (executing f.h e).length →
    ∃ t, exec (.lds f) s = .next t ∧ StandAt e (fun _ => nextPc e.pc) t ∧ MemoryKept s t ∧
      ReadsJoined s t e tx ((executing f.h e).map (fun fid => off f e fid / 256)) ∧
      Requests e (executing f.h e) (fun fid r => r.phase = .reply ∧ r.d = f.d.toNat ∧ r.value = BitVec.ofNat 128 (natOfBytes
        ((bytesOfNat (accBytes f.ty) (scratchRead s e.gid (off f e fid) (accBytes f.ty))).zipIdx.map
          (fun b => (kget? tx.writes.scr (off f e fid + b.2)).getD b.1)))) s t) ∧
  (∀ (f : F2) s e tx, Issues false s e → Live e → e.sl.txn = some tx →
    RegsOk e (executing f.h e) ([(f.d.toNat, 2), (f.a.toNat, 1)] ++ idxUse f) →
    let place := fun fid p => off f e fid + p * 2048 + lane fid
    (∀ fid ∈ executing f.h e, planeFaults e.g f.ty (off f e fid) = [] ∧ (shortAddr f (getFibre e.g fid)).2 = false ∧
      ∀ p < planes f.ty, scratchPoisonAt e.g (place fid p) = false ∧ place fid p / 128 ∉ tx.writes.scrPoison) →
    acquiresDone s e.gid (executing f.h e) = true → ReadsFit s e tx ((executing f.h e).length * planes f.ty) →
    ∃ t, exec (.ldpl f) s = .next t ∧ StandAt e (fun _ => nextPc e.pc) t ∧ MemoryKept s t ∧
      ReadsJoined s t e tx ((executing f.h e).map (fun fid => (List.range (planes f.ty)).map (fun p => place fid p / 256))).flatten ∧
      Requests e (executing f.h e) (fun fid r => r.phase = .reply ∧ r.d = f.d.toNat ∧
        r.value = (unplane ((List.range (planes f.ty)).map (fun p =>
          (kget? tx.writes.scr (place fid p)).getD (BitVec.ofNat 8 (scratchRead s e.gid (place fid p) 1))))).zeroExtend 128) s t)

/-- Stores (R122, R147 to R149, R312, R315, R316, R319): ST, STS and STPL of lanes that meet no fault retire once their release is performed. ST leaves every
memory as it is until its bytes reach a home; STS and STPL write the gang's scratchpad, the lanes in rising order. An ordered ST meets no fault
where no poison can be seen when it issues (DEDUCED log 35). Inside a transaction the bytes of all three go to the write set, as long as it holds
at most 8 lines: no other byte of memory changes but the A bit of the pages looked up, and no scratchpad. -/
def Obligations.StoresComplete : Prop :=
  let addr := fun (f : F2) (e : Env) (fid : Nat) => globalAddr f (getFibre e.g fid)
  let data := fun (f : F2) (e : Env) (fid : Nat) => readSrc (getFibre e.g fid) (dataSrc f.ty f.b)
  let off := fun (f : F2) (e : Env) (fid : Nat) => (shortAddr f (getFibre e.g fid)).1.toNat
  (∀ (f : F2) s e, Issues false s e → Live e → e.sl.txn = none →
    RegsOk e (executing f.h e) ([(f.a.toNat, 2)] ++ srcUse (dataSrc f.ty f.b) ++ idxUse f) →
    (∀ fid ∈ executing f.h e, globalFaults s e.g.ctx (addr f e fid).1 (accBytes f.ty) 2
        (f.ord != 0 && ((addr f e fid).2 || (data f e fid).2)) = [] ∧
      (f.ord ≠ 0 → seenPoison s e.core e.g.ctx (iaOf s e.g.ctx (addr f e fid).1 2) (accBytes f.ty) f.pol f.ord f.sc true = false)) →
    logReady s e (executing f.h e) e.g.ctx ((sortBy lane (executing f.h e)).map (fun fid => iaOf s e.g.ctx (addr f e fid).1 2 / 128)) = true →
    acquiresDone s e.gid (executing f.h e) = true → (f.ord ≠ 0 → (release e (executing f.h e) f.sc s).1 = true) →
    ∃ t, exec (.st f) s = .next t ∧ StandAt e (fun _ => nextPc e.pc) t ∧ MemoryKept s t) ∧
  (∀ (f : F2) s e, Issues false s e → e.sl.txn = none →
    RegsOk e (executing f.h e) ([(f.a.toNat, 1)] ++ srcUse (dataSrc f.ty f.b) ++ idxUse f) →
    (∀ fid ∈ executing f.h e, scratchFaults e.g (off f e fid) (accBytes f.ty) true
        (f.ord != 0 && ((shortAddr f (getFibre e.g fid)).2 || (data f e fid).2)) = [] ∧
      (f.ord ≠ 0 → scratchPoisonAt e.g (off f e fid) = false)) →
    acquiresDone s e.gid (executing f.h e) = true → (f.ord ≠ 0 → (scratchRelease e (executing f.h e) f.sc s).1 = true) →
    ∃ t, exec (.sts f) s = .next t ∧ MemoryKept s t ∧
      (getGang t e.gid).scratch = (sortBy lane (executing f.h e)).foldl (fun m fid =>
        writeBytes m (off f e fid) (bytesOfNat (accBytes f.ty) (data f e fid).1.toNat)) e.g.scratch) ∧
  (∀ (f : F2) s e, Issues false s e → e.sl.txn = none →
    RegsOk e (executing f.h e) ([(f.a.toNat, 1), (f.b.toNat, 2)] ++ idxUse f) →
    (∀ fid ∈ executing f.h e, planeFaults e.g f.ty (off f e fid) = []) → acquiresDone s e.gid (executing f.h e) = true →
    ∃ t, exec (.stpl f) s = .next t ∧ MemoryKept s t ∧
      (getGang t e.gid).scratch = (sortBy lane (executing f.h e)).foldl (fun m fid => (List.range (planes f.ty)).foldl (fun m p =>
        writeBytes m (off f e fid + p * 2048 + lane fid) [planeByte (readPair (getFibre e.g fid) f.b.toNat).1 p]) m) e.g.scratch) ∧
  (∀ (f : F2) s e tx, Issues false s e → Live e → e.sl.txn = some tx →
    RegsOk e (executing f.h e) ([(f.a.toNat, 2)] ++ srcUse (dataSrc f.ty f.b) ++ idxUse f) →
    let act := sortBy lane (executing f.h e)
    let ia := fun fid => iaOf s e.g.ctx (addr f e fid).1 3
    (∀ fid ∈ act, globalFaults s e.g.ctx (addr f e fid).1 (accBytes f.ty) 3 false = [] ∧ isPeer (ia fid) = false ∧
      ∃ l, translate s e.g.ctx (ia fid) true true = .ok l ∧ l.ca = 0) →
    fibresClear s e (executing f.h e) (act.map (fun fid => ia fid / 128)) = true →
    (noteLines (act.map (fun fid => ia fid / 256)) tx.writes.globLines).length + tx.writes.scrLines.length ≤ 8 →
    ∃ t, exec (.st f) s = .next t ∧ StandAt e (fun _ => nextPc e.pc) t ∧
      MemoryKept (act.foldl (fun u fid => match translate s e.g.ctx (ia fid) true true with | .ok l => setAccessed l u | .error _ => u) s) t ∧
      WritesBuffered s t e tx (act.foldl (fun m fid => buffered m (ia fid) (bytesOfNat (accBytes f.ty) (data f e fid).1.toNat)) tx.writes.glob)
        tx.writes.scr) ∧
  (∀ (f : F2) s e tx, Issues false s e → Live e → e.sl.txn = some tx →
    RegsOk e (executing f.h e) ([(f.a.toNat, 1)] ++ srcUse (dataSrc f.ty f.b) ++ idxUse f) → let act := sortBy lane (executing f.h e)
    (∀ fid ∈ act, scratchFaults e.g (off f e fid) (accBytes f.ty) true false = []) →
    tx.writes.globLines.length + (noteLines (act.map (fun fid => off f e fid / 256)) tx.writes.scrLines).length ≤ 8 →
    ∃ t, exec (.sts f) s = .next t ∧ StandAt e (fun _ => nextPc e.pc) t ∧ MemoryKept s t ∧ WritesBuffered s t e tx tx.writes.glob
      (act.foldl (fun m fid => buffered m (off f e fid) (bytesOfNat (accBytes f.ty) (data f e fid).1.toNat)) tx.writes.scr)) ∧
  (∀ (f : F2) s e tx, Issues false s e → Live e → e.sl.txn = some tx →
    RegsOk e (executing f.h e) ([(f.a.toNat, 1), (f.b.toNat, 2)] ++ idxUse f) → let act := sortBy lane (executing f.h e)
    let place := fun fid p => off f e fid + p * 2048 + lane fid
    (∀ fid ∈ act, planeFaults e.g f.ty (off f e fid) = []) →
    tx.writes.globLines.length +
      (noteLines (act.map (fun fid => (List.range (planes f.ty)).map (fun p => place fid p / 256))).flatten tx.writes.scrLines).length ≤ 8 →
    ∃ t, exec (.stpl f) s = .next t ∧ StandAt e (fun _ => nextPc e.pc) t ∧ MemoryKept s t ∧ WritesBuffered s t e tx tx.writes.glob
      (act.foldl (fun m fid => (List.range (planes f.ty)).foldl (fun m p =>
        buffered m (place fid p) [planeByte (readPair (getFibre e.g fid) f.b.toNat).1 p]) m) tx.writes.scr))

/-- Word atomics (R122, R325 to R327): lanes that meet no fault send one request each, with the operation, the address and the operand; nothing in
memory changes before the home performs it. A lane meets no fault where no poison can be seen when it issues (DEDUCED log 35). -/
def Obligations.AtomicsComplete : Prop :=
  let sends := fun (i : F2 → Instr) (op : Nat) (uses : F2 → List RegUse) (b c : F2 → Fibre → Quad × Bool) =>
    ∀ (f : F2) s e, Issues false s e → Live e → e.sl.txn = none →
      let va := fun fid => globalAddr f (getFibre e.g fid)
      RegsOk e (executing f.h e) (dstUse (laneDst f.ty f.d) ++ [(f.a.toNat, 2)] ++ uses f) →
      (∀ fid ∈ executing f.h e, globalFaults s e.g.ctx (va fid).1 (accBytes f.ty) 3
        ((va fid).2 || (b f (getFibre e.g fid)).2 || (c f (getFibre e.g fid)).2) = [] ∧
        homeSeen s e.core e.g.ctx (iaOf s e.g.ctx (va fid).1 3) true = false) →
      logReady s e (executing f.h e) e.g.ctx ((sortBy lane (executing f.h e)).map (fun fid => iaOf s e.g.ctx (va fid).1 3 / 128)) = true →
      acquiresDone s e.gid (executing f.h e) = true → (f.ord ≠ 0 → flushDone s e.g (slabOf e.core) (executing f.h e) = true) →
      (f.ord.getLsbD 1 = true → (release e (executing f.h e) f.sc s).1 = true) →
      ∃ t, exec (i f) s = .next t ∧ StandAt e (fun _ => nextPc e.pc) t ∧ MemoryKept s t ∧
        Requests e (executing f.h e) (fun fid r => r.kind = .atomic op ∧ r.phase = .toHome ∧ r.va = (va fid).1 ∧
          r.data = (b f (getFibre e.g fid)).1 ∧ r.cmp = (c f (getFibre e.g fid)).1) { s with reqs := [] } t
  let one := fun (f : F2) => srcUse (dataSrc f.ty f.b) ++ idxUse f
  let data := fun (f : F2) (x : Fibre) => readSrc x (dataSrc f.ty f.b)
  let none_ := fun (_ : F2) (_ : Fibre) => ((0, false) : Quad × Bool)
  sends .aadd 0 one data none_ ∧ sends .amin 1 one data none_ ∧ sends .amax 2 one data none_ ∧ sends .aand 3 one data none_ ∧
  sends .aor 4 one data none_ ∧ sends .axor 5 one data none_ ∧ sends .axchg 6 one data none_ ∧
  sends .acas 7 (fun f => srcUse (dataSrc f.ty f.b) ++ srcUse (dataSrc f.ty f.c)) data (fun f x => readSrc x (dataSrc f.ty f.c)) ∧
  sends .ainc 8 idxUse none_ none_

/-- What an atomic writes (R325, R326): the new value of the operation, by opcode order; a failed compare-and-swap writes nothing. -/
def Obligations.AtomicResults : Prop :=
  ∀ (t : Ty) (old b c : Nat), old < 2 ^ t.bits → b < 2 ^ t.bits →
    atomicNew 0 t old b c = some ((old + b) % 2 ^ t.bits) ∧
    (∃ v, atomicNew 1 t old b c = some v ∧ (v = old ∨ v = b) ∧ getTy t v ≤ getTy t old ∧ getTy t v ≤ getTy t b) ∧
    (∃ v, atomicNew 2 t old b c = some v ∧ (v = old ∨ v = b) ∧ getTy t old ≤ getTy t v ∧ getTy t b ≤ getTy t v) ∧
    atomicNew 3 t old b c = some (old &&& b) ∧ atomicNew 4 t old b c = some (old ||| b) ∧ atomicNew 5 t old b c = some (old ^^^ b) ∧
    atomicNew 6 t old b c = some b ∧ (old = c → atomicNew 7 t old b c = some b) ∧ (old ≠ c → atomicNew 7 t old b c = none) ∧
    atomicNew 8 t old b c = some ((old + 1) % 2 ^ t.bits)

/-- Prefetch, region maintenance, exchange stores and fences (R116, R200, R317, R318, R321 to R324, R328, R329) retire once the stores, accesses or engines that they wait
for are done. None of them changes a byte of memory or of a live scratchpad bank. That an XST writes the shadow bank when it issues is
DESIGN CHOICE log 67. -/
def Obligations.OtherMemoryInstructionsComplete : Prop :=
  let quiet := fun (e : Env) (s t : State) => MemoryKept s t ∧ (getGang t e.gid).scratch = e.g.scratch
  let region := fun (i : F2 → Instr) => ∀ (f : F2) s e, Issues false s e → Live e →
    RegsOk e (executing f.h e) ([(f.a.toNat, 2), (f.b.toNat, 1)] ++ idxUse f) →
    (∀ r ∈ s.reqs, r.gang = e.gid → r.fid ∈ executing f.h e → r.kind ≠ .probe ∧ r.kind ≠ .store) →
    ∃ t, exec (i f) s = .next t ∧ StandAt e (fun _ => nextPc e.pc) t ∧ quiet e s t
  let exchange := fun (i : F2 → Instr) (counted : Bool) => ∀ (f : F2) s e, Issues false s e → e.sl.txn = none →
    RegsOk e (executing f.h e) ([(f.a.toNat, 1)] ++ srcUse (dataSrc f.ty f.b) ++ idxUse f ++ (if counted then [(f.d.toNat, 1)] else [])) →
    (∀ fid ∈ executing f.h e, exchangeFaults s e.g (shortAddr f (getFibre e.g fid)).1.toNat (accBytes f.ty)
      (if counted then some (readReg (getFibre e.g fid) f.d.toNat).1 else none) = []) →
    acquiresDone s e.gid (executing f.h e) = true →
    ∃ t, exec (i f) s = .next t ∧ quiet e s t ∧ ∀ fid g, executing f.h e = [fid] →
      exchangeTarget s e.g.crew (shortAddr f (getFibre e.g fid)).1.toNat = some g →
      (getGang t g).shadow = writeBytes (getGang s g).shadow ((shortAddr f (getFibre e.g fid)).1.toNat % 2 ^ 24)
        (bytesOfNat (accBytes f.ty) (readSrc (getFibre e.g fid) (dataSrc f.ty f.b)).1.toNat)
  let fence := fun (i : Instr) (h : Hdr) (ok : State → Env → List Nat → Prop) => ∀ s e, Issues false s e → Live e → e.sl.txn = none →
    (∀ fid ∈ executing h e, hasReq s e.gid fid = false ∧ (getFibre e.g fid).flushWait = none) →
    ok s e (executing h e) → ∃ t, exec i s = .next t ∧ StandAt e (fun _ => nextPc e.pc) t ∧ quiet e s t
  let released := fun (sc : BitVec 2) (s : State) (e : Env) (act : List Nat) => (release e act sc s).1 = true
  (∀ (f : F2) s e, Issues false s e → Live e → RegsOk e (executing f.h e) ([(f.a.toNat, 2)] ++ idxUse f) →
    (∀ sectors, logReady s e (executing f.h e) e.g.ctx sectors = true) → acquiresDone s e.gid (executing f.h e) = true →
    ∃ t, exec (.pref f) s = .next t ∧ StandAt e (fun _ => nextPc e.pc) t ∧ quiet e s t) ∧
  region .flushr ∧ region .invr ∧ exchange .xst false ∧ exchange .xstCount true ∧
  (∀ f : F2, fence (.fence f) f.h (fun s e act => f.ord.getLsbD 1 = true → released f.sc s e act)) ∧
  (∀ f : F2, fence (.fencex f) f.h (fun s e act =>
    let a := f.off.toNat % 8
    let b := f.off.toNat / 16 % 8
    let sc : BitVec 2 := if f.sc = 0 then 1 else f.sc
    (a = b → released f.sc s e act) ∧ (a = 0 → b ≠ 0 → released sc s e act) ∧ (a ≠ b → b ≠ 0 → engineBusy s e.gid a = false)))

/-! ### Transactions -/

/-- Opening a transaction and its levels (R146, R147, R156, R334, R335): TBEGIN outside one starts it for the executing fibres, with the
abort label, an empty read set and write set, and the others held; inside one, TBEGIN and TORELSE open a level up to the fourth, and a
fifth aborts with NEST. -/
def Obligations.TransactionsOpen : Prop :=
  let goodLabel := fun (f : F5) (s : State) (e : Env) =>
    targetTrap s e.g.ctx (target5 e.pc f) = none ∧ targetPage s e.g.ctx (target5 e.pc f) = none
  let seen := fun (f : F5) (s : State) (e : Env) (act : List Nat) => targetsSeen e act (fun _ => target5 e.pc f) (closedState e s)
  (∀ (f : F5) s e, Issues true s e → Plain f.h (closedEnv e) → executing f.h (closedEnv e) ≠ [] → goodLabel f (closedState e s) e →
    ∃ t, exec (.tbegin f) s = .next t ∧ MemoryKept (seen f s e (executing f.h (closedEnv e))) t ∧
      ∃ tx, (getSlot t e.key).txn = some tx ∧ tx.beginPc = e.pc ∧
      tx.abortPc = target5 e.pc f ∧ tx.levels.length = 1 ∧ tx.reads = [] ∧ tx.writes = TxnWrites.empty ∧
      tx.held = without e.fids (executing f.h (closedEnv e)) ∧ tx.active = executing f.h (closedEnv e)) ∧
  (∀ (f : F5) s e tx, Issues true s e → GuardsClean f.h (closedEnv e) → e.sl.txn = some tx → executing f.h (closedEnv e) ≠ [] →
    goodLabel f (closedState e s) e →
    (tx.levels.length < 4 → ∃ t, exec (.tbegin f) s = .next t ∧ ∃ l, (getSlot t e.key).txn = some { tx with levels := l :: tx.levels } ∧
      l.alt = none ∧ l.taken = false ∧ l.checkpoint = tx.writes) ∧
    (4 ≤ tx.levels.length → exec (.tbegin f) s = .next (abortTxn e.core e.key e.gid 5 0 (seen f s e (executing f.h (closedEnv e)))))) ∧
  (∀ (f : F5) s e tx, Issues true s e → e.sl.txn = some tx → e.fids.length = (pinned e.sl tx).length → goodLabel f (closedState e s) e →
    (tx.levels.length < 4 → ∃ t, exec (.torelse f) s = .next t ∧ ∃ l, (getSlot t e.key).txn = some { tx with levels := l :: tx.levels } ∧
      l.alt = some (target5 e.pc f) ∧ l.taken = false ∧ l.checkpoint = tx.writes) ∧
    (4 ≤ tx.levels.length → exec (.torelse f) s = .next (abortTxn e.core e.key e.gid 5 0 (seen f s e e.fids))))

/-- Closing, aborting and retrying (R151 to R160, R335). TEND of an inner level drops the level; the outermost TEND of a transaction whose
versions are as recorded and whose pages allow its writes commits: they leave for their homes together, and none stays open. TABORT aborts with its
cause. A TRETRY with an untaken alternative restores its checkpoint and goes to it. A final retry of an empty read set aborts with cause 13; of
another it begins again at once where a version has changed (that CO is 0 then is DEDUCED log 113), and otherwise registers every line and sleeps until a
write of one wakes it. Outside a transaction the five are ILLEGAL for the executing lanes. -/
def Obligations.TransactionsClose : Prop :=
  (∀ (f : F5) s e tx l1 l2 ls, Issues true s e → e.sl.txn = some tx → e.fids.length = (pinned e.sl tx).length →
    tx.levels = l1 :: l2 :: ls → ∃ t, exec (.tend f) s = .next t ∧ (getSlot t e.key).txn = some { tx with levels := l2 :: ls }) ∧
  (∀ (f : F5) s e tx l, Issues true s e → e.sl.txn = some tx → e.fids.length = (pinned e.sl tx).length → tx.levels = [l] →
    let r := release (closedEnv e) (pinned e.sl tx) 1 (closedState e s)
    r.1 = true → tx.writes.globPoison = [] → tx.writes.scrPoison = [] →
    validationServed r.2 (slabOf e.core) tx = true → locksServed r.2 (slabOf e.core) (commitMsgs e.g.ctx 0 tx.writes) = true → validates r.2 e.gid tx = true →
    let looks := commitLooks r.2 e.g.ctx r.2.ids tx.writes
    (∀ x ∈ looks, ∃ lf, x.2 = .ok lf ∧ commitHolds r.2 (lf.pa / 256) = false) →
    ∃ t, exec (.tend f) s = .next t ∧ (getSlot t e.key).txn = none ∧ MemoryKept (walkLooks looks r.2) t ∧
      (∀ x ∈ looks, ∃ m ∈ (getSlab t (slabOf e.core)).inq,
        m.sector = x.1.sector ∧ m.mask = x.1.mask ∧ m.data = x.1.data ∧ m.kind = .commit r.2.ids) ∧
      (tx.writes.scrLines = [] →
        ∀ fid ∈ pinned e.sl tx, (kget? e.g.fibres fid).isSome = true → (fibreAt t e.gid fid).pc = nextPc e.pc)) ∧
  (∀ (f : F5) s e tx, Issues true s e → GuardsClean f.h (closedEnv e) → executing f.h (closedEnv e) ≠ [] → e.sl.txn = some tx →
    exec (.tabort f) s = .next (abortTxn e.core e.key e.gid 10 f.mod.toNat (noteIssue e 5 (closedState e s))) ∧
    (∀ l ls, dropToAlternative tx.levels = l :: ls → ∀ i ∈ [Instr.tretry f, Instr.tretryt f], ∃ t, exec i s = .next t ∧ MemoryKept s t ∧
      (∃ tx', (getSlot t e.key).txn = some tx' ∧ tx'.writes = l.checkpoint ∧ tx'.levels = { l with taken := true } :: ls ∧
        tx'.reads = tx.reads) ∧
      ∀ fid ∈ pinned e.sl tx, (kget? e.g.fibres fid).isSome = true → ∀ a, l.alt = some a → (fibreAt t e.gid fid).pc = a) ∧
    (dropToAlternative tx.levels = [] → tx.reads = [] → ∀ i ∈ [Instr.tretry f, Instr.tretryt f],
      exec i s = .next (abortTxn e.core e.key e.gid 13 0 (noteIssue e 5 (closedState e s))))) ∧
  (∀ (f : F5) s e tx, Issues true s e → GuardsClean f.h (closedEnv e) → executing f.h (closedEnv e) ≠ [] → e.sl.txn = some tx →
    dropToAlternative tx.levels = [] → tx.reads ≠ [] → let u := noteIssue e 5 (closedState e s)
    validationServed u (slabOf e.core) tx = true →
    (validates u e.gid tx = false ∨ readsFenced u tx = true → ∀ i ∈ [Instr.tretry f, Instr.tretryt f], ∃ t, exec i s = .next t ∧
      MemoryKept s t ∧ (getSlot t e.key).txn = none ∧ ∀ fid ∈ pinned e.sl tx, (kget? e.g.fibres fid).isSome = true →
        (fibreAt t e.gid fid).pc = tx.beginPc ∧ (fibreAt t e.gid fid).txstatus = txWord 0 false 0 12) ∧
    (validates u e.gid tx = true → readsFenced u tx = false → let first := getFibre e.g ((sortBy lane (executing f.h (closedEnv e))).headD 0)
      ∀ x ∈ [(Instr.tretry f, none), (.tretryt f, some (first.waitlimit.toNat + now s))], ∃ t, exec x.1 s = .next t ∧ MemoryKept s t ∧
        (getSlot t e.key).txn = none ∧
        (∀ fid ∈ pinned e.sl tx, fid ∉ (getSlot t e.key).fids ∧ ((kget? e.g.fibres fid).isSome = true → (fibreAt t e.gid fid).pc = tx.beginPc)) ∧
        (pinned e.sl tx ≠ [] → ∃ b ∈ (getCore t e.core).table, b.gang = e.gid ∧ b.fids = pinned e.sl tx ∧ b.wait = .asleep s.ids) ∧
        ∃ p, kget? t.sleepers s.ids = some p ∧ p.gang = e.gid ∧ p.fids = pinned e.sl tx ∧ p.beginPc = tx.beginPc ∧ p.abortPc = tx.abortPc ∧
          p.reads = tx.reads ∧ p.limit = x.2 ∧ ∀ r ∈ tx.reads, ∃ w ∈ t.wakes, w.who = .wave s.ids ∧
            w.place = (if r.scratch then .cluster (clusterOf e.core) else .home (homeOf (r.line * 256))) ∧
            (w.line = some r.line ∨ (w.line = none ∧ p.coarse = true)))) ∧
  (∀ (s : State) sid p home line, kget? s.sleepers sid = some p → (kget? s.gangs p.gang).isSome = true →
    (∀ q ∈ s.sleepers, q.1 ≠ sid → q.2.gang ≠ p.gang) →
    (∃ w ∈ s.wakes, w.who = .wave sid ∧ w.place = .home home ∧ (w.line = none ∨ w.line = some line)) → let t := wakeLine home line s
    kget? t.sleepers sid = none ∧ (∀ w ∈ t.wakes, w.who ≠ .wave sid) ∧ ∀ fid ∈ p.fids, (kget? (getGang s p.gang).fibres fid).isSome = true →
      (fibreAt t p.gang fid).pc = p.beginPc ∧ (fibreAt t p.gang fid).txstatus = txWord 0 p.coarse 0 12) ∧
  (∀ (f : F5) s e, Issues true s e → CanTrap s e → GuardsClean f.h (closedEnv e) → executing f.h (closedEnv e) ≠ [] →
    ∀ i ∈ [Instr.tend f, .tabort f, .tretry f, .tretryt f, .torelse f], ∃ t, exec i s = .next t ∧
      Trapped (closedEnv e) (closedState e s) t 2 (laneMask (executing f.h (closedEnv e))) (illegalVal i))

/-- What an abort does (R149, R153): no byte of memory or scratchpad changes, the transaction is closed, its fibres stand at the abort
label, TXSTATUS holds the cause, the code and the depth, and their registers, predicates and CSRs are as they were. The join sets opened
in the transaction are left: the spec does not say so (DEDUCED log 50). -/
def Obligations.AbortDiscardsWrites : Prop :=
  ∀ s core key gid cause code tx, (getSlot s key).txn = some tx →
    let t := abortTxn core key gid cause code s
    MemoryKept s t ∧ (getSlot t key).txn = none ∧ (getGang t gid).scratch = (getGang s gid).scratch ∧
    ∀ fid ∈ without (getSlot s key).fids tx.held, (kget? (getGang s gid).fibres fid).isSome = true →
      fibreAt t gid fid = { fibreAt s gid fid with
        pc := tx.abortPc, joins := without (fibreAt s gid fid).joins tx.sets
        txstatus := txWord code ((fibreAt s gid fid).txstatus.getLsbD 7) tx.levels.length cause }

/-- Instructions that may not run in a transaction, and whether they wait for every window (R150, R240). -/
def Obligations.ForbiddenInTransaction : Prop :=
  let aborts := fun (i : Instr) (h : Hdr) => ∀ s e tx, Issues false s e → e.sl.txn = some tx → executing h e ≠ [] →
    exec i s = .next (abortTxn e.core e.key e.gid 6 0 s)
  let waiting := fun (i : Instr) (h : Hdr) => ∀ s e tx, Issues true s e → e.sl.txn = some tx → executing h (closedEnv e) ≠ [] →
    exec i s = .next (abortTxn e.core e.key e.gid 6 0 (closedState e s))
  (∀ f : F3, ∀ i ∈ [Instr.bar f, .barx f, .spawn f, .quit f, .yield f], waiting i f.h) ∧
  (∀ f : F2, ∀ i ∈ [Instr.xst f, .xstCount f, .aadd f, .amin f, .amax f, .aand f, .aor f, .axor f, .axchg f, .acas f, .ainc f, .fence f,
    .fencex f], aborts i f.h) ∧
  (∀ f : F4, ∀ i ∈ [Instr.mxcfg f, .mxop f, .mxdrain f, .cpy f, .cpyp f, .cpyg f, .cpys f, .cpycan f, .hchain f, .hsend f, .hsendv f,
    .hcast f, .hdrain f, .hfree f], aborts i f.h) ∧
  (∀ f : F5, ∀ i ∈ [Instr.swinit f, .swexpect f, .swarrive f, .taskpost f, .tasktake f, .taskdone f, .sbset f, .qkeyParent f,
    .qkeyChild f, .qkeyNbr f, .qfind f, .qowner f, .qrefine f, .qcoarsen f, .qcost f, .qrebal f, .qgen f, .qsweep f], aborts i f.h)

/-! ### Sync words, task queues, quarries -/

/-- Sync words (R163, R164, R333, R336, R337): SWINIT, SWEXPECT and SWARRIVE of lanes whose words can be used retire and write them, here for
one executing fibre; a SWARRIVE counts one arrival and ends the phase when both counts are reached. -/
def Obligations.SyncInstructionsComplete : Prop :=
  let works := fun (i : F5 → Instr) (srcs : F5 → List Reg) (new : F5 → Fibre → Quad → Quad) =>
    ∀ (f : F5) s e, Issues false s e → Plain f.h e → RegsOk e (executing f.h e) ((srcs f).map (fun r => (r.toNat, 1))) →
      SourcesClean f.h e (executing f.h e) ((srcs f).map (fun r => Src.reg r.toNat)) →
      (∀ fid ∈ executing f.h e, syncFaults e.g (shortAddr5 f (getFibre e.g fid)) = []) →
      acquiresDone s e.gid (executing f.h e) = true → (f.ord ≠ 0 → flushDone s e.g (slabOf e.core) (executing f.h e) = true) →
      (f.ord.getLsbD 1 = true → (scratchRelease e (sortBy lane (executing f.h e)) f.sc s).1 = true) →
      ∃ t, exec (i f) s = .next t ∧ MemoryKept s t ∧ ∀ fid, executing f.h e = [fid] →
        (getGang t e.gid).scratch = writeBytes e.g.scratch (shortAddr5 f (getFibre e.g fid))
          (bytesOfNat 16 (new f (getFibre e.g fid) (syncRead s e.gid (shortAddr5 f (getFibre e.g fid)))).toNat)
  works .swinit (fun f => [f.a, f.b, f.c]) (fun f x w => (0 : Word) ++ (readReg x f.c.toNat).1 ++ (0 : BitVec 16) ++
    ((readReg x f.b.toNat).1.truncate 16 : BitVec 16) ++ w.extractLsb' 0 32) ∧
  works .swexpect (fun f => [f.a, f.b]) (fun f x w => w.extractLsb' 96 32 ++
    BitVec.ofNat 32 (min ((w.extractLsb' 64 32).toNat + (readReg x f.b.toNat).1.toNat) (2 ^ 32 - 1)) ++ w.extractLsb' 0 64) ∧
  works .swarrive (fun f => [f.a]) (fun _ _ w => endPhase (w.extractLsb' 64 64 ++
    BitVec.ofNat 16 (min ((w.extractLsb' 48 16).toNat + 1) (2 ^ 16 - 1)) ++ w.extractLsb' 0 48))

/-- The end of a phase (R164): when the arrivals and the bytes have reached their targets the generation rises by one and both counts are 0;
the targets stay; otherwise the word is as it was. -/
def Obligations.SyncPhaseEnds : Prop :=
  ∀ (gen bt bc : Word) (at_ ac : BitVec 16), endPhase (bc ++ bt ++ ac ++ at_ ++ gen) =
    if at_ ≤ ac ∧ bt ≤ bc then (0 : Word) ++ bt ++ (0 : BitVec 16) ++ at_ ++ (gen + 1) else bc ++ bt ++ ac ++ at_ ++ gen

/-- Task queues and SBSET (R122, R338 to R342): TASKPOST, TASKTAKE and TASKDONE of lanes that meet no fault, and no poison that can be seen when they
issue (DEDUCED log 35), send one request each to the queue's header; SBSET marks its fibres once everything before it is performed at scope p. -/
def Obligations.TaskQueueInstructionsComplete : Prop :=
  let va := fun (f : F5) (e : Env) (fid : Nat) => globalAddr5 f (getFibre e.g fid)
  let queue := fun (i : F5 → Instr) (kind : ReqKind) (image result : Bool) => ∀ (f : F5) s e, Issues false s e → Live e → Plain f.h e →
    RegsOk e (executing f.h e) ((if result then [(f.d.toNat, 1)] else []) ++ [(f.a.toNat, 2)] ++ (if image then [(f.b.toNat, 1)] else [])) →
    SourcesClean f.h e (executing f.h e) ([.pair f.a.toNat] ++ if image then [.reg f.b.toNat] else []) →
    (∀ fid ∈ executing f.h e, (va f e fid).toNat % 64 = 0 ∧
      (∃ ia, checkWindow s e.g.ctx (va f e fid) pathVec 3 = .ok ia ∧ homeSeen s e.core e.g.ctx ia true = false) ∧
      (image = true → let o := (readReg (getFibre e.g fid) f.b.toNat).1.toNat
        o % 64 = 0 ∧ inNeed e.g o 64 = true ∧ (kind = .post → scratchPoisonAt e.g o = false ∧
          regionStores s e fid (bytesOfNat 64 (readLE e.g.scratch o 64)) = false))) →
    logReady s e (executing f.h e) e.g.ctx ((sortBy lane (executing f.h e)).map (fun fid => iaOf s e.g.ctx (va f e fid) 3 / 128)) = true →
    acquiresDone s e.gid (executing f.h e) = true → (f.ord ≠ 0 → flushDone s e.g (slabOf e.core) (executing f.h e) = true) →
    (f.ord.getLsbD 1 = true → (release e (executing f.h e) f.sc s).1 = true) →
    ∃ t, exec (i f) s = .next t ∧ StandAt e (fun _ => nextPc e.pc) t ∧ MemoryKept s t ∧
      Requests e (executing f.h e) (fun fid r => r.kind = kind ∧ r.va = va f e fid) { s with reqs := [] } t
  queue .taskpost .post true true ∧ queue .tasktake .take true true ∧ queue .taskdone .done false false ∧
  (∀ (f : F5) s e, Issues false s e → Live e → Plain f.h e →
    (release e (executing f.h e) 2 s).1 = true → ∃ t, exec (.sbset f) s = .next t ∧ StandAt e (fun _ => nextPc e.pc) t ∧ MemoryKept s t ∧
      ∀ fid ∈ executing f.h e, (fibreAt t e.gid fid).sbset = true)

/-- Quarry instructions (R125, R344 to R351): with a bound quarry, QKEY writes its key and status at once; the instructions with a place in
the quarry order retire and hand one step for each executing fibre to the quarry, by rising lane, once their release is performed; a
QSWEEP takes its place in that order, and at its place, when its headers are good, retires and starts its sweeps with the live blocks: that it takes
its place when it issues, and that its fibres wait for that step, is DESIGN CHOICE log 125. A QKEY whose B lies inside the pair D is left out. -/
def Obligations.QuarryInstructionsComplete : Prop :=
  let key := fun (i : F5 → Instr) (form : Nat) => ∀ (f : F5) s e q, Issues false s e → Live e → Plain f.h e →
    RegsOk e (executing f.h e) [(f.d.toNat, 2), (f.b.toNat, 1), (f.a.toNat, 2)] → f.b ≠ f.d → f.b.toNat ≠ f.d.toNat + 1 →
    SourcesClean f.h e (executing f.h e) [.pair f.a.toNat] → boundQuarry s e.g = some q →
    ∃ t, exec (i f) s = .next t ∧ StandAt e (fun _ => nextPc e.pc) t ∧ OutsideKept s t ∧ ∀ fid ∈ executing f.h e,
      let r := qkey (getQuarry s q).dim (getQuarry s q).depth form (f.mod.toNat / 4 % 8) (readPair (getFibre e.g fid) f.a.toNat).1
      readPair (fibreAt t e.gid fid) f.d.toNat = (r.1, false) ∧ readReg (fibreAt t e.gid fid) f.b.toNat = (BitVec.ofNat 32 r.2, false)
  let steps := fun (i : F5 → Instr) (kind : QKind) (uses : F5 → List RegUse) (srcs : F5 → List Src) (arg : F5 → Fibre → W64) =>
    ∀ (f : F5) s e q, Issues false s e → Plain f.h e → RegsOk e (executing f.h e) (uses f) →
      SourcesClean f.h e (executing f.h e) (srcs f) → boundQuarry s e.g = some q → executing f.h e ≠ [] →
      (release e (sortBy lane (executing f.h e)) 1 s).1 = true →
      ∃ t wid, exec (i f) s = .next (serveQuarry q t) ∧ MemoryKept s t ∧
        (getQuarry t q).ops = (getQuarry s q).ops ++ (sortBy lane (executing f.h e)).map (fun fid =>
          QOp.instr kind e.gid fid wid f.d.toNat f.b.toNat (readPair (getFibre e.g fid) f.a.toNat).1 (arg f (getFibre e.g fid))
            e.g.kernel.version)
  let pair := fun (f : F5) => [Src.pair f.a.toNat]
  let three := fun (f : F5) => [(f.d.toNat, 2), (f.b.toNat, 1), (f.a.toNat, 2)]
  let word := fun (f : F5) (x : Fibre) => (readReg x f.c.toNat).1.zeroExtend 64
  key .qkeyParent 0 ∧ key .qkeyChild 1 ∧ key .qkeyNbr 2 ∧
  steps .qfind .find (fun f => [(f.d.toNat, 4), (f.b.toNat, 1), (f.a.toNat, 2), (f.c.toNat, 1)]) (fun f => [.pair f.a.toNat, .reg f.c.toNat]) word ∧
  steps .qowner .owner (fun f => [(f.d.toNat, 1), (f.b.toNat, 1), (f.a.toNat, 2), (f.c.toNat, 1)])
    (fun f => [.pair f.a.toNat, .reg f.c.toNat]) word ∧
  steps .qrefine .refine three pair word ∧ steps .qcoarsen .coarsen three pair word ∧
  steps .qcost .cost (fun f => [(f.b.toNat, 1), (f.a.toNat, 2), (f.c.toNat, 2)]) (fun f => [.pair f.a.toNat, .pair f.c.toNat])
    (fun f x => (readPair x f.c.toNat).1) ∧
  steps .qrebal .rebal (fun f => [(f.d.toNat, 8), (f.b.toNat, 1)]) (fun _ => []) word ∧
  steps .qgen .gen (fun f => [(f.d.toNat, 2)]) (fun _ => []) word ∧
  (∀ (f : F5) s e q, Issues false s e → Plain f.h e → RegsOk e (executing f.h e) [(f.a.toNat, 2), (f.c.toNat, 2)] →
    SourcesClean f.h e (executing f.h e) [.pair f.a.toNat, .pair f.c.toNat] → boundQuarry s e.g = some q → executing f.h e ≠ [] →
    (∀ fid ∈ executing f.h e, (readPair (getFibre e.g fid) f.c.toNat).1.toNat % 8 = 0) →
    let act := sortBy lane (executing f.h e)
    let header := fun fid => (readPair (getFibre e.g fid) f.a.toNat).1
    let place := QOp.sweep e.gid act ((act.map header).filter (fun h => h.toNat % 256 == 0))
    let r := release e act 2 s
    ((getQuarry s q).ops.contains place = false → r.1 = true →
      exec (.qsweep f) s = .next (serveQuarry q (pushQOp q place (dropSweeps e.gid act r.2)))) ∧
    (∀ checks bs s1, (getQuarry s q).stall = none → (getQuarry s q).ops.head? = some place →
      sweepRead q place e.g (act.map (fun fid => (fid, header fid))) s = .ok ((checks, bs), s1) →
      (∀ c ∈ checks, ∃ k, c.2.2 = .ok k) →
      ∃ t, exec (.qsweep f) s = .next (serveQuarry q (quarryAcquire q e.gid t)) ∧ MemoryKept s1 t ∧
        (Live e → StandAt e (fun _ => nextPc e.pc) t) ∧
        ∀ fid va k, checks = [(fid, va, .ok k)] → neverFits s1 k = false → bs ≠ [] → ∃ l, kget? t.launches s1.ids = some l ∧
          l.kernel = k ∧ l.sweep = true ∧ l.blocks = bs ∧ l.left = bs.length ∧ l.ctx = e.g.ctx))

/-! ### Engines -/

/-- The matrix instructions and the sends that share their queue (R168 to R175, R182, R191, R356 to R359). An MXCFG whose word keeps R172
answers 1 (BUSY) in D and claims nothing when another gang holds a tile it asks for, and otherwise answers 0 (OK) in D and gives the gang
the configuration and the tiles; the others, when their block passes every check, enter the gang's queue. Where no fibre executes they have no effect (R168). -/
def Obligations.MatrixInstructionsComplete : Prop :=
  let queues := fun (i : F4 → Instr) (checks : Env → Nat → List Byte → State → List Check) (isKind : Nat → List Byte → MxKind → Prop) =>
    ∀ (f : F4) s e a rest, Issues false s e → e.sl.txn = none → sortBy lane (executing f.h e) = a :: rest →
      RegsOk e (executing f.h e) [(f.a.toNat, 1)] → SourcesClean f.h e [a] [.reg f.a.toNat] → acquiresDone s e.gid (executing f.h e) = true →
      queueRoom e s = true → ∀ off, off = (readReg (getFibre e.g a) f.a.toNat).1.toNat → off % 64 = 0 → inNeed e.g off 64 = true →
      (∀ c ∈ checks e off (snapshot e.g off 64) s, c.1 = false) →
      ∃ t op, exec (i f) s = .next t ∧ MemoryKept s t ∧ op.gang = e.gid ∧ op.fids = a :: rest ∧
        isKind off (snapshot e.g off 64) op.kind ∧
        kget (getCluster t (clusterOf e.core)).queues (e.g.mxQueue.getD 0) [] =
          kget (getCluster s (clusterOf e.core)).queues (e.g.mxQueue.getD 0) [] ++ [op]
  let mul := fun (_ : Nat) (bs : List Byte) (k : MxKind) => ∃ cfg, k = .mul (byteAt bs 8) (field bs 0 4) (field bs 4 4) ((byteAt bs 9).testBit 0)
    (syncOff ((byteAt bs 9).testBit 1) (field bs 12 4)) cfg
  let drain := fun (off : Nat) (bs : List Byte) (k : MxKind) => ∃ sc, k = .drain (drainBlk off bs sc)
  let drainOk := fun (disps : List Nat) (e : Env) (off : Nat) (bs : List Byte) (s : State) => drainChecks e.g off bs disps false
    (e.g.mxCfg.isNone || decide (15 < byteAt bs 0) || !claimed (getCluster s (clusterOf e.core)) e.gid (byteAt bs 0))
  queues .mxop mxopChecks mul ∧ queues .mxdrain (drainOk [0, 1, 2, 3, 4]) drain ∧ queues .hsend (drainOk [3]) drain ∧
  queues .hcast (drainOk [4]) drain ∧
  (∀ (f : F4) s e a rest q cfg, Issues false s e → e.sl.txn = none → sortBy lane (executing f.h e) = a :: rest →
    RegsOk e (executing f.h e) [(f.d.toNat, 1), (f.a.toNat, 2)] → SourcesClean f.h e [a] [.pair f.a.toNat] →
    acquiresDone s e.gid (executing f.h e) = true →
    let cl := getCluster s (clusterOf e.core)
    let w := (readPair (getFibre e.g a) f.a.toNat).1
    let answers := fun t v => ∃ s1, s1.ids = s.ids ∧ t = retireStatus f e 2 (a :: rest) v s1
    let asked := fun n => n < 16 ∧ w.getLsbD (48 + n) = true ∧ claimed cl e.gid n = false
    (e.g.mxQueue = some q ∨ e.g.mxQueue = none ∧ freeQueue cl = some q) → mxCfgOf w = some cfg →
    ((∃ n g, asked n ∧ (getTile cl n).holder = some g ∧ g ≠ e.gid) → ∃ t, exec (.mxcfg f) s = .next t ∧ answers t 1 ∧ MemoryKept s t ∧
      (getCluster t (clusterOf e.core)).tiles = cl.tiles ∧ (getGang t e.gid).mxCfg = e.g.mxCfg) ∧
    ((∀ n, asked n → (getTile cl n).holder = none ∧ (getTile cl n).releasing = false) → ∃ t, exec (.mxcfg f) s = .next t ∧ answers t 0 ∧ MemoryKept s t ∧
      (getGang t e.gid).mxCfg = some cfg ∧ (getGang t e.gid).mxQueue = some q ∧
      (getCluster t (clusterOf e.core)).tiles = claimTiles s (clusterOf e.core) e.gid (w.extractLsb' 48 16))) ∧
  (∀ (f : F4) s e, Issues false s e → Live e → e.sl.txn = none → executing f.h e = [] →
    ∀ i ∈ [Instr.mxcfg f, .mxop f, .mxdrain f, .cpy f, .cpyp f, .cpyg f, .cpys f, .cpycan f, .hchain f, .hsend f, .hcast f, .hdrain f, .hfree f],
      ∃ t, exec i s = .next t ∧ StandAt e (fun _ => nextPc e.pc) t ∧ OutsideKept s t)

/-- The copy instructions (R203, R204, R210, R355, R363, R364): a command whose block passes every check enters its core's queue behind the
others, with its snapshot and its identifier (DEDUCED log 92, DESIGN CHOICE log 119); CPYCAN of a command that is queued or running for the gang answers 0
and cancels it, one that the driver has ended and that still settles among them, and of another answers 1 or 2 (DESIGN CHOICE log 96). -/
def Obligations.CopyInstructionsComplete : Prop :=
  let enters := fun (i : F4 → Instr) (k : CopyKind) =>
    ∀ (f : F4) s e a rest, Issues false s e → e.sl.txn = none → sortBy lane (executing f.h e) = a :: rest →
      RegsOk e (executing f.h e) [(f.d.toNat, 1), (f.a.toNat, 1)] → SourcesClean f.h e [a] [.reg f.a.toNat] →
      acquiresDone s e.gid (executing f.h e) = true → (getCore s e.core).copyq.cmds.length < 96 →
      ∀ off, off = (readReg (getFibre e.g a) f.a.toNat).1.toNat → off % 64 = 0 → inNeed e.g off 64 = true →
      (∀ c ∈ copyChecks k e off (snapshot e.g off 64) s, c.1 = false) →
      ∃ t cmd, exec (i f) s = .next t ∧ MemoryKept s t ∧ (getGang t e.gid).scratch = e.g.scratch ∧
        (getCore t e.core).copyq.cmds = (getCore s e.core).copyq.cmds ++ [cmd] ∧ cmd.kind = k ∧ cmd.gang = e.gid ∧ cmd.block = off ∧
        cmd.bytes = snapshot e.g off 64 ∧ cmd.started = false ∧ cmd.ident = copyIdent e.core (getCore s e.core).copyq
  enters .cpy .cpy ∧ enters .cpyp .cpyp ∧ enters .cpyg .cpyg ∧ enters .cpys .cpys ∧
  (∀ (f : F4) s e a rest, Issues false s e → e.sl.txn = none → sortBy lane (executing f.h e) = a :: rest →
    RegsOk e (executing f.h e) [(f.d.toNat, 1), (f.b.toNat, 1)] → SourcesClean f.h e [a] [.reg f.b.toNat] →
    acquiresDone s e.gid (executing f.h e) = true →
    let ident := (readReg (getFibre e.g a) f.b.toNat).1
    ((∀ c ∈ (getCore s e.core).copyq.cmds, ¬ (c.ident = ident ∧ c.gang = e.gid)) →
      exec (.cpycan f) s = .next (retireStatus f e 3 (a :: rest)
        (if (getCore s e.core).copyq.recent.any (fun r => r.1 == ident && r.2.1 == e.gid) then 1 else 2) s)) ∧
    (∀ c, (getCore s e.core).copyq.cmds.find? (fun c => c.ident == ident && c.gang == e.gid) = some c →
      exec (.cpycan f) s = .next (stopCopy e.core c (c.ending.getD 0 ||| 2) (retireStatus f e 3 (a :: rest) 0 s))))

/-- The haul instructions and SPXG (R188 to R197, R214, R359 to R362, R365). HCHAIN of a free handle arms it for the gang, unpublished;
HSENDV of one fibre to a handle that takes it makes one packet; HDRAIN starts the drain of a bin and HFREE lets go of a handle that the
gang has armed. SPXG packs the values of the matched pairs k, k + 1, … into the two halves of its result, and zeros where there is no pair. -/
def Obligations.HaulInstructionsComplete : Prop :=
  let block := fun (f : F4) (s : State) (e : Env) (a : Nat) (rest : List Nat) (dst : Bool)
      (checks : Env → Nat → List Byte → State → List Check) (off : Nat) =>
    Issues false s e ∧ e.sl.txn = none ∧ sortBy lane (executing f.h e) = a :: rest ∧
    RegsOk e (executing f.h e) ((if dst then [(f.d.toNat, 1)] else []) ++ [(f.a.toNat, 1)]) ∧
    SourcesClean f.h e [a] [.reg f.a.toNat] ∧ acquiresDone s e.gid (executing f.h e) = true ∧
    off = (readReg (getFibre e.g a) f.a.toNat).1.toNat ∧ off % 64 = 0 ∧ inNeed e.g off 64 = true ∧
    (∀ c ∈ checks e off (snapshot e.g off 64) s, c.1 = false)
  (∀ (f : F4) s e a rest off, block f s e a rest true chainChecks off →
    let bs := snapshot e.g off 64
    ((getHandle s e.g.crew (byteAt bs 0)).st ≠ .free → exec (.hchain f) s = .next (retireStatus f e 4 (a :: rest) 1 s)) ∧
    ((getHandle s e.g.crew (byteAt bs 0)).st = .free → ∃ t, exec (.hchain f) s = .next t ∧ MemoryKept s t ∧
      let h := getHandle t e.g.crew (byteAt bs 0)
      h.st = .armed ∧ h.published = false ∧ h.gang = e.gid ∧ h.base = field bs 4 4 ∧ h.nb = byteAt bs 1 ∧ h.binexp = field bs 8 4 ∧
      h.received = [] ∧ ∀ n < byteAt bs 1 * 65536, readByte (getGang t e.gid).scratch (field bs 4 4 + n) = 0)) ∧
  (∀ (f : F4) s e fid, Issues false s e → Live e → e.sl.txn = none → executing f.h e = [fid] →
    RegsOk e [fid] [(f.a.toNat, 4), (f.b.toNat, 1)] → SourcesClean f.h e [fid] [.reg f.b.toNat, .quad f.a.toNat] →
    acquiresDone s e.gid [fid] = true →
    let n := (readReg (getFibre e.g fid) f.b.toNat).1.toNat
    n < 2 ^ 22 → canSend s e.gid (n % 64) (n / 64 % 16) = true → ∃ t p, exec (.hsendv f) s = .next t ∧ MemoryKept s t ∧
      StandAt e (fun _ => nextPc e.pc) t ∧ t.packets = s.packets ++ [p] ∧ p.handle = n % 64 ∧ p.bin = n / 64 % 16 ∧
      p.first = n / 1024 % 4096 ∧ p.words = [(readQuad (getFibre e.g fid) f.a.toNat).1] ∧ p.crew = e.g.crew) ∧
  (∀ (f : F4) s e a rest off, block f s e a rest false (fun e off bs s => drainChecks e.g off bs [0, 1] true
      (decide (64 ≤ byteAt bs 0) || !armedBy s e.g e.gid (byteAt bs 0 % 64) ||
        decide ((getHandle s e.g.crew (byteAt bs 0 % 64)).nb ≤ byteAt bs 4))) off →
    ∃ t, exec (.hdrain f) s = .next t ∧ MemoryKept s t ∧ ∃ d, kget? t.drains s.ids = some d ∧ d.gang = e.gid ∧ d.haulPath = true ∧
      d.blk = drainBlk off (snapshot e.g off 64) none) ∧
  (∀ (f : F4) s e a rest, Issues false s e → e.sl.txn = none → sortBy lane (executing f.h e) = a :: rest →
    (guard f.h (getFibre e.g a)).2 = false → acquiresDone s e.gid (executing f.h e) = true →
    armedBy s e.g e.gid (f.mod.toNat % 64) = true → (getHandle s e.g.crew (f.mod.toNat % 64)).published = true →
    ∃ t, exec (.hfree f) s = .next t ∧ MemoryKept s t ∧ ((getHandle t e.g.crew (f.mod.toNat % 64)).st = .draining ∨
      getHandle t e.g.crew (f.mod.toNat % 64) = Handle.init)) ∧
  (∀ (f : F4) s e, Issues false s e → Live e → e.sl.txn = none →
    RegsOk e (executing f.h e) [(f.d.toNat, 2), (f.a.toNat, 2), (f.b.toNat, 2), (f.c.toNat, 1)] →
    SourcesClean f.h e (executing f.h e) [.pair f.a.toNat, .pair f.b.toNat, .reg f.c.toNat] →
    acquiresDone s e.gid (executing f.h e) = true →
    (∀ fid ∈ executing f.h e, ∀ p ∈ spxgPairs ((readPair (getFibre e.g fid) f.a.toNat).1.truncate 32)
        (((readPair (getFibre e.g fid) f.a.toNat).1 >>> 32).truncate 32) ((readPair (getFibre e.g fid) f.b.toNat).1.truncate 32)
        (((readPair (getFibre e.g fid) f.b.toNat).1 >>> 32).truncate 32) (readReg (getFibre e.g fid) f.c.toNat).1 (accBytes f.ty),
      inNeed e.g p.2.1 (accBytes f.ty) = true ∧ inNeed e.g p.2.2 (accBytes f.ty) = true) →
    ∃ t, exec (.spxg f) s = .next t ∧ StandAt e (fun _ => nextPc e.pc) t ∧ MemoryKept s t ∧
      Requests e (executing f.h e) (fun fid r => r.phase = .reply ∧ r.d = f.d.toNat ∧ (f.ty ∈ [Ty.i8, .i16, .i32] →
        let x := getFibre e.g fid
        let n := accBytes f.ty
        let a : Word := (readPair x f.a.toNat).1.truncate 32
        let b : Word := ((readPair x f.a.toNat).1 >>> 32).truncate 32
        let oa := (readPair x f.b.toNat).1.toNat % 2 ^ 32
        let ob := (readPair x f.b.toNat).1.toNat / 2 ^ 32
        let below := fun (w : Word) (j : Nat) => ((List.range j).filter (fun i => w.getLsbD i)).length
        ∀ q < 4 / n, let pair := ((List.range 32).filter (fun i => (a &&& b).getLsbD i))[(readReg x f.c.toNat).1.toNat + q]?
          r.value.toNat / 2 ^ (8 * n * q) % 2 ^ (8 * n) =
            (match pair with | some j => scratchRead s e.gid (oa + n * below a j) n | none => 0) ∧
          r.value.toNat / 2 ^ (32 + 8 * n * q) % 2 ^ (8 * n) =
            (match pair with | some j => scratchRead s e.gid (ob + n * below b j) n | none => 0))) s t)

/-! ### Events of waves and of the dispatcher -/

/-- Faults of fetch and asynchronous traps (R222, R224, R234, R235, R237): an undecodable slot is ILLEGAL for every lane with bits 95:32 of its
word, a parity mismatch is FETCHPAR with the line's VA, a fault at the line's home parks the wave and is reported, and the oldest pending
cause, with the others of one reflected report, is taken with bit 8 of TRAPCAUSE set. -/
def Obligations.FetchEventsComplete : Prop :=
  (∀ (w : BitVec 96) s e, CanTrap s e → Issues false s e → ∃ t, exec (.illegalInstruction w) s = .next t ∧
    Trapped e s t 2 (laneMask e.fids) (w.extractLsb' 32 64)) ∧
  (∀ s e, CanTrap s e → Issues false s e → ∃ t, exec .fetchParityMismatch s = .next t ∧ Trapped e s t 1 (laneMask e.fids) (lineOf e.pc)) ∧
  (∀ s e why, envOf s = some e → e.sl.handler = none → e.sl.txn = none → fetchNext e s = .page why →
    ∃ t, exec .fetchPageFault s = .next t ∧ MemoryKept s t ∧ (∀ fid ∈ e.fids, fid ∉ (getSlot t e.key).fids ∧
        ((kget? e.g.fibres fid).isSome = true → (fibreAt t e.gid fid).park = .fault s.seq (lineOf e.pc) true)) ∧
      ∃ r, t.faultsOut = s.faultsOut ++ [r] ∧ r.seq = s.seq ∧ r.kind = 1 ∧ r.why = why ∧ r.acc = 3 ∧ r.va = lineOf e.pc ∧ r.pc = e.pc ∧
        r.lanes = laneMask e.fids) ∧
  (∀ s e a, CanTrap s e → Issues false s e → pendingAsync e = some a → ∃ t, exec .asyncTrap s = .next t ∧ MemoryKept s t ∧
    let taken := fun (b : Async) => b == a || (a.seq.isSome && b.seq == a.seq && e.sl.fids.contains b.fid)
    let lanes := (e.g.asyncs.filter taken).foldl (fun m b => m ||| b.lanes) 0 &&& laneMask e.sl.fids
    (getSlot t e.key).trapcause = BitVec.ofNat 32 (a.cause + 256) ∧ (getSlot t e.key).traplanes = lanes ∧
    (getSlot t e.key).trappc = e.pc ∧ (getSlot t e.key).trapval = a.val ∧ (getSlot t e.key).handler = some (freshHandler e lanes) ∧
    getGang t e.gid = { getGang (releasesForgotten e s) e.gid with asyncs := e.g.asyncs.filter (fun b => !taken b) })

/-- The batcher, the register file and the device's own steps on waves (R33, R35, R36, R41, R86, R148, R161, R239, R371). -/
def Obligations.WaveEventsComplete : Prop :=
  (∀ s core w b, core < 576 → w < 32 → let sl := getSlot s (slotKey core w)
    sl.fids = [] → sl.log = [] → longestWaiting (getCore s core) = some b →
    ∃ t, exec (.waveFill core w) s = .next t ∧ MemoryKept s t ∧ t.gangs = s.gangs ∧ (getCore t core).table = (getCore s core).table.erase b ∧
      let sl1 := getSlot t (slotKey core w)
      sl1.gang = b.gang ∧ sl1.fids = b.fids ∧ sl1.handler = none ∧ sl1.txn = none ∧ sl1.trapcause = sl.trapcause ∧
      sl1.traplanes = sl.traplanes ∧ sl1.trappc = sl.trappc ∧ sl1.trapval = sl.trapval) ∧
  (∀ s core a b pc, a ≠ b → a < 32 → b < 32 → let x := getSlot s (slotKey core a)
    let y := getSlot s (slotKey core b)
    x.gang = y.gang → slotPc s x = some pc → slotPc s y = some pc → x.atBrk = false → y.atBrk = false →
    laneMask x.fids &&& laneMask y.fids = 0 →
    sweepWaits s x.gang (x.fids ++ y.fids) = false → ∃ t, exec (.waveMerge core a b) s = .next t ∧ MemoryKept s t ∧ t.gangs = s.gangs ∧
      (getSlot t (slotKey core a)).fids = x.fids ++ y.fids ∧ (getSlot t (slotKey core b)).fids = []) ∧
  (∀ s core w, let sl := getSlot s (slotKey core w)
    sl.fids ≠ [] → sl.since + 2048 ≤ now s → longestWaiting (getCore s core) ≠ none → sl.log = [] → sl.txn = none → sl.handler = none →
    (getCore s core).halted = false →
    ∃ t, exec (.waveSlotTimeout core w) s = .next t ∧ MemoryKept s t ∧ t.gangs = s.gangs ∧ (getSlot t (slotKey core w)).fids = [] ∧
      ∃ b ∈ (getCore t core).table, b.gang = sl.gang ∧ b.fids = sl.fids ∧ b.wait = .ready) ∧
  (∀ s gid fid base g f, kget? s.gangs gid = some g → kget? g.fibres fid = some f → (∀ w ∈ f.windows, w.done = true) →
    base % f.win = 0 → base + f.win ≤ 131072 → blockFree (heldBlocks s g.core) base f.win = true →
    ∃ t, exec (.registerCompaction gid fid base) s = .next t ∧ MemoryKept s t ∧ (fibreAt t gid fid).block = base ∧
      (fibreAt t gid fid).win = f.win ∧ ∀ n, readReg (fibreAt t gid fid) n = readReg f n) ∧
  (∀ s cluster, cluster < 144 → (∀ i < 4, (getCore s (4 * cluster + i)).gangs = []) →
    ∃ t, exec (.fusedModeChange cluster) s = .next t ∧ MemoryKept s t ∧ (getCluster t cluster).fused = !(getCluster s cluster).fused ∧
      ∀ i < 4, kget t.l1 (4 * cluster + i) [] = []) ∧
  (∀ s gid fid wid g f, kget? s.gangs gid = some g → kget? g.fibres fid = some f →
    (∃ w ∈ f.windows, w.id = wid ∧ w.done = false ∧ w.ext = false) →
    ∃ t, exec (.longLatencyCompletion gid fid wid) s = .next t ∧ fibreAt t gid fid = finishWindow f wid ∧
      { t with gangs := s.gangs } = s ∧ ∀ k, k ≠ fid → fibreAt t gid k = fibreAt s gid k) ∧
  (∀ s core w tx, (getSlot s (slotKey core w)).txn = some tx → tx.checked + 4096 ≤ now s → validationServed s (slabOf core) tx = true →
    (validates s (getSlot s (slotKey core w)).gang tx = true → exec (.transactionRevalidate core w) s =
      .next (setTxn (slotKey core w) { tx with checked := now s } s)) ∧
    (validates s (getSlot s (slotKey core w)).gang tx = false → exec (.transactionRevalidate core w) s =
      .next (abortTxn core (slotKey core w) (getSlot s (slotKey core w)).gang 1 0 s))) ∧
  (∀ s sid p l, kget? s.sleepers sid = some p → p.limit = some l → l ≤ now s →
    readsServed s (slabOf p.core) p.reads = true →
    ((∀ r ∈ p.reads, readVersion s p.gang r = r.version) → ∃ t, exec (.tretrytExpiry sid) s = .next t ∧ MemoryKept s t ∧
      ∀ fid ∈ p.fids, (kget? (getGang s p.gang).fibres fid).isSome = true →
        (fibreAt t p.gang fid).pc = p.abortPc ∧ (fibreAt t p.gang fid).txstatus = txWord 0 p.coarse p.levels 11) ∧
    ((∃ r ∈ p.reads, readVersion s p.gang r ≠ r.version) → exec (.tretrytExpiry sid) s = .next (wakeSleeper sid s)))

/-- Admission, dispatch and the end of gangs (R28, R29, R44, R46 to R49, R76, R392). An admitted gang has its fibres at ENTRY with the launch's
payload in R0 and R1 and a scratchpad that reads zero; a crew is admitted whole, a sweep task's to its owner cluster as far as that can hold it
(DEDUCED log 71); a grid's tasks are dispatched by rising index once their stencil predecessors have retired; a gang without fibres and engine work releases its
writes and then ends (DEDUCED log 69). -/
def Obligations.DispatchEventsComplete : Prop :=
  let ready := fun (s : State) (tid : Nat) (x : Task) (k : Kernel) => kget? s.tasks tid = some x ∧
    (kget s.launches x.launch Launch.init).kernel = k ∧ savedGangs s tid = [] ∧ x.st = .admitting ∧ ctxAdmits s x.ctx = true
  (∀ s tid core x k, ready s tid x k → k.crew = 1 → (∀ c, x.cluster = some c → clusterOf core = c) →
    (canAdmit s k (s.ids + 1) core).isSome = true → ∃ t, exec (.gangAdmit tid core) s = .next t ∧ MemoryKept s t ∧
      (getTask t tid).st = .running ∧ (getTask t tid).crew = s.ids ∧ (getCrew t s.ids).gangs = [s.ids + 1] ∧
      (getCrew t s.ids).live = [s.ids + 1] ∧ (getGang t (s.ids + 1)).scratch = [] ∧ ∀ i < k.gang,
        (fibreAt t (s.ids + 1) i).win = k.regs ∧ readPair (fibreAt t (s.ids + 1) i) 0 = (x.pay, false) ∧
        ((∀ p ∈ s.sleepers, p.2.gang ≠ s.ids + 1) → (fibreAt t (s.ids + 1) i).pc = k.entry)) ∧
  (∀ s tid cores x k gs s1, ready s tid x k → 2 ≤ k.crew → cores.length = k.crew → allDistinct cores = true →
    onOwner s k x.cluster cores = true → (∀ c ∈ cores, slabOf c = slabOf (cores.headD 0)) →
    admitAll tid s.ids (cores.zipIdx.map (fun x => (x.2, x.1))) [] { s with ids := s.ids + 1 } = some (gs, s1) →
    ∃ t, exec (.crewAdmit tid cores) s = .next t ∧ (getTask t tid).st = .running ∧ (getTask t tid).crew = s.ids ∧
      (getCrew t s.ids).gangs = gs ∧ (getCrew t s.ids).live = gs ∧ (getCrew t s.ids).size = gs.length) ∧
  (∀ s lid l, kget? s.launches lid = some l → l.sweep = false → l.next < l.x * l.y * l.z → admitting s lid = false →
    ctxAdmits s l.ctx = true → (∀ i ∈ predecessors l l.next, tileRetired s lid i = true) →
    ∃ t, exec (.taskDispatch lid) s = .next t ∧ MemoryKept s t ∧ (kget t.launches lid Launch.init).next = l.next + 1 ∧
      getTask t s.ids = { Task.init with launch := lid, index := l.next, ctx := l.ctx, pay := l.arg, st := .admitting }) ∧
  (∀ s0 lid index l b pay c s1, kget? s0.launches lid = some l → l.blocks.find? (fun b => b.index == index) = some b → l.sweep = true →
    let q := launchQuarry l
    let s := serveQuarry q s0
    ctxAdmits s0 l.ctx = true → (getQuarry s0 q).desc ≠ 0 → (getQuarry s q).stall = none → (getQuarry s q).ops = [] →
    sweepReady q (.dispatch lid index) b s = .ok (some (pay, c), s1) → ∃ t, exec (.sweepTaskDispatch lid index) s0 = .next t ∧
      (∀ x ∈ (kget t.launches lid Launch.init).blocks, x.index ≠ index) ∧
      getTask t s1.ids = { Task.init with
        launch := lid, index := index, ctx := l.ctx, key := b.key, gen := (getQuarry s1 q).gen, pay := pay, st := .admitting,
        cluster := some c, startGens := [(q, (getQuarry s1 q).gen)] }) ∧
  (∀ s gid g, kget? s.gangs gid = some g → g.fibres = [] → (∀ n ∈ [1, 2, 3], engineBusy s gid n = false) →
    (∀ r ∈ s.reqs, r.gang ≠ gid) →
    (g.relWait = none → ∃ t, exec (.gangEnd gid) s = .next t ∧ MemoryKept s t ∧ (getGang t gid).relWait.isSome = true) ∧
    (∀ n tk, g.relWait = some (n, tk) → writesPerformed s (slabOf g.core) 2 n tk = true → exec (.gangEnd gid) s = .next (endGang gid s)))

/-! ### Events of the memory system -/

/-- Ticks, writes on their way to their homes, requests, replies and faults (R104 to R110, R114, R122, R216, R218, R219, R316). A delivery report for
each home by itself is DESIGN CHOICE log 12, the expiry of a copy at any age DEDUCED log 24 (R110 only bounds it), and atomics that travel as held messages
DEDUCED log 110. -/
def Obligations.MemoryEventsComplete : Prop :=
  (∀ s : State, (∀ b ∈ s.slabs, ∀ m ∈ b.2.inq, s.tick ≤ m.tick) → exec .tick s = .next { s with tick := s.tick + 1, phase := 0 }) ∧
  (∀ (s : State) a home, a < 5 → home < 256 → s.tick < 2 ^ 56 → vget (stableOf s home) a + 3 ≤ s.tick →
    exec (.deliveryReport { agent := a, home := some home }) s = .next { s with
      stable := kset s.stable home (vset (stableOf s home) a (vget (stableOf s home) a + 1)) }) ∧
  (∀ s slab m rest, (getSlab s slab).inq = m :: rest → ∃ t, exec (.coreSideForward slab) s = .next t ∧ MemoryKept s t ∧
    (∀ x ∈ s.held, x ∈ t.held) ∧ { m with stamp := vOf s slab, tick := s.tick } ∈ t.held ∧ m ∉ (getSlab t slab).inq) ∧
  (∀ s home a m, firstHeld s home a = some m → applicable s m = true → s.mgmt.resetting = false → m.kind.grouped = false →
    isOp m.kind = false →
    exec (.homeApplyWrite home a) s = .next (applyOne m s)) ∧
  (∀ s rid r, s.reqs.find? (fun r => r.id == rid && r.phase == .toHome) = some r → readReady s r = true → s.mgmt.resetting = false →
    isPeer r.ia = false → r.kind = .load →
    (∀ l, translate s r.ctx r.ia true false = .ok l → ∃ t, exec (.homeServe rid none) s = .next t ∧ ∃ x ∈ t.reqs, x.id = rid ∧
      x.phase = .reply ∧ x.value = BitVec.ofNat 128 (sectorNat (homeSector (touchLine (l.pa / 256) (setAccessed l s)) l) (r.ia % 128) r.bytes)) ∧
    (∀ y, translate s r.ctx r.ia true false = .error y → ∃ t, exec (.homeServe rid none) s = .next t ∧ MemoryKept s t ∧
      ∃ x ∈ t.reqs, x.id = rid ∧ x.phase = .faulted y)) ∧
  (∀ s rid r op m l, s.reqs.find? (fun r => r.id == rid && r.phase == .toHome) = some r → r.kind = .atomic op → opMsg s rid = some m →
    opReady s r m = true → s.mgmt.resetting = false → isPeer r.ia = false → translate s r.ctx r.ia true true = .ok l →
    let s1 := spotTouch (.page l) { s with held := s.held.filter (fun x => x.id != m.id) }
    ∃ t, exec (.homeServe rid none) s = .next t ∧ (∀ x ∈ t.held, x.id ≠ m.id) ∧ ∃ x ∈ t.reqs, x.id = rid ∧ x.phase = .reply ∧
      x.value = BitVec.ofNat 128 (natOfBytes (leafBytes s1 l r.bytes)) ∧ x.sectorPoison = poisonedAt s1 (l.pa / 128)) ∧
  (∀ s slab c, c ∈ (getSlab s slab).copies → slabOfHome (homeOf (c.sector * 128)) ≠ slab →
    ∃ t, exec (.coreSideCopyExpiry slab c.ctx (c.sector / 2)) s = .next t ∧ MemoryKept s t ∧ c ∉ (getSlab t slab).copies) ∧
  (∀ s rid r, s.reqs.find? (fun r => r.id == rid && r.phase == .reply && r.kind != .probe) = some r →
    ∃ t, exec (.memoryReply rid) s = .next t ∧ (∀ x ∈ t.reqs, x.id ≠ rid) ∧ (r.kind = .scratch → r.fid ≠ 1024 → r.ord = 0 →
      (kget? (getGang s r.gang).fibres r.fid).isSome = true →
      fibreAt t r.gang r.fid = fillWindow (fibreAt s r.gang r.fid) r.window (loadWr r.ty r.d r.value r.poison).regs 0)) ∧
  (∀ s rid r, s.reqs.find? (fun r => r.id == rid && r.phase == .reply && r.kind == .probe) = some r →
    (∀ x ∈ s.reqs, x.kind = .probe → x.entry = r.entry → x.ia / 128 = r.ia / 128 → r.id ≤ x.id) →
    ∃ t, exec (.writeProbeReply rid) s = .next t ∧ MemoryKept s t) ∧
  (∀ s rid r why, s.reqs.find? (fun r => r.id == rid && r.seq == 0 && (match r.phase with | .faulted _ => true | _ => false)) = some r →
    r.phase = .faulted why → r.fid ≠ 1024 → r.kind ≠ .txnRead → ∃ t, exec (.loggedAccessFault rid) s = .next t ∧ MemoryKept s t ∧
      ((kget? (getGang s r.gang).fibres r.fid).isSome = true →
        (fibreAt t r.gang r.fid).park = (if (fibreAt s r.gang r.fid).park = .no then .fault s.seq (r.fva.getD r.va) false
          else (fibreAt s r.gang r.fid).park)) ∧
      ∃ p, t.faultsOut = s.faultsOut ++ [p] ∧ p.seq = s.seq ∧ p.kind = 1 ∧ p.why = why ∧ p.va = r.fva.getD r.va ∧ p.pc = r.pc ∧ p.ctx = r.ctx) ∧
  (∀ s wid m, s.applied.find? (fun m => m.id == wid) = some m →
    ∃ t, exec (.writeAcknowledgement wid) s = .next t ∧ MemoryKept s t ∧ (∀ x ∈ t.applied, x.id ≠ wid) ∧
      ∀ rid, m.kind = .store rid → ∀ x ∈ t.reqs, x.id ≠ rid) ∧
  (∀ (s : State) pa data, data ≠ [] → pa % 128 + data.length ≤ 128 → pa < 2 ^ 48 → ∃ m, exec (.hostMemoryWrite pa data) s =
      .next { s with ids := s.ids + 1, bridge := vset s.bridge 4 (tick56 s), held := s.held ++ [m] } ∧ m.agent = 4 ∧ m.phys = true ∧ m.sector = pa / 128 ∧
      m.mask = byteMask (pa % 128) data.length ∧ m.data = natSector (natOfBytes data) (pa % 128) data.length ∧
      m.stamp = vset s.bridge 4 (tick56 s))

/-- A write at its home (R108, R121): applied under the keys of the sector, it changes the bytes that it names and no other byte of device memory; a
poisoned write poisons the sector, and a clean write of the whole sector clears it. -/
def Obligations.StoreWritesItsBytes : Prop :=
  ∀ (s : State) keys pas mask d poison agent stamp, Memory.wf s.mem = true → (sectorTag s pas = none ∨ sectorTag s pas = some keys) →
    homeFenced s pas = false →
    let t := storeSector keys pas mask d poison agent stamp s
    (∀ i < 128, readByte t.mem (pas * 128 + i) = if mask.getLsbD i then sectorByte d i else readByte s.mem (pas * 128 + i)) ∧
    (∀ a, a / 128 ≠ pas → readByte t.mem a = readByte s.mem a) ∧ t.hostMem = s.hostMem ∧ t.peerMem = s.peerMem ∧
    (poison = true → pas ∈ t.poison) ∧ (poison = false → mask = fullMask → pas ∉ t.poison) ∧
    (∀ p, p ≠ pas → (p ∈ t.poison ↔ p ∈ s.poison))

/-! ### Events of the engines -/

/-- The matrix engine and the haulway (R170, R184 to R187, R189, R192 to R196). That an MXOP takes its operands when it starts is DESIGN CHOICE log 79. -/
def Obligations.EngineEventsComplete : Prop :=
  (∀ s c q op rest, (getCluster s c).running = none → nextQueue s c (getCluster s c) = some q →
    kget (getCluster s c).queues q [] = op :: rest →
    (∀ tl a b z sy cfg, op.kind = .mul tl a b z sy cfg → ∃ t, exec (.matrixOperationStart c) s = .next t ∧ MemoryKept s t ∧
      (getCluster t c).running = some op ∧ kget (getCluster t c).queues q [] = rest ∧ (getCluster t c).tiles = (getCluster s c).tiles ∧
      (getCluster t c).runTile = some (mxResult (getGang s op.gang) (getTile (getCluster s c) tl) a b z cfg)) ∧
    (∀ b, op.kind = .drain b → exec (.matrixOperationStart c) s = .next (settleTiles c (startDrain c q op b
      (setCluster s c { getCluster s c with queues := kset (getCluster s c).queues q rest, lastQueue := q }))))) ∧
  (∀ s c op r tl a b z sy cfg, (getCluster s c).running = some op → (getCluster s c).runTile = some r → op.kind = .mul tl a b z sy cfg →
    ∃ t, exec (.mxopComplete c) s = .next t ∧ MemoryKept s t ∧ (getCluster t c).running = none ∧
      ((getTile (getCluster s c) tl).releasing = false → (getTile (getCluster t c) tl).elems = r.elems ∧
        (getTile (getCluster t c) tl).ovf = r.ovf ∧ (getTile (getCluster t c) tl).poison = r.poison)) ∧
  (∀ s0 op d, let s := sendDrain op s0
    kget? s.drains op = some d → d.id = op → d.blk.disp < 3 → drainPerformed s d = true →
    (d.haulPath = false → ∃ t, exec (.matrixDrainComplete op) s0 = .next t ∧ kget? t.drains op = none ∧
      t = settleTiles d.cluster (landDrain d s)) ∧
    (d.haulPath = true → (∀ x ∈ s.drains, x.2.haulPath = true → x.2.gang = d.gang → op ≤ x.1) →
      ∃ t, exec (.haulDrainComplete op) s0 = .next t ∧ kget? t.drains op = none ∧ t = landDrain d s)) ∧
  (∀ s0 op d va why, let s := sendDrain op s0
    kget? s.drains op = some d → drainBlocked s d = some (va, why) → ∃ t, exec (.drainWriteFault op) s0 = .next t ∧
      kget? t.drains op = some { d with stall := some s.seq } ∧
      ∃ r, t.faultsOut = s.faultsOut ++ [r] ∧ r.kind = 4 ∧ r.why = why ∧ r.va = va ∧ r.seq = s.seq) ∧
  (∀ s crew h, (getHandle s crew h).st = .armed → (getHandle s crew h).published = false →
    ∃ t, exec (.hchainPublished crew h) s = .next t ∧ MemoryKept s t ∧
      getHandle t crew h = { getHandle s crew h with published := true, waiters := [] }) ∧
  (∀ s p, s.packets.find? (fun x => x.id == p.id) = some p →
    ∃ t, exec (.haulPacketArrival [p.id]) s = .next t ∧ MemoryKept s t ∧ (∀ x ∈ t.packets, x.id ≠ p.id) ∧
      (∃ a ∈ t.acks, a.id = p.id ∧ a.handle = p.handle ∧ a.cause = rejectCause s p.crew p.handle p.bin (packetBytes p)) ∧
      (rejectCause s p.crew p.handle p.bin (packetBytes p) = 0 →
        kget (getHandle t p.crew p.handle).received p.bin 0 = kget (getHandle s p.crew p.handle).received p.bin 0 + packetBytes p ∧
        ((getHandle s p.crew p.handle).sync = none → (getGang t (getHandle s p.crew p.handle).gang).scratch =
          let at_ := (getHandle s p.crew p.handle).base + 65536 * p.bin + 16 * p.first
          writeBytes (getGang s (getHandle s p.crew p.handle).gang).scratch at_ ((p.words.zipIdx.map (fun w => bytesOfNat 16
            (haulAdd (BitVec.ofNat 128 (scratchRead s (getHandle s p.crew p.handle).gang (at_ + 16 * w.2) 16)) w.1).1.toNat)).flatten)))) ∧
  (∀ s a, s.acks.find? (fun x => x.id == a.id) = some a → ∃ t, exec (.haulAcknowledgement a.id) s = .next t ∧ MemoryKept s t ∧
    (∀ x ∈ t.acks, x.id ≠ a.id) ∧ (a.cause ≠ 0 → kget? s.gangs a.gang = none →
      ∃ r ∈ t.faultsOut, r.kind = 5 ∧ r.ident = BitVec.ofNat 32 a.handle ∧ r.ctx = a.ctx))

/-- The copy engine and the quarry units' own steps (R126, R140 to R143, R203, R208, R209). That a migration copy goes sector by sector in rising
order is DESIGN CHOICE log 74, and what a step that meets poison does DESIGN CHOICE log 123. -/
def Obligations.CopyAndQuarryEventsComplete : Prop :=
  let works := fun (s : State) (core : Nat) (c : CopyCmd) (p : Nat) => headCopy s core = some c ∧ c.started = true ∧ p ∈ copyPieces c ∧
    p ∉ c.landed ∧ kget? c.lost p = none ∧ (∀ x ∈ c.sent, x.1 ≠ p) ∧ c.stall = none ∧ c.ending = none
  (∀ s core c, headCopy s core = some c → c.started = false → ∃ t, exec (.copyCommandStart core) s = .next t ∧ MemoryKept s t ∧
    ∃ c1, headCopy t core = some c1 ∧ c1.started = true ∧ c1.id = c.id ∧ c1.bytes = c.bytes ∧ c1.left = c.left) ∧
  (∀ s core c p v, works s core c p → s.mgmt.resetting = false → readsQuiet s core c p = true → copyTurnOf s core = true → pieceData s c p = .ok v →
    (pieceDest s c p = .ok none → exec (.copySectorLand core p) s = .next (landPiece core { c with poisoned := c.poisoned || v.poison } p
      v.count (scratchPiece c.gang p v (copyServed core (mergeSources core c p s))))) ∧
    (∀ ia, pieceDest s c p = .ok (some ia) → ∃ t, exec (.copySectorLand core p) s = .next t ∧
      ∃ m ∈ (getSlab t (slabOf core)).inq, m.sector = ia / 128 ∧ m.mask = v.mask ∧ m.data = v.data ∧ m.poison = v.poison ∧
        m.kind = .engine c.id)) ∧
  (∀ s core c p e, works s core c p → pieceData s c p = .error e → ∃ t, exec (.copyFault core p) s = .next t ∧
    MemoryKept (touchSources c p s) t ∧
    (∃ c1, headCopy t core = some c1 ∧ c1.stall = some s.seq) ∧
    ∃ r, t.faultsOut = s.faultsOut ++ [r] ∧ r.kind = 2 ∧ r.why = e.2 ∧ r.va = e.1 ∧ r.ident = c.ident ∧ r.seq = s.seq) ∧
  (∀ s0 q k, let s := serveQuarry q s0
    s.mgmt.resetting = false → (getQuarry s q).stall = none → (getQuarry s q).ops = [] → ∀ m s1, (getQuarry s q).mig = some m →
    (migStart q k s = .ok (true, s1) → exec (.migrationCopyStart q k) s0 = .next (endStep q s1) ∧
      (getQuarry s1 q).mig = some { m with copying := m.copying ++ [{ key := k, done := 0, stall := none }] }) ∧
    (migLand q k s = .ok (true, s1) → exec (.migrationCopyLand q k) s0 = .next (endStep q s1) ∧
      ∃ c ∈ m.copying, c.key = k ∧ c.stall = none ∧ let rest := m.copying.filter (·.key != k)
        ((getQuarry s1 q).mig = some { m with copying := rest ++ [{ c with done := c.done + 1 }] } ∨
         (getQuarry s1 q).mig = some { m with copying := rest })) ∧
    (migComplete q s = .ok (true, s1) → exec (.migrationComplete q) s0 = .next (endStep q s1) ∧ (getQuarry s1 q).mig = none ∧
      (getQuarry s1 q).released = [] ∧ (getQuarry s1 q).doneGen = (getQuarry s q).gen)) ∧
  (∀ s0 q, let s := serveQuarry q s0
    (∀ va why acc seen, quarryBlocked s q = some (.access va why acc seen) → ∃ t, exec (.quarryAccessFault q) s0 = .next t ∧
      (getQuarry t q).stall = some (va, why, s.seq) ∧
      ∃ r, t.faultsOut = s.faultsOut ++ [r] ∧ r.kind = 3 ∧ r.why = why ∧ r.acc = acc ∧ r.va = va ∧ r.ctx = q / 8) ∧
    (∀ key va why acc, quarryBlocked s q = some (.copy key va why acc) → ∃ t, exec (.quarryAccessFault q) s0 = .next t ∧
      (getQuarry t q).stall = (getQuarry s q).stall ∧ (∀ m, (getQuarry t q).mig = some m → ∀ c ∈ m.copying, c.key = key → c.stall = some s.seq) ∧
      ∃ r, t.faultsOut = s.faultsOut ++ [r] ∧ r.kind = 3 ∧ r.why = why ∧ r.acc = acc ∧ r.va = va ∧ r.ctx = q / 8) ∧
    (∀ va cause seen, (quarryBlocked s q = some (.corrupt va seen) ∧ cause = 12) ∨ (quarryBlocked s q = some (.poison va seen) ∧ cause = 14) →
      (∀ kind gid fid w d b k a v rest g, (getQuarry s q).ops = .instr kind gid fid w d b k a v :: rest → kget? s.gangs gid = some g →
        ∃ t, exec (.quarryCorruption q) s0 = .next (serveQuarry q (quarryAcquire q gid t)) ∧ (getQuarry t q).ops = rest ∧
          (getGang t gid).asyncs = g.asyncs ++ [{ fid := fid, cause := cause, val := va, lanes := laneMask [fid], seq := none }]) ∧
      ((getQuarry s q).ops = [] → ∃ t, exec (.quarryCorruption q) s0 = .next t ∧
        (getQuarry t q).stall = some (va, 0, s.seq) ∧ ∃ r, t.faultsOut = s.faultsOut ++ [r] ∧ r.kind = 3 ∧ r.why = 0 ∧ r.va = va)))

/-! ### Contexts, queues, records -/

/-- Draining a context (R228, R229, R415). Once every gang of the context is quiescent and its state fits the area, a gang's writes are released and
it leaves its core, to be saved with its context (DEDUCED log 128). When no gang is left the state is written to the area and the slot becomes
FREE; a state that does not fit is answered SPACE, with its size, and the context is HELD with its gangs. A drain past its deadline resets the
context, which is HELD without a gang; in the cycle of the deadline a drain that is complete wins. The bytes of the area and the size are free
values (DESIGN CHOICE log 16); the reply of the expired DRAIN waits for its release at scope y. -/
def Obligations.ContextEventsComplete : Prop :=
  (∀ s gid g d, kget? s.gangs gid = some g → (getCtx s g.ctx).draining = some d → allQuiescent s g.ctx = true → saveSize s g.ctx ≤ d.size →
    (coreClean s g.core g.ctx = false → exec (.gangSave gid) s = .next (releaseCaches g.core s)) ∧
    (coreClean s g.core g.ctx = true → ctxWritesDone s g.ctx = true → ∃ t, exec (.gangSave gid) s = .next t ∧ MemoryKept s t ∧
      kget? t.gangs gid = none ∧ ∃ v ∈ (getCtx t g.ctx).saved, v.id = gid)) ∧
  (∀ s ctx d, s.mgmt.resetting = false → (getCtx s ctx).draining = some d → drainQuiet s ctx = true → bridgeReleased s ctx = true →
    now s ≤ d.start + 2 ^ (getCtx s ctx).deadlog → let n := saveSize s ctx
    (d.size < n → allQuiescent s ctx = true → ∃ t, exec (.drainComplete ctx) s = .next (replyCmd d.cmd 5 n t) ∧ MemoryKept s t ∧
      (getCtx t ctx).st = .held ∧ (getCtx t ctx).draining = none ∧ ((∀ v ∈ (getCtx s ctx).saved, v.answers = []) →
        ∀ gid, (kget? s.gangs gid).isSome = true → (kget? t.gangs gid).isSome = true)) ∧
    (n ≤ d.size → ctxGangs s ctx = [] → ∃ t, exec (.drainComplete ctx) s = .next (replyCmd d.cmd 0 n t) ∧ (getCtx t ctx).st = .free ∧
      (∀ a, (a < d.save / 128 * 128 ∨ d.save / 128 * 128 + (n + 127) / 128 * 128 ≤ a) → readByte t.mem a = readByte s.mem a) ∧
      ∃ v, kget? t.saves s.ids = some v ∧ { v.ctx with saved := [] } = { getCtx s ctx with draining := none, saved := [] } ∧
        v.ctx.saved.map (·.id) = (getCtx s ctx).saved.map (·.id) ∧ v.image = areaBytes t d.save n)) ∧
  (∀ s ctx d c, s.cmds.find? (fun c => c.index == d.cmd) = some c → s.mgmt.resetting = false → (getCtx s ctx).draining = some d → d.start + 2 ^ (getCtx s ctx).deadlog ≤ now s →
    (now s = d.start + 2 ^ (getCtx s ctx).deadlog → drainDone s ctx = false) →
    ∃ t, exec (.deadlineExpiry ctx) s = .next (finishCmd c 6 0 t) ∧ MemoryKept s t ∧ (getCtx t ctx).st = .held ∧
      (getCtx t ctx).draining = none ∧ (getCtx t ctx).qslots = [] ∧ ∀ g ∈ t.gangs, g.2.ctx ≠ ctx)

/-- Doorbells, mapping, packets and graph nodes (R397, R398, R400 to R402, R408, R412, R440). A packet starts when those before it allow it, with an
acquire at scope p, and advances RIDX by one; a step of Derrick that a home does not serve yet begins, and is performed later (DESIGN CHOICE log 126); a wait
ends when its condition holds or its time has run out; a packet that is over leaves its queue, or waits for its completion record; a node that is
over arrives at its successors, or marks the graph as failed, and the graph ends when nothing of it runs or can start; an access of a job, a
packet's read or the write of a record that faults is reported. A packet of unknown TYPE is started with the record packets (DESIGN CHOICE log 98), and the
MALFORMED record of a saved queue waits with its save. -/
def Obligations.QueueEventsComplete : Prop :=
  let ref := fun (q : Nat) (i : W64) => ({ queue := q, index := i, node := none } : JobRef)
  let faulted := fun (s t : State) (e : Stall) (ctx : Nat) => ∃ r, t.faultsOut = s.faultsOut ++ [r] ∧ r.kind = 8 ∧ r.va = e.1 ∧
    r.why = e.2.1 ∧ r.acc = e.2.2.1 ∧ r.ctx = ctx ∧ r.seq = s.seq
  let starts := fun (i : Nat → Instr) (ks : List Nat) => ∀ s q bs s1, s.mgmt.resetting = false →
    (∀ x ∈ queueJobs s q, x.1.node = none → actionable x.1 x.2 = true → kindOf x.1 x.2 ∉ ks) → jobKind false bs ∈ ks →
    (∀ run, unreadRun (getQueue s q) = some run → readPacket q run.index run.job.step s = .ok (bs, s1) →
      exec (i q) s = .next (beginPacket (ref q run.index) bs s1)) ∧
    (unreadRun (getQueue s q) = none → queueRuns s q = true → mayStart s q = true → let r := ref q (getQueue s q).ridx
      (readPacket q r.index none (startRun q s) = .ok (bs, s1) → ∃ t, exec (i q) s = .next t ∧ t = beginPacket r bs s1 ∧
        (getQueue t q).ridx = (getQueue s q).ridx + 1) ∧
      (readPacket q r.index none (startRun q s) = .error .wait → ∃ t, exec (i q) s = .next t ∧ MemoryKept s t ∧
        t = beginJob r (Job.fresh []) (startRun q s) ∧ (getQueue t q).ridx = (getQueue s q).ridx + 1))
  (∀ s q w d, s.mgmt.resetting = false → (getQueue s q).desc = some d → let u := getQueue s q
    (u.saved = none → ((getCtx s d.ctx).st = .free ∨ destroying s d.ctx = true) → exec (.queueDoorbell q w) s = .next s) ∧
    (u.saved ≠ none ∨ ((getCtx s d.ctx).st ≠ .free ∧ destroying s d.ctx = false) →
      (2 ^ d.rlog < (w - u.ridx).toNat → ∃ t, exec (.queueDoorbell q w) s = .next t ∧ MemoryKept s t ∧ t.queues = s.queues ∧
        let malformed := fun (r : Record) => r.seq = s.seq ∧ r.status = 6 ∧ r.type = 0 ∧ r.queue = q ∧ r.summary = w
        (u.saved = none → ∃ r ∈ (getRing t d.evr).waiting, malformed r) ∧
        ∀ id v, u.saved = some id → kget? s.saves id = some v → t.rings = s.rings ∧
          ∃ v1, kget? t.saves id = some v1 ∧ ∃ r ∈ kget v1.records d.evr [], malformed r) ∧
      ((w - u.ridx).toNat ≤ 2 ^ d.rlog → ∃ t, exec (.queueDoorbell q w) s = .next t ∧ MemoryKept s t ∧
        (getQueue t q).w = w ∧ (getQueue t q).ridx = u.ridx ∧ (getQueue t q).runs = u.runs))) ∧
  (∀ s q n k best, (getQueue s q).waiting = some n → freeSlot s = some k →
    leastBy (fun e => waitOrder e.2) (s.queues.filter (fun e => e.2.waiting.isSome && e.2.slot.isNone)) = some best → best.1 = q →
    exec (.queueMap q) s = .next (setQueue q { getQueue s q with slot := some k, waiting := none } s)) ∧
  (∀ s q d, (getQueue s q).desc = some d → (getQueue s q).slot ≠ none → queueEmpty (getQueue s q) = true →
    (getQueue s q).emptySince + usCycles d.idle ≤ now s →
    exec (.queueIdleUnmap q) s = .next (setQueue q { getQueue s q with slot := none } s)) ∧
  starts .launchPacket [1] ∧ starts .copyPacket [2] ∧ starts .waitPacket [3] ∧ starts .signalPacket [4] ∧ starts .graphPacket [5] ∧
  starts .recordPacket [0, 6] ∧
  (∀ s q, (getQueue s q).signalled ≠ 0 → s.mgmt.resetting = false →
    (∀ s1, checkWaits (openWaits s q) (setQueue q { getQueue s q with signalled := 0 } s) = .ok ((), s1) →
      exec (.waitPacketWake q) s = .next (withdraw q s1)) ∧
    (checkWaits (openWaits s q) (setQueue q { getQueue s q with signalled := 0 } s) = .error .wait →
      (∃ x ∈ openWaits s q, x.2.step = none) → ∃ t, exec (.waitPacketWake q) s = .next t ∧ MemoryKept s t)) ∧
  (∀ s q x w s1, s.mgmt.resetting = false → (openWaits s q).find? (fun x => match x.2.limit with | some l => decide (l ≤ now s) | none => false) =
      some x → unitRun (jobUnit s x.1 x.2) (jobWord (jobUnit s x.1 x.2) x.2) s = .ok (w, s1) →
    exec (.waitPacketTimeout q) s = .next (withdraw q (endJob x.1 { x.2 with step := none } (if jobCond x.2 w then 0 else 7) 0 s1))) ∧
  (∀ s q i run st sum, (getQueue s q).runs.find? (fun r => r.index == i) = some run → jobEnd s run.job = some (st, sum) →
    run.job.record = none → bridgeApplied s = true → (byteAt run.job.bytes 1 / 8 % 4 = 3 → bridgeReleased s (queueCtx s q) = true) →
    let due := (byteAt run.job.bytes 1).testBit 0 = true ∨ byteAt run.job.bytes 0 = 6 ∨ st ≠ 0
    (due → ∃ t, exec (.packetComplete q i) s = .next t ∧ MemoryKept s t ∧ ∃ r ∈ (getRing t (queueRing s q)).waiting,
      r.seq = s.seq ∧ r.status = st ∧ r.summary = sum ∧ r.queue = q) ∧
    (¬ due → ∃ t, exec (.packetComplete q i) s = .next t ∧ MemoryKept s t ∧ ∀ r ∈ (getQueue t q).runs, r.index ≠ i)) ∧
  (∀ s q n, s.mgmt.resetting = false →
    (∀ x, (queueJobs s q).find? (fun x => x.1.node == some n && actionable x.1 x.2) = some x →
      (∀ s1, actJob x.1 x.2 s = .ok ((), s1) → exec (.nodeStart q n) s = .next s1) ∧
      (actJob x.1 x.2 s = .error .wait → x.2.step = none → exec (.nodeStart q n) s = .next (beginJob x.1 x.2 s))) ∧
    ((queueJobs s q).find? (fun x => x.1.node == some n && actionable x.1 x.2) = none →
      ∀ run g nd, (getQueue s q).runs.find? (nodeReady n) = some run → run.graph = some g → kget? g.nodes n = some nd →
        exec (.nodeStart q n) s = .next (stepOr { queue := q, index := run.index, node := some n } (Job.fresh nd.bytes)
          (derrickAcquire (mapNode q run.index n (fun d => { d with
            arrivals := d.arrivals - byteAt d.bytes 6, chosen := none, job := some (Job.fresh nd.bytes) }) s))))) ∧
  (∀ s q n x st sum nd, (queueJobs s q).find? (fun x => x.1.node == some n && (jobEnd s x.2).isSome) = some x →
    jobEnd s x.2 = some (st, sum) → nodeOf s x.1 = some nd → x.2.record = none → bridgeApplied s = true →
    ∃ t, exec (.nodeComplete q n) s = .next t ∧ MemoryKept s t ∧ (getQueue t q).ridx = (getQueue s q).ridx ∧
      let next := (match nd.chosen with
        | some k => [k]
        | none => if byteAt nd.bytes 0 = 3 then [] else [field nd.bytes 2 2, field nd.bytes 4 2]).filter (· ≠ 65535)
      ∀ r ∈ (getQueue s q).runs, r.index = x.1.index → ∀ g, r.graph = some g → ∃ r1 ∈ (getQueue t q).runs, r1.index = r.index ∧
        ∃ g1, r1.graph = some g1 ∧ g1.loopLimit = g.loopLimit ∧
          g1.fail = (match g.fail with | some y => some y | none => if st = 0 then none else some (n, st)) ∧
          g1.nodes = g.nodes.map (fun e => (e.1, { e.2 with
            job := if e.1 = n then none else e.2.job
            arrivals := e.2.arrivals + if g1.fail = none then (next.filter (· = e.1)).length else 0 })) ∧
          r1.job.status = (if ∃ e ∈ g1.nodes, e.2.job.isSome = true then none else match g1.fail with
            | some y => some (9, BitVec.ofNat 64 (y.1 + y.2 * 2 ^ 16))
            | none => if ∃ e ∈ g1.nodes, byteAt e.2.bytes 6 ≤ e.2.arrivals then none
              else some (match g1.loopLimit with | some k => (8, BitVec.ofNat 64 k) | none => (0, 0)))) ∧
  (∀ s q d x e, (getQueue s q).desc = some d →
    (queueJobs s q).findSome? (fun x => (jobStall s (getQueue s q) x).map (fun e => (x, e))) = some (x, e) →
    ∃ t, exec (.derrickAccessFault q) s = .next t ∧ MemoryKept (keepReads 4 e.2.2.2 s) t ∧ faulted s t e d.ctx) ∧
  (∀ s q, (queueJobs s q).findSome? (fun x => (jobStall s (getQueue s q) x).map (fun e => (x, e))) = none →
    (∀ d run s1 e, (getQueue s q).desc = some d → readStall s q = some (run, s1, e) →
      ∃ t, exec (.derrickAccessFault q) s = .next t ∧ MemoryKept (keepReads 4 e.2.2.2 s1) t ∧ faulted s t e d.ctx) ∧
    (∀ ring rec e, readStall s q = none → recordStall s q = some (ring, rec, e) →
      ∃ t, exec (.derrickAccessFault q) s = .next t ∧ MemoryKept (keepReads 4 e.2.2.2 s) t ∧ faulted s t e rec.ctx ∧
        (getRing t ring).waiting.head? = some { rec with stall := some s.seq }))

/-- Completion records, event rings, the fault ring and the host-port registers (R403 to R405, R413, R419). A ring's oldest record is sent to its
place, and TAIL passes it, with the interrupt when one is due, once its writes have been performed; a record waits while one of a smaller SEQ
stands in a save area (DEDUCED log 154). -/
def Obligations.HostSideEventsComplete : Prop :=
  (∀ s ring r0 rest, let r := getRing s ring
    r.waiting = r0 :: rest → s.mgmt.resetting = false → r.set = true → r0.stall = none → (r.tail - r.head).toNat < 2 ^ r.elog →
    r0.ready = true → savedBefore s ring r0 = false →
    (∀ s1, r.sent = none → bridgeReleased s r0.ctx = true → putRecord r r0 s = .ok ((), s1) →
      ∃ t, exec (.completionRecordWrite ring) s = .next t ∧ MemoryKept s1 t ∧ t.held = s1.held ∧
        (getRing t ring).tail = r.tail ∧ (getRing t ring).waiting = r.waiting ∧ (getRing t ring).sent = some (s.ids, s1.ids)) ∧
    (∀ ids, r.sent = some ids → recordLanded s ids = true → ∃ t, exec (.completionRecordWrite ring) s = .next t ∧ MemoryKept s t ∧
      (getRing t ring).tail = r.tail + 1 ∧ (getRing t ring).waiting = rest ∧ (getRing t ring).sent = none ∧
      (r0.urgent = true ∨ r.count ≤ r.pending + 1 → t.outputs = s.outputs ++ [.interrupt r.vector]))) ∧
  (∀ s ring, let r := getRing s ring
    s.mgmt.resetting = false → r.set = true → r.pending ≠ 0 → r.oldest + usCycles r.time ≤ now s →
    exec (.eventRingTimeExpiry ring) s = .next (interrupt r.vector (setRing ring { r with pending := 0 } s))) ∧
  (∀ s ring v, exec (.eventRingHeadWrite ring v) s = .next (setRing ring { getRing s ring with head := v } s)) ∧
  (∀ (s : State) f rest, s.faultsOut = f :: rest → s.mgmt.resetting = false → (s.port.frTail - s.port.frHead).toNat < 2 ^ s.port.frLog.toNat →
    bridgeReleased s f.ctx = true → ∃ t, exec .faultRecordWrite s = .next t ∧ t.mem = s.mem ∧ t.faultsOut = rest ∧
      t.port = { s.port with frTail := s.port.frTail + 1 } ∧ t.hostMem = writeBytes s.hostMem
        (s.port.frBase.toNat + 64 * (s.port.frTail.toNat % 2 ^ s.port.frLog.toNat)) (faultBytes f) ∧
      (s.port.frTail = s.port.frHead → t.outputs = s.outputs ++ [.interrupt s.port.dvec.toNat])) ∧
  (∀ (s : State) w, (s.mgmt.resetting = true → exec (.dcrdb w) s = .next s) ∧
    (s.mgmt.resetting = false → 2 ^ s.port.dcrLog.toNat < (w - s.port.dcrRd).toNat →
      exec (.dcrdb w) s = .next { s with port := { s.port with dcrErr := true } }) ∧
    (s.mgmt.resetting = false → (w - s.port.dcrRd).toNat ≤ 2 ^ s.port.dcrLog.toNat →
      exec (.dcrdb w) s = .next { s with port := { s.port with dcrDb := w } })) ∧
  (∀ s : State, exec .dcrerrRead s =
    .next { s with outputs := s.outputs ++ [.dcrErr s.port.dcrErr], port := { s.port with dcrErr := false } }) ∧
  (∀ (s : State) v, exec (.hostRegisterWrite .frHead v) s = .next { s with port := { s.port with frHead := v } } ∧
    exec (.hostRegisterWrite .dvec v) s = .next { s with port := { s.port with dvec := v } } ∧
    (s.port.dcrDb = s.port.dcrRd → s.cmds = [] → v.toNat % 64 = 0 →
      exec (.hostRegisterWrite .dcrBase v) s = .next { s with port := { s.port with dcrBase := v } }) ∧
    (s.port.dcrDb ≠ s.port.dcrRd ∨ s.cmds ≠ [] → exec (.hostRegisterWrite .dcrBase v) s = .next s ∧ exec (.hostRegisterWrite .dcrLog v) s = .next s) ∧
    (s.port.dcrDb = s.port.dcrRd → s.cmds = [] → 4 ≤ v.toNat → v.toNat ≤ 12 →
      exec (.hostRegisterWrite .dcrLog v) s = .next { s with port := { s.port with dcrLog := v } }) ∧
    (s.port.frHead = s.port.frTail → v.toNat % 64 = 0 → exec (.hostRegisterWrite .frBase v) s = .next { s with port := { s.port with frBase := v } }) ∧
    (s.port.frHead = s.port.frTail → 4 ≤ v.toNat → v.toNat ≤ 16 →
      exec (.hostRegisterWrite .frLog v) s = .next { s with port := { s.port with frLog := v } })) ∧
  (∀ s : State, let i := s.port.dcrRd + BitVec.ofNat 64 s.cmds.length
    let bs := readBytes s.hostMem (cmdAddr s i) 64
    ringServed s = true → cmdCovered s = true → (∀ c ∈ s.cmds, c.begun = true) → bridgeApplied s = true → hasRow (byteAt bs 0) bs = true →
    ∃ c, exec .commandStart s = .next { s with cmds := s.cmds ++ [c] } ∧ c.index = i ∧ c.op = byteAt bs 0 ∧ c.ctx = byteAt bs 1 ∧
      c.bytes = bs ∧ c.begun = false ∧ c.done = false)

/-! ### Commands of the ring -/

/-- The commands of the ring (R78, R124, R142, R228, R396, R405, R412, R414 to R422): a started command that no check refuses has its effect
and is answered, or runs on until its own completion. EVRSET's offsets and its TAIL = HEAD = 0 are DESIGN CHOICE log 15, what RESTORE knows a save
by is DESIGN CHOICE log 16, the moments of CTXDESTROY are DESIGN CHOICE log 51, and what a failed unit does not hold is DESIGN CHOICE log 141. -/
def Obligations.CommandsComplete : Prop :=
  let started := fun (s : State) (c : CmdRun) (op : Nat) (mine : List Byte → Bool) =>
    startedCmd s op mine = some c ∧ ringServed s = true ∧ c.answer = none ∧ refuseCmd s c = none
  let done := fun (i : Instr) (op : Nat) (mine : List Byte → Bool) (ok : State → CmdRun → Prop) (detail : State → Nat)
      (holds : State → CmdRun → State → Prop) => ∀ s c, started s c op mine → ok s c →
    ∃ t, exec i s = .next (finishCmd c 0 (detail s) t) ∧ holds s c t
  let any := fun (_ : List Byte) => true
  let always := fun (_ : State) (_ : CmdRun) => True
  let zero := fun (_ : State) => 0
  let body := fun (c : CmdRun) (o n : Nat) => BitVec.ofNat 64 (field c.bytes o n)
  let action := fun (n : Nat) (bs : List Byte) => byteAt bs 10 == n
  let answer := fun (n : Nat) (bs : List Byte) => byteAt bs 16 == n
  let core := fun (c : CmdRun) => field c.bytes 8 2
  let quarry := fun (c : CmdRun) => 8 * c.ctx + byteAt c.bytes 8
  let ended := fun (s : State) (c : CmdRun) => c.op == 2 && c.begun && !c.done && c.answer.isSome && cmdReleased s c
  let quiet := fun (s : State) (c : CmdRun) => c.op == 2 && c.begun && !c.done && c.answer.isNone && c.record.isNone && ctxWritesDone s c.ctx
  done .ctxcreate 1 any always zero (fun s c t => MemoryKept s t ∧ t.mgmt.pkg = (if s.mgmt.pkg = .idle then .leased else s.mgmt.pkg) ∧
    getCtx t c.ctx = { Ctx.init with
      st := .live, pasid := BitVec.ofNat 20 (field c.bytes 8 4), root := field c.bytes 16 8, deadlog := byteAt c.bytes 24 }) ∧
  (∀ s c, started s c 2 any → s.cmds.find? (ended s) = none → s.cmds.find? (quiet s) = none →
    ∃ t, exec .ctxdestroy s = .next t ∧ MemoryKept s t ∧ ∀ g ∈ t.gangs, g.2.ctx ≠ c.ctx) ∧
  (∀ s c, ringServed s = true → s.cmds.find? (ended s) = none → s.cmds.find? (quiet s) = some c →
    ∃ t, exec .ctxdestroy s = .next t ∧ MemoryKept s t ∧ (∀ e ∈ t.queues, queueOf e.2 c.ctx = true → e.2.slot = none) ∧
      ((∃ r ∈ t.rings, ∃ x ∈ r.2.waiting, x.seq = s.seq ∧ x.status = 11) ∨ ∃ x ∈ t.cmds, x.index = c.index ∧ x.answer = some (0, 0))) ∧
  (∀ s c, ringServed s = true → s.cmds.find? (ended s) = some c →
    ∃ t, exec .ctxdestroy s = .next (replyCmd c.index 0 0 t) ∧ MemoryKept s t ∧ (getCtx t c.ctx).st = .free) ∧
  done .winload 3 any always zero (fun _ c t => kget? (getCtx t c.ctx).windows (field c.bytes 8 1) =
    if (body c 16 8).getLsbD 63 then some (body c 16 8, body c 24 8, body c 32 8) else none) ∧
  (∀ s c s1, started s c 4 (fun bs => field bs 16 8 != 0) → (getQuarry s (quarry c)).mig = none → field c.bytes 16 8 % 256 = 0 →
    field c.bytes 16 8 < 2 ^ 57 → unitFailed s 11 (quarrySlab (setQuarry s (quarry c) { Quarry.init with desc := body c 16 8 }) (quarry c)) = false →
    bindQuarry c.ctx (byteAt c.bytes 8) (body c 16 8) c.step (endSteps (quarry c) s) = .ok (true, s1) →
    ∃ t, exec .qbind s = .next (finishCmd c 0 0 t) ∧ (getQuarry t (quarry c)).desc = body c 16 8 ∧
      kget? (getCtx t c.ctx).qslots (byteAt c.bytes 8) = some (body c 16 8)) ∧
  done .qbindUnbind 4 (fun bs => field bs 16 8 == 0) (fun s c => (getQuarry s (quarry c)).mig = none) zero (fun s c t => MemoryKept s t ∧
    (getQuarry t (quarry c)).desc = 0 ∧ kget? (getCtx t c.ctx).qslots (byteAt c.bytes 8) = none) ∧
  done .queueset 5 any (fun s c => let u := getQueue s (core c)
    unitFailed s 13 (core c) = false ∧ u.slot = none ∧ u.ridx = u.w ∧ u.runs = [] ∧ badQueueImage c.ctx (readBytes s.hostMem (field c.bytes 16 8) 64) = []) zero
    (fun s c t => let d := readBytes s.hostMem (field c.bytes 16 8) 64
      ∃ q, (getQueue t (core c)).desc = some q ∧ q.ring = BitVec.ofNat 64 (field d 0 8) ∧ q.rlog = byteAt d 8 ∧ q.prio = byteAt d 9 ∧
        q.ctx = byteAt d 10 ∧ q.evr = byteAt d 11 ∧ q.idle = field d 12 4 ∧ (getQueue t (core c)).ridx = BitVec.ofNat 64 (field d 16 8) ∧
        (getQueue t (core c)).w = BitVec.ofNat 64 (field d 16 8) ∧ (getQueue t (core c)).slot = none) ∧
  done .evrset 6 any (fun s c => (getRing s (byteAt c.bytes 8)).tail = (getRing s (byteAt c.bytes 8)).head ∧
    badRingImage (readBytes s.hostMem (field c.bytes 16 8) 32) = []) zero (fun s c t => let r := getRing t (byteAt c.bytes 8)
    r.set = true ∧ r.ctx = c.ctx ∧ r.base = BitVec.ofNat 64 (field (readBytes s.hostMem (field c.bytes 16 8) 32) 0 8) ∧ r.tail = 0 ∧ r.head = 0) ∧
  (∀ s c, started s c 7 any → ∃ t, exec .drain s = .next t ∧ MemoryKept s t ∧ (getCtx t c.ctx).draining =
    some { cmd := c.index, save := field c.bytes 16 8, size := field c.bytes 24 8, start := now s }) ∧
  (∀ s c, started s c 8 any →
    (∀ v, s.saves.reverse.find? (fun v => areaBytes s (field c.bytes 16 8) v.2.image.length == v.2.image) = some v →
      pasidHeld s c.ctx v.2.ctx.pasid = false → ∃ t, exec .restore s = .next (finishCmd c 0 0 t) ∧ MemoryKept s t ∧ (getCtx t c.ctx).st = .live ∧
        (getCtx t c.ctx).windows = v.2.ctx.windows ∧ (getCtx t c.ctx).root = v.2.ctx.root ∧ (getCtx t c.ctx).pasid = v.2.ctx.pasid) ∧
    (s.saves.reverse.find? (fun v => areaBytes s (field c.bytes 16 8) v.2.image.length == v.2.image) = none →
      exec .restore s = .next (finishCmd c 1 16 s))) ∧
  done .resume 9 any always zero (fun s c t => getCtx t c.ctx = { getCtx s c.ctx with st := .live }) ∧
  done .deadline 10 any (fun s c => (getCtx s c.ctx).draining = none) zero (fun s c t =>
    getCtx t c.ctx = { getCtx s c.ctx with deadlog := byteAt c.bytes 8 }) ∧
  (∀ s c, started s c 11 any → ∃ t, exec .tlbinv s = .next t ∧ MemoryKept s t ∧ ∃ x ∈ t.cmds, x.index = c.index ∧ x.op = 11 ∧
    x.begun = true ∧ x.done = c.done) ∧
  (∀ s i c, s.cmds.find? (fun c => c.index == i && c.op == 11 && c.begun && !c.done) = some c → ringServed s = true →
    (tlbSwept c s = false → ∃ t, exec (.tlbinvCompletion i) s = .next t ∧ MemoryKept s t ∧ ∃ x ∈ t.cmds, x.index = i ∧ x.op = 11 ∧ x.done = false) ∧
    (tlbSwept c s = true → tlbDrained c s = true → cmdReleased s c = true → ∃ t, exec (.tlbinvCompletion i) s = .next (replyCmd i 0 0 t) ∧
      MemoryKept s t ∧ ∀ l ∈ t.leaves, l.ctx = c.ctx →
        field c.bytes 16 8 + 2 ^ byteAt c.bytes 24 ≤ l.first ∨ l.first + 2 ^ l.log ≤ field c.bytes 16 8)) ∧
  (∀ p ∈ [(Instr.faultansReplay, 1, answerReplay), (.faultansReflect, 2, answerReflect), (.faultansKill, 3, answerKill),
      (.faultansEnd, 4, answerEnd)], ∀ s c, started s c 12 (answer p.2.1) →
    (pendingFault s (ansSeq c) = none → exec p.1 s = .next (finishCmd c 4 0 s)) ∧
    (∀ f, pendingFault s (ansSeq c) = some f → (acceptsAnswer f.kind p.2.1 = false → exec p.1 s = .next (finishCmd c 1 16 s)) ∧
      (acceptsAnswer f.kind p.2.1 = true → exec p.1 s = .next (finishCmd c 0 0
        (p.2.2 f { s with faults := s.faults.filter (fun x => x.seq != f.seq) }))))) ∧
  done .peerset 13 any always (fun s => (((List.range 18).filter (fun p => s.links.contains (.peer, p))).map (2 ^ ·)).foldl (· + ·) 0)
    (fun _ c t => (getCtx t c.ctx).peers = BitVec.ofNat 18 (field c.bytes 8 4)) ∧
  done .tierset 14 any always zero (fun _ c t => kget? t.tiers (field c.bytes 8 1) =
    if field c.bytes 24 8 = 0 then none else some (field c.bytes 16 8, field c.bytes 24 8)) ∧
  done .keyload 15 any always zero (fun s c t => kget? t.keys (core c) =
    some (BitVec.ofNat 512 (readLE s.hostMem (field c.bytes 16 8) 64))) ∧
  done .debugRelease 16 (action 0) always zero (fun _ c t => (getCore t (core c)).claimed = false) ∧
  done .debugClaim 16 (action 1) always zero (fun _ c t => (getCore t (core c)).claimed = true) ∧
  done .debugHalt 16 (action 2) (fun s c => (getCore s (core c)).claimed = true) zero (fun _ c t => (getCore t (core c)).halted = true) ∧
  done .debugResume 16 (action 3) (fun s c => (getCore s (core c)).claimed = true) zero (fun _ c t => (getCore t (core c)).halted = false) ∧
  done .debugResumeParked 16 (action 4) (fun s c => (getCore s (core c)).claimed = true) zero (fun s c t => t = resumeParked (core c) s) ∧
  done .perfsel 17 any always zero (fun _ c t => kget (getCore t (core c)).perfSel (byteAt c.bytes 10) 0 = byteAt c.bytes 11)

/-- Commands that a check turns away, and the reply of every command (R413, R414): a refused command changes nothing and is answered with its
status and DETAIL; the reply waits until every earlier write of the weighbridge, and of the context, is performed (a release at scope y); it then
writes STATUS and DETAIL over the command in host memory and sends DVEC. -/
def Obligations.CommandsRefused : Prop :=
  (∀ x ∈ [(Instr.ctxcreate, 1), (.winload, 3), (.queueset, 5), (.evrset, 6), (.drain, 7), (.restore, 8), (.resume, 9), (.deadline, 10),
      (.tlbinv, 11), (.peerset, 13), (.tierset, 14), (.keyload, 15), (.perfsel, 17)], ∀ s c r,
    startedCmd s x.2 (fun _ => true) = some c → ringServed s = true →
    (c.answer = none → refuseCmd s c = some r → (cmdReleased s c = true → exec x.1 s = .next (replyCmd c.index r.1 r.2 s)) ∧
      (cmdReleased s c = false → exec x.1 s = .next (putCmd { c with answer := some r } s))) ∧
    (c.answer = some r → cmdReleased s c = true → exec x.1 s = .next (replyCmd c.index r.1 r.2 s))) ∧
  (∀ s i st d, Memory.wf s.hostMem = true → st < 256 → d < 2 ^ 32 → let t := replyCmd i st d s
    t.mem = s.mem ∧ t.peerMem = s.peerMem ∧ t.outputs = s.outputs ++ [.interrupt s.port.dvec.toNat] ∧
    (readByte t.hostMem (cmdAddr s i + 56)).toNat = st ∧ readLE t.hostMem (cmdAddr s i + 60) 4 = d ∧
    ∀ a, a ≠ cmdAddr s i + 56 → (a < cmdAddr s i + 60 ∨ cmdAddr s i + 64 ≤ a) → readByte t.hostMem a = readByte s.hostMem a)

/-! ### The operator's view -/

/-- Resets, the management port and the attestation requests (R425 to R428, R433 to R437). The bytes of a reply beyond its command and
status, and the framing of MCTP and SPDM, are the model's (DESIGN CHOICE log 42), and so is BADOPERAND for a known command whose operands no row
carries (DESIGN CHOICE log 140); what a reset leaves beside what R426 and R427 say is DESIGN CHOICE log 43. -/
def Obligations.ManagementComplete : Prop :=
  let replies := fun (i : Instr) (cmd status : Nat) (s t : State) => ∃ d, exec i s = .next { t with
    outputs := s.outputs ++ [.management ([BitVec.ofNat 8 cmd, BitVec.ofNat 8 status] ++ d)] }
  let frames := fun (i : Instr) => ∀ s : State, ∃ bs, exec i s = .next { s with outputs := s.outputs ++ [.management bs] }
  (∀ s : State, ∃ t, exec .packageReset s = .next t ∧ MemoryKept s t ∧ t.mgmt.pkg = .rom ∧ t.seq = 1 ∧ t.tick = 0 ∧ t.gangs = [] ∧ t.ctxs = [] ∧
    t.queues = [] ∧ t.rings = [] ∧ t.cmds = [] ∧ t.mgmt.leasePending = s.mgmt.leasePending ∧ t.mgmt.nonce = s.mgmt.nonce ∧
    t.mgmt.record = s.mgmt.record ∧ t.mgmt.fenced = s.mgmt.fenced ∧ t.mgmt.leaseCount = s.mgmt.leaseCount) ∧
  (∀ (s : State) nonce flags, replies (.leasereset nonce flags) 1 0 s { s with
    mgmt := { s.mgmt with nonce := nonce, leaseFlags := flags, leasePending := true, resetting := true } }) ∧
  (∀ s, replies .status 2 0 s s) ∧
  (∀ s off len, replies (.getrecord off len) 3 (if 1 ≤ len ∧ len ≤ 256 ∧ off + len ≤ 3072 then 0 else 2) s s) ∧
  (∀ s : State, (s.mgmt.pkg ≠ .scrub → replies .fencemap 4 0 s s) ∧ (s.mgmt.pkg = .scrub → replies .fencemap 4 3 s s)) ∧
  (∀ (s : State) k i, s.mgmt.pkg ≠ .scrub → i < unitCount k →
    (∃ t, replies (.fencesetPin (kindCode k) i) 5 0 s t ∧ t.outputs = s.outputs ∧ MemoryKept s t ∧
      (k, i) ∈ t.mgmt.fenced ∧ (k, i) ∈ t.mgmt.pinned) ∧
    replies (.fencesetUnpin (kindCode k) i) 5 0 s { s with mgmt := { s.mgmt with pinned := s.mgmt.pinned.filter (· != (k, i)) } }) ∧
  (∀ (s : State) n i, let bad := 4 < n ∨ ∃ k, kindCode k = n ∧ unitCount k ≤ i
    (s.mgmt.pkg = .scrub → replies (.fencesetPin n i) 5 3 s s ∧ replies (.fencesetUnpin n i) 5 3 s s) ∧
    (s.mgmt.pkg ≠ .scrub → bad → replies (.fencesetPin n i) 5 2 s s ∧ replies (.fencesetUnpin n i) 5 2 s s)) ∧
  (∀ s slab, replies (.ageread slab) 6 (if slab < 4 then 0 else 2) s s) ∧
  (∀ (s : State) i, replies (.errlog i) 7 (if i < s.mgmt.errlog.length then 0 else 2) s s) ∧
  (∀ s off len, replies (.idcert off len) 8 (if 1 ≤ len ∧ len ≤ 256 then 0 else 2) s s) ∧
  (∀ (s : State) off data, s.mgmt.pkg = .idle → data.length = 256 → ∃ t, replies (.opimage off data) 9 0 s t ∧ MemoryKept s t ∧
    ∀ i < 256, kget? t.mgmt.slot0 (off + i) = data[i]?) ∧
  (∀ (s : State) off data, s.mgmt.pkg ≠ .idle → replies (.opimage off data) 9 3 s s) ∧
  (∀ s c, (c = 0 ∨ 9 < c.toNat) → replies (.unknownManagementCommand c) c.toNat 1 s s) ∧
  (∀ (s : State) (c : Byte), 1 ≤ c.toNat → c.toNat ≤ 9 → inState c.toNat s.mgmt.pkg = true → replies (.unknownManagementCommand c) c.toNat 2 s s) ∧
  (∀ msg, ∀ i ∈ [Instr.mctpControlMessage msg, .getVersion msg, .getCapabilities msg, .negotiateAlgorithms msg, .getDigests msg,
    .getCertificate msg, .challenge msg, .getMeasurements msg], frames i)

/-- Errors, scrubbing by the homes, ageing and links (R121, R421, R422, R434, R436, R437): a corrected error is logged and changes no byte, and
more than 1,024 of a unit in an hour fence it; a double-bit error poisons the sector that it strikes (what the log says of one outside memory is DESIGN
CHOICE log 44); an error in a function's control state fences it. -/
def Obligations.ErrorEventsComplete : Prop :=
  (∀ s k i pa, i < unitCount k → ∃ t, exec (.correctedError k i pa) s = .next t ∧ MemoryKept s t ∧
    let at_ := if k = .home then pa else 0
    ((countError k i (mergeError k i at_ s)).1 ≤ 1024 → ∃ e ∈ t.mgmt.errlog, e.event = 1 ∧ e.pa = at_ ∧ e.unit = i) ∧
    (1024 < (countError k i (mergeError k i at_ s)).1 → (k, i) ∈ t.mgmt.fenced)) ∧
  (∀ s pa, pa < 2 ^ 48 → ∃ t, exec (.uncorrectableDataError (.memory pa)) s = .next t ∧ MemoryKept s t ∧ poisonedAt t (pa / 128) = true ∧
    ∃ e ∈ t.mgmt.errlog, e.event = 2 ∧ e.pa = pa) ∧
  (∀ s gid off, (kget? s.gangs gid).isSome = true → ∃ t, exec (.uncorrectableDataError (.scratch gid off)) s = .next t ∧ MemoryKept s t ∧
    scratchPoisonAt (getGang t gid) off = true ∧ (getGang t gid).scratch = (getGang s gid).scratch ∧ ∃ e ∈ t.mgmt.errlog, e.event = 2) ∧
  (∀ s gid fid n, (kget? s.gangs gid).isSome = true → (kget? (getGang s gid).fibres fid).isSome = true → n < 256 →
    ∃ t, exec (.uncorrectableDataError (.register gid fid n)) s = .next t ∧ MemoryKept s t ∧
      readReg (fibreAt t gid fid) n = ((readReg (fibreAt s gid fid) n).1, true) ∧ ∃ e ∈ t.mgmt.errlog, e.event = 2) ∧
  (∀ s k i, i < unitCount k → ∃ t, exec (.controlStateError k i) s = .next t ∧ MemoryKept s t ∧ (k, i) ∈ t.mgmt.fenced) ∧
  (∀ s home, home < 256 → exec (.patrolScrub home) s = .next s) ∧
  (∀ (s : State) slab, slab < 4 → ∃ a, exec (.ageingUpdate slab) s = .next { s with
    mgmt := { s.mgmt with ageing := kset s.mgmt.ageing slab a } } ∧ 1 ≤ a.refresh ∧ a.refresh ≤ 8) ∧
  (∀ s k port up, port < (match k with | LinkKind.peer => 18 | .cxl => 4) → ∃ t, exec (.linkStateChange k port up) s = .next t ∧ MemoryKept s t ∧
    ((k, port) ∈ t.links ↔ up = true))

/-! ### Encoding -/

/-- Decoding undoes encoding (R236, R243 to R251): the word of every well-formed instruction, every field at every value that the encoding
admits, decodes to the instruction. -/
def Obligations.EncodedInstructionDecodes : Prop :=
  ∀ v i w, i.wf v = true → encode i = some w → decode v w = .ok i

/-- Every word that decodes is the word of the instruction it decodes to, which is well-formed: no two words mean one instruction, and every
bit of a legal word is read (R237). -/
def Obligations.DecodedWordEncodesBack : Prop :=
  ∀ v w i, decode v w = .ok i → i.wf v = true ∧ encode i = some w

/-- Words written out from the formats and the opcode map (R236, R243 to R251) decode to the instructions they stand for, and a word whose OPC
is 0x00, 0xFE or 0xFF decodes to none (R237). -/
def Obligations.SampleWordsDecode : Prop :=
  let h : Hdr := { gp := 0, gn := false, la := 0 }
  decode 3 0x900210604000_0B0000000400#96 = .ok (.ld {
    h := { h with la := 1 }, d := 6, a := 4, b := 0, c := 0, ty := .f32, sp := 0, rd := 0, pol := 0, ord := 0, sc := 0, ix := false, ixs := 0, off := 0x400 }) ∧
  decode 3 0x802B0000000000000000000A#96 = .ok (.bra { h := { h with gp := 2, gn := true }, d := 0, a := 0, mod := 0, tline := 1, tslot := 2 }) ∧
  decode 3 0x1E0100900002000040200000#96 = .ok (.movi { h := h, d := 9, a := 0, b := 0, ty := .i32, rm := 0, mod := 0, imm := 0x40200000 }) ∧
  decode 3 0x430000709060_7B0000000000#96 = .ok (.ffma {
    h := h, d := 7, a := 9, b := 6, c := 7, ty := .f32, rm := 0, mod := 0, tys := .i8, nan := false }) ∧
  decode 3 0xE10440008000000000000000#96 = .ok (.mxop { h := { h with la := 4 }, d := 0, a := 8, b := 0, c := 0, ty := .i8, mod := 0 }) ∧
  decode 3 0xCA050000A000094000000000#96 = .ok (.swarrive { h := h, d := 0, a := 10, b := 0, c := 0, ord := 2, sc := 1, sp := 1, mod := 0, low := 0 }) ∧
  decode 3 0xF60600A00000003000000000#96 = .ok (.csrr { h := h, d := 10, a := 0, b := 0, sel := 0x30, code := 0 }) ∧
  ∀ v (w : BitVec 96), (w.extractLsb' 88 8 = 0 ∨ w.extractLsb' 88 8 = 0xFE ∨ w.extractLsb' 88 8 = 0xFF) → decode v w = .error .unassigned

/-! ### The step, its invariant, and reset -/

/-- A step runs the decoded instruction (R39, R225, R234, R235, R386, R387): when the wave of the next turn may issue, no asynchronous cause is pending,
its line can be fetched and its slot decodes to an instruction, the step is the meaning of that instruction; in a pair the second slot may follow
it in the same cycle, or event 3 is counted; and the time that it takes passes. A turn of an event is the meaning of its row. Turns are the
model's way to say who moves next (DESIGN CHOICE log 1); that a slot runs as its home holds it then is DESIGN CHOICE log 6, and when a pair's second slot
counts as ready, and a slot that traps, are DEDUCED logs 104 and 66. After a turn the quarry units go on with their orders, the releases of failed tasks go
on, and beside that only the clock, the cycle counts and the times since which waves are ready change. -/
def Obligations.StepRunsDecodedInstruction : Prop :=
  (∀ s c w ts e i ia l, s.agenda = .wave c w :: ts → (getCore s c).halted = false → s.mgmt.resetting = false →
    let s0 := { s with agenda := ts }
    let s1 := asWave c w s0
    slotExpired s0 c w = false → envOf s1 = some e → pendingAsync e = none → checkWindow s1 e.g.ctx (lineOf e.pc) pathVec 4 = .ok ia →
    lineBits s1 e.g.ctx ia = .ok l → parityOk l = true → lineWord l &&& 0xFE00 = 0 →
    decode e.g.kernel.version (slotWord l (e.pc.toNat % 8)) = .ok i →
    (e.sl.handler.isSome = true ∨ selected e s1 = true ∨ issuesNow e s1 = false → step s = afterTurn (pairUp e s1 (exec i (touchFetch e s1))))) ∧
  (∀ e s r, (pairBit s e.g.ctx e.pc = false → pairUp e s r = r) ∧ ((∀ t, r ≠ .next t) → pairUp e s r = r) ∧
    ∀ t, r = .next t → pairUp e s r = .next t ∨ pairUp e s r = .next (perfEvent e.core 3 1 t) ∨
      ∃ u, pairable e s = true ∧ secondSlot e t = some u ∧ pairUp e s r = .next u) ∧
  (∀ s i ts, s.agenda = .event i :: ts → encode i = none → isWaveRow i = false → step s = afterTurn (exec i { s with agenda := ts })) ∧
  (∀ s, afterTurn (.next s) = .next (passTime s) ∧ passTime s = noteReady (passCycles (settleFlushes (serveQuarries s))) ∧
    ((∀ q ∈ s.quarries, q.2.ops = []) → serveQuarries s = s) ∧ ((∀ t ∈ s.tasks, t.2.flush = []) → settleFlushes s = s) ∧
    { passCycles s with steps := s.steps, phase := s.phase, cores := s.cores } = s ∧
    (∀ c, { getCore (passCycles s) c with perfCount := (getCore s c).perfCount } = getCore s c) ∧
    { noteReady s with slots := s.slots } = s ∧ ∀ k, { getSlot (noteReady s) k with readySince := (getSlot s k).readySince } = getSlot s k)

/-- Every step keeps the invariant: the memories and the scratchpad banks of every gang, saved ones among them, stay in their canonical form, so
that equal memories are equal data, and a tick has at most 128 cycles (R104). -/
def Obligations.StepKeepsInvariant : Prop :=
  ∀ s t, StateInv s → step s = .next t → StateInv t

/-- The machine after reset meets the invariant. -/
def Obligations.ResetMeetsInvariant : Prop := StateInv State.reset

/-- The machine after reset (R404, R405, R412, R425, R426): the ROM runs, every context is FREE, no queue and no event ring is set, no gang is
resident, and the sequence counter is 1. That no cycle has passed and no request is under way is DESIGN CHOICE log 2. -/
def Obligations.ResetState : Prop :=
  State.reset.mgmt.pkg = .rom ∧ State.reset.seq = 1 ∧ now State.reset = 0 ∧ State.reset.gangs = [] ∧ State.reset.reqs = [] ∧
  (∀ c, (getCtx State.reset c).st = .free) ∧ (∀ q, (getQueue State.reset q).desc = none) ∧ (∀ r, (getRing State.reset r).set = false) ∧
  (∀ k, (getSlot State.reset k).fids = [])

/-! ### Frames -/

/-- What a computing or cross-lane instruction leaves as it was (R11, R23, R239, R254): every fibre that does not execute, every register and predicate
that it does not name and no open window holds, the mode bits of FPMODE, every other fibre, gang, wave slot and core, all memory and the rest of
the machine. Of the executing fibres only the named registers and predicates, the flags, the PC, the windows and the progress count change. An SPXI with
a poisoned guard traps instead (R353). -/
def Obligations.ComputingFrame : Prop :=
  ∀ i uses regs preds h s e t, computing i = some (uses, regs, preds) → hdrOf i = some h → Issues false s e → Live e →
    RegsOk e (executing h e) uses → (∀ f, i = .spxi f → GuardsClean h e) → exec i s = .next t →
    OutsideKept s t ∧ OthersKept e s t ∧ (∀ fid ∈ executing h e, FibreKept regs (preds.filter (0 < ·)) (getFibre e.g fid) (fibreAt t e.gid fid)) ∧
    (∀ fid ∈ e.fids, fid ∉ executing h e → FibreKept [] [] (getFibre e.g fid) (fibreAt t e.gid fid))

/-- What an instruction of the memory, sync-word and task-queue families leaves as it was (R83, R105, R216, R239, R312 to R329, R336 to R342), whether it
retires, waits or traps: every byte of device, host and peer memory, since a store's bytes are written at their home later, but for the A bit of a
leaf whose translation showed a trap's poison; and of every fibre that still lives, every register and predicate that no open window holds, for
a load's result comes with its reply. -/
def Obligations.MemoryFrame : Prop :=
  ∀ i s e t, memoryForm i = true → Issues false s e → e.sl.txn = none → exec i s = .next t →
    MemoryKeptButA s t ∧ (NoPoisonSeen s e → MemoryKept s t) ∧
    ∀ gid fid, (kget? (getGang t gid).fibres fid).isSome = true → RegistersKept (fibreAt s gid fid) (fibreAt t gid fid)

/-- A register outside a lane's window, or a pair or quad that is not aligned, is ILLEGAL for that lane (R24): the trap is taken for the
lanes that break the rule, TRAPVAL holds a register number that breaks it, and nothing is written. -/
def Obligations.RegisterOutsideWindowTraps : Prop :=
  ∀ i uses regs preds h s e, computing i = some (uses, regs, preds) → hdrOf i = some h → Issues false s e → CanTrap s e →
    let bad := (executing h e).filter (fun fid => uses.any (fun u => decide (u.1 % u.2 ≠ 0) || decide ((getFibre e.g fid).win ≤ u.1)))
    bad ≠ [] → ∃ t, exec i s = .next t ∧ (getSlot t e.key).trapcause = 2 ∧ (getSlot t e.key).traplanes = laneMask bad ∧
      (getSlot t e.key).trappc = e.pc ∧ (getSlot t e.key).handler = some (freshHandler e (laneMask bad)) ∧
      t.gangs = (releasesForgotten e s).gangs ∧ MemoryKept s t ∧
      ∃ fid ∈ bad, ∃ u ∈ uses, (u.1 % u.2 ≠ 0 ∨ (getFibre e.g fid).win ≤ u.1) ∧ (getSlot t e.key).trapval = BitVec.ofNat 64 u.1
end

