-- ==== Sys2Proof/Laws/Maps.lean ====
section
/-! SUPPORT. Sys2Proof/Laws/Maps.lean: tables and byte memory: a read after a write, writes elsewhere, and the canonical form. -/
namespace Sys2Proof.Machine

/-! ### Tables -/

@[simp] theorem kget?_kset_same {α : Type} (m : KMap α) (n : Nat) (v : α) : kget? (kset m n v) n = some v := by
  induction m with
  | nil => simp [kset, kget?]
  | cons e m ih => simp only [kset]; split <;> [simp [kget?]; (split <;> simp_all [kget?])]

@[simp] theorem kget?_kset_ne {α : Type} (m : KMap α) (n k : Nat) (v : α) (h : k ≠ n) : kget? (kset m n v) k = kget? m k := by
  induction m with
  | nil => simp [kset, kget?, Ne.symm h]
  | cons e m ih =>
    simp only [kset]
    split
    · simp [kget?, Ne.symm h]
    · split
      · rename_i hk; subst hk; simp [kget?, Ne.symm h]
      · simp [kget?, ih]

@[simp] theorem kget_kset_same {α : Type} (m : KMap α) (n : Nat) (v d : α) : kget (kset m n v) n d = v := by simp [kget]

@[simp] theorem kget_kset_ne {α : Type} (m : KMap α) (n k : Nat) (v d : α) (h : k ≠ n) : kget (kset m n v) k d = kget m k d := by
  simp [kget, h]

/-- A map over the values, seen through one key. -/
theorem kget?_map {α : Type} (m : KMap α) (f : Nat → α → α) (n : Nat) :
    kget? (m.map (fun e => (e.1, f e.1 e.2))) n = (kget? m n).map (f n) := by
  induction m with
  | nil => rfl
  | cons e m ih =>
    by_cases h : e.1 = n
    · subst h; simp [kget?]
    · simp [kget?, h, ih]

theorem kget?_mem {α : Type} {m : KMap α} {n : Nat} {v : α} (h : kget? m n = some v) : (n, v) ∈ m := by
  induction m with
  | nil => simp [kget?] at h
  | cons e m ih =>
    simp only [kget?] at h
    split at h
    · rename_i hk; cases h; subst hk; simp
    · exact List.mem_cons_of_mem _ (ih h)

/-! ### Byte memory -/

theorem readByte_below {m : Mem} {lo n : Nat} (h : memWfFrom lo m = true) (hn : n < lo) : readByte m n = memDefault := by
  induction m generalizing lo with
  | nil => rfl
  | cons c m ih =>
    simp only [memWfFrom, Bool.and_eq_true, decide_eq_true_eq] at h
    simp only [readByte]
    rw [if_neg (by omega)]
    exact ih h.2 (by omega)

theorem memWfFrom_mono {m : Mem} {lo lo' : Nat} (h : memWfFrom lo m = true) (hl : lo' ≤ lo) : memWfFrom lo' m = true := by
  cases m with
  | nil => rfl
  | cons c m =>
    simp only [memWfFrom, Bool.and_eq_true, decide_eq_true_eq] at h ⊢
    exact ⟨⟨by omega, h.1.2⟩, h.2⟩

/-- A write keeps the canonical form. -/
theorem memWfFrom_writeByte {m : Mem} {lo n : Nat} (v : Byte) (h : memWfFrom lo m = true) (hn : lo ≤ n) :
    memWfFrom lo (writeByte m n v) = true := by
  induction m generalizing lo with
  | nil => simp only [writeByte]; split <;> simp [memWfFrom, *]
  | cons c m ih =>
    simp only [memWfFrom, Bool.and_eq_true, decide_eq_true_eq] at h
    simp only [writeByte]
    split
    · split
      · simp [memWfFrom, h]
      · simp only [memWfFrom, Bool.and_eq_true, decide_eq_true_eq]
        exact ⟨⟨hn, by assumption⟩, ⟨⟨by omega, h.1.2⟩, h.2⟩⟩
    · split
      · split
        · exact memWfFrom_mono h.2 (by omega)
        · simp only [memWfFrom, Bool.and_eq_true, decide_eq_true_eq]
          rename_i he _
          exact ⟨⟨hn, by assumption⟩, by subst he; exact h.2⟩
      · simp only [memWfFrom, Bool.and_eq_true, decide_eq_true_eq]
        exact ⟨h.1, ih h.2 (by omega)⟩

theorem writeByte_wf {m : Mem} (a : Nat) (v : Byte) (h : Memory.wf m = true) : Memory.wf (writeByte m a v) = true :=
  memWfFrom_writeByte v h (Nat.zero_le _)

theorem writeBytes_wf (bs : List Byte) {m : Mem} (a : Nat) (h : Memory.wf m = true) : Memory.wf (writeBytes m a bs) = true := by
  induction bs generalizing m a with
  | nil => exact h
  | cons b bs ih => exact ih _ (writeByte_wf _ _ h)

theorem writeLE_wf {m : Mem} (a n v : Nat) (h : Memory.wf m = true) : Memory.wf (writeLE m a n v) = true := writeBytes_wf _ _ h

theorem foldl_wf {α : Type} (l : List α) (f : Mem → α → Mem) (hf : ∀ m x, Memory.wf m = true → Memory.wf (f m x) = true) {m : Mem}
    (h : Memory.wf m = true) : Memory.wf (l.foldl f m) = true := by
  induction l generalizing m with
  | nil => exact h
  | cons x l ih => exact ih (hf _ _ h)

theorem writeSector_wf {m : Mem} (base : Nat) (mask : BitVec 128) (d : BitVec 1024) (h : Memory.wf m = true) :
    Memory.wf (writeSector m base mask d) = true := by
  unfold writeSector
  exact foldl_wf _ _ (fun m i hm => by split <;> [exact writeByte_wf _ _ hm; exact hm]) h

/-- Dropping entries keeps the canonical form. -/
theorem memWfFrom_filter {m : Mem} {lo : Nat} (p : Host.Cell → Bool) (h : memWfFrom lo m = true) : memWfFrom lo (m.filter p) = true := by
  induction m generalizing lo with
  | nil => rfl
  | cons c m ih =>
    simp only [memWfFrom, Bool.and_eq_true, decide_eq_true_eq] at h
    simp only [List.filter]
    split
    · simp only [memWfFrom, Bool.and_eq_true, decide_eq_true_eq]; exact ⟨h.1, ih h.2⟩
    · exact ih (memWfFrom_mono h.2 (by omega))

theorem filter_wf {m : Mem} (p : Host.Cell → Bool) (h : Memory.wf m = true) : Memory.wf (m.filter p) = true := memWfFrom_filter p h

/-- A read of the byte just written. -/
theorem memWfFrom_read_same {m : Mem} {lo n : Nat} (v : Byte) (h : memWfFrom lo m = true) : readByte (writeByte m n v) n = v := by
  induction m generalizing lo with
  | nil => simp only [writeByte]; split <;> simp_all [readByte]
  | cons c m ih =>
    simp only [memWfFrom, Bool.and_eq_true, decide_eq_true_eq] at h
    simp only [writeByte]
    split
    · split
      · rename_i h1 h2
        simp only [readByte]
        rw [if_neg (by omega), readByte_below h.2 (by omega), h2]
      · simp [readByte]
    · split
      · split
        · rename_i h2 h3
          rw [readByte_below h.2 (by omega), h3]
        · simp [readByte]
      · rename_i h1 h2
        simp only [readByte]
        rw [if_neg h2]
        exact ih h.2

theorem readByte_writeByte_same {m : Mem} (n : Nat) (v : Byte) (h : Memory.wf m = true) : readByte (writeByte m n v) n = v :=
  memWfFrom_read_same v h

/-- A write leaves every other byte alone. -/
theorem readByte_writeByte_ne (m : Mem) {n k : Nat} (v : Byte) (hk : k ≠ n) : readByte (writeByte m n v) k = readByte m k := by
  induction m with
  | nil => simp only [writeByte]; split <;> simp [readByte, Ne.symm hk]
  | cons c m ih =>
    simp only [writeByte]
    split
    · split <;> simp [readByte, Ne.symm hk]
    · split
      · rename_i h2
        split
        · simp [readByte, h2, Ne.symm hk]
        · simp [readByte, h2, Ne.symm hk]
      · simp only [readByte, ih]

/-- Bytes outside a run of written bytes. -/
theorem readByte_writeBytes_out (bs : List Byte) (m : Mem) (a : Nat) {k : Nat} (hk : k < a ∨ a + bs.length ≤ k) :
    readByte (writeBytes m a bs) k = readByte m k := by
  induction bs generalizing m a with
  | nil => rfl
  | cons b bs ih =>
    simp only [List.length_cons] at hk
    rw [writeBytes, ih _ _ (by omega), readByte_writeByte_ne _ _ (by omega)]

/-- The bytes of a run of written bytes. -/
theorem readByte_writeBytes_in (bs : List Byte) {m : Mem} (a i : Nat) (h : Memory.wf m = true) (hi : i < bs.length) :
    readByte (writeBytes m a bs) (a + i) = bs[i] := by
  induction bs generalizing m a i with
  | nil => simp at hi
  | cons b bs ih =>
    cases i with
    | zero =>
      rw [writeBytes, readByte_writeBytes_out _ _ _ (by omega)]
      simpa using readByte_writeByte_same a b h
    | succ i =>
      have := ih (m := writeByte m a b) (a + 1) i (writeByte_wf _ _ h) (by simpa using hi)
      simpa [writeBytes, Nat.add_assoc, Nat.add_comm 1 i] using this

end Sys2Proof.Machine
end

