-- ==== Sys2Proof/Laws/State.lean ====
section
/-! SUPPORT. Sys2Proof/Laws/State.lean: what each update of a table of the state leaves and sets, field by field. -/
namespace Sys2Proof.Machine


/-! ### setCore -/

@[simp] theorem setCore_agenda (s : State) (c : Nat) (v : Core) : (setCore s c v).agenda = s.agenda := rfl
@[simp] theorem setCore_cur (s : State) (c : Nat) (v : Core) : (setCore s c v).cur = s.cur := rfl
@[simp] theorem setCore_steps (s : State) (c : Nat) (v : Core) : (setCore s c v).steps = s.steps := rfl
@[simp] theorem setCore_tick (s : State) (c : Nat) (v : Core) : (setCore s c v).tick = s.tick := rfl
@[simp] theorem setCore_phase (s : State) (c : Nat) (v : Core) : (setCore s c v).phase = s.phase := rfl
@[simp] theorem setCore_ids (s : State) (c : Nat) (v : Core) : (setCore s c v).ids = s.ids := rfl
@[simp] theorem setCore_seq (s : State) (c : Nat) (v : Core) : (setCore s c v).seq = s.seq := rfl
@[simp] theorem setCore_cores (s : State) (c : Nat) (v : Core) : (setCore s c v).cores = kset s.cores c v := rfl
@[simp] theorem setCore_slots (s : State) (c : Nat) (v : Core) : (setCore s c v).slots = s.slots := rfl
@[simp] theorem setCore_clusters (s : State) (c : Nat) (v : Core) : (setCore s c v).clusters = s.clusters := rfl
@[simp] theorem setCore_gangs (s : State) (c : Nat) (v : Core) : (setCore s c v).gangs = s.gangs := rfl
@[simp] theorem setCore_crews (s : State) (c : Nat) (v : Core) : (setCore s c v).crews = s.crews := rfl
@[simp] theorem setCore_tasks (s : State) (c : Nat) (v : Core) : (setCore s c v).tasks = s.tasks := rfl
@[simp] theorem setCore_launches (s : State) (c : Nat) (v : Core) : (setCore s c v).launches = s.launches := rfl
@[simp] theorem setCore_sleepers (s : State) (c : Nat) (v : Core) : (setCore s c v).sleepers = s.sleepers := rfl
@[simp] theorem setCore_wakes (s : State) (c : Nat) (v : Core) : (setCore s c v).wakes = s.wakes := rfl
@[simp] theorem setCore_drains (s : State) (c : Nat) (v : Core) : (setCore s c v).drains = s.drains := rfl
@[simp] theorem setCore_packets (s : State) (c : Nat) (v : Core) : (setCore s c v).packets = s.packets := rfl
@[simp] theorem setCore_acks (s : State) (c : Nat) (v : Core) : (setCore s c v).acks = s.acks := rfl
@[simp] theorem setCore_quarries (s : State) (c : Nat) (v : Core) : (setCore s c v).quarries = s.quarries := rfl
@[simp] theorem setCore_mem (s : State) (c : Nat) (v : Core) : (setCore s c v).mem = s.mem := rfl
@[simp] theorem setCore_hostMem (s : State) (c : Nat) (v : Core) : (setCore s c v).hostMem = s.hostMem := rfl
@[simp] theorem setCore_peerMem (s : State) (c : Nat) (v : Core) : (setCore s c v).peerMem = s.peerMem := rfl
@[simp] theorem setCore_poison (s : State) (c : Nat) (v : Core) : (setCore s c v).poison = s.poison := rfl
@[simp] theorem setCore_peerPoison (s : State) (c : Nat) (v : Core) : (setCore s c v).peerPoison = s.peerPoison := rfl
@[simp] theorem setCore_sectorKeys (s : State) (c : Nat) (v : Core) : (setCore s c v).sectorKeys = s.sectorKeys := rfl
@[simp] theorem setCore_keys (s : State) (c : Nat) (v : Core) : (setCore s c v).keys = s.keys := rfl
@[simp] theorem setCore_leaves (s : State) (c : Nat) (v : Core) : (setCore s c v).leaves = s.leaves := rfl
@[simp] theorem setCore_lines (s : State) (c : Nat) (v : Core) : (setCore s c v).lines = s.lines := rfl
@[simp] theorem setCore_refill (s : State) (c : Nat) (v : Core) : (setCore s c v).refill = s.refill := rfl
@[simp] theorem setCore_stamps (s : State) (c : Nat) (v : Core) : (setCore s c v).stamps = s.stamps := rfl
@[simp] theorem setCore_l1 (s : State) (c : Nat) (v : Core) : (setCore s c v).l1 = s.l1 := rfl
@[simp] theorem setCore_wcb (s : State) (c : Nat) (v : Core) : (setCore s c v).wcb = s.wcb := rfl
@[simp] theorem setCore_slabs (s : State) (c : Nat) (v : Core) : (setCore s c v).slabs = s.slabs := rfl
@[simp] theorem setCore_bridge (s : State) (c : Nat) (v : Core) : (setCore s c v).bridge = s.bridge := rfl
@[simp] theorem setCore_stable (s : State) (c : Nat) (v : Core) : (setCore s c v).stable = s.stable := rfl
@[simp] theorem setCore_held (s : State) (c : Nat) (v : Core) : (setCore s c v).held = s.held := rfl
@[simp] theorem setCore_applied (s : State) (c : Nat) (v : Core) : (setCore s c v).applied = s.applied := rfl
@[simp] theorem setCore_reqs (s : State) (c : Nat) (v : Core) : (setCore s c v).reqs = s.reqs := rfl
@[simp] theorem setCore_ctxs (s : State) (c : Nat) (v : Core) : (setCore s c v).ctxs = s.ctxs := rfl
@[simp] theorem setCore_saves (s : State) (c : Nat) (v : Core) : (setCore s c v).saves = s.saves := rfl
@[simp] theorem setCore_tiers (s : State) (c : Nat) (v : Core) : (setCore s c v).tiers = s.tiers := rfl
@[simp] theorem setCore_links (s : State) (c : Nat) (v : Core) : (setCore s c v).links = s.links := rfl
@[simp] theorem setCore_queues (s : State) (c : Nat) (v : Core) : (setCore s c v).queues = s.queues := rfl
@[simp] theorem setCore_rings (s : State) (c : Nat) (v : Core) : (setCore s c v).rings = s.rings := rfl
@[simp] theorem setCore_port (s : State) (c : Nat) (v : Core) : (setCore s c v).port = s.port := rfl
@[simp] theorem setCore_cmds (s : State) (c : Nat) (v : Core) : (setCore s c v).cmds = s.cmds := rfl
@[simp] theorem setCore_faultsOut (s : State) (c : Nat) (v : Core) : (setCore s c v).faultsOut = s.faultsOut := rfl
@[simp] theorem setCore_faults (s : State) (c : Nat) (v : Core) : (setCore s c v).faults = s.faults := rfl
@[simp] theorem setCore_mgmt (s : State) (c : Nat) (v : Core) : (setCore s c v).mgmt = s.mgmt := rfl
@[simp] theorem setCore_outputs (s : State) (c : Nat) (v : Core) : (setCore s c v).outputs = s.outputs := rfl
@[simp] theorem setCore_dropped (s : State) (c : Nat) (v : Core) : (setCore s c v).dropped = s.dropped := rfl

/-! ### setSlot -/

@[simp] theorem setSlot_agenda (s : State) (c : Nat) (v : Slot) : (setSlot s c v).agenda = s.agenda := rfl
@[simp] theorem setSlot_cur (s : State) (c : Nat) (v : Slot) : (setSlot s c v).cur = s.cur := rfl
@[simp] theorem setSlot_steps (s : State) (c : Nat) (v : Slot) : (setSlot s c v).steps = s.steps := rfl
@[simp] theorem setSlot_tick (s : State) (c : Nat) (v : Slot) : (setSlot s c v).tick = s.tick := rfl
@[simp] theorem setSlot_phase (s : State) (c : Nat) (v : Slot) : (setSlot s c v).phase = s.phase := rfl
@[simp] theorem setSlot_ids (s : State) (c : Nat) (v : Slot) : (setSlot s c v).ids = s.ids := rfl
@[simp] theorem setSlot_seq (s : State) (c : Nat) (v : Slot) : (setSlot s c v).seq = s.seq := rfl
@[simp] theorem setSlot_cores (s : State) (c : Nat) (v : Slot) : (setSlot s c v).cores = s.cores := rfl
@[simp] theorem setSlot_slots (s : State) (c : Nat) (v : Slot) : (setSlot s c v).slots = kset s.slots c v := rfl
@[simp] theorem setSlot_clusters (s : State) (c : Nat) (v : Slot) : (setSlot s c v).clusters = s.clusters := rfl
@[simp] theorem setSlot_gangs (s : State) (c : Nat) (v : Slot) : (setSlot s c v).gangs = s.gangs := rfl
@[simp] theorem setSlot_crews (s : State) (c : Nat) (v : Slot) : (setSlot s c v).crews = s.crews := rfl
@[simp] theorem setSlot_tasks (s : State) (c : Nat) (v : Slot) : (setSlot s c v).tasks = s.tasks := rfl
@[simp] theorem setSlot_launches (s : State) (c : Nat) (v : Slot) : (setSlot s c v).launches = s.launches := rfl
@[simp] theorem setSlot_sleepers (s : State) (c : Nat) (v : Slot) : (setSlot s c v).sleepers = s.sleepers := rfl
@[simp] theorem setSlot_wakes (s : State) (c : Nat) (v : Slot) : (setSlot s c v).wakes = s.wakes := rfl
@[simp] theorem setSlot_drains (s : State) (c : Nat) (v : Slot) : (setSlot s c v).drains = s.drains := rfl
@[simp] theorem setSlot_packets (s : State) (c : Nat) (v : Slot) : (setSlot s c v).packets = s.packets := rfl
@[simp] theorem setSlot_acks (s : State) (c : Nat) (v : Slot) : (setSlot s c v).acks = s.acks := rfl
@[simp] theorem setSlot_quarries (s : State) (c : Nat) (v : Slot) : (setSlot s c v).quarries = s.quarries := rfl
@[simp] theorem setSlot_mem (s : State) (c : Nat) (v : Slot) : (setSlot s c v).mem = s.mem := rfl
@[simp] theorem setSlot_hostMem (s : State) (c : Nat) (v : Slot) : (setSlot s c v).hostMem = s.hostMem := rfl
@[simp] theorem setSlot_peerMem (s : State) (c : Nat) (v : Slot) : (setSlot s c v).peerMem = s.peerMem := rfl
@[simp] theorem setSlot_poison (s : State) (c : Nat) (v : Slot) : (setSlot s c v).poison = s.poison := rfl
@[simp] theorem setSlot_peerPoison (s : State) (c : Nat) (v : Slot) : (setSlot s c v).peerPoison = s.peerPoison := rfl
@[simp] theorem setSlot_sectorKeys (s : State) (c : Nat) (v : Slot) : (setSlot s c v).sectorKeys = s.sectorKeys := rfl
@[simp] theorem setSlot_keys (s : State) (c : Nat) (v : Slot) : (setSlot s c v).keys = s.keys := rfl
@[simp] theorem setSlot_leaves (s : State) (c : Nat) (v : Slot) : (setSlot s c v).leaves = s.leaves := rfl
@[simp] theorem setSlot_lines (s : State) (c : Nat) (v : Slot) : (setSlot s c v).lines = s.lines := rfl
@[simp] theorem setSlot_refill (s : State) (c : Nat) (v : Slot) : (setSlot s c v).refill = s.refill := rfl
@[simp] theorem setSlot_stamps (s : State) (c : Nat) (v : Slot) : (setSlot s c v).stamps = s.stamps := rfl
@[simp] theorem setSlot_l1 (s : State) (c : Nat) (v : Slot) : (setSlot s c v).l1 = s.l1 := rfl
@[simp] theorem setSlot_wcb (s : State) (c : Nat) (v : Slot) : (setSlot s c v).wcb = s.wcb := rfl
@[simp] theorem setSlot_slabs (s : State) (c : Nat) (v : Slot) : (setSlot s c v).slabs = s.slabs := rfl
@[simp] theorem setSlot_bridge (s : State) (c : Nat) (v : Slot) : (setSlot s c v).bridge = s.bridge := rfl
@[simp] theorem setSlot_stable (s : State) (c : Nat) (v : Slot) : (setSlot s c v).stable = s.stable := rfl
@[simp] theorem setSlot_held (s : State) (c : Nat) (v : Slot) : (setSlot s c v).held = s.held := rfl
@[simp] theorem setSlot_applied (s : State) (c : Nat) (v : Slot) : (setSlot s c v).applied = s.applied := rfl
@[simp] theorem setSlot_reqs (s : State) (c : Nat) (v : Slot) : (setSlot s c v).reqs = s.reqs := rfl
@[simp] theorem setSlot_ctxs (s : State) (c : Nat) (v : Slot) : (setSlot s c v).ctxs = s.ctxs := rfl
@[simp] theorem setSlot_saves (s : State) (c : Nat) (v : Slot) : (setSlot s c v).saves = s.saves := rfl
@[simp] theorem setSlot_tiers (s : State) (c : Nat) (v : Slot) : (setSlot s c v).tiers = s.tiers := rfl
@[simp] theorem setSlot_links (s : State) (c : Nat) (v : Slot) : (setSlot s c v).links = s.links := rfl
@[simp] theorem setSlot_queues (s : State) (c : Nat) (v : Slot) : (setSlot s c v).queues = s.queues := rfl
@[simp] theorem setSlot_rings (s : State) (c : Nat) (v : Slot) : (setSlot s c v).rings = s.rings := rfl
@[simp] theorem setSlot_port (s : State) (c : Nat) (v : Slot) : (setSlot s c v).port = s.port := rfl
@[simp] theorem setSlot_cmds (s : State) (c : Nat) (v : Slot) : (setSlot s c v).cmds = s.cmds := rfl
@[simp] theorem setSlot_faultsOut (s : State) (c : Nat) (v : Slot) : (setSlot s c v).faultsOut = s.faultsOut := rfl
@[simp] theorem setSlot_faults (s : State) (c : Nat) (v : Slot) : (setSlot s c v).faults = s.faults := rfl
@[simp] theorem setSlot_mgmt (s : State) (c : Nat) (v : Slot) : (setSlot s c v).mgmt = s.mgmt := rfl
@[simp] theorem setSlot_outputs (s : State) (c : Nat) (v : Slot) : (setSlot s c v).outputs = s.outputs := rfl
@[simp] theorem setSlot_dropped (s : State) (c : Nat) (v : Slot) : (setSlot s c v).dropped = s.dropped := rfl

/-! ### setGang -/

@[simp] theorem setGang_agenda (s : State) (c : Nat) (v : Gang) : (setGang s c v).agenda = s.agenda := rfl
@[simp] theorem setGang_cur (s : State) (c : Nat) (v : Gang) : (setGang s c v).cur = s.cur := rfl
@[simp] theorem setGang_steps (s : State) (c : Nat) (v : Gang) : (setGang s c v).steps = s.steps := rfl
@[simp] theorem setGang_tick (s : State) (c : Nat) (v : Gang) : (setGang s c v).tick = s.tick := rfl
@[simp] theorem setGang_phase (s : State) (c : Nat) (v : Gang) : (setGang s c v).phase = s.phase := rfl
@[simp] theorem setGang_ids (s : State) (c : Nat) (v : Gang) : (setGang s c v).ids = s.ids := rfl
@[simp] theorem setGang_seq (s : State) (c : Nat) (v : Gang) : (setGang s c v).seq = s.seq := rfl
@[simp] theorem setGang_cores (s : State) (c : Nat) (v : Gang) : (setGang s c v).cores = s.cores := rfl
@[simp] theorem setGang_slots (s : State) (c : Nat) (v : Gang) : (setGang s c v).slots = s.slots := rfl
@[simp] theorem setGang_clusters (s : State) (c : Nat) (v : Gang) : (setGang s c v).clusters = s.clusters := rfl
@[simp] theorem setGang_gangs (s : State) (c : Nat) (v : Gang) : (setGang s c v).gangs = kset s.gangs c v := rfl
@[simp] theorem setGang_crews (s : State) (c : Nat) (v : Gang) : (setGang s c v).crews = s.crews := rfl
@[simp] theorem setGang_tasks (s : State) (c : Nat) (v : Gang) : (setGang s c v).tasks = s.tasks := rfl
@[simp] theorem setGang_launches (s : State) (c : Nat) (v : Gang) : (setGang s c v).launches = s.launches := rfl
@[simp] theorem setGang_sleepers (s : State) (c : Nat) (v : Gang) : (setGang s c v).sleepers = s.sleepers := rfl
@[simp] theorem setGang_wakes (s : State) (c : Nat) (v : Gang) : (setGang s c v).wakes = s.wakes := rfl
@[simp] theorem setGang_drains (s : State) (c : Nat) (v : Gang) : (setGang s c v).drains = s.drains := rfl
@[simp] theorem setGang_packets (s : State) (c : Nat) (v : Gang) : (setGang s c v).packets = s.packets := rfl
@[simp] theorem setGang_acks (s : State) (c : Nat) (v : Gang) : (setGang s c v).acks = s.acks := rfl
@[simp] theorem setGang_quarries (s : State) (c : Nat) (v : Gang) : (setGang s c v).quarries = s.quarries := rfl
@[simp] theorem setGang_mem (s : State) (c : Nat) (v : Gang) : (setGang s c v).mem = s.mem := rfl
@[simp] theorem setGang_hostMem (s : State) (c : Nat) (v : Gang) : (setGang s c v).hostMem = s.hostMem := rfl
@[simp] theorem setGang_peerMem (s : State) (c : Nat) (v : Gang) : (setGang s c v).peerMem = s.peerMem := rfl
@[simp] theorem setGang_poison (s : State) (c : Nat) (v : Gang) : (setGang s c v).poison = s.poison := rfl
@[simp] theorem setGang_peerPoison (s : State) (c : Nat) (v : Gang) : (setGang s c v).peerPoison = s.peerPoison := rfl
@[simp] theorem setGang_sectorKeys (s : State) (c : Nat) (v : Gang) : (setGang s c v).sectorKeys = s.sectorKeys := rfl
@[simp] theorem setGang_keys (s : State) (c : Nat) (v : Gang) : (setGang s c v).keys = s.keys := rfl
@[simp] theorem setGang_leaves (s : State) (c : Nat) (v : Gang) : (setGang s c v).leaves = s.leaves := rfl
@[simp] theorem setGang_lines (s : State) (c : Nat) (v : Gang) : (setGang s c v).lines = s.lines := rfl
@[simp] theorem setGang_refill (s : State) (c : Nat) (v : Gang) : (setGang s c v).refill = s.refill := rfl
@[simp] theorem setGang_stamps (s : State) (c : Nat) (v : Gang) : (setGang s c v).stamps = s.stamps := rfl
@[simp] theorem setGang_l1 (s : State) (c : Nat) (v : Gang) : (setGang s c v).l1 = s.l1 := rfl
@[simp] theorem setGang_wcb (s : State) (c : Nat) (v : Gang) : (setGang s c v).wcb = s.wcb := rfl
@[simp] theorem setGang_slabs (s : State) (c : Nat) (v : Gang) : (setGang s c v).slabs = s.slabs := rfl
@[simp] theorem setGang_bridge (s : State) (c : Nat) (v : Gang) : (setGang s c v).bridge = s.bridge := rfl
@[simp] theorem setGang_stable (s : State) (c : Nat) (v : Gang) : (setGang s c v).stable = s.stable := rfl
@[simp] theorem setGang_held (s : State) (c : Nat) (v : Gang) : (setGang s c v).held = s.held := rfl
@[simp] theorem setGang_applied (s : State) (c : Nat) (v : Gang) : (setGang s c v).applied = s.applied := rfl
@[simp] theorem setGang_reqs (s : State) (c : Nat) (v : Gang) : (setGang s c v).reqs = s.reqs := rfl
@[simp] theorem setGang_ctxs (s : State) (c : Nat) (v : Gang) : (setGang s c v).ctxs = s.ctxs := rfl
@[simp] theorem setGang_saves (s : State) (c : Nat) (v : Gang) : (setGang s c v).saves = s.saves := rfl
@[simp] theorem setGang_tiers (s : State) (c : Nat) (v : Gang) : (setGang s c v).tiers = s.tiers := rfl
@[simp] theorem setGang_links (s : State) (c : Nat) (v : Gang) : (setGang s c v).links = s.links := rfl
@[simp] theorem setGang_queues (s : State) (c : Nat) (v : Gang) : (setGang s c v).queues = s.queues := rfl
@[simp] theorem setGang_rings (s : State) (c : Nat) (v : Gang) : (setGang s c v).rings = s.rings := rfl
@[simp] theorem setGang_port (s : State) (c : Nat) (v : Gang) : (setGang s c v).port = s.port := rfl
@[simp] theorem setGang_cmds (s : State) (c : Nat) (v : Gang) : (setGang s c v).cmds = s.cmds := rfl
@[simp] theorem setGang_faultsOut (s : State) (c : Nat) (v : Gang) : (setGang s c v).faultsOut = s.faultsOut := rfl
@[simp] theorem setGang_faults (s : State) (c : Nat) (v : Gang) : (setGang s c v).faults = s.faults := rfl
@[simp] theorem setGang_mgmt (s : State) (c : Nat) (v : Gang) : (setGang s c v).mgmt = s.mgmt := rfl
@[simp] theorem setGang_outputs (s : State) (c : Nat) (v : Gang) : (setGang s c v).outputs = s.outputs := rfl
@[simp] theorem setGang_dropped (s : State) (c : Nat) (v : Gang) : (setGang s c v).dropped = s.dropped := rfl

/-! ### setCrew -/

@[simp] theorem setCrew_agenda (s : State) (c : Nat) (v : Crew) : (setCrew s c v).agenda = s.agenda := rfl
@[simp] theorem setCrew_cur (s : State) (c : Nat) (v : Crew) : (setCrew s c v).cur = s.cur := rfl
@[simp] theorem setCrew_steps (s : State) (c : Nat) (v : Crew) : (setCrew s c v).steps = s.steps := rfl
@[simp] theorem setCrew_tick (s : State) (c : Nat) (v : Crew) : (setCrew s c v).tick = s.tick := rfl
@[simp] theorem setCrew_phase (s : State) (c : Nat) (v : Crew) : (setCrew s c v).phase = s.phase := rfl
@[simp] theorem setCrew_ids (s : State) (c : Nat) (v : Crew) : (setCrew s c v).ids = s.ids := rfl
@[simp] theorem setCrew_seq (s : State) (c : Nat) (v : Crew) : (setCrew s c v).seq = s.seq := rfl
@[simp] theorem setCrew_cores (s : State) (c : Nat) (v : Crew) : (setCrew s c v).cores = s.cores := rfl
@[simp] theorem setCrew_slots (s : State) (c : Nat) (v : Crew) : (setCrew s c v).slots = s.slots := rfl
@[simp] theorem setCrew_clusters (s : State) (c : Nat) (v : Crew) : (setCrew s c v).clusters = s.clusters := rfl
@[simp] theorem setCrew_gangs (s : State) (c : Nat) (v : Crew) : (setCrew s c v).gangs = s.gangs := rfl
@[simp] theorem setCrew_crews (s : State) (c : Nat) (v : Crew) : (setCrew s c v).crews = kset s.crews c v := rfl
@[simp] theorem setCrew_tasks (s : State) (c : Nat) (v : Crew) : (setCrew s c v).tasks = s.tasks := rfl
@[simp] theorem setCrew_launches (s : State) (c : Nat) (v : Crew) : (setCrew s c v).launches = s.launches := rfl
@[simp] theorem setCrew_sleepers (s : State) (c : Nat) (v : Crew) : (setCrew s c v).sleepers = s.sleepers := rfl
@[simp] theorem setCrew_wakes (s : State) (c : Nat) (v : Crew) : (setCrew s c v).wakes = s.wakes := rfl
@[simp] theorem setCrew_drains (s : State) (c : Nat) (v : Crew) : (setCrew s c v).drains = s.drains := rfl
@[simp] theorem setCrew_packets (s : State) (c : Nat) (v : Crew) : (setCrew s c v).packets = s.packets := rfl
@[simp] theorem setCrew_acks (s : State) (c : Nat) (v : Crew) : (setCrew s c v).acks = s.acks := rfl
@[simp] theorem setCrew_quarries (s : State) (c : Nat) (v : Crew) : (setCrew s c v).quarries = s.quarries := rfl
@[simp] theorem setCrew_mem (s : State) (c : Nat) (v : Crew) : (setCrew s c v).mem = s.mem := rfl
@[simp] theorem setCrew_hostMem (s : State) (c : Nat) (v : Crew) : (setCrew s c v).hostMem = s.hostMem := rfl
@[simp] theorem setCrew_peerMem (s : State) (c : Nat) (v : Crew) : (setCrew s c v).peerMem = s.peerMem := rfl
@[simp] theorem setCrew_poison (s : State) (c : Nat) (v : Crew) : (setCrew s c v).poison = s.poison := rfl
@[simp] theorem setCrew_peerPoison (s : State) (c : Nat) (v : Crew) : (setCrew s c v).peerPoison = s.peerPoison := rfl
@[simp] theorem setCrew_sectorKeys (s : State) (c : Nat) (v : Crew) : (setCrew s c v).sectorKeys = s.sectorKeys := rfl
@[simp] theorem setCrew_keys (s : State) (c : Nat) (v : Crew) : (setCrew s c v).keys = s.keys := rfl
@[simp] theorem setCrew_leaves (s : State) (c : Nat) (v : Crew) : (setCrew s c v).leaves = s.leaves := rfl
@[simp] theorem setCrew_lines (s : State) (c : Nat) (v : Crew) : (setCrew s c v).lines = s.lines := rfl
@[simp] theorem setCrew_refill (s : State) (c : Nat) (v : Crew) : (setCrew s c v).refill = s.refill := rfl
@[simp] theorem setCrew_stamps (s : State) (c : Nat) (v : Crew) : (setCrew s c v).stamps = s.stamps := rfl
@[simp] theorem setCrew_l1 (s : State) (c : Nat) (v : Crew) : (setCrew s c v).l1 = s.l1 := rfl
@[simp] theorem setCrew_wcb (s : State) (c : Nat) (v : Crew) : (setCrew s c v).wcb = s.wcb := rfl
@[simp] theorem setCrew_slabs (s : State) (c : Nat) (v : Crew) : (setCrew s c v).slabs = s.slabs := rfl
@[simp] theorem setCrew_bridge (s : State) (c : Nat) (v : Crew) : (setCrew s c v).bridge = s.bridge := rfl
@[simp] theorem setCrew_stable (s : State) (c : Nat) (v : Crew) : (setCrew s c v).stable = s.stable := rfl
@[simp] theorem setCrew_held (s : State) (c : Nat) (v : Crew) : (setCrew s c v).held = s.held := rfl
@[simp] theorem setCrew_applied (s : State) (c : Nat) (v : Crew) : (setCrew s c v).applied = s.applied := rfl
@[simp] theorem setCrew_reqs (s : State) (c : Nat) (v : Crew) : (setCrew s c v).reqs = s.reqs := rfl
@[simp] theorem setCrew_ctxs (s : State) (c : Nat) (v : Crew) : (setCrew s c v).ctxs = s.ctxs := rfl
@[simp] theorem setCrew_saves (s : State) (c : Nat) (v : Crew) : (setCrew s c v).saves = s.saves := rfl
@[simp] theorem setCrew_tiers (s : State) (c : Nat) (v : Crew) : (setCrew s c v).tiers = s.tiers := rfl
@[simp] theorem setCrew_links (s : State) (c : Nat) (v : Crew) : (setCrew s c v).links = s.links := rfl
@[simp] theorem setCrew_queues (s : State) (c : Nat) (v : Crew) : (setCrew s c v).queues = s.queues := rfl
@[simp] theorem setCrew_rings (s : State) (c : Nat) (v : Crew) : (setCrew s c v).rings = s.rings := rfl
@[simp] theorem setCrew_port (s : State) (c : Nat) (v : Crew) : (setCrew s c v).port = s.port := rfl
@[simp] theorem setCrew_cmds (s : State) (c : Nat) (v : Crew) : (setCrew s c v).cmds = s.cmds := rfl
@[simp] theorem setCrew_faultsOut (s : State) (c : Nat) (v : Crew) : (setCrew s c v).faultsOut = s.faultsOut := rfl
@[simp] theorem setCrew_faults (s : State) (c : Nat) (v : Crew) : (setCrew s c v).faults = s.faults := rfl
@[simp] theorem setCrew_mgmt (s : State) (c : Nat) (v : Crew) : (setCrew s c v).mgmt = s.mgmt := rfl
@[simp] theorem setCrew_outputs (s : State) (c : Nat) (v : Crew) : (setCrew s c v).outputs = s.outputs := rfl
@[simp] theorem setCrew_dropped (s : State) (c : Nat) (v : Crew) : (setCrew s c v).dropped = s.dropped := rfl

/-! ### setTask -/

@[simp] theorem setTask_agenda (s : State) (c : Nat) (v : Task) : (setTask s c v).agenda = s.agenda := rfl
@[simp] theorem setTask_cur (s : State) (c : Nat) (v : Task) : (setTask s c v).cur = s.cur := rfl
@[simp] theorem setTask_steps (s : State) (c : Nat) (v : Task) : (setTask s c v).steps = s.steps := rfl
@[simp] theorem setTask_tick (s : State) (c : Nat) (v : Task) : (setTask s c v).tick = s.tick := rfl
@[simp] theorem setTask_phase (s : State) (c : Nat) (v : Task) : (setTask s c v).phase = s.phase := rfl
@[simp] theorem setTask_ids (s : State) (c : Nat) (v : Task) : (setTask s c v).ids = s.ids := rfl
@[simp] theorem setTask_seq (s : State) (c : Nat) (v : Task) : (setTask s c v).seq = s.seq := rfl
@[simp] theorem setTask_cores (s : State) (c : Nat) (v : Task) : (setTask s c v).cores = s.cores := rfl
@[simp] theorem setTask_slots (s : State) (c : Nat) (v : Task) : (setTask s c v).slots = s.slots := rfl
@[simp] theorem setTask_clusters (s : State) (c : Nat) (v : Task) : (setTask s c v).clusters = s.clusters := rfl
@[simp] theorem setTask_gangs (s : State) (c : Nat) (v : Task) : (setTask s c v).gangs = s.gangs := rfl
@[simp] theorem setTask_crews (s : State) (c : Nat) (v : Task) : (setTask s c v).crews = s.crews := rfl
@[simp] theorem setTask_tasks (s : State) (c : Nat) (v : Task) : (setTask s c v).tasks = kset s.tasks c v := rfl
@[simp] theorem setTask_launches (s : State) (c : Nat) (v : Task) : (setTask s c v).launches = s.launches := rfl
@[simp] theorem setTask_sleepers (s : State) (c : Nat) (v : Task) : (setTask s c v).sleepers = s.sleepers := rfl
@[simp] theorem setTask_wakes (s : State) (c : Nat) (v : Task) : (setTask s c v).wakes = s.wakes := rfl
@[simp] theorem setTask_drains (s : State) (c : Nat) (v : Task) : (setTask s c v).drains = s.drains := rfl
@[simp] theorem setTask_packets (s : State) (c : Nat) (v : Task) : (setTask s c v).packets = s.packets := rfl
@[simp] theorem setTask_acks (s : State) (c : Nat) (v : Task) : (setTask s c v).acks = s.acks := rfl
@[simp] theorem setTask_quarries (s : State) (c : Nat) (v : Task) : (setTask s c v).quarries = s.quarries := rfl
@[simp] theorem setTask_mem (s : State) (c : Nat) (v : Task) : (setTask s c v).mem = s.mem := rfl
@[simp] theorem setTask_hostMem (s : State) (c : Nat) (v : Task) : (setTask s c v).hostMem = s.hostMem := rfl
@[simp] theorem setTask_peerMem (s : State) (c : Nat) (v : Task) : (setTask s c v).peerMem = s.peerMem := rfl
@[simp] theorem setTask_poison (s : State) (c : Nat) (v : Task) : (setTask s c v).poison = s.poison := rfl
@[simp] theorem setTask_peerPoison (s : State) (c : Nat) (v : Task) : (setTask s c v).peerPoison = s.peerPoison := rfl
@[simp] theorem setTask_sectorKeys (s : State) (c : Nat) (v : Task) : (setTask s c v).sectorKeys = s.sectorKeys := rfl
@[simp] theorem setTask_keys (s : State) (c : Nat) (v : Task) : (setTask s c v).keys = s.keys := rfl
@[simp] theorem setTask_leaves (s : State) (c : Nat) (v : Task) : (setTask s c v).leaves = s.leaves := rfl
@[simp] theorem setTask_lines (s : State) (c : Nat) (v : Task) : (setTask s c v).lines = s.lines := rfl
@[simp] theorem setTask_refill (s : State) (c : Nat) (v : Task) : (setTask s c v).refill = s.refill := rfl
@[simp] theorem setTask_stamps (s : State) (c : Nat) (v : Task) : (setTask s c v).stamps = s.stamps := rfl
@[simp] theorem setTask_l1 (s : State) (c : Nat) (v : Task) : (setTask s c v).l1 = s.l1 := rfl
@[simp] theorem setTask_wcb (s : State) (c : Nat) (v : Task) : (setTask s c v).wcb = s.wcb := rfl
@[simp] theorem setTask_slabs (s : State) (c : Nat) (v : Task) : (setTask s c v).slabs = s.slabs := rfl
@[simp] theorem setTask_bridge (s : State) (c : Nat) (v : Task) : (setTask s c v).bridge = s.bridge := rfl
@[simp] theorem setTask_stable (s : State) (c : Nat) (v : Task) : (setTask s c v).stable = s.stable := rfl
@[simp] theorem setTask_held (s : State) (c : Nat) (v : Task) : (setTask s c v).held = s.held := rfl
@[simp] theorem setTask_applied (s : State) (c : Nat) (v : Task) : (setTask s c v).applied = s.applied := rfl
@[simp] theorem setTask_reqs (s : State) (c : Nat) (v : Task) : (setTask s c v).reqs = s.reqs := rfl
@[simp] theorem setTask_ctxs (s : State) (c : Nat) (v : Task) : (setTask s c v).ctxs = s.ctxs := rfl
@[simp] theorem setTask_saves (s : State) (c : Nat) (v : Task) : (setTask s c v).saves = s.saves := rfl
@[simp] theorem setTask_tiers (s : State) (c : Nat) (v : Task) : (setTask s c v).tiers = s.tiers := rfl
@[simp] theorem setTask_links (s : State) (c : Nat) (v : Task) : (setTask s c v).links = s.links := rfl
@[simp] theorem setTask_queues (s : State) (c : Nat) (v : Task) : (setTask s c v).queues = s.queues := rfl
@[simp] theorem setTask_rings (s : State) (c : Nat) (v : Task) : (setTask s c v).rings = s.rings := rfl
@[simp] theorem setTask_port (s : State) (c : Nat) (v : Task) : (setTask s c v).port = s.port := rfl
@[simp] theorem setTask_cmds (s : State) (c : Nat) (v : Task) : (setTask s c v).cmds = s.cmds := rfl
@[simp] theorem setTask_faultsOut (s : State) (c : Nat) (v : Task) : (setTask s c v).faultsOut = s.faultsOut := rfl
@[simp] theorem setTask_faults (s : State) (c : Nat) (v : Task) : (setTask s c v).faults = s.faults := rfl
@[simp] theorem setTask_mgmt (s : State) (c : Nat) (v : Task) : (setTask s c v).mgmt = s.mgmt := rfl
@[simp] theorem setTask_outputs (s : State) (c : Nat) (v : Task) : (setTask s c v).outputs = s.outputs := rfl
@[simp] theorem setTask_dropped (s : State) (c : Nat) (v : Task) : (setTask s c v).dropped = s.dropped := rfl

/-! ### setCluster -/

@[simp] theorem setCluster_agenda (s : State) (c : Nat) (v : Cluster) : (setCluster s c v).agenda = s.agenda := rfl
@[simp] theorem setCluster_cur (s : State) (c : Nat) (v : Cluster) : (setCluster s c v).cur = s.cur := rfl
@[simp] theorem setCluster_steps (s : State) (c : Nat) (v : Cluster) : (setCluster s c v).steps = s.steps := rfl
@[simp] theorem setCluster_tick (s : State) (c : Nat) (v : Cluster) : (setCluster s c v).tick = s.tick := rfl
@[simp] theorem setCluster_phase (s : State) (c : Nat) (v : Cluster) : (setCluster s c v).phase = s.phase := rfl
@[simp] theorem setCluster_ids (s : State) (c : Nat) (v : Cluster) : (setCluster s c v).ids = s.ids := rfl
@[simp] theorem setCluster_seq (s : State) (c : Nat) (v : Cluster) : (setCluster s c v).seq = s.seq := rfl
@[simp] theorem setCluster_cores (s : State) (c : Nat) (v : Cluster) : (setCluster s c v).cores = s.cores := rfl
@[simp] theorem setCluster_slots (s : State) (c : Nat) (v : Cluster) : (setCluster s c v).slots = s.slots := rfl
@[simp] theorem setCluster_clusters (s : State) (c : Nat) (v : Cluster) : (setCluster s c v).clusters = kset s.clusters c v := rfl
@[simp] theorem setCluster_gangs (s : State) (c : Nat) (v : Cluster) : (setCluster s c v).gangs = s.gangs := rfl
@[simp] theorem setCluster_crews (s : State) (c : Nat) (v : Cluster) : (setCluster s c v).crews = s.crews := rfl
@[simp] theorem setCluster_tasks (s : State) (c : Nat) (v : Cluster) : (setCluster s c v).tasks = s.tasks := rfl
@[simp] theorem setCluster_launches (s : State) (c : Nat) (v : Cluster) : (setCluster s c v).launches = s.launches := rfl
@[simp] theorem setCluster_sleepers (s : State) (c : Nat) (v : Cluster) : (setCluster s c v).sleepers = s.sleepers := rfl
@[simp] theorem setCluster_wakes (s : State) (c : Nat) (v : Cluster) : (setCluster s c v).wakes = s.wakes := rfl
@[simp] theorem setCluster_drains (s : State) (c : Nat) (v : Cluster) : (setCluster s c v).drains = s.drains := rfl
@[simp] theorem setCluster_packets (s : State) (c : Nat) (v : Cluster) : (setCluster s c v).packets = s.packets := rfl
@[simp] theorem setCluster_acks (s : State) (c : Nat) (v : Cluster) : (setCluster s c v).acks = s.acks := rfl
@[simp] theorem setCluster_quarries (s : State) (c : Nat) (v : Cluster) : (setCluster s c v).quarries = s.quarries := rfl
@[simp] theorem setCluster_mem (s : State) (c : Nat) (v : Cluster) : (setCluster s c v).mem = s.mem := rfl
@[simp] theorem setCluster_hostMem (s : State) (c : Nat) (v : Cluster) : (setCluster s c v).hostMem = s.hostMem := rfl
@[simp] theorem setCluster_peerMem (s : State) (c : Nat) (v : Cluster) : (setCluster s c v).peerMem = s.peerMem := rfl
@[simp] theorem setCluster_poison (s : State) (c : Nat) (v : Cluster) : (setCluster s c v).poison = s.poison := rfl
@[simp] theorem setCluster_peerPoison (s : State) (c : Nat) (v : Cluster) : (setCluster s c v).peerPoison = s.peerPoison := rfl
@[simp] theorem setCluster_sectorKeys (s : State) (c : Nat) (v : Cluster) : (setCluster s c v).sectorKeys = s.sectorKeys := rfl
@[simp] theorem setCluster_keys (s : State) (c : Nat) (v : Cluster) : (setCluster s c v).keys = s.keys := rfl
@[simp] theorem setCluster_leaves (s : State) (c : Nat) (v : Cluster) : (setCluster s c v).leaves = s.leaves := rfl
@[simp] theorem setCluster_lines (s : State) (c : Nat) (v : Cluster) : (setCluster s c v).lines = s.lines := rfl
@[simp] theorem setCluster_refill (s : State) (c : Nat) (v : Cluster) : (setCluster s c v).refill = s.refill := rfl
@[simp] theorem setCluster_stamps (s : State) (c : Nat) (v : Cluster) : (setCluster s c v).stamps = s.stamps := rfl
@[simp] theorem setCluster_l1 (s : State) (c : Nat) (v : Cluster) : (setCluster s c v).l1 = s.l1 := rfl
@[simp] theorem setCluster_wcb (s : State) (c : Nat) (v : Cluster) : (setCluster s c v).wcb = s.wcb := rfl
@[simp] theorem setCluster_slabs (s : State) (c : Nat) (v : Cluster) : (setCluster s c v).slabs = s.slabs := rfl
@[simp] theorem setCluster_bridge (s : State) (c : Nat) (v : Cluster) : (setCluster s c v).bridge = s.bridge := rfl
@[simp] theorem setCluster_stable (s : State) (c : Nat) (v : Cluster) : (setCluster s c v).stable = s.stable := rfl
@[simp] theorem setCluster_held (s : State) (c : Nat) (v : Cluster) : (setCluster s c v).held = s.held := rfl
@[simp] theorem setCluster_applied (s : State) (c : Nat) (v : Cluster) : (setCluster s c v).applied = s.applied := rfl
@[simp] theorem setCluster_reqs (s : State) (c : Nat) (v : Cluster) : (setCluster s c v).reqs = s.reqs := rfl
@[simp] theorem setCluster_ctxs (s : State) (c : Nat) (v : Cluster) : (setCluster s c v).ctxs = s.ctxs := rfl
@[simp] theorem setCluster_saves (s : State) (c : Nat) (v : Cluster) : (setCluster s c v).saves = s.saves := rfl
@[simp] theorem setCluster_tiers (s : State) (c : Nat) (v : Cluster) : (setCluster s c v).tiers = s.tiers := rfl
@[simp] theorem setCluster_links (s : State) (c : Nat) (v : Cluster) : (setCluster s c v).links = s.links := rfl
@[simp] theorem setCluster_queues (s : State) (c : Nat) (v : Cluster) : (setCluster s c v).queues = s.queues := rfl
@[simp] theorem setCluster_rings (s : State) (c : Nat) (v : Cluster) : (setCluster s c v).rings = s.rings := rfl
@[simp] theorem setCluster_port (s : State) (c : Nat) (v : Cluster) : (setCluster s c v).port = s.port := rfl
@[simp] theorem setCluster_cmds (s : State) (c : Nat) (v : Cluster) : (setCluster s c v).cmds = s.cmds := rfl
@[simp] theorem setCluster_faultsOut (s : State) (c : Nat) (v : Cluster) : (setCluster s c v).faultsOut = s.faultsOut := rfl
@[simp] theorem setCluster_faults (s : State) (c : Nat) (v : Cluster) : (setCluster s c v).faults = s.faults := rfl
@[simp] theorem setCluster_mgmt (s : State) (c : Nat) (v : Cluster) : (setCluster s c v).mgmt = s.mgmt := rfl
@[simp] theorem setCluster_outputs (s : State) (c : Nat) (v : Cluster) : (setCluster s c v).outputs = s.outputs := rfl
@[simp] theorem setCluster_dropped (s : State) (c : Nat) (v : Cluster) : (setCluster s c v).dropped = s.dropped := rfl

/-! ### setCtx -/

@[simp] theorem setCtx_agenda (s : State) (c : Nat) (v : Ctx) : (setCtx s c v).agenda = s.agenda := rfl
@[simp] theorem setCtx_cur (s : State) (c : Nat) (v : Ctx) : (setCtx s c v).cur = s.cur := rfl
@[simp] theorem setCtx_steps (s : State) (c : Nat) (v : Ctx) : (setCtx s c v).steps = s.steps := rfl
@[simp] theorem setCtx_tick (s : State) (c : Nat) (v : Ctx) : (setCtx s c v).tick = s.tick := rfl
@[simp] theorem setCtx_phase (s : State) (c : Nat) (v : Ctx) : (setCtx s c v).phase = s.phase := rfl
@[simp] theorem setCtx_ids (s : State) (c : Nat) (v : Ctx) : (setCtx s c v).ids = s.ids := rfl
@[simp] theorem setCtx_seq (s : State) (c : Nat) (v : Ctx) : (setCtx s c v).seq = s.seq := rfl
@[simp] theorem setCtx_cores (s : State) (c : Nat) (v : Ctx) : (setCtx s c v).cores = s.cores := rfl
@[simp] theorem setCtx_slots (s : State) (c : Nat) (v : Ctx) : (setCtx s c v).slots = s.slots := rfl
@[simp] theorem setCtx_clusters (s : State) (c : Nat) (v : Ctx) : (setCtx s c v).clusters = s.clusters := rfl
@[simp] theorem setCtx_gangs (s : State) (c : Nat) (v : Ctx) : (setCtx s c v).gangs = s.gangs := rfl
@[simp] theorem setCtx_crews (s : State) (c : Nat) (v : Ctx) : (setCtx s c v).crews = s.crews := rfl
@[simp] theorem setCtx_tasks (s : State) (c : Nat) (v : Ctx) : (setCtx s c v).tasks = s.tasks := rfl
@[simp] theorem setCtx_launches (s : State) (c : Nat) (v : Ctx) : (setCtx s c v).launches = s.launches := rfl
@[simp] theorem setCtx_sleepers (s : State) (c : Nat) (v : Ctx) : (setCtx s c v).sleepers = s.sleepers := rfl
@[simp] theorem setCtx_wakes (s : State) (c : Nat) (v : Ctx) : (setCtx s c v).wakes = s.wakes := rfl
@[simp] theorem setCtx_drains (s : State) (c : Nat) (v : Ctx) : (setCtx s c v).drains = s.drains := rfl
@[simp] theorem setCtx_packets (s : State) (c : Nat) (v : Ctx) : (setCtx s c v).packets = s.packets := rfl
@[simp] theorem setCtx_acks (s : State) (c : Nat) (v : Ctx) : (setCtx s c v).acks = s.acks := rfl
@[simp] theorem setCtx_quarries (s : State) (c : Nat) (v : Ctx) : (setCtx s c v).quarries = s.quarries := rfl
@[simp] theorem setCtx_mem (s : State) (c : Nat) (v : Ctx) : (setCtx s c v).mem = s.mem := rfl
@[simp] theorem setCtx_hostMem (s : State) (c : Nat) (v : Ctx) : (setCtx s c v).hostMem = s.hostMem := rfl
@[simp] theorem setCtx_peerMem (s : State) (c : Nat) (v : Ctx) : (setCtx s c v).peerMem = s.peerMem := rfl
@[simp] theorem setCtx_poison (s : State) (c : Nat) (v : Ctx) : (setCtx s c v).poison = s.poison := rfl
@[simp] theorem setCtx_peerPoison (s : State) (c : Nat) (v : Ctx) : (setCtx s c v).peerPoison = s.peerPoison := rfl
@[simp] theorem setCtx_sectorKeys (s : State) (c : Nat) (v : Ctx) : (setCtx s c v).sectorKeys = s.sectorKeys := rfl
@[simp] theorem setCtx_keys (s : State) (c : Nat) (v : Ctx) : (setCtx s c v).keys = s.keys := rfl
@[simp] theorem setCtx_leaves (s : State) (c : Nat) (v : Ctx) : (setCtx s c v).leaves = s.leaves := rfl
@[simp] theorem setCtx_lines (s : State) (c : Nat) (v : Ctx) : (setCtx s c v).lines = s.lines := rfl
@[simp] theorem setCtx_refill (s : State) (c : Nat) (v : Ctx) : (setCtx s c v).refill = s.refill := rfl
@[simp] theorem setCtx_stamps (s : State) (c : Nat) (v : Ctx) : (setCtx s c v).stamps = s.stamps := rfl
@[simp] theorem setCtx_l1 (s : State) (c : Nat) (v : Ctx) : (setCtx s c v).l1 = s.l1 := rfl
@[simp] theorem setCtx_wcb (s : State) (c : Nat) (v : Ctx) : (setCtx s c v).wcb = s.wcb := rfl
@[simp] theorem setCtx_slabs (s : State) (c : Nat) (v : Ctx) : (setCtx s c v).slabs = s.slabs := rfl
@[simp] theorem setCtx_bridge (s : State) (c : Nat) (v : Ctx) : (setCtx s c v).bridge = s.bridge := rfl
@[simp] theorem setCtx_stable (s : State) (c : Nat) (v : Ctx) : (setCtx s c v).stable = s.stable := rfl
@[simp] theorem setCtx_held (s : State) (c : Nat) (v : Ctx) : (setCtx s c v).held = s.held := rfl
@[simp] theorem setCtx_applied (s : State) (c : Nat) (v : Ctx) : (setCtx s c v).applied = s.applied := rfl
@[simp] theorem setCtx_reqs (s : State) (c : Nat) (v : Ctx) : (setCtx s c v).reqs = s.reqs := rfl
@[simp] theorem setCtx_ctxs (s : State) (c : Nat) (v : Ctx) : (setCtx s c v).ctxs = kset s.ctxs c v := rfl
@[simp] theorem setCtx_saves (s : State) (c : Nat) (v : Ctx) : (setCtx s c v).saves = s.saves := rfl
@[simp] theorem setCtx_tiers (s : State) (c : Nat) (v : Ctx) : (setCtx s c v).tiers = s.tiers := rfl
@[simp] theorem setCtx_links (s : State) (c : Nat) (v : Ctx) : (setCtx s c v).links = s.links := rfl
@[simp] theorem setCtx_queues (s : State) (c : Nat) (v : Ctx) : (setCtx s c v).queues = s.queues := rfl
@[simp] theorem setCtx_rings (s : State) (c : Nat) (v : Ctx) : (setCtx s c v).rings = s.rings := rfl
@[simp] theorem setCtx_port (s : State) (c : Nat) (v : Ctx) : (setCtx s c v).port = s.port := rfl
@[simp] theorem setCtx_cmds (s : State) (c : Nat) (v : Ctx) : (setCtx s c v).cmds = s.cmds := rfl
@[simp] theorem setCtx_faultsOut (s : State) (c : Nat) (v : Ctx) : (setCtx s c v).faultsOut = s.faultsOut := rfl
@[simp] theorem setCtx_faults (s : State) (c : Nat) (v : Ctx) : (setCtx s c v).faults = s.faults := rfl
@[simp] theorem setCtx_mgmt (s : State) (c : Nat) (v : Ctx) : (setCtx s c v).mgmt = s.mgmt := rfl
@[simp] theorem setCtx_outputs (s : State) (c : Nat) (v : Ctx) : (setCtx s c v).outputs = s.outputs := rfl
@[simp] theorem setCtx_dropped (s : State) (c : Nat) (v : Ctx) : (setCtx s c v).dropped = s.dropped := rfl

/-! ### setSlab -/

@[simp] theorem setSlab_agenda (s : State) (c : Nat) (v : Slab) : (setSlab s c v).agenda = s.agenda := rfl
@[simp] theorem setSlab_cur (s : State) (c : Nat) (v : Slab) : (setSlab s c v).cur = s.cur := rfl
@[simp] theorem setSlab_steps (s : State) (c : Nat) (v : Slab) : (setSlab s c v).steps = s.steps := rfl
@[simp] theorem setSlab_tick (s : State) (c : Nat) (v : Slab) : (setSlab s c v).tick = s.tick := rfl
@[simp] theorem setSlab_phase (s : State) (c : Nat) (v : Slab) : (setSlab s c v).phase = s.phase := rfl
@[simp] theorem setSlab_ids (s : State) (c : Nat) (v : Slab) : (setSlab s c v).ids = s.ids := rfl
@[simp] theorem setSlab_seq (s : State) (c : Nat) (v : Slab) : (setSlab s c v).seq = s.seq := rfl
@[simp] theorem setSlab_cores (s : State) (c : Nat) (v : Slab) : (setSlab s c v).cores = s.cores := rfl
@[simp] theorem setSlab_slots (s : State) (c : Nat) (v : Slab) : (setSlab s c v).slots = s.slots := rfl
@[simp] theorem setSlab_clusters (s : State) (c : Nat) (v : Slab) : (setSlab s c v).clusters = s.clusters := rfl
@[simp] theorem setSlab_gangs (s : State) (c : Nat) (v : Slab) : (setSlab s c v).gangs = s.gangs := rfl
@[simp] theorem setSlab_crews (s : State) (c : Nat) (v : Slab) : (setSlab s c v).crews = s.crews := rfl
@[simp] theorem setSlab_tasks (s : State) (c : Nat) (v : Slab) : (setSlab s c v).tasks = s.tasks := rfl
@[simp] theorem setSlab_launches (s : State) (c : Nat) (v : Slab) : (setSlab s c v).launches = s.launches := rfl
@[simp] theorem setSlab_sleepers (s : State) (c : Nat) (v : Slab) : (setSlab s c v).sleepers = s.sleepers := rfl
@[simp] theorem setSlab_wakes (s : State) (c : Nat) (v : Slab) : (setSlab s c v).wakes = s.wakes := rfl
@[simp] theorem setSlab_drains (s : State) (c : Nat) (v : Slab) : (setSlab s c v).drains = s.drains := rfl
@[simp] theorem setSlab_packets (s : State) (c : Nat) (v : Slab) : (setSlab s c v).packets = s.packets := rfl
@[simp] theorem setSlab_acks (s : State) (c : Nat) (v : Slab) : (setSlab s c v).acks = s.acks := rfl
@[simp] theorem setSlab_quarries (s : State) (c : Nat) (v : Slab) : (setSlab s c v).quarries = s.quarries := rfl
@[simp] theorem setSlab_mem (s : State) (c : Nat) (v : Slab) : (setSlab s c v).mem = s.mem := rfl
@[simp] theorem setSlab_hostMem (s : State) (c : Nat) (v : Slab) : (setSlab s c v).hostMem = s.hostMem := rfl
@[simp] theorem setSlab_peerMem (s : State) (c : Nat) (v : Slab) : (setSlab s c v).peerMem = s.peerMem := rfl
@[simp] theorem setSlab_poison (s : State) (c : Nat) (v : Slab) : (setSlab s c v).poison = s.poison := rfl
@[simp] theorem setSlab_peerPoison (s : State) (c : Nat) (v : Slab) : (setSlab s c v).peerPoison = s.peerPoison := rfl
@[simp] theorem setSlab_sectorKeys (s : State) (c : Nat) (v : Slab) : (setSlab s c v).sectorKeys = s.sectorKeys := rfl
@[simp] theorem setSlab_keys (s : State) (c : Nat) (v : Slab) : (setSlab s c v).keys = s.keys := rfl
@[simp] theorem setSlab_leaves (s : State) (c : Nat) (v : Slab) : (setSlab s c v).leaves = s.leaves := rfl
@[simp] theorem setSlab_lines (s : State) (c : Nat) (v : Slab) : (setSlab s c v).lines = s.lines := rfl
@[simp] theorem setSlab_refill (s : State) (c : Nat) (v : Slab) : (setSlab s c v).refill = s.refill := rfl
@[simp] theorem setSlab_stamps (s : State) (c : Nat) (v : Slab) : (setSlab s c v).stamps = s.stamps := rfl
@[simp] theorem setSlab_l1 (s : State) (c : Nat) (v : Slab) : (setSlab s c v).l1 = s.l1 := rfl
@[simp] theorem setSlab_wcb (s : State) (c : Nat) (v : Slab) : (setSlab s c v).wcb = s.wcb := rfl
@[simp] theorem setSlab_slabs (s : State) (c : Nat) (v : Slab) : (setSlab s c v).slabs = kset s.slabs c v := rfl
@[simp] theorem setSlab_bridge (s : State) (c : Nat) (v : Slab) : (setSlab s c v).bridge = s.bridge := rfl
@[simp] theorem setSlab_stable (s : State) (c : Nat) (v : Slab) : (setSlab s c v).stable = s.stable := rfl
@[simp] theorem setSlab_held (s : State) (c : Nat) (v : Slab) : (setSlab s c v).held = s.held := rfl
@[simp] theorem setSlab_applied (s : State) (c : Nat) (v : Slab) : (setSlab s c v).applied = s.applied := rfl
@[simp] theorem setSlab_reqs (s : State) (c : Nat) (v : Slab) : (setSlab s c v).reqs = s.reqs := rfl
@[simp] theorem setSlab_ctxs (s : State) (c : Nat) (v : Slab) : (setSlab s c v).ctxs = s.ctxs := rfl
@[simp] theorem setSlab_saves (s : State) (c : Nat) (v : Slab) : (setSlab s c v).saves = s.saves := rfl
@[simp] theorem setSlab_tiers (s : State) (c : Nat) (v : Slab) : (setSlab s c v).tiers = s.tiers := rfl
@[simp] theorem setSlab_links (s : State) (c : Nat) (v : Slab) : (setSlab s c v).links = s.links := rfl
@[simp] theorem setSlab_queues (s : State) (c : Nat) (v : Slab) : (setSlab s c v).queues = s.queues := rfl
@[simp] theorem setSlab_rings (s : State) (c : Nat) (v : Slab) : (setSlab s c v).rings = s.rings := rfl
@[simp] theorem setSlab_port (s : State) (c : Nat) (v : Slab) : (setSlab s c v).port = s.port := rfl
@[simp] theorem setSlab_cmds (s : State) (c : Nat) (v : Slab) : (setSlab s c v).cmds = s.cmds := rfl
@[simp] theorem setSlab_faultsOut (s : State) (c : Nat) (v : Slab) : (setSlab s c v).faultsOut = s.faultsOut := rfl
@[simp] theorem setSlab_faults (s : State) (c : Nat) (v : Slab) : (setSlab s c v).faults = s.faults := rfl
@[simp] theorem setSlab_mgmt (s : State) (c : Nat) (v : Slab) : (setSlab s c v).mgmt = s.mgmt := rfl
@[simp] theorem setSlab_outputs (s : State) (c : Nat) (v : Slab) : (setSlab s c v).outputs = s.outputs := rfl
@[simp] theorem setSlab_dropped (s : State) (c : Nat) (v : Slab) : (setSlab s c v).dropped = s.dropped := rfl

/-! ### setQuarry -/

@[simp] theorem setQuarry_agenda (s : State) (c : Nat) (v : Quarry) : (setQuarry s c v).agenda = s.agenda := rfl
@[simp] theorem setQuarry_cur (s : State) (c : Nat) (v : Quarry) : (setQuarry s c v).cur = s.cur := rfl
@[simp] theorem setQuarry_steps (s : State) (c : Nat) (v : Quarry) : (setQuarry s c v).steps = s.steps := rfl
@[simp] theorem setQuarry_tick (s : State) (c : Nat) (v : Quarry) : (setQuarry s c v).tick = s.tick := rfl
@[simp] theorem setQuarry_phase (s : State) (c : Nat) (v : Quarry) : (setQuarry s c v).phase = s.phase := rfl
@[simp] theorem setQuarry_ids (s : State) (c : Nat) (v : Quarry) : (setQuarry s c v).ids = s.ids := rfl
@[simp] theorem setQuarry_seq (s : State) (c : Nat) (v : Quarry) : (setQuarry s c v).seq = s.seq := rfl
@[simp] theorem setQuarry_cores (s : State) (c : Nat) (v : Quarry) : (setQuarry s c v).cores = s.cores := rfl
@[simp] theorem setQuarry_slots (s : State) (c : Nat) (v : Quarry) : (setQuarry s c v).slots = s.slots := rfl
@[simp] theorem setQuarry_clusters (s : State) (c : Nat) (v : Quarry) : (setQuarry s c v).clusters = s.clusters := rfl
@[simp] theorem setQuarry_gangs (s : State) (c : Nat) (v : Quarry) : (setQuarry s c v).gangs = s.gangs := rfl
@[simp] theorem setQuarry_crews (s : State) (c : Nat) (v : Quarry) : (setQuarry s c v).crews = s.crews := rfl
@[simp] theorem setQuarry_tasks (s : State) (c : Nat) (v : Quarry) : (setQuarry s c v).tasks = s.tasks := rfl
@[simp] theorem setQuarry_launches (s : State) (c : Nat) (v : Quarry) : (setQuarry s c v).launches = s.launches := rfl
@[simp] theorem setQuarry_sleepers (s : State) (c : Nat) (v : Quarry) : (setQuarry s c v).sleepers = s.sleepers := rfl
@[simp] theorem setQuarry_wakes (s : State) (c : Nat) (v : Quarry) : (setQuarry s c v).wakes = s.wakes := rfl
@[simp] theorem setQuarry_drains (s : State) (c : Nat) (v : Quarry) : (setQuarry s c v).drains = s.drains := rfl
@[simp] theorem setQuarry_packets (s : State) (c : Nat) (v : Quarry) : (setQuarry s c v).packets = s.packets := rfl
@[simp] theorem setQuarry_acks (s : State) (c : Nat) (v : Quarry) : (setQuarry s c v).acks = s.acks := rfl
@[simp] theorem setQuarry_quarries (s : State) (c : Nat) (v : Quarry) : (setQuarry s c v).quarries = kset s.quarries c v := rfl
@[simp] theorem setQuarry_mem (s : State) (c : Nat) (v : Quarry) : (setQuarry s c v).mem = s.mem := rfl
@[simp] theorem setQuarry_hostMem (s : State) (c : Nat) (v : Quarry) : (setQuarry s c v).hostMem = s.hostMem := rfl
@[simp] theorem setQuarry_peerMem (s : State) (c : Nat) (v : Quarry) : (setQuarry s c v).peerMem = s.peerMem := rfl
@[simp] theorem setQuarry_poison (s : State) (c : Nat) (v : Quarry) : (setQuarry s c v).poison = s.poison := rfl
@[simp] theorem setQuarry_peerPoison (s : State) (c : Nat) (v : Quarry) : (setQuarry s c v).peerPoison = s.peerPoison := rfl
@[simp] theorem setQuarry_sectorKeys (s : State) (c : Nat) (v : Quarry) : (setQuarry s c v).sectorKeys = s.sectorKeys := rfl
@[simp] theorem setQuarry_keys (s : State) (c : Nat) (v : Quarry) : (setQuarry s c v).keys = s.keys := rfl
@[simp] theorem setQuarry_leaves (s : State) (c : Nat) (v : Quarry) : (setQuarry s c v).leaves = s.leaves := rfl
@[simp] theorem setQuarry_lines (s : State) (c : Nat) (v : Quarry) : (setQuarry s c v).lines = s.lines := rfl
@[simp] theorem setQuarry_refill (s : State) (c : Nat) (v : Quarry) : (setQuarry s c v).refill = s.refill := rfl
@[simp] theorem setQuarry_stamps (s : State) (c : Nat) (v : Quarry) : (setQuarry s c v).stamps = s.stamps := rfl
@[simp] theorem setQuarry_l1 (s : State) (c : Nat) (v : Quarry) : (setQuarry s c v).l1 = s.l1 := rfl
@[simp] theorem setQuarry_wcb (s : State) (c : Nat) (v : Quarry) : (setQuarry s c v).wcb = s.wcb := rfl
@[simp] theorem setQuarry_slabs (s : State) (c : Nat) (v : Quarry) : (setQuarry s c v).slabs = s.slabs := rfl
@[simp] theorem setQuarry_bridge (s : State) (c : Nat) (v : Quarry) : (setQuarry s c v).bridge = s.bridge := rfl
@[simp] theorem setQuarry_stable (s : State) (c : Nat) (v : Quarry) : (setQuarry s c v).stable = s.stable := rfl
@[simp] theorem setQuarry_held (s : State) (c : Nat) (v : Quarry) : (setQuarry s c v).held = s.held := rfl
@[simp] theorem setQuarry_applied (s : State) (c : Nat) (v : Quarry) : (setQuarry s c v).applied = s.applied := rfl
@[simp] theorem setQuarry_reqs (s : State) (c : Nat) (v : Quarry) : (setQuarry s c v).reqs = s.reqs := rfl
@[simp] theorem setQuarry_ctxs (s : State) (c : Nat) (v : Quarry) : (setQuarry s c v).ctxs = s.ctxs := rfl
@[simp] theorem setQuarry_saves (s : State) (c : Nat) (v : Quarry) : (setQuarry s c v).saves = s.saves := rfl
@[simp] theorem setQuarry_tiers (s : State) (c : Nat) (v : Quarry) : (setQuarry s c v).tiers = s.tiers := rfl
@[simp] theorem setQuarry_links (s : State) (c : Nat) (v : Quarry) : (setQuarry s c v).links = s.links := rfl
@[simp] theorem setQuarry_queues (s : State) (c : Nat) (v : Quarry) : (setQuarry s c v).queues = s.queues := rfl
@[simp] theorem setQuarry_rings (s : State) (c : Nat) (v : Quarry) : (setQuarry s c v).rings = s.rings := rfl
@[simp] theorem setQuarry_port (s : State) (c : Nat) (v : Quarry) : (setQuarry s c v).port = s.port := rfl
@[simp] theorem setQuarry_cmds (s : State) (c : Nat) (v : Quarry) : (setQuarry s c v).cmds = s.cmds := rfl
@[simp] theorem setQuarry_faultsOut (s : State) (c : Nat) (v : Quarry) : (setQuarry s c v).faultsOut = s.faultsOut := rfl
@[simp] theorem setQuarry_faults (s : State) (c : Nat) (v : Quarry) : (setQuarry s c v).faults = s.faults := rfl
@[simp] theorem setQuarry_mgmt (s : State) (c : Nat) (v : Quarry) : (setQuarry s c v).mgmt = s.mgmt := rfl
@[simp] theorem setQuarry_outputs (s : State) (c : Nat) (v : Quarry) : (setQuarry s c v).outputs = s.outputs := rfl
@[simp] theorem setQuarry_dropped (s : State) (c : Nat) (v : Quarry) : (setQuarry s c v).dropped = s.dropped := rfl

end Sys2Proof.Machine
end

