-- ==== Sys2Proof/Laws/Issue.lean ====
section
/-! SUPPORT. Sys2Proof/Laws/Issue.lean: what the shared issue of a wave instruction, its register check and its retirement do. -/
namespace Sys2Proof.Machine

/-! ### Issue -/

theorem stuckFids_nil {waits : Bool} {s : State} {e : Env} (hi : Issues waits s e) : stuckFids waits e = [] := by
  unfold stuckFids
  rw [List.filter_eq_nil_iff]
  intro fid hf
  simp [hi.ready fid hf]

/-- A form that does not wait runs its body with the executing fibres. -/
theorem issue_runs {h : Hdr} {s : State} {e : Env} {sc : Env → Handler → Out} {body : Env → List Nat → State → Out}
    (hi : Issues false s e) : issue h false s sc body = body e (executing h e) s := by
  unfold issue
  rw [hi.env]
  simp only [hi.user, stuckFids_nil hi]
  rfl

/-- A form that waits runs its body once the open windows have closed. -/
theorem issue_waits {h : Hdr} {s : State} {e : Env} {sc : Env → Handler → Out} {body : Env → List Nat → State → Out}
    (hi : Issues true s e) : issue h true s sc body = body (closedEnv e) (executing h (closedEnv e)) (closedState e s) := by
  unfold issue
  rw [hi.env]
  simp only [hi.user, stuckFids_nil hi]
  rfl

/-- In handler mode a form does what its scalar meaning says. -/
theorem issue_scalar {h : Hdr} {w : Bool} {s : State} {e : Env} {hd : Handler} {sc : Env → Handler → Out}
    {body : Env → List Nat → State → Out} (hh : Handling s e hd) : issue h w s sc body = sc e hd := by
  unfold issue
  rw [hh.env]
  simp only [hh.handler, hh.idle]
  rfl

/-! ### Register checks (R24) -/

theorem badReg_none {win : Nat} {uses : List RegUse} (h : ∀ u ∈ uses, u.1 % u.2 = 0 ∧ u.1 < win) : badReg win uses = none := by
  induction uses with
  | nil => rfl
  | cons u us ih =>
    have hu := h u (by simp)
    simp only [badReg]
    rw [if_neg (by omega)]
    exact ih (fun v hv => h v (List.mem_cons_of_mem _ hv))

theorem regTraps_nil {e : Env} {act : List Nat} {uses : List RegUse} (h : RegsOk e act uses) : regTraps e act uses = [] := by
  unfold regTraps
  rw [List.filterMap_eq_nil_iff]
  intro fid hf
  rw [badReg_none (h fid hf)]

theorem guardPoison_nil {h : Hdr} {e : Env} (hg : GuardsClean h e) : guardPoison h e = [] := by
  unfold guardPoison
  rw [List.map_eq_nil_iff, List.filter_eq_nil_iff]
  intro fid hf
  simp [hg fid hf]

@[simp] theorem orTrap_nil (e : Env) (s : State) (k : Out) : orTrap e [] s k = k := rfl

theorem forbidInTxn_none {e : Env} {act : List Nat} {s : State} {k : Out} (h : e.sl.txn = none) : forbidInTxn e act s k = k := by
  unfold forbidInTxn; rw [h]

/-! ### Computing instructions -/

/-- A computing instruction whose operands can be read completes. -/
theorem execAlu_runs {sp : AluSpec} {s : State} {e : Env} (hi : Issues false s e) (hr : RegsOk e (executing sp.h e) (aluUses sp)) :
    execAlu sp s = .next (retireWr sp.h sp.ll e 0 (executing sp.h e) (fun fid => aluWr sp (getFibre e.g fid)) s) := by
  unfold execAlu
  rw [issue_runs hi, regTraps_nil hr, orTrap_nil]

/-- So does a cross-lane instruction. -/
theorem execCross_runs {h : Hdr} {ll : Bool} {uses : List RegUse} {fn : Env → List Nat → Nat → Wr} {s : State} {e : Env}
    (hi : Issues false s e) (hr : RegsOk e (executing h e) uses) :
    execCross h ll uses fn s = .next (retireWr h ll e 0 (executing h e)
      (fun fid => taint (guard h (getFibre e.g fid)).2 (fn e (sortBy lane (executing h e)) fid)) s) := by
  unfold execCross
  rw [issue_runs hi, regTraps_nil hr, orTrap_nil]

@[simp] theorem srcUse_reg (n : Nat) : srcUse (.reg n) = [(n, 1)] := rfl
@[simp] theorem srcUse_pair (n : Nat) : srcUse (.pair n) = [(n, 2)] := rfl
@[simp] theorem srcUse_quad (n : Nat) : srcUse (.quad n) = [(n, 4)] := rfl
@[simp] theorem srcUse_pred (n : Nat) : srcUse (.pred n) = [] := rfl
@[simp] theorem srcUse_predWord : srcUse .predWord = [] := rfl
@[simp] theorem srcUse_imm (v : W64) : srcUse (.imm v) = [] := rfl
@[simp] theorem dstUse_reg (n : Nat) : dstUse (.reg n) = [(n, 1)] := rfl
@[simp] theorem dstUse_pair (n : Nat) : dstUse (.pair n) = [(n, 2)] := rfl
@[simp] theorem dstUse_quad (n : Nat) : dstUse (.quad n) = [(n, 4)] := rfl
@[simp] theorem dstUse_pred (n : Nat) : dstUse (.pred n) = [] := rfl
@[simp] theorem dstUse_predWord : dstUse .predWord = [] := rfl
@[simp] theorem readSrc_imm (x : Fibre) (v : W64) : readSrc x (.imm v) = (v.zeroExtend 128, false) := rfl

/-- The completion of a computing instruction from what it names and what it writes in one fibre. -/
theorem computes_of {i : Instr} {sp : AluSpec} {uses : List RegUse} {wr : Fibre → Wr} (h : ∀ s, exec i s = execAlu sp s)
    (hu : aluUses sp = uses) (hw : ∀ x, aluWr sp x = wr x) : Computes i sp.h sp.ll uses wr := by
  intro s e hi hr
  rw [h, execAlu_runs hi (by rw [hu]; exact hr), show aluWr sp = wr from funext hw]

@[simp] theorem srcUse_tySrc (t : Ty) (r : Reg) : srcUse (tySrc t r) = tyUse t r := by
  unfold tySrc tyUse; split <;> rfl

@[simp] theorem dstUse_tyDst (t : Ty) (r : Reg) : dstUse (tyDst t r) = tyUse t r := by
  unfold tyDst tyUse; split <;> rfl

/-! ### Retirement -/

@[simp] theorem getGang_setGang (s : State) (g : Nat) (v : Gang) : getGang (setGang s g v) g = v := by simp [getGang, setGang]
theorem getGang_setGang_ne (s : State) {g k : Nat} (v : Gang) (h : k ≠ g) : getGang (setGang s g v) k = getGang s k := by
  simp [getGang, setGang, h]
@[simp] theorem getSlot_setSlot (s : State) (k : Nat) (v : Slot) : getSlot (setSlot s k v) k = v := by simp [getSlot, setSlot]
@[simp] theorem getCore_setCore (s : State) (c : Nat) (v : Core) : getCore (setCore s c v) c = v := by simp [getCore, setCore]
@[simp] theorem getGang_setSlot (s : State) (k : Nat) (v : Slot) (g : Nat) : getGang (setSlot s k v) g = getGang s g := rfl
@[simp] theorem getGang_setCore (s : State) (c : Nat) (v : Core) (g : Nat) : getGang (setCore s c v) g = getGang s g := rfl
@[simp] theorem getSlot_setGang (s : State) (g : Nat) (v : Gang) (k : Nat) : getSlot (setGang s g v) k = getSlot s k := rfl
@[simp] theorem getSlot_setCore (s : State) (c : Nat) (v : Core) (k : Nat) : getSlot (setCore s c v) k = getSlot s k := rfl
@[simp] theorem getCore_setGang (s : State) (g : Nat) (v : Gang) (c : Nat) : getCore (setGang s g v) c = getCore s c := rfl
@[simp] theorem getCore_setSlot (s : State) (k : Nat) (v : Slot) (c : Nat) : getCore (setSlot s k v) c = getCore s c := rfl

/-- What an issue leaves in the slot and in the core: the slot's last issue, the use of the unit, the pipes taken in this cycle, an
instruction counted. -/
def issuedSlot (s : State) (e : Env) : Slot := { getSlot s e.key with lastIssue := now s + 1, readySince := none }
def issuedCore (s : State) (e : Env) (u : Nat) : Core :=
  perfBump 2 1 { getCore s e.core with
    unitUse := kset (getCore s e.core).unitUse u (usedNow s (kget (getCore s e.core).unitUse u (0, 0)))
    issued := (now s + 1, pipesUsed s e.core + (if (getSlot s e.key).lastIssue = now s + 1 then 0 else 1)) }

/-- Noting an issue changes the slot and the core, nothing else. -/
theorem noteIssue_eq (e : Env) (u : Nat) (s : State) : noteIssue e u s =
    { s with slots := kset s.slots e.key (issuedSlot s e), cores := kset s.cores e.core (issuedCore s e u) } := rfl

/-- The whole effect of a retirement on the machine. -/
theorem retire_eq (e : Env) (u : Nat) (wr : Nat → Wr) (win : Nat → Option Window) (pc : Nat → W64) (s : State) :
    retire e u wr win pc s =
    { s with
      gangs := kset s.gangs e.gid (mapFibres (getGang s e.gid) (fun fid f =>
        if e.fids.contains fid then retireFibre (wr fid) (win fid) (pc fid) f else f))
      slots := kset s.slots e.key (issuedSlot s e)
      cores := kset s.cores e.core (issuedCore s e u) } := rfl

/-- A fibre of a gang whose fibres are all updated. -/
theorem getFibre_mapFibres (g : Gang) (fn : Nat → Fibre → Fibre) (fid : Nat) (h : (kget? g.fibres fid).isSome) :
    getFibre (mapFibres g fn) fid = fn fid (getFibre g fid) := by
  obtain ⟨f, hf⟩ := Option.isSome_iff_exists.mp h
  simp [getFibre, mapFibres, kget, kget?_map, hf]

theorem getFibre_mapFibres_of_eq (g : Gang) (fn : Nat → Fibre → Fibre) (fid : Nat) (h : ∀ f, fn fid f = f) :
    getFibre (mapFibres g fn) fid = getFibre g fid := by
  simp only [getFibre, mapFibres, kget, kget?_map]
  cases kget? g.fibres fid <;> simp [h]

@[simp] theorem perfBump_kept (ev n : Nat) (c : Core) :
    { perfBump ev n c with perfCount := c.perfCount } = c := by unfold perfBump; rfl

end Sys2Proof.Machine
end

