-- ==== Sys2Proof/Tests/Slice0.lean ====
section
/-! SUPPORT. Sys2Proof/Tests/Slice0.lean: ill-formed terms that each check refuses, words written out from the formats of R243 to R250,
one small step here and there, and for the statements a state that meets their hypotheses. -/
namespace Sys2Proof.Tests
open Sys2Proof.Machine

set_option maxRecDepth 100000

/-! ### Ill-formed instructions (R237 steps 3 to 6) -/

def h0 : Hdr := { gp := 0, gn := false, la := 0 }
def f0 : F0 := { h := h0, d := 2, a := 4, b := 6, c := 0, ty := .i32, rm := 0, mod := 0, tys := .i8, nan := false }
def f1 : F1 := { h := h0, d := 2, a := 4, b := 0, ty := .i32, rm := 0, mod := 0, imm := 7 }
def f2 : F2 := { h := h0, d := 2, a := 4, b := 6, c := 0, ty := .i32, sp := 0, rd := 0, pol := 0, ord := 0, sc := 0, ix := false, ixs := 0, off := 0 }
def f3 : F3 := { h := h0, d := 0, a := 0, mod := 0, tline := 0, tslot := 0 }
def f4 : F4 := { h := h0, d := 0, a := 8, b := 0, c := 0, ty := .i8, mod := 0 }
def f5 : F5 := { h := h0, d := 0, a := 0, b := 0, c := 0, ord := 0, sc := 0, sp := 0, mod := 0, low := 0 }
def f6 : F6 := { h := h0, d := 0, a := 0, b := 0, sel := 0, code := 0 }

theorem test_wf_plain : (Instr.iadd f0).wf 3 = true ∧ (Instr.iaddImm f1).wf 3 = true := by decide
theorem test_illformed_guard : (Instr.iadd { f0 with h := { gp := 0, gn := true, la := 0 } }).wf 3 = false := by decide
theorem test_illformed_lookahead : (Instr.iadd { f0 with h := { gp := 0, gn := false, la := 1 } }).wf 3 = false := by decide
theorem test_illformed_lookahead_version : (Instr.idiv { f0 with h := { gp := 0, gn := false, la := 1 } }).wf 1 = false ∧
    (Instr.idiv { f0 with h := { gp := 0, gn := false, la := 1 } }).wf 3 = true := by decide
theorem test_illformed_type : (Instr.iadd { f0 with ty := .f32 }).wf 3 = false := by decide
theorem test_illformed_rounding : (Instr.fadd { f0 with ty := .f32, rm := 5 }).wf 3 = false ∧ (Instr.iadd { f0 with rm := 1 }).wf 3 = false := by decide
theorem test_illformed_mod : (Instr.icmp { f0 with d := 2, mod := 6 }).wf 3 = false := by decide
theorem test_illformed_predicate : (Instr.icmp { f0 with d := 16 }).wf 3 = false := by decide
theorem test_illformed_unused : (Instr.iadd { f0 with c := 1 }).wf 3 = false ∧ (Instr.iaddImm { f1 with b := 1 }).wf 3 = false := by decide
theorem test_illformed_space : (Instr.ld { f2 with sp := 1 }).wf 3 = false ∧ (Instr.lds { f2 with sp := 0 }).wf 3 = false := by decide
theorem test_illformed_order : (Instr.ld { f2 with b := 0, ord := 2 }).wf 3 = false ∧ (Instr.st { f2 with d := 0, ord := 1 }).wf 3 = false := by decide
theorem test_illformed_transfer : (Instr.bra { f3 with a := 1 }).wf 3 = false ∧ (Instr.bra { f3 with tslot := 5 }).wf 3 = false := by decide
theorem test_illformed_engine : (Instr.mxop { f4 with b := 1 }).wf 3 = false ∧ (Instr.mxop { f4 with ty := .i32 }).wf 3 = false := by decide
theorem test_illformed_low : (Instr.swarrive { f5 with sp := 1, low := 0x1000000 }).wf 3 = false ∧ (Instr.tbegin { f5 with low := 5 }).wf 3 = false := by decide
theorem test_illformed_csr : (Instr.csrr { f6 with sel := 0x999 }).wf 3 = false := by decide
theorem test_illformed_code : (Instr.nop { f6 with code := 1 }).wf 3 = false := by decide
theorem test_illformed_convert : (Instr.cvt { f0 with b := 0, ty := .i8, tys := .i8 }).wf 3 = false := by decide

/-! ### Words of the encoding (R236, R243 to R250, R251), one for each family -/

def reads (w : BitVec 96) (i : Instr) : Bool := decode 3 w = .ok i

theorem test_word_icmp : reads 0x200100102006000000000000
    (.icmpImm { h := h0, d := 1, a := 2, b := 0, ty := .n32, rm := 0, mod := 0, imm := 0 }) = true := by decide
theorem test_word_movi : reads 0x1E0100900002000040200000
    (.movi { h := h0, d := 9, a := 0, b := 0, ty := .i32, rm := 0, mod := 0, imm := 0x40200000 }) = true := by decide
theorem test_word_lea : reads 0x1C0000400020020040000000
    (.lea { f0 with d := 4, a := 0, b := 2, ty := .i32, mod := 2 }) = true := by decide
theorem test_word_ffma : reads 0x4300007090607B0000000000
    (.ffma { f0 with d := 7, a := 9, b := 6, c := 7, ty := .f32 }) = true := by decide
theorem test_word_cvt : reads 0x6800003020000D2016000000
    (.cvt { f0 with d := 3, a := 2, b := 0, ty := .e4m3, rm := 1, tys := .f32 }) = true := by decide
theorem test_word_lpfx : reads 0x750000705000060100000000 (.lpfx { f0 with d := 7, a := 5, b := 0, ty := .n32, mod := 8 }) = true := by decide
theorem test_word_bra : reads 0x802B0000000000000000000A
    (.bra { f3 with h := { h0 with gp := 2, gn := true }, tline := 1, tslot := 2 }) = true := by decide
theorem test_word_spawn : reads 0x850300400000001000000010 (.spawn { f3 with d := 4, a := 0, mod := 1, tline := 2 }) = true := by decide
theorem test_word_ld : reads 0x9002106040000B0000000400
    (.ld { f2 with h := { h0 with la := 1 }, d := 6, a := 4, b := 0, ty := .f32, off := 0x400 }) = true := by decide
theorem test_word_st : reads 0x9102000040700B0000000800 (.st { f2 with d := 0, a := 4, b := 7, ty := .f32, off := 0x800 }) = true := by decide
theorem test_word_aadd : reads 0xA00200204030060120000000
    (.aadd { f2 with d := 2, a := 4, b := 3, ty := .n32, ord := 2, sc := 1 }) = true := by decide
theorem test_word_fencex : reads 0xB10200000000000000000001 (.fencex { f2 with d := 0, a := 0, b := 0, ty := .i8, off := 1 }) = true := by decide
theorem test_word_tbegin : reads 0xC00500000000000000000000 (.tbegin f5) = true := by decide
theorem test_word_swarrive : reads 0xCA050000A000094000000000 (.swarrive { f5 with a := 10, ord := 2, sc := 1, sp := 1 }) = true := by decide
theorem test_word_taskpost : reads 0xCC05005080C0090000000040 (.taskpost { f5 with d := 5, a := 8, b := 12, ord := 2, sc := 1, low := 0x40 }) = true := by decide
theorem test_word_qrebal : reads 0xD60501800030000000000000 (.qrebal { f5 with d := 24, b := 3 }) = true := by decide
theorem test_word_qkeyNbr : reads 0xD00500602090000180000000 (.qkeyNbr { f5 with d := 6, a := 2, b := 9, mod := 6 }) = true := by decide
theorem test_word_mxop : reads 0xE10440008000000000000000 (.mxop { f4 with h := { h0 with la := 4 } }) = true := by decide
theorem test_word_mxcfg : reads 0xE00400206000000000000000 (.mxcfg { f4 with d := 2, a := 6 }) = true := by decide
theorem test_word_hsendv : reads 0xEC04000140C0000000000000 (.hsendv { f4 with a := 20, b := 12 }) = true := by decide
theorem test_word_spxg : reads 0xF1040040A0C0E00000000000 (.spxg { f4 with d := 4, a := 10, b := 12, c := 14 }) = true := by decide
theorem test_word_hfree : reads 0xEF0400000000000500000000 (.hfree { f4 with a := 0, mod := 5 }) = true := by decide
theorem test_word_sread : reads 0xF90600200000000000000000 (.sread { f6 with d := 2 }) = true := by decide
theorem test_word_csrx : reads 0xF80600405060000000000000 (.csrx { f6 with d := 4, a := 5, b := 6 }) = true := by decide
theorem test_word_trap : reads 0xF40600000000000000120000 (.trap { f6 with code := 0x12 }) = true := by decide
theorem test_word_csrr : reads 0xF60600A00000003000000000 (.csrr { f6 with d := 10, sel := 0x30 }) = true := by decide
theorem test_word_nop : reads 0xFA0600000000000000000000 (.nop f6) = true := by decide
theorem test_word_unassigned : decode 3 0 = .error .unassigned ∧ decode 3 0xFE0000000000000000000000 = .error .unassigned := by decide

/-! ### A small machine: one fibre of 256 registers in slot 0 of core 0 -/

def wave : State := { State.reset.withFetchWord 96 0 with cur := some (0, 0), agenda := [] }
def gangIs (f : Gang → Gang) (s : State) : State := setGang s 4 (f (getGang s 4))
def fibreIs (f : Fibre → Fibre) (s : State) : State := gangIs (fun g => { g with fibres := [(0, f (getFibre g 0))] }) s
def slotIs (f : Slot → Slot) (s : State) : State := setSlot s 0 (f (getSlot s 0))
def coreIs (f : Core → Core) (s : State) : State := setCore s 0 (f (getCore s 0))
/-- Register `n` and the next one. -/
def pairIs (n : Nat) (v : W64) (s : State) : State := fibreIs (fun x => pokeAll x { regs := pairWr n v false, preds := [], flags := 0 }) s
/-- The placed line with every slot marked as a transfer target. -/
def targets (s : State) : State := { s with mem := writeLE s.mem placePc 64 (31 * (2 ^ 240 * 2 ^ 240)) }
def env (s : State) : Env := (envOf s).getD { core := 0, key := 0, sl := Slot.init, gid := 0, g := Gang.init, fids := [], pc := 0 }
def running : Handler :=
  { k := [(4, 0)], kPoison := 0, preds := 1, predPoison := 0, pc := 0x20000, base := 0x20000, lanes := 1, trapped := 1, items := [] }
def handling : State := slotIs (fun sl => { sl with handler := some running, trappc := 0x10000, traplanes := 1 }) wave
def level (alt : Option W64) : TxnLevel := { alt := alt, taken := false, checkpoint := TxnWrites.empty }
def txnOf (n : Nat) : Txn :=
  { beginPc := 0x10000, abortPc := 0x10002, levels := List.replicate n (level none), reads := [], writes := TxnWrites.empty, held := [],
    active := [0], arrived := [], checked := 0, sets := [] }
def inTxn (n : Nat) (s : State) : State := slotIs (fun sl => { sl with txn := some (txnOf n) }) s
def based : State := gangIs (fun g => { g with handlerBase := 0x20000 }) wave

theorem issues_of {w : Bool} {s : State} (h : (match envOf s with
    | some e => e.sl.handler == none && e.fids.all (fun fid => !mustWait w (getFibre e.g fid))
    | none => false) = true) : Issues w s (env s) := by
  unfold env
  cases he : envOf s with
  | none => rw [he] at h; cases h
  | some e =>
    rw [he] at h
    simp only [Bool.and_eq_true, beq_iff_eq, List.all_eq_true, Bool.not_eq_true'] at h
    exact ⟨he, h.1, h.2⟩

theorem handling_of {s : State} {hd : Handler} (h : (match envOf s with
    | some e => e.sl.handler == some hd && !scalarBusy s e.key
    | none => false) = true) : Handling s (env s) hd := by
  unfold env
  cases he : envOf s with
  | none => rw [he] at h; cases h
  | some e =>
    rw [he] at h
    simp only [Bool.and_eq_true, beq_iff_eq, Bool.not_eq_true'] at h
    exact ⟨he, h.1, h.2⟩

theorem canTrap_of {s : State} (h : (match envOf s with
    | some e => e.sl.handler == none && !windowsRunning e && e.sl.txn == none && e.g.handlerBase != 0
    | none => false) = true) : CanTrap s (env s) := by
  unfold env
  cases he : envOf s with
  | none => rw [he] at h; cases h
  | some e =>
    rw [he] at h
    simp only [Bool.and_eq_true, beq_iff_eq, Bool.not_eq_true', bne_iff_ne] at h
    exact ⟨he, h.1.1.1, h.1.1.2, h.1.2, h.2⟩

/-! ### States that meet the hypotheses of the statements -/

theorem witness_IntegerArithmeticCompletes : Issues false wave (env wave) ∧
    RegsOk (env wave) (executing h0 (env wave)) (tyUse .i64 254 ++ tyUse .i64 0 ++ tyUse .i64 252 ++ tyUse .i32 255) :=
  ⟨issues_of (by decide), by unfold RegsOk; decide⟩
theorem witness_IntegerDivisionCompletes : Issues false wave (env wave) ∧
    RegsOk (env wave) (executing h0 (env wave)) (tyUse .n64 254 ++ tyUse .n64 0 ++ tyUse .n64 2) := ⟨issues_of (by decide), by unfold RegsOk; decide⟩
theorem witness_LogicAndShiftsComplete : Issues false wave (env wave) ∧
    RegsOk (env wave) (executing h0 (env wave)) (tyUse .i32 255 ++ tyUse .i32 0 ++ [(1, 1)]) := ⟨issues_of (by decide), by unfold RegsOk; decide⟩
theorem witness_BitFieldsAndCountsComplete : Issues false wave (env wave) ∧
    RegsOk (env wave) (executing h0 (env wave)) ((255, 1) :: tyUse .n64 254) := ⟨issues_of (by decide), by unfold RegsOk; decide⟩
theorem witness_MovesAndComparesComplete : Issues false wave (env wave) ∧
    RegsOk (env wave) (executing h0 (env wave)) ([(252, 4), (0, 4)] ++ [(254, 2), (2, 2)] ++ tyUse .i32 255) :=
  ⟨issues_of (by decide), by unfold RegsOk; decide⟩
theorem witness_PredicateInstructionsComplete : Issues false wave (env wave) ∧ Live (env wave) ∧ RegsOk (env wave) (executing h0 (env wave)) [(255, 1)] ∧
    { f0 with d := 0 }.d = 0 :=
  ⟨issues_of (by decide), by unfold Live; decide, by unfold RegsOk; decide, by decide⟩
theorem witness_SinglePrecisionCompletes : Issues false wave (env wave) ∧
    RegsOk (env wave) (executing h0 (env wave)) (tyUse .f32 255 ++ tyUse .f32 0 ++ tyUse .f32 1) := ⟨issues_of (by decide), by unfold RegsOk; decide⟩
theorem witness_OtherFormatsComplete : Issues false wave (env wave) ∧
    RegsOk (env wave) (executing h0 (env wave)) ([(255, 1), (252, 4), (254, 2)] ++ tyUse .f64 252) := ⟨issues_of (by decide), by unfold RegsOk; decide⟩
theorem witness_CrossLaneCompletes : Issues false wave (env wave) ∧
    RegsOk (env wave) (executing h0 (env wave)) (dstUse (laneDst .b128 252) ++ srcUse (laneSrc .i64 254) ++ [(255, 1)]) :=
  ⟨issues_of (by decide), by unfold RegsOk; decide⟩

/-- A direct transfer to slot 4 of the placed line, and a transfer through the pair R254. -/
theorem witness_TransfersComplete :
    (Issues false (targets wave) (env (targets wave)) ∧ Live (env (targets wave)) ∧ GuardsClean h0 (env (targets wave)) ∧
      RegsOk (env (targets wave)) [0] [(254, 2)] ∧ targetTrap (targets wave) 0 (target3 (env (targets wave)).pc { f3 with tslot := 4 }) = none ∧
      targetPage (targets wave) 0 (target3 (env (targets wave)).pc { f3 with tslot := 4 }) = none) ∧
    (let s := pairIs 254 0x10004 (targets wave)
     Issues false s (env s) ∧ (readPair (getFibre (env s).g 0) 254).2 = false ∧
       targetTrap s 0 (readPair (getFibre (env s).g 0) 254).1 = none ∧ targetPage s 0 (readPair (getFibre (env s).g 0) 254).1 = none) :=
  ⟨⟨issues_of (by decide), by unfold Live; decide, by unfold GuardsClean; decide, by unfold RegsOk; decide, by decide, by decide⟩,
    issues_of (by decide), by decide, by decide, by decide⟩

def twoGangs : State := { wave with crews := [(3, { Crew.init with size := 2, gangs := [4], live := [4] })] }
theorem witness_JoinsAndBarriersComplete :
    (Issues true wave (env wave) ∧ Live (env wave) ∧ Plain h0 (closedEnv (env wave)) ∧
      (release (closedEnv (env wave)) (executing h0 (closedEnv (env wave))) 0 (closedState (env wave) wave)).1 = true) ∧
    (Issues true twoGangs (env twoGangs) ∧ Plain h0 (closedEnv (env twoGangs)) ∧ 2 ≤ (getCrew twoGangs 3).size ∧
      chainsPending (closedState (env twoGangs) twoGangs) 4 = false ∧
      (release (closedEnv (env twoGangs)) (executing h0 (closedEnv (env twoGangs))) 0 (closedState (env twoGangs) twoGangs)).1 = true) :=
  ⟨⟨issues_of (by decide), by unfold Live; decide, ⟨by decide, by unfold GuardsClean; decide⟩, by decide⟩,
    issues_of (by decide), ⟨by decide, by unfold GuardsClean; decide⟩, by decide, by decide, by decide⟩

/-- A SPAWN of one fibre that finds room, and one on a core without a free block. -/
theorem witness_FibreControlCompletes : let s := targets wave
    let e := env s
    let full := coreIs (fun c => { c with blocks := [{ base := 0, size := 131072, gang := 9, fid := 0 }] }) s
    Issues true s e ∧ Live e ∧ Plain h0 (closedEnv e) ∧ targetTrap s e.g.ctx (target3 e.pc f3) = none ∧ targetPage s e.g.ctx (target3 e.pc f3) = none ∧
    executing h0 (closedEnv e) = [0] ∧ Idle s e [0] ∧ NoSleeper s e.gid ∧ coreFibres s 0 < 2048 ∧ freeIndex s e.gid = some 1 ∧
    findBlock (heldBlocks s 0) 128 = some 256 ∧ findBlock (heldBlocks full 0) 16 = none ∧
    Issues true full (env full) ∧ Live (env full) ∧ Plain h0 (closedEnv (env full)) ∧ targetTrap full 0 (target3 (env full).pc f3) = none ∧
    Idle full (env full) [0] :=
  ⟨issues_of (by decide), by unfold Live; decide, ⟨by decide, by unfold GuardsClean; decide⟩, by decide, by decide, by decide, by unfold Idle; decide,
    by unfold NoSleeper; decide, by decide, by decide, by decide, by decide, issues_of (by decide), by unfold Live; decide,
    ⟨by decide, by unfold GuardsClean; decide⟩, by decide, by unfold Idle; decide⟩

def claimed1 : State := coreIs (fun c => { c with claimed := true }) wave
/-- A core whose wave in slot 0 stands at its BRK. -/
def atBreak : State := slotIs (fun sl => { sl with atBrk := true }) (coreIs (fun c => { c with claimed := true, halted := true }) wave)
theorem witness_SystemInstructionsComplete :
    (Issues false wave (env wave) ∧ Live (env wave) ∧ GuardsClean h0 (env wave) ∧ RegsOk (env wave) (executing h0 (env wave)) [(252, 4), (254, 2)] ∧
      csrAccess 0x47 = .rw ∧ csrAccess 2 = .rw ∧ (csrSrc 2 (getFibre (env wave).g 0) 254).2 = false ∧ executing h0 (env wave) = [0]) ∧
    (Issues true claimed1 (env claimed1) ∧ Plain h0 (closedEnv (env claimed1)) ∧ executing h0 (closedEnv (env claimed1)) ≠ [] ∧
      (getCore claimed1 0).claimed = true) ∧
    (∀ v < 32, (getSlot atBreak (slotKey 0 v)).atBrk = true ↔ v = 0) ∧ envOf { atBreak with cur := some (0, 0) } = some (env atBreak) ∧
    (env atBreak).sl.handler = none ∧ Live (env atBreak) :=
  ⟨⟨issues_of (by decide), by unfold Live; decide, by unfold GuardsClean; decide, by unfold RegsOk; decide, by decide, by decide, by decide, by decide⟩,
    ⟨issues_of (by decide), ⟨by decide, by unfold GuardsClean; decide⟩, by decide, by decide⟩, by decide, by decide, by decide, by unfold Live; decide⟩
theorem witness_CsrWriteThenRead : (kget? (getGang wave 4).fibres 0).isSome = true ∧ 0x40 ≤ 0x47 ∧ 0x47 ≤ 0x47 := by decide

theorem witness_TrapInstructionsTrap : Issues true based (env based) ∧ Issues false based (env based) ∧ CanTrap based (env based) ∧
    GuardsClean h0 (closedEnv (env based)) ∧ executing h0 (closedEnv (env based)) ≠ [] ∧ (getCore based 0).claimed = false :=
  ⟨issues_of (by decide), issues_of (by decide), canTrap_of (by decide), by unfold GuardsClean; decide, by decide, by decide⟩
/-- Two causes at once, and a cause inside a transaction. -/
theorem witness_TakingATrap :
    (let r : Raised := [(0, 4, 9), (0, 2, 7)]
     CanTrap based (env based) ∧ (0, 2, 7) ∈ r ∧ (∀ y ∈ r, 2 ≤ y.2.1) ∧ ∀ y ∈ r, y.2.1 = 2 → y ≠ (0, 2, 7) → lane 0 < lane y.1) ∧
    (let s := inTxn 1 based
     envOf s = some (env s) ∧ (env s).sl.handler = none ∧ windowsRunning (env s) = false ∧ (env s).sl.txn = some (txnOf 1) ∧
       (env s).g.handlerBase ≠ 0 ∧ 0 ∈ without (env s).sl.fids (txnOf 1).held) :=
  ⟨⟨canTrap_of (by decide), by decide, by decide, by decide⟩, by decide, by decide, by decide, by decide, by decide, by decide⟩
theorem witness_ReturnResumes : Handling handling (env handling) running ∧ guardK h0 running = (true, false) ∧
    returnError running (env handling).sl = false ∧ resumePc running (env handling).sl 0 = (env handling).sl.trappc :=
  ⟨handling_of (by decide), by decide, by decide, by decide⟩
theorem witness_HandlerErrors : (encode (.fadd f0)).isSome = true ∧ handlerForm (.fadd f0) = false ∧ Handling handling (env handling) running :=
  ⟨by decide, by decide, handling_of (by decide)⟩
theorem witness_HandlerInstructionsComplete : Handling handling (env handling) running ∧ (guardK h0 running).1 = true ∧ ∀ n ∈ [15, 0], n < 16 :=
  ⟨handling_of (by decide), by decide, by decide⟩
/-- A CSRW of the saved PC; a transfer to the line's slot 4 and one through k4; an acquire load, a release store and scratchpad accesses at k4 = 0x10004. -/
def runningHere : Handler := { running with k := [(4, 0x10004)], pc := 0x10000, base := 0x10000 }
def handlingHere : State := slotIs (fun sl => { sl with handler := some runningHere, trappc := 0x10000, traplanes := 1 }) (targets wave)
theorem witness_HandlerInstructionsComplete_accesses : let s := handlingHere
    let e := env s
    let h := runningHere
    let bit := { f2 with ord := 1, sc := 1 }
    let good := fun v : W64 => (lineOf v - h.base).toNat < 1024 * 64 ∧ targetTrap s e.g.ctx v = none ∧ targetPage s e.g.ctx v = none
    Handling s e h ∧ guardK h0 h = (true, false) ∧ h.kPoison.getLsbD 4 = false ∧ csrAccess 0x22 ≠ .ro ∧ pcOk (kget h.k 4 0) = true ∧ csrAccess 0x47 ≠ .ro ∧
    good (target3 h.pc { f3 with tslot := 4 }) ∧ good (kget h.k 4 0) ∧
    (∀ perm ∈ [1, 2], globalFaults s e.g.ctx (handlerAddr bit h) (accBytes bit.ty) perm (handlerAddrPoison bit h || h.kPoison.getLsbD 6) = [] ∧
      scalarPoison s e bit (handlerAddr bit h) perm = [] ∧ slotClear s e (iaOf s e.g.ctx (handlerAddr bit h) perm) = true) ∧
    acquiresDone s e.gid e.sl.fids = true ∧ scalarReady s e bit = true ∧
    (release e e.sl.fids 1 { s with tick := 32 }).1 = true ∧ (scratchRelease e e.sl.fids 1 s).1 = true ∧
    scratchFaults e.g (65540 % 65536) 4 true (scratchPoisonAt e.g 4) = [] ∧
    (let s1 := slotIs (fun sl => { sl with handler := some { h with k := [(4, 65532)] } }) s
     Handling s1 (env s1) { h with k := [(4, 65532)] } ∧ ∀ write, scratchFaults (env s1).g 65532 4 write (scratchPoisonAt (env s1).g 65532) = []) :=
  ⟨handling_of (by decide), by decide, by decide, by decide, by decide, by decide, by decide, by decide, by decide, by decide, by decide, by decide,
    by decide, by decide, handling_of (by decide), by decide⟩
/-- The three kinds of selector: R255, the predicate word, the PC item. -/
theorem witness_LaneAccessCompletes : Handling handling (env handling) running ∧
    selector (env handling) running 0xFF00 = some (0, 0, 255) ∧ selector (env handling) running 0x10000 = some (0, 1, 0) ∧
    selector (env handling) running 0x20000 = some (0, 2, 0) ∧ (kget running.k 5 0) &&& 0x38 = 0 ∧ (kget running.k 5 0).toNat < 2 ^ 57 :=
  ⟨handling_of (by decide), by decide, by decide, by decide, by decide, by decide⟩

/-- The last word of the window, the last word of the scratchpad, and the last byte that a plane move reaches. -/
theorem witness_LoadsComplete : let s := pairIs 4 0x3FFFFFFC wave
    let e := env s
    let f := { f2 with b := 0 }
    let last := pairIs 4 65532 wave
    Issues false s e ∧ Live e ∧ e.sl.txn = none ∧ RegsOk e (executing h0 e) (dstUse (laneDst f.ty f.d) ++ [(4, 2)] ++ idxUse f) ∧
    (∀ fid ∈ executing h0 e, globalFaults s 0 (globalAddr f (getFibre e.g fid)).1 4 1 false = []) ∧
    logReady s e (executing h0 e) 0 [0x3FFFFFFC / 128] = true ∧ acquiresDone s 4 (executing h0 e) = true ∧
    flushDone s e.g (slabOf e.core) (executing h0 e) = true ∧ (∀ pol ∈ [0, 1, 2, 3], ∀ ord ∈ [0, 1], seenPoison s e.core 0 0x3FFFFFFC 4 pol ord 3 false = false) ∧
    Issues false last (env last) ∧ scratchFaults (env last).g (shortAddr f (getFibre (env last).g 0)).1.toNat 4 false false = [] ∧
    planeFaults (env last).g .i8 (65536 - 8 * 2048) = [] ∧ scratchPoisonAt (env last).g 65532 = false :=
  ⟨issues_of (by decide), by unfold Live; decide, by decide, by unfold RegsOk; decide, by decide, by decide, by decide, by decide, by decide,
    issues_of (by decide), by decide, by decide, by decide⟩
theorem witness_StoresComplete : let s := pairIs 4 0x3FFFFFFC wave
    let e := env s
    let f := { f2 with d := 0, ord := 2, sc := 1 }
    Issues false s e ∧ Live e ∧ e.sl.txn = none ∧ RegsOk e (executing h0 e) ([(4, 2)] ++ srcUse (dataSrc f.ty f.b) ++ idxUse f) ∧
    (∀ fid ∈ executing h0 e, globalFaults s 0 (globalAddr f (getFibre e.g fid)).1 4 2 false = [] ∧
      ∀ pol ∈ [0, 1, 2, 3], seenPoison s 0 0 (iaOf s 0 (globalAddr f (getFibre e.g fid)).1 2) 4 pol 2 3 true = false) ∧
    logReady s e (executing h0 e) 0 [0x3FFFFFFC / 128] = true ∧ acquiresDone s 4 (executing h0 e) = true ∧
    (release e (executing h0 e) f.sc s).1 = true ∧ (scratchRelease e (executing h0 e) 3 s).1 = true ∧
    scratchFaults e.g 65532 4 true false = [] ∧ planeFaults e.g .q16n 57344 = [] :=
  ⟨issues_of (by decide), by unfold Live; decide, by decide, by unfold RegsOk; decide, by decide, by decide, by decide, by decide, by decide,
    by decide, by decide⟩
theorem witness_AtomicsComplete : let s := pairIs 4 0x3FFFFFFC wave
    let e := env s
    let f := { f2 with ord := 3, sc := 1 }
    Issues false s e ∧ Live e ∧ e.sl.txn = none ∧ acquiresDone s 4 (executing h0 e) = true ∧
    RegsOk e (executing h0 e) (dstUse (laneDst f.ty f.d) ++ [(4, 2)] ++ srcUse (dataSrc f.ty f.b) ++ idxUse f) ∧
    (∀ fid ∈ executing h0 e, globalFaults s 0 (globalAddr f (getFibre e.g fid)).1 4 3 false = [] ∧
      homeSeen s e.core 0 (iaOf s 0 (globalAddr f (getFibre e.g fid)).1 3) true = false) ∧
    logReady s e (executing h0 e) 0 [0x3FFFFFFC / 128] = true ∧ flushDone s e.g (slabOf e.core) (executing h0 e) = true ∧ (release e (executing h0 e) f.sc s).1 = true :=
  ⟨issues_of (by decide), by unfold Live; decide, by decide, by decide, by unfold RegsOk; decide, by decide, by decide, by decide, by decide⟩
/-- Two's complement at its edges, by R325. -/
theorem test_atomic_edges : atomicNew 0 .n32 0xFFFFFFFF 1 0 = some 0 ∧ atomicNew 2 .i32 0xFFFFFFFF 0 0 = some 0 ∧
    atomicNew 2 .n32 0xFFFFFFFF 0 0 = some 0xFFFFFFFF ∧ atomicNew 7 .n32 5 9 4 = none := by decide
theorem witness_OtherMemoryInstructionsComplete :
    (Issues false wave (env wave) ∧ Live (env wave) ∧ RegsOk (env wave) (executing h0 (env wave)) ([(4, 2), (6, 1)] ++ idxUse f2) ∧
      (∀ sectors, logReady wave (env wave) (executing h0 (env wave)) 0 sectors = true) ∧ (env wave).sl.txn = none ∧
      (∀ r ∈ wave.reqs, r.gang = 4 → r.fid ∈ executing h0 (env wave) → r.kind ≠ .probe ∧ r.kind ≠ .store) ∧
      (∀ fid ∈ executing h0 (env wave), hasReq wave 4 fid = false ∧ (getFibre (env wave).g fid).flushWait = none) ∧
      (release (env wave) (executing h0 (env wave)) 1 wave).1 = true ∧ engineBusy wave 4 1 = false) ∧
    (let s := gangIs (fun g => { g with kernel := { g.kernel with spad := 65536 } }) twoGangs
     Issues false s (env s) ∧ exchangeFaults s (env s).g 0xFFFC 4 (some 0xFFF0) = [] ∧ exchangeTarget s 3 0xFFFC = some 4) :=
  ⟨⟨issues_of (by decide), by unfold Live; decide, by unfold RegsOk; decide, fun _ => rfl, by decide, by decide, by decide, by decide, by decide⟩,
    issues_of (by decide), by decide, by decide⟩

/-- Three and four open levels, an alternative below, and a transaction whose last level ends. -/
theorem witness_TransactionsOpen : let s := inTxn 3 (targets wave)
    let e := env s
    (Issues true (targets wave) (env (targets wave)) ∧ Plain h0 (closedEnv (env (targets wave))) ∧
      executing h0 (closedEnv (env (targets wave))) ≠ [] ∧
      targetTrap (closedState (env (targets wave)) (targets wave)) 0 (target5 (env (targets wave)).pc f5) = none ∧
      targetPage (closedState (env (targets wave)) (targets wave)) 0 (target5 (env (targets wave)).pc f5) = none) ∧
    Issues true s e ∧ GuardsClean h0 (closedEnv e) ∧ e.sl.txn = some (txnOf 3) ∧ (txnOf 3).levels.length < 4 ∧ 4 ≤ (txnOf 4).levels.length ∧
    e.fids.length = (pinned e.sl (txnOf 3)).length ∧ targetTrap (closedState e s) 0 (target5 e.pc f5) = none ∧
    targetPage (closedState e s) 0 (target5 e.pc f5) = none :=
  ⟨⟨issues_of (by decide), ⟨by decide, by unfold GuardsClean; decide⟩, by decide, by decide, by decide⟩,
    issues_of (by decide), by unfold GuardsClean; decide, by decide, by decide, by decide, by decide, by decide, by decide⟩
theorem witness_TransactionsClose : let s := inTxn 1 wave
    let e := env s
    let tx := txnOf 1
    Issues true s e ∧ GuardsClean h0 (closedEnv e) ∧ executing h0 (closedEnv e) ≠ [] ∧ e.sl.txn = some tx ∧ e.fids.length = (pinned e.sl tx).length ∧
    tx.levels = [level none] ∧ tx.writes.globPoison = [] ∧ tx.writes.scrPoison = [] ∧
    (let r := release (closedEnv e) (pinned e.sl tx) 1 (closedState e s)
     r.1 = true ∧ validationServed r.2 (slabOf 0) tx = true ∧ locksServed r.2 (slabOf 0) (commitMsgs 0 0 tx.writes) = true ∧ validates r.2 4 tx = true ∧
       commitMsgs 0 0 tx.writes = []) ∧
    (txnOf 2).levels = level none :: level none :: [] ∧ dropToAlternative tx.levels = [] ∧ tx.reads = [] ∧
    dropToAlternative [level none, level (some 0x10003)] = [level (some 0x10003)] :=
  ⟨issues_of (by decide), by unfold GuardsClean; decide, by decide, by decide, by decide, by decide, by decide, by decide,
    ⟨by decide, by decide, by decide, by decide, by decide⟩, by decide, by decide, by decide, by decide⟩
theorem witness_AbortDiscardsWrites : let s := inTxn 1 wave
    (getSlot s 0).txn = some (txnOf 1) ∧ 0 ∈ without (getSlot s 0).fids (txnOf 1).held ∧ (kget? (getGang s 4).fibres 0).isSome = true := by decide
theorem witness_ForbiddenInTransaction : let s := inTxn 1 wave
    Issues false s (env s) ∧ Issues true s (env s) ∧ (env s).sl.txn = some (txnOf 1) ∧ executing h0 (env s) ≠ [] ∧
    executing h0 (closedEnv (env s)) ≠ [] := ⟨issues_of (by decide), issues_of (by decide), by decide, by decide, by decide⟩

/-- The last sync word of the scratchpad. -/
theorem witness_SyncInstructionsComplete : let s := pairIs 0 65520 wave
    let e := env s
    Issues false s e ∧ Plain h0 e ∧ RegsOk e (executing h0 e) [(0, 1), (254, 1), (255, 1)] ∧
    SourcesClean h0 e (executing h0 e) [.reg 0, .reg 254, .reg 255] ∧ (∀ fid ∈ executing h0 e, syncFaults e.g (shortAddr5 f5 (getFibre e.g fid)) = []) ∧
    acquiresDone s 4 (executing h0 e) = true ∧ flushDone s e.g (slabOf e.core) (executing h0 e) = true ∧
    (scratchRelease e (sortBy lane (executing h0 e)) 3 s).1 = true ∧ executing h0 e = [0] :=
  ⟨issues_of (by decide), ⟨by decide, by unfold GuardsClean; decide⟩, by unfold RegsOk; decide, by unfold SourcesClean; decide, by decide, by decide, by decide,
    by decide, by decide⟩
/-- A phase of two arrivals and no bytes ends at the second, and its targets stay (R164). -/
theorem test_sync_phase : endPhase ((0 : Word) ++ (0 : Word) ++ (2 : BitVec 16) ++ (2 : BitVec 16) ++ (7 : Word)) = 0x00000000000000000000000200000008 ∧
    endPhase ((0 : Word) ++ (0 : Word) ++ (1 : BitVec 16) ++ (2 : BitVec 16) ++ (7 : Word)) = 0x00000000000000000001000200000007 := by decide

/-- Everything before the instruction has been performed at scopes p and y. -/
def drained (s : State) : State := { fibreIs (fun x => { x with relWait := some (0, 0) }) s with tick := 2 }
theorem witness_TaskQueueInstructionsComplete : let s := drained (pairIs 4 0x3FFFFFC0 wave)
    let e := env s
    let f := { f5 with d := 2, a := 4, b := 6, ord := 2, sc := 2 }
    Issues false s e ∧ Live e ∧ Plain h0 e ∧ acquiresDone s 4 (executing h0 e) = true ∧ RegsOk e (executing h0 e) [(2, 1), (4, 2), (6, 1)] ∧ SourcesClean h0 e (executing h0 e) [.pair 4, .reg 6] ∧
    (globalAddr5 f (getFibre e.g 0)).toNat % 64 = 0 ∧ checkWindow s 0 (globalAddr5 f (getFibre e.g 0)) pathVec 3 = .ok 0x3FFFFFC0 ∧ homeSeen s e.core 0 0x3FFFFFC0 true = false ∧
    inNeed e.g (65536 - 64) 64 = true ∧ scratchPoisonAt e.g (65536 - 64) = false ∧
    regionStores s e 0 (bytesOfNat 64 (readLE e.g.scratch (65536 - 64) 64)) = false ∧ logReady s e (executing h0 e) 0 [0x3FFFFFC0 / 128] = true ∧
    flushDone s e.g (slabOf e.core) (executing h0 e) = true ∧ (release e (executing h0 e) f.sc s).1 = true :=
  ⟨issues_of (by decide), by unfold Live; decide, ⟨by decide, by unfold GuardsClean; decide⟩, by decide, by unfold RegsOk; decide,
    by unfold SourcesClean; decide, by decide, by decide, by decide, by decide, by decide, by decide, by decide, by decide, by decide⟩

/-- A quarry of one dimension with sixteen empty entries, bound to slot 0 of the gang's kernel, and a kernel header at 0x50000 that
names the same slot (R123, R389). -/
def quarry : State :=
  let s := drained (pairIs 4 0x50000 wave)
  let s := gangIs (fun g => { g with kernel := { g.kernel with qslot := 0 } }) s
  { s with
    mem := writeBytes (writeLE (writeLE (writeLE (writeLE s.mem 0x40000 5 0x0104080101) 0x40024 1 1)
      0x50000 16 0x00010001001000034E524B59) 0x50010 16 0x400000000000000100) 0x500FC (bytesOfNat 4 0xE771D787)
    quarries := [(0, { Quarry.init with desc := 0x40000 })]
    launches := kset s.launches 1 { kget s.launches 1 Launch.init with qslots := [(0, 0x40000)] } }
theorem witness_QuarryInstructionsComplete : let s := quarry
    let e := env s
    Issues false s e ∧ Live e ∧ Plain h0 e ∧ RegsOk e (executing h0 e) [(252, 4), (248, 8), (255, 1), (4, 2), (2, 2)] ∧
    SourcesClean h0 e (executing h0 e) [.pair 4, .pair 2, .reg 255] ∧ boundQuarry s e.g = some 0 ∧ sortBy lane (executing h0 e) = [0] ∧
    (release e [0] 1 s).1 = true :=
  ⟨issues_of (by decide), by unfold Live; decide, ⟨by decide, by unfold GuardsClean; decide⟩, by unfold RegsOk; decide, by unfold SourcesClean; decide,
    by decide, by decide, by decide⟩
/-- A QSWEEP that takes its place, and one at its place whose header is good. -/
theorem witness_QuarryInstructionsComplete_sweep : let s := quarry
    let place := QOp.sweep 4 [0] [0x50000]
    let s1 := setQuarry s 0 { getQuarry s 0 with ops := [place] }
    (readPair (getFibre (env s).g 0) 2).1.toNat % 8 = 0 ∧ (getQuarry s 0).ops.contains place = false ∧ (release (env s) [0] 2 s).1 = true ∧
    (getQuarry s1 0).stall = none ∧ (getQuarry s1 0).ops.head? = some place ∧
    (match sweepRead 0 place (env s1).g [(0, 0x50000)] s1 with
     | .ok ((checks, bs), _) => (sweepTraps checks).isEmpty && checks.length == 1 && bs.isEmpty
     | .error _ => false) = true := by decide +kernel

/-- A block of 64 bytes at the end of a scratchpad of two banks' worth, R8 its offset, and a chain armed and published at handle 63. -/
def block (v : Nat) : State :=
  let s := pairIs 8 131008 wave
  let s := gangIs (fun g => { g with
    kernel := { g.kernel with spad := 131072 }, mxQueue := some 15, mxCfg := some { afmt := 0, aprec := 1, bfmt := 0, bprec := 8 },
    scratch := writeLE g.scratch 131008 64 v }) s
  { s with
    clusters := [(0, { Cluster.init with tiles := [(15, { Tile.init with holder := some 4 }), (3, { Tile.init with holder := some 9 })],
                                         queueOwner := [(15, 4)] })]
    crews := [(3, { Crew.init with size := 1, gangs := [4], live := [4], handles := [(63, { Handle.init with
      st := .armed, gang := 4, nb := 1, binexp := 16, mask := 1, published := true })] })] }
def good (checks : Env → Nat → List Byte → State → List Check) (s : State) : Bool :=
  (checks (env s) 131008 (readBytes (env s).g.scratch 131008 64) s).all (fun c => !c.1)
def mxDrainOk (disps : List Nat) (e : Env) (off : Nat) (bs : List Byte) (s : State) : List Check := drainChecks e.g off bs disps false
  (e.g.mxCfg.isNone || decide (15 < byteAt bs 0) || !claimed (getCluster s 0) e.gid (byteAt bs 0))
/-- A block without SYNC that names tile 15. -/
theorem witness_MatrixInstructionsComplete : let s := block (15 * 2 ^ 64)
    let e := env s
    Issues false s e ∧ Live e ∧ e.sl.txn = none ∧ sortBy lane (executing h0 e) = [0] ∧ RegsOk e [0] [(8, 1), (254, 2)] ∧ SourcesClean h0 e [0] [.reg 8, .pair 254] ∧
    acquiresDone s 4 [0] = true ∧ queueRoom e s = true ∧ inNeed e.g 131008 64 = true ∧ (readReg (getFibre e.g 0) 8).1.toNat = 131008 ∧
    good mxopChecks s = true ∧ good (mxDrainOk [0, 1, 2, 3, 4]) (block (15 + 2 ^ 16 + 256 * 2 ^ 128)) = true ∧
    good (mxDrainOk [3]) (block (15 + 3 * 2 ^ 8)) = true ∧ good (mxDrainOk [4]) (block (15 + 4 * 2 ^ 8)) = true :=
  ⟨issues_of (by decide), by unfold Live; decide, by decide, by decide, by unfold RegsOk; decide, by unfold SourcesClean; decide, by decide, by decide,
    by decide, by decide, by decide, by decide, by decide, by decide⟩
/-- A word that asks for tile 3, which another gang holds; one that asks for tile 14, which none does; and a guard that is false. -/
theorem witness_MatrixInstructionsComplete_claims : let s := block 0
    let cl := getCluster s 0
    mxCfgOf 0x0008000000000108 = some { afmt := 0, aprec := 1, bfmt := 0, bprec := 8 } ∧ (0x0008000000000108 : W64).getLsbD 51 = true ∧
    claimed cl 4 3 = false ∧ (getTile cl 3).holder = some 9 ∧ (env s).g.mxQueue = some 15 ∧
    (∀ n < 16, (0x4000000000000108 : W64).getLsbD (48 + n) = true → (getTile cl n).holder = none ∧ (getTile cl n).releasing = false) ∧
    executing { h0 with gp := 1 } (env s) = [] := by decide
theorem witness_CopyInstructionsComplete : let s := block (4 + 16 * 2 ^ 192)
    good (copyChecks .cpy) s = true ∧ (getCore s 0).copyq.cmds.length < 96 ∧ good (copyChecks .cpyp) (block (256 * 2 ^ 192)) = true ∧
    good (copyChecks .cpyg) (block (16 * 2 ^ 192 + 2 ^ 224)) = true ∧ good (copyChecks .cpys) (block (16 * 2 ^ 192 + 2 ^ 224)) = true := by decide
def copyCmd : CopyCmd :=
  { id := 9, ident := copyIdent 0 { cmds := [], count := 7, recent := [] }, gang := 4, kind := .cpy, block := 0, bytes := bytesOfNat 64 (4 + 16 * 2 ^ 192), sync := none, started := false,
    indices := [], sent := [], lost := [], landed := [], left := 16, poisoned := false, stall := none, ending := none }
def copying (started : Bool) : State := coreIs (fun c => { c with copyq := { c.copyq with cmds := [{ copyCmd with started := started }], count := 8 } }) wave
theorem witness_CopyInstructionsComplete_cancel : let s := copying false
    ((getCore s 0).copyq.cmds.find? (fun c => c.ident == copyIdent 0 { cmds := [], count := 7, recent := [] } && c.gang == 4) = some copyCmd) ∧
    ∀ c ∈ (getCore s 0).copyq.cmds, ¬ (c.ident = copyIdent 0 { cmds := [], count := 8, recent := [] } ∧ c.gang = 4) := by decide
/-- Arming handle 0, or handle 63 that is armed already; a word for the last element of bin 0; a drain of the bin. -/
theorem witness_HaulInstructionsComplete : let s := block (2 ^ 8 + 16 * 2 ^ 64)
    good chainChecks s = true ∧ (getHandle s 3 0).st = .free ∧ good chainChecks (block (63 + 2 ^ 8 + 16 * 2 ^ 64)) = true ∧
    (getHandle s 3 63).st ≠ .free ∧ 63 + 1024 * 4095 < 2 ^ 22 ∧ canSend s 4 63 0 = true ∧
    good (fun e off bs s => drainChecks e.g off bs [0, 1] true (decide (64 ≤ byteAt bs 0) || !armedBy s e.g e.gid (byteAt bs 0 % 64) ||
      decide ((getHandle s e.g.crew (byteAt bs 0 % 64)).nb ≤ byteAt bs 4))) (block (63 + 2 ^ 16 + 256 * 2 ^ 128)) = true ∧
    armedBy s (env s).g 4 63 = true ∧ (getHandle s 3 63).published = true ∧
    (∀ p ∈ spxgPairs 1 1 131071 131071 0 1, inNeed (env s).g p.2.1 1 = true ∧ inNeed (env s).g p.2.2 1 = true) ∧
    spxgPairs 1 1 131071 131071 0 1 ≠ [] ∧ accBytes .i8 = 1 := by decide

/-! ### The same for the device's own steps -/

/-- No page table, and a pending cause. -/
def unmapped : State := { based with mem := [] }
def pending : Async := { fid := 0, cause := 14, val := 0, lanes := 1, seq := none }
theorem witness_FetchEventsComplete :
    CanTrap based (env based) ∧
    (envOf unmapped = some (env unmapped) ∧ (env unmapped).sl.txn = none ∧ (match fetchNext (env unmapped) unmapped with | .page _ => true | _ => false) = true) ∧
    (let s := gangIs (fun g => { g with asyncs := [pending] }) based
     CanTrap s (env s) ∧ pendingAsync (env s) = some pending) :=
  ⟨canTrap_of (by decide), ⟨by decide, by decide, by decide⟩, canTrap_of (by decide), by decide⟩

/-- Fibres 0 and 31 in slots 0 and 31 of core 0, a batch that waits, and time past every limit. -/
def twoWaves : State :=
  let s := gangIs (fun g => { g with fibres := [(0, placeFibre), (31, placeFibre)] }) wave
  let s := coreIs (fun c => { c with table := [{ gang := 4, fids := [5], wait := .ready, since := 0 }] }) s
  setSlot { s with tick := 32 } 31 { Slot.init with gang := 4, fids := [31] }
theorem witness_WaveEventsComplete : let s := twoWaves
    ((getSlot s 30).fids = [] ∧ (getSlot s 30).log = [] ∧ longestWaiting (getCore s 0) = some { gang := 4, fids := [5], wait := .ready, since := 0 }) ∧
    ((getSlot s 0).gang = (getSlot s 31).gang ∧ slotPc s (getSlot s 0) = some 0x10000 ∧ slotPc s (getSlot s 31) = some 0x10000 ∧
      (getSlot s 0).atBrk = false ∧ (getSlot s 31).atBrk = false ∧ laneMask (getSlot s 0).fids &&& laneMask (getSlot s 31).fids = 0) ∧
    ((getSlot s 0).fids ≠ [] ∧ (getSlot s 0).since + 2048 ≤ now s ∧ longestWaiting (getCore s 0) ≠ none ∧ (getSlot s 0).log = [] ∧
      (getSlot s 0).txn = none ∧ (getSlot s 0).handler = none) ∧
    (131072 - 256) % placeFibre.win = 0 ∧ (131072 - 256) + placeFibre.win ≤ 131072 ∧ blockFree (heldBlocks s 0) (131072 - 256) placeFibre.win = true ∧
    (∀ i < 4, (getCore s (4 * 143 + i)).gangs = []) := by decide
def long : Window := { id := 3, left := 0, regs := [(2, 7, false)], preds := [], flags := 0, done := false, ext := false }
def readOf (v : Word) : Txn := { txnOf 1 with reads := [{ scratch := false, line := 5, version := v }] }
def sleeping (v : Word) : Sleeper := { core := 0, gang := 4, fids := [0], beginPc := 0x10000, abortPc := 0x10002,
                                       reads := [{ scratch := false, line := 5, version := v }], limit := some 0, start := 0, coarse := false, levels := 1 }
theorem witness_WaveEventsComplete_limits : let s := { wave with tick := 32 }
    let x := { placeFibre with windows := [long] }
    (∃ w ∈ x.windows, w.id = 3 ∧ w.done = false ∧ w.ext = false) ∧ (readOf 0).checked + 4096 ≤ now s ∧ validationServed s (slabOf 0) (readOf 0) = true ∧
    validates s 4 (readOf 0) = true ∧ validationServed s (slabOf 0) (readOf 1) = true ∧ validates s 4 (readOf 1) = false ∧
    homeQuiet s (homeOf (5 * 256)) = true ∧ (∀ r ∈ (sleeping 0).reads, readVersion s 4 r = r.version) ∧
    (∃ r ∈ (sleeping 1).reads, readVersion s 4 r ≠ r.version) := by decide

def admitState (k : Kernel) : State := { wave with
  tasks := [(9, { Task.init with launch := 1, st := .admitting })], ids := 10
  launches := [(1, { Launch.init with kernel := k })] }
theorem witness_DispatchEventsComplete : let s := admitState placeKernel
    let k := { placeKernel with crew := 2, regs := 16 }
    let t := admitState k
    kget? s.tasks 9 = some { Task.init with launch := 1, st := .admitting } ∧ (kget s.launches 1 Launch.init).kernel = placeKernel ∧
    savedGangs s 9 = [] ∧ ctxAdmits s 0 = true ∧ (canAdmit s placeKernel 11 575).isSome = true ∧
    allDistinct [1, 143] = true ∧ onOwner t k (some (clusterOf 1)) [1, 143] = false ∧ onOwner t k (some (clusterOf 1)) [1, 2] = true ∧ onOwner t k none [1, 143] = true ∧ slabOf 1 = slabOf 143 ∧ (admitAll 9 10 [(0, 1), (1, 143)] [] { t with ids := 11 }).isSome = true := by decide
theorem witness_DispatchEventsComplete_tasks :
    (let l := { Launch.init with x := 2, next := 1, stencil := 0x1 }
     let s := { wave with launches := [(1, l)], tasks := [(9, { Task.init with launch := 1, index := 0, st := .retired })] }
     l.next < l.x * l.y * l.z ∧ admitting s 1 = false ∧ ctxAdmits s 0 = true ∧ (∀ i ∈ predecessors l l.next, tileRetired s 1 i = true)) ∧
    (let b : SweepBlock := { index := 0, key := 1, pay := 0x100 }
     let s0 := { quarry with launches := [(1, { Launch.init with kernel := { placeKernel with qslot := 0 }, sweep := true, blocks := [b] })] }
     let s := serveQuarry 0 s0
     ctxAdmits s0 0 = true ∧ (getQuarry s0 0).desc ≠ 0 ∧ (getQuarry s 0).stall = none ∧ (getQuarry s 0).ops = [] ∧
       (match sweepReady 0 (.dispatch 1 0) b s with | .ok (some (0x100, 0), _) => true | _ => false) = true) ∧
    (let s := gangIs (fun g => { g with fibres := [] }) wave
     (getGang s 4).fibres = [] ∧ (∀ n ∈ [1, 2, 3], engineBusy s 4 n = false) ∧ (∀ r ∈ s.reqs, r.gang ≠ 4) ∧ (getGang s 4).relWait = none ∧
       writesPerformed { s with tick := 2 } 0 2 0 0 = true) := by decide +kernel

/-- A write that slab 0 has to send, the same held at its home, and a load that waits at a home for the word at 0x100. -/
def msg : WriteMsg := { WriteMsg.blank with id := 7, sector := 2, mask := 0xF, data := 0x01020304, stamp := [0, 0, 0, 0, 0] }
def request : Req := { Req.blank with id := 8, gang := 4, va := 0x100, ia := 0x100, bytes := 4, d := 2, window := 3, q := [0, 0, 0, 0, 0] }
theorem witness_MemoryEventsComplete :
    (∀ b ∈ wave.slabs, ∀ m ∈ b.2.inq, wave.tick ≤ m.tick) ∧ vget (stableOf { wave with tick := 3 } 255) 4 + 3 ≤ 3 ∧
    (getSlab { wave with slabs := [(0, { Slab.init with inq := [msg] })] } 0).inq = [msg] ∧
    (let s := { wave with held := [msg] }
     firstHeld s (homeOf 0x100) 0 = some msg ∧ applicable s msg = true ∧ s.mgmt.resetting = false ∧ msg.kind.grouped = false ∧ isOp msg.kind = false) ∧
    (let s := { wave with reqs := [request] }
     s.reqs.find? (fun r => r.id == 8 && r.phase == .toHome) = some request ∧ readReady s request = true ∧ isPeer request.ia = false ∧
       (match translate s 0 request.ia true false with | .ok _ => true | .error _ => false) = true ∧
       (match translate { s with mem := [] } 0 request.ia true false with | .ok _ => false | .error _ => true) = true) ∧
    (let r := { request with kind := .atomic 8 }
     let m := { msg with kind := .op 8 }
     let s := { wave with reqs := [r], held := [m] }
     s.reqs.find? (fun r => r.id == 8 && r.phase == .toHome) = some r ∧ opMsg s 8 = some m ∧ opReady s r m = true ∧
       (match translate s 0 r.ia true true with | .ok _ => true | .error _ => false) = true) ∧
    (let c : SliceCopy := { ctx := 0, sector := 2, way := 0, data := 0, present := 2 ^ 128 - 1, poison := false, stable := [0, 0, 0, 0, 0], stamp := [0, 0, 0, 0, 0], writer := 0, filled := 0, rr := 0 }
     c ∈ (getSlab { wave with slabs := [(3, { Slab.init with copies := [c] })] } 3).copies ∧ slabOfHome (homeOf (c.sector * 128)) ≠ 3) := by decide +kernel
theorem witness_MemoryEventsComplete_answers :
    (let r := { request with phase := .reply, kind := .scratch }
     let s := { wave with reqs := [r] }
     s.reqs.find? (fun r => r.id == 8 && r.phase == .reply && r.kind != .probe) = some r ∧ r.fid ≠ 1024 ∧ r.ord = 0 ∧
       (kget? (getGang s r.gang).fibres r.fid).isSome = true) ∧
    (let r := { request with phase := .reply, kind := .probe }
     let s := { wave with reqs := [r] }
     s.reqs.find? (fun r => r.id == 8 && r.phase == .reply && r.kind == .probe) = some r ∧
       ∀ x ∈ s.reqs, x.kind = .probe → x.entry = r.entry → x.ia / 128 = r.ia / 128 → r.id ≤ x.id) ∧
    (let r := { request with phase := .faulted 1 }
     let s := { wave with reqs := [r] }
     s.reqs.find? (fun r => r.id == 8 && r.seq == 0 && (match r.phase with | .faulted _ => true | _ => false)) = some r ∧ r.fid ≠ 1024 ∧ r.kind ≠ .txnRead) ∧
    ({ wave with applied := [msg] }.applied.find? (fun m => m.id == 7) = some msg) ∧
    (2 ^ 48 - 1) % 128 + [(0xAB : Byte)].length ≤ 128 := by decide
theorem witness_StoreWritesItsBytes : sectorTag wave 2 = none ∧ homeFenced wave 2 = false ∧
    (let s := { wave with sectorKeys := [(2, 7)] }
     sectorTag s 2 = some 7) := by decide
/-- A store of four bytes writes them lowest first and leaves the byte after them (R5). -/
theorem test_store_bytes : let t := storeSector 0 2 0xF 0x01020304 false 0 [0, 0, 0, 0, 0] { State.reset with mem := [(0x104, 9)] }
    readBytes t.mem 0x100 5 = [4, 3, 2, 1, 9] := by decide

def mxCfg1 : MxCfg := { afmt := 0, aprec := 1, bfmt := 0, bprec := 1 }
def mulOp1 : MxOp := { id := 5, gang := 4, fids := [0], kind := .mul 15 0 0 true none mxCfg1 }
def drain1 (disp : Nat) (haul : Bool) : Drain :=
  { id := 6, gang := 4, fids := [0], cluster := 0, queue := 15, haulPath := haul,
    blk := { src := 15, disp := disp, fmt := 1, rnd := 0, nan := false, keep := false, sync := none, bin := 0, dest := 0, pitch := 256, seed := 0, tx := 0,
             ty := 0, block := 131008, scale := none },
    pieces := [], next := 0, lost := [], status := 0, stall := none, packets := 0, accepted := 0, poison := false }
def engines (c : Cluster) (d : Drain) : State := { block 0 with clusters := [(0, c)], drains := [(6, d)] }
theorem witness_EngineEventsComplete :
    (let s := engines { Cluster.init with queues := [(15, [mulOp1])] } (drain1 2 true)
     (getCluster s 0).running = none ∧ nextQueue s 0 (getCluster s 0) = some 15 ∧ kget (getCluster s 0).queues 15 [] = mulOp1 :: []) ∧
    (let op := { mulOp1 with kind := .drain (drain1 0 false).blk }
     let s := engines { Cluster.init with queues := [(15, [op])] } (drain1 2 true)
     nextQueue s 0 (getCluster s 0) = some 15 ∧ kget (getCluster s 0).queues 15 [] = op :: []) ∧
    (let s := engines { Cluster.init with running := some mulOp1, runTile := some Tile.init } (drain1 2 true)
     (getCluster s 0).running = some mulOp1 ∧ (getCluster s 0).runTile = some Tile.init ∧ (getTile (getCluster s 0) 15).releasing = false) ∧
    (∀ haul, let s := sendDrain 6 (engines Cluster.init (drain1 0 haul))
      kget? s.drains 6 = some (drain1 0 haul) ∧ drainPerformed s (drain1 0 haul) = true ∧ (∀ x ∈ s.drains, x.2.haulPath = true → x.2.gang = 4 → 6 ≤ x.1)) ∧
    (let d := { drain1 1 false with pieces := [(0x40000000, [1])] }
     let s := sendDrain 6 (engines Cluster.init d)
     kget? s.drains 6 = some d ∧ drainBlocked s d = some (0x40000000, 0)) ∧
    (let s := { block 0 with crews := [(3, { Crew.init with handles := [(0, { Handle.init with st := .armed })] })] }
     (getHandle s 3 0).st = .armed ∧ (getHandle s 3 0).published = false) := by decide
def packet (h : Nat) : Packet := { id := 9, crew := 3, handle := h, bin := 0, first := 4095, words := [1], gang := 4, fids := [0], ctx := 0, cluster := 0, op := 0 }
def ack : HaulAck := { id := 9, crew := 3, handle := 1, gang := 77, fids := [0], ctx := 0, cluster := 0, op := 0, bytes := 16, cause := 8 }
/-- A packet that the chain takes and one that it rejects; an answer whose sender has gone. -/
theorem witness_EngineEventsComplete_packets :
    (let s := { block 0 with packets := [packet 63] }
     s.packets.find? (fun x => x.id == (packet 63).id) = some (packet 63) ∧ rejectCause s 3 63 0 (packetBytes (packet 63)) = 0 ∧
       (getHandle s 3 63).sync = none ∧ rejectCause s 3 1 0 (packetBytes (packet 1)) ≠ 0) ∧
    (let s := { block 0 with acks := [ack] }
     s.acks.find? (fun x => x.id == ack.id) = some ack ∧ ack.cause ≠ 0 ∧ kget? s.gangs ack.gang = none) := by decide

/-- A copy of 16 bytes into scratchpad and one out of it to memory; and one whose source is not mapped. -/
def copyOf (ctl src dst : Nat) : State :=
  let bs := bytesOfNat 64 (ctl + src * 2 ^ 64 + dst * 2 ^ 128 + 16 * 2 ^ 192)
  coreIs (fun c => { c with copyq := { c.copyq with cmds := [{ copyCmd with started := true, bytes := bs }] } }) wave
def working (s : State) (p : Nat) : Bool := match headCopy s 0 with
  | some c => !s.mgmt.resetting && c.started && (copyPieces c).contains p && !c.landed.contains p && (kget? c.lost p).isNone && c.sent.all (fun x => x.1 != p) && c.stall == none &&
      c.ending == none && readsQuiet s 0 c p && copyTurnOf s 0
  | none => false
theorem witness_CopyAndQuarryEventsComplete_copies :
    (headCopy (copying false) 0 = some copyCmd ∧ copyCmd.started = false) ∧
    (let s := copyOf 4 0x100 0x80
     working s 1 = true ∧ (match (headCopy s 0).map (fun c => (pieceData s c 1, pieceDest s c 1)) with | some (.ok _, .ok none) => true | _ => false) = true) ∧
    (let s := copyOf 2 0x80 0x100
     working s 2 = true ∧ (match (headCopy s 0).map (fun c => (pieceData s c 2, pieceDest s c 2)) with | some (.ok _, .ok (some 0x100)) => true | _ => false) = true) ∧
    (let s := copyOf 4 0x40000000 0x80
     working s 1 = true ∧ (match (headCopy s 0).map (fun c => pieceData s c 1) with | some (.error (0x40000000, 0)) => true | _ => false) = true) := by decide
def migrating (bits : Nat) (keys : List MigCopy) : State :=
  { quarry with
    mem := writeLE quarry.mem 38 2 bits
    quarries := [(0, { Quarry.init with desc := 0x40000, mig := some { issuerGang := 77, issuerTask := 78, copying := keys, oldKerfs := [] } })] }
def possible (a : Except Blocked (Bool × State)) : Bool := match a with | .ok (true, _) => true | _ => false
theorem witness_CopyAndQuarryEventsComplete_migration :
    (let s := serveQuarry 0 (migrating 2 [])
     s.mgmt.resetting = false ∧ (getQuarry s 0).stall = none ∧ (getQuarry s 0).ops = [] ∧ possible (migStart 0 0 s) = true) ∧
    (let s := serveQuarry 0 (migrating 2 [{ key := 0, done := 1, stall := none }])
     s.mgmt.resetting = false ∧ (getQuarry s 0).stall = none ∧ (getQuarry s 0).ops = [] ∧ possible (migLand 0 0 s) = true) ∧
    (let s := serveQuarry 0 (migrating 0x102 [])
     s.mgmt.resetting = false ∧ (getQuarry s 0).stall = none ∧ (getQuarry s 0).ops = [] ∧ possible (migComplete 0 s) = true) := by decide +kernel
def quarryFault (mem : Mem) (ops : List QOp) : State := let s := migrating 2 []
  { s with mem := mem, quarries := [(0, { getQuarry s 0 with ops := ops })] }
/-- The pool of that quarry and the payloads of its entry 0 at another VA. -/
def poolAt (va : Nat) (s : State) : State := { s with mem := [0x40010, 8, 16].foldl (fun m a => writeLE m a 8 va) s.mem }
theorem witness_CopyAndQuarryEventsComplete_faults :
    (let s := serveQuarry 0 (quarryFault [] [])
     match quarryBlocked s 0 with | some (.access _ _ _ _) => true | _ => false) = true ∧
    (let s := serveQuarry 0 (poolAt 0x40000000 (migrating 2 [{ key := 0, done := 0, stall := none }]))
     match quarryBlocked s 0 with | some (.copy 0 _ 0 4) => true | _ => false) = true ∧
    (let op := QOp.instr .gen 4 0 3 2 0 0 0 3
     let s := serveQuarry 0 (quarryFault wave.mem [op])
     (match quarryBlocked s 0 with | some (.corrupt 0x40000 _) => true | _ => false) = true ∧ (getQuarry s 0).ops = op :: [] ∧ (kget? s.gangs 4).isSome = true) ∧
    (let s := serveQuarry 0 (quarryFault wave.mem [])
     (match quarryBlocked s 0 with | some (.corrupt 0x40000 _) => true | _ => false) = true ∧ (getQuarry s 0).ops = []) := by decide +kernel

/-- A started command with its 64 bytes. -/
def cmd (op ctx v : Nat) : CmdRun := { index := 0, op := op, ctx := ctx, bytes := bytesOfNat 64 (op + ctx * 2 ^ 8 + v * 2 ^ 64), begun := false, mark := 0,
                                       record := none, step := none, answer := none, done := false }

/-- A drain of context 0 with its save area at 1 MiB; with a gang that has stopped, and without one. -/
def draining (size : Nat) (s : State) : State := setCtx s 0 { getCtx s 0 with draining := some { cmd := 0, save := 0x100000, size := size, start := 0 } }
theorem saveSize_bounds (s : State) (ctx : Nat) : 1 ≤ saveSize s ctx ∧ saveSize s ctx ≤ 2 ^ 31 := by unfold saveSize; omega
def parked (size : Nat) : State :=
  { coreIs (fun c => { c with table := [{ gang := 4, fids := [0], wait := .parked, since := 0 }] }) (draining size wave) with slots := [] }
/-- A gang that has stopped, its core clean or not, in a drain with room. -/
theorem witness_ContextEventsComplete_gang : let s := parked (2 ^ 31)
    let dirty := { s with wcb := [(0, [{ core := 0, ctx := 0, sector := 2, mask := 1, data := 0, poison := false }])] }
    (kget? s.gangs 4).isSome = true ∧ (getCtx s 0).draining = some { cmd := 0, save := 0x100000, size := 2 ^ 31, start := 0 } ∧
    allQuiescent s 0 = true ∧ saveSize s 0 ≤ 2 ^ 31 ∧ coreClean s 0 0 = true ∧ ctxWritesDone s 0 = true ∧
    allQuiescent dirty 0 = true ∧ saveSize dirty 0 ≤ 2 ^ 31 ∧ coreClean dirty 0 0 = false :=
  ⟨by decide, by decide, by decide, (saveSize_bounds _ _).2, by decide, by decide, by decide, (saveSize_bounds _ _).2, by decide⟩
theorem witness_ContextEventsComplete :
    (let s := parked 0
     s.mgmt.resetting = false ∧ drainQuiet s 0 = true ∧ bridgeReleased s 0 = true ∧ now s ≤ 0 + 2 ^ (getCtx s 0).deadlog ∧ 0 < saveSize s 0 ∧ allQuiescent s 0 = true) ∧
    (let s := { draining (2 ^ 31) wave with gangs := [] }
     s.mgmt.resetting = false ∧ (getCtx s 0).draining = some { cmd := 0, save := 0x100000, size := 2 ^ 31, start := 0 } ∧ drainQuiet s 0 = true ∧ bridgeReleased s 0 = true ∧
       now s ≤ 0 + 2 ^ (getCtx s 0).deadlog ∧ saveSize s 0 ≤ 2 ^ 31 ∧ ctxGangs s 0 = []) ∧
    (let s := { draining 0 wave with tick := 8, cmds := [cmd 7 0 0] }
     s.cmds.find? (fun c => c.index == 0) = some (cmd 7 0 0) ∧ s.mgmt.resetting = false ∧ (getCtx s 0).draining = some { cmd := 0, save := 0x100000, size := 0, start := 0 } ∧ 0 + 2 ^ (getCtx s 0).deadlog ≤ now s ∧
     drainDone s 0 = false) :=
  ⟨⟨by decide, by decide, by decide, by decide, (saveSize_bounds _ _).1, by decide⟩,
    ⟨by decide, by decide, by decide, by decide, by decide, (saveSize_bounds _ _).2, by decide⟩, by decide, by decide, by decide, by decide⟩

/-- Queue 4095 of context 0, with a ring of 16 packets at 0x60000 whose first packet is `v`, and the work of a started packet. -/
def qdesc : QueueDesc := { ring := 0x60000, rlog := 4, prio := 63, ctx := 0, evr := 63, idle := 1 }
def queue : Queue := { Queue.init with desc := some qdesc, slot := some 127 }
def queued (u : Queue) (v : Nat) : State := { wave with mem := writeLE wave.mem 0x60000 64 v, queues := [(4095, u)], tick := 32 }
def job (v : Nat) : Job := { Job.fresh (bytesOfNat 64 v) with begun := true }
def run (j : Job) : PacketRun := { index := 0, job := j, graph := none }
/-- The next packet of the queue starts and is read at once; one that has started is read. -/
def starts (kind : Nat) : Bool :=
  let s := { queued { queue with w := 1 } kind with tick := 1 }
  let t := queued { queue with w := 1, ridx := 1, runs := [{ index := 0, job := Job.fresh [], graph := none }] } kind
  queueJobs s 4095 == [] && (unreadRun (getQueue s 4095)).isNone && queueRuns s 4095 && mayStart s 4095 &&
    (match readPacket 4095 0 none (startRun 4095 s) with | .ok (bs, _) => jobKind false bs == kind | .error _ => false) &&
    (unreadRun (getQueue t 4095)).isSome && (match readPacket 4095 0 none t with | .ok (bs, _) => jobKind false bs == kind | .error _ => false)
/-- A home that has not received what the weighbridge must see does not serve the read yet. -/
def unserved (s : State) : State := { s with bridge := [5, 0, 0, 0, 0] }
theorem witness_QueueEventsComplete :
    (let s := queued queue 0
     s.mgmt.resetting = false ∧ (getQueue s 4095).desc = some qdesc ∧ (getQueue s 4095).saved = none ∧ (getCtx s 0).st ≠ .free ∧ destroying s 0 = false ∧
       2 ^ 4 < ((17 : W64) - (getQueue s 4095).ridx).toNat ∧ ((16 : W64) - (getQueue s 4095).ridx).toNat ≤ 2 ^ 4 ∧
       (getQueue s 4095).slot ≠ none ∧ queueEmpty (getQueue s 4095) = true ∧ (getQueue s 4095).emptySince + usCycles 1 ≤ now s) ∧
    (let u := { queue with slot := none, waiting := some 0 }
     let s := queued u 0
     (getQueue s 4095).waiting = some 0 ∧ freeSlot s = some 0 ∧
       leastBy (fun e => waitOrder e.2) (s.queues.filter (fun e => e.2.waiting.isSome && e.2.slot.isNone)) = some (4095, u)) ∧
    (∀ k ∈ [0, 1, 2, 3, 4, 5, 6], starts k = true) ∧
    (let s := queued { queue with w := 1 } 3
     match readPacket 4095 0 none (startRun 4095 s) with | .error .wait => true | _ => false) = true := by decide +kernel
/-- The queue is saved. -/
theorem witness_QueueEventsComplete_saved :
    let v : Save := { ctx := Ctx.init, tasks := [], launches := [], crews := [], quarries := [], queues := [], rings := [], records := [], faults := [], image := [] }
    let s := { queued { queue with saved := some 7 } 0 with saves := [(7, v)] }
    (getQueue s 4095).saved = some 7 ∧ kget? s.saves 7 = some v := by decide
/-- A packet that stands in no window, and a record of the queue whose ring's next entry does. -/
theorem witness_QueueEventsComplete_stalls :
    (let d := { qdesc with ring := 0x40000000 }
     let s := queued { queue with desc := some d, w := 1 } 0
     (queueJobs s 4095).findSome? (fun x => (jobStall s (getQueue s 4095) x).map (fun e => (x, e))) = none ∧ (getQueue s 4095).desc = some d ∧
       (readStall s 4095).isSome = true) ∧
    (let r := { EventRing.init with set := true, base := 0x40000000, waiting := [{ seq := 1, time := 0, status := 0, type := 0, queue := 4095, ctx := 0, tag := 0,
                                                                                   summary := 0, urgent := false, stall := none, ready := true }] }
     let s := { queued queue 0 with rings := [(63, r)] }
     (queueJobs s 4095).findSome? (fun x => (jobStall s (getQueue s 4095) x).map (fun e => (x, e))) = none ∧ readStall s 4095 = none ∧
       (recordStall s 4095).isSome = true) := by decide +kernel
/-- Its context is gone. -/
theorem witness_QueueEventsComplete_gone : (getCtx (setCtx (queued queue 0) 0 Ctx.init) 0).st = .free := by decide
/-- A wait whose word is 0 as it must be; it is read at once, or its read begins. -/
theorem witness_QueueEventsComplete_waits :
    let j := { job 3 with limit := some 0 }
    let s := queued { queue with runs := [run j], signalled := 1 } 0
    let r : JobRef := { queue := 4095, index := 0, node := none }
    (getQueue s 4095).signalled ≠ 0 ∧ openWaits s 4095 = [(r, j)] ∧ j.step = none ∧
    (match checkWaits (openWaits s 4095) (setQueue 4095 { getQueue s 4095 with signalled := 0 } s) with | .ok _ => true | _ => false) = true ∧
    (match checkWaits (openWaits s 4095) (setQueue 4095 { getQueue s 4095 with signalled := 0 } (unserved s)) with | .error .wait => true | _ => false) = true ∧
    (openWaits s 4095).find? (fun x => match x.2.limit with | some l => decide (l ≤ now s) | none => false) = some (r, j) ∧
    (match unitRun (jobUnit s r j) (jobWord (jobUnit s r j) j) s with | .ok (0, _) => true | _ => false) = true := by decide +kernel
def graphRun (j : Job) : PacketRun := { run (job 5) with
  graph := some { nodes := [(3, { bytes := bytesOfNat 64 6, arrivals := 0, passes := 0, chosen := none, job := some j })], fail := none, loopLimit := none } }
theorem witness_QueueEventsComplete_ends :
    (∀ v ∈ [0x103, 3], let j := { job v with status := some (0, 0) }
      let s := queued { queue with runs := [run j] } 0
      (getQueue s 4095).runs.find? (fun r => r.index == 0) = some (run j) ∧ jobEnd s j = some (0, 0) ∧ j.record = none ∧
        bridgeReleased s (queueCtx s 4095) = true) ∧
    (let j := { job 6 with begun := false }
     let s := queued { queue with runs := [graphRun j] } 0
     let r : JobRef := { queue := 4095, index := 0, node := some 3 }
     (queueJobs s 4095).find? (fun x => x.1.node == some 3 && actionable x.1 x.2) = some (r, j) ∧
       (match actJob r j s with | .ok _ => true | .error _ => false) = true) ∧
    (let j := { job 4 with begun := false }
     let s := unserved (queued { queue with runs := [graphRun j] } 0)
     let r : JobRef := { queue := 4095, index := 0, node := some 3 }
     (queueJobs s 4095).find? (fun x => x.1.node == some 3 && actionable x.1 x.2) = some (r, j) ∧ j.step = none ∧
       (match actJob r j s with | .error .wait => true | _ => false) = true) ∧
    (let nd : Node := { bytes := bytesOfNat 64 (6 + 2 ^ 48), arrivals := 1, passes := 0, chosen := none, job := none }
     let g : Graph := { nodes := [(3, nd)], fail := none, loopLimit := none }
     let x := { run (job 5) with graph := some g }
     let s := queued { queue with runs := [x] } 0
     (queueJobs s 4095).find? (fun x => x.1.node == some 3 && actionable x.1 x.2) = none ∧ (getQueue s 4095).runs.find? (nodeReady 3) = some x ∧
       kget? g.nodes 3 = some nd) ∧
    (let j := { job 6 with status := some (0, 0) }
     let s := queued { queue with runs := [graphRun j] } 0
     let r : JobRef := { queue := 4095, index := 0, node := some 3 }
     (queueJobs s 4095).find? (fun x => x.1.node == some 3 && (jobEnd s x.2).isSome) = some (r, j) ∧ jobEnd s j = some (0, 0) ∧ (nodeOf s r).isSome = true ∧
       j.record = none ∧ bridgeApplied s = true) ∧
    (let s := queued { queue with runs := [run { job (3 + 0x40000000 * 2 ^ 64) with begun := false }] } 0
     ((queueJobs s 4095).findSome? (fun x => (jobStall s (getQueue s 4095) x).map (fun e => (x, e)))).isSome = true) := by decide +kernel

def record : Record := { seq := 1, time := 0, status := 0, type := 0, queue := 4095, ctx := 0, tag := 0, summary := 0, urgent := false, stall := none,
                         ready := true }
def ringed (r : EventRing) : State := { wave with rings := [(63, r)], tick := 32 }
theorem witness_HostSideEventsComplete :
    (let s := { ringed { EventRing.init with set := true, base := 0x61000, waiting := [record], tail := 15 } with tick := 0 }
     let r := getRing s 63
     r.waiting = [record] ∧ s.mgmt.resetting = false ∧ r.set = true ∧ record.stall = none ∧ (r.tail - r.head).toNat < 2 ^ r.elog ∧
       savedBefore s 63 record = false ∧ r.sent = none ∧ bridgeReleased s 0 = true ∧
       (match putRecord r record s with | .ok _ => true | .error _ => false) = true ∧ recordLanded s (4, 5) = true ∧ r.count ≤ r.pending + 1) ∧
    (let s := ringed { EventRing.init with set := true, pending := 1 }
     s.mgmt.resetting = false ∧ (getRing s 63).set = true ∧ (getRing s 63).pending ≠ 0 ∧ (getRing s 63).oldest + usCycles (getRing s 63).time ≤ now s) ∧
    (let s := { wave with faultsOut := [FaultRec.blank], port := { wave.port with frTail := 15 } }
     s.mgmt.resetting = false ∧ (s.port.frTail - s.port.frHead).toNat < 2 ^ s.port.frLog.toNat ∧ bridgeReleased s FaultRec.blank.ctx = true) ∧
    { wave.mgmt with resetting := true }.resetting = true ∧ wave.mgmt.resetting = false ∧ 2 ^ wave.port.dcrLog.toNat < ((17 : W64) - wave.port.dcrRd).toNat ∧ ((16 : W64) - wave.port.dcrRd).toNat ≤ 2 ^ wave.port.dcrLog.toNat ∧
    wave.port.dcrDb = wave.port.dcrRd ∧ wave.cmds = [] ∧ { wave with cmds := [cmd 2 0 0] }.cmds ≠ [] ∧ { wave.port with dcrDb := 1 }.dcrDb ≠ wave.port.dcrRd ∧ wave.port.frHead = wave.port.frTail ∧
    (let s := { wave with mgmt := { wave.mgmt with pkg := .leased }, hostMem := [(0, 17)], port := { wave.port with dcrDb := 1 } }
     ringServed s = true ∧ cmdCovered s = true ∧ bridgeApplied s = true ∧
       hasRow (byteAt (readBytes s.hostMem (cmdAddr s 0) 64) 0) (readBytes s.hostMem (cmdAddr s 0) 64) = true) := by decide

/-- That command on a leased package whose context 0 is live and whose context 1 is free. -/
def commanded (s : State) (c : CmdRun) : State := { s with cmds := [c], mgmt := { s.mgmt with pkg := .leased }, port := { s.port with dcrDb := 1 } }
def accepts (s : State) (op ctx v : Nat) (mine : List Byte → Bool) : Bool :=
  let t := commanded s (cmd op ctx v)
  startedCmd t op mine == some (cmd op ctx v) && ringServed t && refuseCmd t (cmd op ctx v) == none
def any (_ : List Byte) : Bool := true
theorem witness_CommandsComplete :
    accepts wave 1 15 (0xFFFFF + 0xFFFFFFFF0000 * 2 ^ 64 + 40 * 2 ^ 128) any = true ∧ accepts wave 2 0 0 any = true ∧
    accepts wave 3 0 (15 + (2 ^ 63 + 2 ^ 30 + 30) * 2 ^ 64 + 2 ^ 30 * 2 ^ 128 + 0x1F07 * 2 ^ 192) any = true ∧
    accepts wave 4 0 7 (fun bs => field bs 16 8 == 0) = true ∧ (getQuarry wave 7).mig = none ∧
    accepts wave 5 0 (4095 + 0x1000 * 2 ^ 64) any = true ∧ unitFailed wave 13 4095 = false ∧ (getQueue wave 4095).slot = none ∧ (getQueue wave 4095).ridx = (getQueue wave 4095).w ∧
    badQueueImage 0 (bytesOfNat 64 (4 * 2 ^ 64 + 63 * 2 ^ 72 + 63 * 2 ^ 88 + 2 ^ 96)) = [] ∧
    accepts wave 6 0 63 any = true ∧ (getRing wave 63).tail = (getRing wave 63).head ∧ badRingImage (bytesOfNat 32 (20 * 2 ^ 64 + 2 ^ 80 + 2 ^ 96)) = [] ∧
    accepts wave 7 0 (0x1000 * 2 ^ 64) any = true ∧ accepts (setCtx wave 0 { getCtx wave 0 with st := .held }) 9 0 0 any = true ∧
    accepts wave 10 0 10 any = true ∧ accepts wave 11 0 (52 * 2 ^ 128) any = true ∧ accepts wave 13 0 (2 ^ 18 - 1) any = true ∧
    accepts { wave with links := [(.cxl, 3)] } 14 0 3 any = true ∧ accepts wave 15 0 8191 any = true ∧ accepts wave 17 0 (575 + 7 * 2 ^ 16 + 7 * 2 ^ 24) any = true := by decide
/-- Binding the quarry of the tests, restoring a saved context into slot 1, and commands for core 575 that is claimed. -/
theorem witness_CommandsComplete_more :
    (let c := cmd 4 0 (7 + 0x40000 * 2 ^ 64)
     accepts quarry 4 0 (7 + 0x40000 * 2 ^ 64) (fun bs => field bs 16 8 != 0) = true ∧ field c.bytes 16 8 % 256 = 0 ∧ field c.bytes 16 8 < 2 ^ 57 ∧
       unitFailed quarry 11 (quarrySlab (setQuarry quarry 7 { Quarry.init with desc := 0x40000 }) 7) = false ∧
       (match bindQuarry 0 7 0x40000 none (endSteps 7 (commanded quarry c)) with | .ok (true, _) => true | _ => false) = true) ∧
    (let v : Save := { ctx := { Ctx.init with pasid := 9 }, tasks := [], launches := [], crews := [], quarries := [], queues := [], rings := [],
                       records := [], faults := [], image := [0, 0] }
     let s := { wave with saves := [(7, v)] }
     accepts s 8 1 (0x100000 * 2 ^ 64) any = true ∧ areaBytes s 0x100000 2 = v.image ∧ pasidHeld s 1 9 = false ∧
       accepts wave 8 1 (0x100000 * 2 ^ 64) any = true ∧ wave.saves = []) ∧
    (∀ n ∈ [0, 1, 2, 3, 4], accepts wave 16 0 (575 + n * 2 ^ 16) (fun bs => byteAt bs 10 == n) = true) ∧
    (getCore (setCore wave 575 { Core.init with claimed := true }) 575).claimed = true := by decide +kernel
/-- A destruction and a TLBINV that have begun, and an answer to a pending fault and to none. -/
theorem witness_CommandsComplete_running :
    (let c := { cmd 2 0 0 with begun := true }
     let s := commanded wave c
     let ended := { c with record := some 1, answer := some (0, 0) }
     ringServed s = true ∧ ctxWritesDone s 0 = true ∧ c.answer = none ∧ c.record = none ∧ c.begun = true ∧ c.done = false ∧
       cmdReleased (commanded wave ended) ended = true) ∧
    (let c := { cmd 11 0 (52 * 2 ^ 128) with begun := true, mark := 7 }
     let s := { commanded wave c with held := [{ msg with ctx := 1 }] }
     let line : L1Line := { ctx := 0, line := 1, way := 0, rr := 0, lo := { L1Sector.blank with confirmed := true }, hi := L1Sector.blank }
     s.cmds.find? (fun c => c.index == 0 && c.op == 11 && c.begun && !c.done) = some c ∧ ringServed s = true ∧ tlbSwept c s = true ∧
       tlbDrained c s = true ∧ cmdReleased s c = true ∧ tlbSwept c { s with l1 := [(0, [line])] } = false) ∧
    (let f := { FaultRec.blank with seq := 5, kind := 1 }
     ∀ n ∈ [1, 2, 3], let c := cmd 12 0 (5 + n * 2 ^ 64)
       accepts { wave with faults := [f] } 12 0 (5 + n * 2 ^ 64) (fun bs => byteAt bs 16 == n) = true ∧
         pendingFault { wave with faults := [f] } (ansSeq c) = some f ∧ acceptsAnswer f.kind n = true ∧ pendingFault wave (ansSeq c) = none) ∧ acceptsAnswer 3 4 = false ∧
    acceptsAnswer { FaultRec.blank with kind := 8 }.kind 4 = true := by decide
/-- BUSY while a destruction runs, a malformed byte, and a context in the wrong state. -/
theorem witness_CommandsRefused :
    (let c := { cmd 7 0 0 with index := 1 }
     let s := { wave with cmds := [{ cmd 2 0 0 with begun := true }, c], mgmt := { wave.mgmt with pkg := .leased } }
     startedCmd s 7 any = some c ∧ ringServed s = true ∧ refuseCmd s c = some (2, 0)) ∧
    cmdReleased wave (cmd 9 0 1) = true ∧ cmdReleased { wave with held := [{ msg with agent := 4 }] } (cmd 9 0 1) = false ∧
    refuseCmd wave (cmd 9 0 1) = some (1, 8) ∧ refuseCmd wave (cmd 9 0 0) = some (3, 1) := by decide
theorem witness_ManagementComplete : wave.mgmt.pkg ≠ .scrub ∧ { wave.mgmt with pkg := .scrub }.pkg = .scrub ∧ 575 < unitCount .core ∧ 3 < unitCount .derrick ∧ 4 < 5 ∧ kindCode .derrick = 4 ∧ unitCount .derrick ≤ 4 ∧
    (∀ c ∈ [1, 4, 5, 6], inState c wave.mgmt.pkg = true) ∧ inState 9 { wave.mgmt with pkg := .idle }.pkg = true ∧
    ({ wave.mgmt with pkg := .idle }.pkg = .idle ∧ (List.replicate 256 (7 : Byte)).length = 256) ∧ wave.mgmt.pkg ≠ .idle ∧ 9 < (255 : Byte).toNat := by decide
/-- The 1,024th corrected error of a home in an hour, and the one after it (R434). -/
theorem witness_ErrorEventsComplete : 255 < unitCount .home ∧ 79 < unitCount .loop ∧ 2 ^ 48 - 1 < 2 ^ 48 ∧
    (kget? wave.gangs 4).isSome = true ∧ (kget? (getGang wave 4).fibres 0).isSome = true ∧ 255 < 256 ∧
    (let s := { wave with mgmt := { wave.mgmt with errCount := [(.home, 255, 0, 1023)] } }
     (countError .home 255 (mergeError .home 255 0 s)).1 ≤ 1024) ∧
    (let s := { wave with mgmt := { wave.mgmt with errCount := [(.home, 255, 0, 1024)] } }
     1024 < (countError .home 255 (mergeError .home 255 0 s)).1) := by decide

/-! ### Waves that part and join, and transactions -/

/-- Two fibres in slot 0, of which the first alone has P1. -/
def parting : State := slotIs (fun sl => { sl with fids := [0, 1] })
  (gangIs (fun g => { g with fibres := [(0, { getFibre g 0 with preds := 3 }), (1, getFibre g 0)] }) (targets wave))
/-- A wave that parts: a BRA that the first fibre alone executes goes to another slot than the next. -/
theorem witness_TransfersComplete_parts : let s := parting
    let e := env s
    let f := { f3 with h := { h0 with gp := 1 }, tslot := 4 }
    Issues false s e ∧ Live e ∧ GuardsClean f.h e ∧ executing f.h e = [0] ∧ e.sl.txn = none ∧ targetTrap s e.g.ctx (target3 e.pc f) = none ∧
    targetPage s e.g.ctx (target3 e.pc f) = none ∧ e.fids = [0, 1] ∧ target3 e.pc f ≠ nextPc e.pc :=
  ⟨issues_of (by decide), by unfold Live; decide, by unfold GuardsClean; decide, by decide, by decide, by decide, by decide, by decide, by decide⟩

/-- Fibre 0 with an open join set whose other member runs, and one whose other member already waits. -/
theorem witness_JoinsAndBarriersComplete_join :
    let at_ := fun (js : JoinSet) =>
      gangIs (fun g => { g with joinSets := [(7, js)], fibres := [(0, { getFibre g 0 with joins := [7] }), (1, { getFibre g 0 with joins := [7] })] }) wave
    let js := fun (w : List Nat) => ({ members := [0, 1], waiting := w } : JoinSet)
    (∀ w ∈ [[], [1]], let s := at_ (js w)
      executing h0 (closedEnv (env s)) = [0] ∧ (getFibre (env s).g 0).joins = [7] ∧ kget? (env s).g.joinSets 7 = some (js w) ∧
      ((1 ∉ w ∧ 1 ≠ 0) ∨ ∀ m ∈ [0, 1], (m ∈ w ∨ m ∈ [0]) ∧ isPinned s 4 m = false)) ∧
    (let s := at_ (js [1])
     Issues true s (env s) ∧ Live (env s) ∧ Plain h0 (closedEnv (env s))) :=
  ⟨by decide, issues_of (by decide), by unfold Live; decide, ⟨by decide, by unfold GuardsClean; decide⟩⟩

def holding (tx : Txn) : State := slotIs (fun sl => { sl with txn := some tx }) wave
/-- A transaction that has written one byte, the last of its line. -/
def writing : Txn := { txnOf 1 with writes := { TxnWrites.empty with glob := [(0x1FF, 5)], globLines := [1] } }
def released : State := (release (closedEnv (env (holding writing))) (pinned (env (holding writing)).sl writing) 1
  (closedState (env (holding writing)) (holding writing))).2
theorem committing_issues : Issues true (holding writing) (env (holding writing)) := issues_of (by decide)
theorem committing_env : (env (holding writing)).sl.txn = some writing ∧ (env (holding writing)).fids.length = (pinned (env (holding writing)).sl writing).length := by decide
theorem committing_released : (release (closedEnv (env (holding writing))) (pinned (env (holding writing)).sl writing) 1
  (closedState (env (holding writing)) (holding writing))).1 = true ∧ validationServed released 0 writing = true ∧ validates released 4 writing = true := by decide
theorem committing_locks : locksServed released 0 (commitMsgs (env (holding writing)).g.ctx 0 writing.writes) = true := by decide
theorem committing_looks : (commitLooks released (env (holding writing)).g.ctx released.ids writing.writes).map (fun x => match x.2 with
    | .ok lf => !commitHolds released (lf.pa / 256) | .error _ => false) = [true] := by decide
theorem witness_TransactionsClose_commits :
    Issues true (holding writing) (env (holding writing)) ∧
    ((env (holding writing)).sl.txn = some writing ∧ (env (holding writing)).fids.length = (pinned (env (holding writing)).sl writing).length) ∧
    ((release (closedEnv (env (holding writing))) (pinned (env (holding writing)).sl writing) 1 (closedState (env (holding writing)) (holding writing))).1 = true ∧
      validationServed released 0 writing = true ∧ validates released 4 writing = true) ∧
    locksServed released 0 (commitMsgs (env (holding writing)).g.ctx 0 writing.writes) = true ∧
    (commitLooks released (env (holding writing)).g.ctx released.ids writing.writes).map (fun x => match x.2 with
      | .ok lf => !commitHolds released (lf.pa / 256) | .error _ => false) = [true] :=
  ⟨committing_issues, committing_env, committing_released, committing_locks, committing_looks⟩
def sleeper : Sleeper :=
  { core := 0, gang := 4, fids := [0], beginPc := 0x10000, abortPc := 0x10002, reads := [], limit := none, start := 0, coarse := false, levels := 1 }
def noted (v : Word) : State := noteIssue (env (holding (readOf v))) 5 (closedState (env (holding (readOf v))) (holding (readOf v)))
theorem retrying_issues0 : Issues true (holding (readOf 0)) (env (holding (readOf 0))) := issues_of (by decide)
theorem retrying_issues1 : Issues true (holding (readOf 1)) (env (holding (readOf 1))) := issues_of (by decide)
theorem retrying_env0 : (env (holding (readOf 0))).sl.txn = some (readOf 0) ∧ executing h0 (closedEnv (env (holding (readOf 0)))) ≠ [] := by decide
theorem retrying_env1 : (env (holding (readOf 1))).sl.txn = some (readOf 1) ∧ executing h0 (closedEnv (env (holding (readOf 1)))) ≠ [] := by decide
theorem retrying_same : validationServed (noted 0) 0 (readOf 0) = true ∧ validates (noted 0) 4 (readOf 0) = true ∧ readsFenced (noted 0) (readOf 0) = false := by decide
theorem retrying_changed : validationServed (noted 1) 0 (readOf 1) = true ∧ validates (noted 1) 4 (readOf 1) = false := by decide
/-- The final retry of a read set whose version has not changed (0), and of one whose has (1). -/
theorem witness_TransactionsClose_retries :
    (Issues true (holding (readOf 0)) (env (holding (readOf 0))) ∧
      ((env (holding (readOf 0))).sl.txn = some (readOf 0) ∧ executing h0 (closedEnv (env (holding (readOf 0)))) ≠ []) ∧
      validationServed (noted 0) 0 (readOf 0) = true ∧ validates (noted 0) 4 (readOf 0) = true ∧ readsFenced (noted 0) (readOf 0) = false) ∧
    (Issues true (holding (readOf 1)) (env (holding (readOf 1))) ∧
      ((env (holding (readOf 1))).sl.txn = some (readOf 1) ∧ executing h0 (closedEnv (env (holding (readOf 1)))) ≠ []) ∧
      validationServed (noted 1) 0 (readOf 1) = true ∧ validates (noted 1) 4 (readOf 1) = false) ∧
    dropToAlternative (txnOf 1).levels = [] ∧ (readOf 0).reads ≠ [] :=
  ⟨⟨retrying_issues0, retrying_env0, retrying_same⟩, ⟨retrying_issues1, retrying_env1, retrying_changed⟩, rfl, List.cons_ne_nil _ _⟩
/-- A sleeper that a write of line 5 wakes; and a wave outside a transaction. -/
theorem witness_TransactionsClose_wakes :
    (let s := { wave with sleepers := [(9, sleeper)], wakes := [{ place := .home 5, line := some 5, bank := 0, gang := 4, who := .wave 9 }] }
     kget? s.sleepers 9 = some sleeper ∧ (kget? s.gangs 4).isSome = true ∧ (∀ q ∈ s.sleepers, q.1 = 9) ∧
       ∃ w ∈ s.wakes, w.who = .wave 9 ∧ w.place = .home 5 ∧ (w.line = none ∨ w.line = some 5)) ∧
    Issues true based (env based) ∧ CanTrap based (env based) ∧ GuardsClean h0 (closedEnv (env based)) ∧ executing h0 (closedEnv (env based)) ≠ [] :=
  ⟨by decide, issues_of (by decide), canTrap_of (by decide), by unfold GuardsClean; decide, by decide⟩
def inside : State := inTxn 1 (pairIs 4 0x3FFFFFFC wave)
/-- The last word of the window, the last word of the scratchpad and its last plane, in a transaction. -/
theorem inside_global : ∀ fid ∈ executing h0 (env inside), let ia := iaOf inside 0 (globalAddr { f2 with b := 0 } (getFibre (env inside).g fid)).1 1
    globalFaults inside 0 (globalAddr { f2 with b := 0 } (getFibre (env inside).g fid)).1 4 1 false = [] ∧ isPeer ia = false ∧
      homeSeen inside 0 0 ia false = false := by decide
theorem inside_short : scratchFaults (env inside).g 65532 4 false false = [] ∧ scratchPoisonAt (env inside).g 65532 = false ∧
    acquiresDone inside 4 (executing h0 (env inside)) = true ∧ planeFaults (env inside).g .q16n 57344 = [] := by decide
theorem inside_clear : fibresClear inside (env inside) (executing h0 (env inside)) [0x3FFFFFFC / 128] = true := by decide
theorem witness_LoadsComplete_transactional : let e := env inside
    let f := { f2 with b := 0 }
    Issues false inside e ∧ Live e ∧ e.sl.txn = some (txnOf 1) ∧ RegsOk e (executing h0 e) (dstUse (laneDst f.ty f.d) ++ [(4, 2)] ++ idxUse f) ∧
    ReadsFit inside e (txnOf 1) 16 ∧ (txnOf 1).writes.globPoison = [] ∧ (txnOf 1).writes.scrPoison = [] :=
  ⟨issues_of (by decide), by unfold Live; decide, by decide, by unfold RegsOk; decide, by unfold ReadsFit; decide, rfl, rfl⟩
/-- The reply of a transactional read of line 5, at the version the line had and at another. -/
def replied (v : Word) : State := slotIs (fun sl => { sl with txn := some (readOf v) })
  { wave with reqs := [{ request with kind := .txnRead, phase := .reply, image := 5 }] }
theorem witness_LoadsComplete_reply : let r := { request with kind := .txnRead, phase := .reply, image := 5 }
    (replied 0).reqs.find? (fun r => r.id == 8 && r.phase == .reply && r.kind != .probe) = some r ∧ r.ord = 0 ∧ slotKey r.core r.slot = 0 ∧
    (getSlot (replied 0) 0).txn = some (readOf 0) ∧ (getSlot (replied 1) 0).txn = some (readOf 1) ∧ (getSlot (replied 0) 0).gang = r.gang ∧
    r.fid ∈ (getSlot (replied 0) 0).fids ∧ r.sectorPoison = false ∧ r.ca % 4 = 0 ∧
    (readOf 0).reads.map (·.line) = [r.image] ∧ (txnOf 1).reads = [] ∧ (txnOf 1).reads.length < 32 := by decide
/-- The same places, written; the byte of the eighth line of the write set is still in it. -/
theorem witness_StoresComplete_transactional : let s := inTxn 1 (pairIs 4 0x3FFFFFFC wave)
    let e := env s
    let tx := txnOf 1
    let f := { f2 with d := 0 }
    Issues false s e ∧ Live e ∧ e.sl.txn = some tx ∧ RegsOk e (executing h0 e) ([(4, 2)] ++ srcUse (dataSrc f.ty f.b) ++ idxUse f) ∧
    (∀ fid ∈ sortBy lane (executing h0 e), let ia := iaOf s 0 (globalAddr f (getFibre e.g fid)).1 3
      globalFaults s 0 (globalAddr f (getFibre e.g fid)).1 4 3 false = [] ∧ isPeer ia = false ∧
        (match translate s 0 ia true true with | .ok l => l.ca == 0 | .error _ => false) = true) ∧
    fibresClear s e (executing h0 e) [0x3FFFFFFC / 128] = true ∧ (noteLines [0x3FFFFFFC / 256] [0, 1, 2, 3, 4, 5, 6]).length + 0 ≤ 8 ∧
    scratchFaults e.g 65532 4 true false = [] ∧ planeFaults e.g .q16n 57344 = [] ∧ 0 + (noteLines [255] [0, 1, 2, 3, 4, 5, 6]).length ≤ 8 :=
  ⟨issues_of (by decide), by unfold Live; decide, by decide, by unfold RegsOk; decide, by decide, by decide, by decide, by decide, by decide, by decide⟩
theorem witness_StoreWritesItsBytes_memory : Memory.wf wave.mem = true ∧ Memory.wf wave.hostMem = true := by decide
/-- No place of a machine whose L1 caches and poison marks are empty reads as poisoned. -/
theorem witness_MemoryFrame_clean : NoPoisonSeen wave (env wave) := by
  have hp : ∀ c ia w, homePoison wave c ia w = false := fun c ia w => by
    unfold homePoison poisonedAt homeFenced
    split
    · rfl
    · split <;> rfl
  have hs : ∀ ia w, homeSeen wave (env wave).core (env wave).g.ctx ia w = false := fun ia w => by
    simp only [homeSeen, hp, Bool.and_false, Bool.or_false]
    rfl
  refine fun ia => ⟨hs ia, fun n pol ord sc w => ?_⟩
  have h1 : (l1Sector wave (env wave).core (env wave).g.ctx ia).poison = false := rfl
  have h2 : ∀ m, sliceHit wave (slabOf (env wave).core) (env wave).g.ctx (ia / 128) m = none := fun _ => rfl
  cases w <;> simp [seenPoison, hs, h1, h2]

/-! ### Encoding, the step, and frames -/

theorem witness_EncodedInstructionDecodes : (Instr.iadd f0).wf 3 = true ∧ (encode (.iadd f0)).isSome = true := by decide
theorem witness_DecodedWordEncodesBack : decode 3 0xFA0600000000000000000000 = .ok (.nop f6) := by decide
theorem witness_SampleWordsDecode : (0xFF0600000000000000000000 : BitVec 96).extractLsb' 88 8 = 0xFF := by decide
def turn : State := State.reset.withFetchWord 96 0xFA0600000000000000000000
/-- A NOP in slot 0, about to issue. -/
theorem witness_StepRunsDecodedInstruction :
    turn.agenda = .wave 0 0 :: [] ∧ (getCore turn 0).halted = false ∧ turn.mgmt.resetting = false ∧
    (let s := { turn with agenda := [], cur := some (0, 0) }
     let l := match checkWindow s 0 (lineOf (env s).pc) pathVec 4 with
       | .ok ia => (match lineBits s 0 ia with | .ok l => l | .error _ => 0)
       | .error _ => 0
     slotExpired s 0 0 = false ∧ selected (env s) s = true ∧ (env s).sl.handler = none ∧ pairBit s 0 (env s).pc = false ∧
       envOf s = some (env s) ∧ pendingAsync (env s) = none ∧ parityOk l = true ∧ lineWord l &&& 0xFE00 = 0 ∧
       decode (env s).g.kernel.version (slotWord l ((env s).pc.toNat % 8)) = .ok (.nop f6)) ∧
    encode .tick = none ∧ isWaveRow .tick = false ∧
    (let s := { turn with agenda := [.wave 0 0], mem := writeBytes turn.mem placePc (bytesOfNat 64 (lineOfWord ((encode (.st { f2 with d := 0, ord := 2, sc := 2 })).getD 0).toNat)) }
     issuesNow (env { s with cur := some (0, 0) }) { s with cur := some (0, 0) } = false) ∧
    (env handling).sl.handler.isSome = true := by decide
/-- That NOP runs as the first instruction after reset. -/
theorem test_step_nop : (match step turn with | .next t => (getFibre (getGang t 4) 0).pc == 0x10001 | _ => false) = true := by decide
theorem witness_StepKeepsInvariant : StateInv turn ∧ (match step turn with | .next _ => true | _ => false) = true :=
  ⟨⟨by decide, by decide, by decide, by decide, by unfold BanksWf; decide, by unfold BanksWf; decide, by unfold BanksWf; decide⟩, by decide⟩
theorem witness_ComputingFrame : (computing (.iadd f0)).isSome = true ∧ (hdrOf (.iadd f0)).isSome = true ∧ Issues false wave (env wave) ∧ Live (env wave) ∧
    RegsOk (env wave) (executing h0 (env wave)) (tyUse .i32 2 ++ tyUse .i32 4 ++ tyUse .i32 6) ∧
    (match exec (.iadd f0) wave with | .next _ => true | _ => false) = true :=
  ⟨by decide, by decide, issues_of (by decide), by unfold Live; decide, by unfold RegsOk; decide, by decide⟩
theorem witness_MemoryFrame : memoryForm (.ld { f2 with b := 0 }) = true ∧ Issues false wave (env wave) ∧ (env wave).sl.txn = none ∧
    (match exec (.ld { f2 with b := 0 }) wave with | .next t => (kget? (getGang t 4).fibres 0).isSome | _ => false) = true :=
  ⟨by decide, issues_of (by decide), by decide, by decide⟩
/-- A misaligned pair; and R16 of a fibre of 16 registers. -/
theorem witness_RegisterOutsideWindowTraps : (computing (.iadd { f0 with d := 3, ty := .i64 })).isSome = true ∧
    Issues false based (env based) ∧ CanTrap based (env based) ∧
    (executing h0 (env based)).filter (fun fid => (tyUse .i64 3).any (fun u => decide (u.1 % u.2 ≠ 0) || decide ((getFibre (env based).g fid).win ≤ u.1))) = [0] ∧
    (let s := fibreIs (fun x => { x with win := 16 }) based
     (executing h0 (env s)).filter (fun fid => (tyUse .i32 16).any (fun u => decide (u.1 % u.2 ≠ 0) || decide ((getFibre (env s).g fid).win ≤ u.1))) = [0]) :=
  ⟨by decide, issues_of (by decide), canTrap_of (by decide), by decide, by decide⟩

/-- Formats that may not meet, and one pair that may (R172). -/
theorem test_mxcfg_pairs : mxCfgOf 0x0110 = none ∧ mxCfgOf 0x1001 = none ∧ mxCfgOf 0x3001 = none ∧
    mxCfgOf 0x3010 = some { afmt := 3, aprec := 0, bfmt := 1, bprec := 0 } := by decide
/-- The AES-256 example of FIPS 197, both ways (R84). -/
theorem test_aes : let ks := aesKeys (List.range 32)
    let p := (List.range 16).map (17 * ·)
    let c := [0x8E, 0xA2, 0xB7, 0xCA, 0x51, 0x67, 0x45, 0xBF, 0xEA, 0xFC, 0x49, 0x90, 0x4B, 0x49, 0x60, 0x89]
    aesEncrypt ks p = c ∧ aesDecrypt ks c = p := by decide +kernel
/-- The example of R437: 42 ps losing 0.35 ps in 1,000 hours last 5,000 days, and 3,100 days are less. -/
theorem test_ageing_days : (pathTrend 4200 35).left.map (·.1) = some 5000 ∧ daysOf [pathTrend 4200 35, pathTrend 2604 35] = 3100 ∧
    daysOf [pathTrend 4200 0, limitTrend 8 8 0] = 0xFFFF := by decide

/-- A home that holds a leaf whose entry has been cleared may use it, and TLBINV's completion takes that away (R417). -/
theorem test_held_leaf :
    let page : Leaf := { ctx := 0, first := 0, log := 16, pa := 0x10000, ca := 0, tier := false, key := 0, u := true, w := true, entry := 0, held := true }
    let s : State := { State.reset with leaves := [page] }
    (staleLeaves s 0 0x80 (walk s 0 0x80)).map (fun l => l.pa) = [0x10080] ∧ (staleLeaves s 0 0x10000 (walk s 0 0x10000)) = [] ∧
    (dropLeaves (fun l => l.ctx == 0) s).leaves = [] := by decide

end Sys2Proof.Tests
end

