-- ==== Sys2Proof/Proofs/ComputingFrame.lean ====
section
/-! PROOF. Sys2Proof/Proofs/ComputingFrame.lean: what the retirement of a computing or cross-lane instruction leaves unchanged: of a
fibre, of the machine, and which registers and predicates each instruction writes (O58). -/
namespace Sys2Proof.Machine

/-! ### What a change to a fibre spares -/

/-- The parts of a fibre that no retirement changes; the others are blanked. -/
def steadyPart (x : Fibre) : Fibre :=
  { x with pc := 0, regs := [], regPoison := 0, preds := 0, predPoison := 0, fpmode := 0, windows := [], progress := 0 }

/-- From `x` to `y` no register outside `R` and no predicate outside `P` has changed, and no mode bit or steady part. -/
structure Spares (R P : Nat → Prop) (x y : Fibre) : Prop where
  reg : ∀ n, ¬ R n → readReg y n = readReg x n
  pred : ∀ n, ¬ P n → readPred y n = readPred x n
  modes : y.fpmode &&& ~~~flagMask = x.fpmode &&& ~~~flagMask
  steady : steadyPart y = steadyPart x

/-- What is written stands in `R` and `P`. -/
structure Writes (R P : Nat → Prop) (w : Wr) : Prop where
  regs : ∀ r ∈ w.regs, R r.1
  preds : ∀ p ∈ w.preds, P p.1

/-- The write that an open window holds. -/
def heldWr (w : Window) : Wr := { regs := w.regs, preds := w.preds, flags := w.flags }

/-- Every open window of the fibre holds writes in `R` and `P` only. -/
def HoldsOnly (R P : Nat → Prop) (x : Fibre) : Prop := ∀ w ∈ x.windows, Writes R P (heldWr w)

section
variable {R P : Nat → Prop} {x y z : Fibre} {w : Wr}

theorem Spares.refl (x : Fibre) : Spares R P x x := ⟨fun _ _ => rfl, fun _ _ => rfl, rfl, rfl⟩

theorem Spares.trans (h₁ : Spares R P x y) (h₂ : Spares R P y z) : Spares R P x z where
  reg n hn := (h₂.reg n hn).trans (h₁.reg n hn)
  pred n hn := (h₂.pred n hn).trans (h₁.pred n hn)
  modes := h₂.modes.trans h₁.modes
  steady := h₂.steady.trans h₁.steady

/-- A run of changes each of which spares the rest. -/
theorem Spares.foldl {α : Type} {f : Fibre → α → Fibre} {l : List α} (h : ∀ a ∈ l, ∀ y, Spares R P y (f y a)) (x : Fibre) :
    Spares R P x (l.foldl f x) :=
  List.foldlRecOn (motive := Spares R P x) l f (.refl x) (fun y hy a ha => hy.trans (h a ha y))

theorem Writes.none : Writes R P Wr.none := ⟨by simp [Wr.none], by simp [Wr.none]⟩

theorem Writes.mono {R' P' : Nat → Prop} (h : Writes R P w) (hR : ∀ n, R n → R' n) (hP : ∀ n, P n → P' n) : Writes R' P' w :=
  ⟨fun r hr => hR _ (h.regs r hr), fun p hp => hP _ (h.preds p hp)⟩

/-- A poisoned guard changes poison bits, not destinations (R256). -/
theorem Writes.taint (p : Bool) (h : Writes R P w) : Writes R P (taint p w) := by
  unfold Machine.taint
  split
  · constructor
    · intro r hr
      obtain ⟨q, hq, rfl⟩ := List.mem_map.mp hr
      exact h.regs q hq
    · intro p hp
      obtain ⟨q, hq, rfl⟩ := List.mem_map.mp hp
      exact h.preds q hq
  · exact h

theorem getLsbD_setBit_ne {k : Nat} (v : BitVec k) {i n : Nat} (b : Bool) (h : n ≠ i) : (setBit v i b).getLsbD n = v.getLsbD n := by
  have hbit : ((1 : BitVec k) <<< i).getLsbD n = false := by
    rcases Nat.lt_or_gt_of_ne h with hlt | hgt
    · simp [BitVec.getLsbD_shiftLeft, hlt]
    · simp [BitVec.getLsbD_shiftLeft, BitVec.getLsbD_one, show n - i ≠ 0 by omega]
  unfold setBit
  split
  · rw [BitVec.getLsbD_or, hbit, Bool.or_false]
  · rw [BitVec.getLsbD_and, BitVec.getLsbD_not, hbit]
    by_cases hn : n < k
    · simp [hn]
    · simp [hn, BitVec.getLsbD_of_ge v n (Nat.le_of_not_lt hn)]

theorem spares_pokeReg {n : Nat} (v : Word) (p : Bool) (h : R n) (x : Fibre) : Spares R P x (pokeReg x n v p) where
  reg m hm := by
    have hne : m ≠ n := fun heq => hm (heq ▸ h)
    simp [readReg, pokeReg, hne, getLsbD_setBit_ne]
  pred _ _ := rfl
  modes := rfl
  steady := rfl

theorem spares_pokePred {n : Nat} (v p : Bool) (h : P n) (x : Fibre) : Spares R P x (pokePred x n v p) := by
  unfold pokePred
  split
  · exact .refl x
  · refine ⟨fun _ _ => rfl, fun m hm => ?_, rfl, rfl⟩
    have hne : m ≠ n := fun heq => hm (heq ▸ h)
    simp [readPred, hne, getLsbD_setBit_ne]

theorem orFlags_modes (x : Fibre) (fl : Word) : (orFlags x fl).fpmode &&& ~~~flagMask = x.fpmode &&& ~~~flagMask := by
  ext i
  simp only [orFlags, BitVec.getElem_and, BitVec.getElem_or, BitVec.getElem_not]
  cases flagMask[i] <;> simp

theorem spares_orFlags (fl : Word) (x : Fibre) : Spares R P x (orFlags x fl) :=
  ⟨fun _ _ => rfl, fun _ _ => rfl, orFlags_modes x fl, rfl⟩

theorem spares_pokeAll (h : Writes R P w) (x : Fibre) : Spares R P x (pokeAll x w) :=
  ((Spares.foldl (fun r hr y => spares_pokeReg _ _ (h.regs r hr) y) x).trans
    (Spares.foldl (fun p hp y => spares_pokePred _ _ (h.preds p hp) y) _)).trans (spares_orFlags _ _)

theorem pokePred_windows (x : Fibre) (n : Nat) (v p : Bool) : (pokePred x n v p).windows = x.windows := by
  unfold pokePred; split <;> rfl

theorem pokeAll_windows (x : Fibre) (w : Wr) : (pokeAll x w).windows = x.windows := by
  have hregs : (w.regs.foldl (fun f e => pokeReg f e.1 e.2.1 e.2.2) x).windows = x.windows :=
    List.foldlRecOn (motive := fun y : Fibre => y.windows = x.windows) _ _ rfl (fun _ hy _ _ => hy)
  exact List.foldlRecOn (motive := fun y : Fibre => y.windows = x.windows) _ _ hregs
    (fun y hy p _ => (pokePred_windows y p.1 p.2.1 p.2.2).trans hy)

/-- Changing the windows touches no register. -/
theorem spares_windows (x : Fibre) (ws : List Window) : Spares R P x { x with windows := ws } :=
  ⟨fun _ _ => rfl, fun _ _ => rfl, rfl, rfl⟩

/-! ### Windows and retirement of a fibre (R239) -/

theorem holdsOnly_discard (h : HoldsOnly R P x) (regs preds : List Nat) : HoldsOnly R P (discard x regs preds) := by
  intro v hv
  obtain ⟨w, hw, rfl⟩ := List.mem_map.mp hv
  exact ⟨fun r hr => (h w hw).regs r (List.mem_of_mem_filter hr), fun p hp => (h w hw).preds p (List.mem_of_mem_filter hp)⟩

theorem spares_settle (h : HoldsOnly R P x) : Spares R P x (settle x) :=
  (spares_windows x _).trans (Spares.foldl (fun w hw y => spares_pokeAll (h w (List.mem_of_mem_filter hw)) y) _)

theorem spares_tickWindows (h : HoldsOnly R P x) : Spares R P x (tickWindows x) := by
  refine (spares_windows x _).trans (spares_settle fun v hv => ?_)
  obtain ⟨w, hw, rfl⟩ := List.mem_map.mp hv
  exact h w hw

/-- The retirement of an instruction changes in a fibre what the instruction writes and what closing windows hold, no more. -/
theorem spares_retireFibre (hx : HoldsOnly R P x) (hw : Writes R P w) (win : Option Window) (pc : W64) :
    Spares R P x (retireFibre w win pc x) := by
  cases win with
  | none =>
    have hheld : HoldsOnly R P (writeAll x w) := by
      intro v hv
      rw [writeAll, pokeAll_windows] at hv
      exact holdsOnly_discard hx _ _ v hv
    have hwrite : Spares R P x (writeAll x w) := (spares_windows x _).trans (spares_pokeAll hw _)
    exact (hwrite.trans (spares_tickWindows hheld)).trans ⟨fun _ _ => rfl, fun _ _ => rfl, rfl, rfl⟩
  | some v =>
    exact ((spares_windows x _).trans (spares_tickWindows (holdsOnly_discard hx _ _))).trans
      ⟨fun _ _ => rfl, fun _ _ => rfl, rfl, rfl⟩

/-- A register or predicate that is among some numbers or that an open window holds. -/
def RegMoves (regs : List Nat) (x : Fibre) (n : Nat) : Prop := n ∈ regs ∨ ∃ w ∈ x.windows, ∃ v ∈ w.regs, v.1 = n
def PredMoves (preds : List Nat) (x : Fibre) (n : Nat) : Prop := n ∈ preds ∨ ∃ w ∈ x.windows, ∃ v ∈ w.preds, v.1 = n

theorem holdsOnly_moves (regs preds : List Nat) (x : Fibre) : HoldsOnly (RegMoves regs x) (PredMoves preds x) x :=
  fun w hw => ⟨fun r hr => .inr ⟨w, hw, r, hr, rfl⟩, fun p hp => .inr ⟨w, hw, p, hp, rfl⟩⟩

/-- p0 reads 1 whatever is written (R23), so it need not be among the predicates. -/
theorem fibreKept_of_spares {regs preds : List Nat} (h : Spares (RegMoves regs x) (PredMoves preds x) x y) :
    FibreKept regs (preds.filter (0 < ·)) x y where
  reg n hn hheld := by
    refine h.reg n ?_
    rintro (hm | ⟨w, hw, v, hv, hvn⟩)
    · exact hn hm
    · exact hheld w hw v hv hvn
  pred n hn hheld := by
    rcases Nat.eq_zero_or_pos n with rfl | hpos
    · rfl
    · refine h.pred n ?_
      rintro (hm | ⟨w, hw, v, hv, hvn⟩)
      · exact hn (List.mem_filter.mpr ⟨hm, decide_eq_true hpos⟩)
      · exact hheld w hw v hv hvn
  modes := h.modes
  rest := calc
    _ = { steadyPart y with pc := x.pc, regs := x.regs, regPoison := x.regPoison, preds := x.preds, predPoison := x.predPoison,
                            fpmode := x.fpmode, windows := x.windows, progress := x.progress } := rfl
    _ = x := by rw [h.steady]; rfl

theorem fibreKept_retireFibre {regs preds : List Nat} (hw : Writes (· ∈ regs) (· ∈ preds) w) (win : Option Window) (pc : W64)
    (x : Fibre) : FibreKept regs (preds.filter (0 < ·)) x (retireFibre w win pc x) :=
  fibreKept_of_spares (spares_retireFibre (holdsOnly_moves regs preds x)
    (hw.mono (fun _ => Or.inl) (fun _ => Or.inl)) win pc)

end

/-! ### The machine at the retirement of a wave -/

theorem gang_of_envOf {s : State} {e : Env} (h : envOf s = some e) : getGang s e.gid = e.g := by
  unfold envOf at h
  split at h
  · cases h
  · dsimp only at h
    split at h
    · cases h
    · cases h; rfl

/-- A retirement acts on the wave's fibres, its slot and its core only. -/
theorem othersKept_retire (e : Env) (u : Nat) (wr : Nat → Wr) (win : Nat → Option Window) (pc : Nat → W64) (s : State) :
    OthersKept e s (retire e u wr win pc s) := by
  rw [retire_eq]
  refine ⟨fun g hg => kget?_kset_ne _ _ _ _ hg, fun k hk => kget?_kset_ne _ _ _ _ hk, fun c hc => kget?_kset_ne _ _ _ _ hc,
    fun fid hf => ?_, ?_, ?_, ?_⟩
  · simp only [fibreAt, getGang, kget_kset_same]
    exact getFibre_mapFibres_of_eq _ _ _ (fun x => if_neg (by simpa using hf))
  · simp [getGang, mapFibres]
  · simp [getSlot, issuedSlot]
  · simp [getCore, issuedCore, perfBump]

/-- A fibre of the wave after the retirement. -/
theorem fibreAt_retire {e : Env} {s : State} {fid : Nat} (u : Nat) (wr : Nat → Wr) (win : Nat → Option Window) (pc : Nat → W64)
    (hf : fid ∈ e.fids) (hl : (kget? (getGang s e.gid).fibres fid).isSome = true) :
    fibreAt (retire e u wr win pc s) e.gid fid = retireFibre (wr fid) (win fid) (pc fid) (fibreAt s e.gid fid) := by
  rw [retire_eq]
  unfold fibreAt
  rw [getGang, kget_kset_same, getFibre_mapFibres _ _ _ hl, if_pos (by simpa using hf)]

section
variable (h : Hdr) (ll : Bool) (e : Env) (u : Nat) (act : List Nat) (wr : Nat → Wr) (s : State)

theorem outsideKept_retireWr : OutsideKept s (retireWr h ll e u act wr s) := by
  cases ll <;> rfl

theorem othersKept_retireWr : OthersKept e s (retireWr h ll e u act wr s) := by
  cases ll with
  | false => exact othersKept_retire ..
  | true =>
    obtain ⟨gangs, slots, cores, fibres, gang, slot, core⟩ := othersKept_retire e u (fun _ => Wr.none)
      (fun fid => if act.contains fid then some (newWindow s.ids h.la.toNat (wr fid) false) else none)
      (fun _ => nextPc e.pc) { s with ids := s.ids + 1 }
    exact ⟨gangs, slots, cores, fibres, gang, slot, core⟩

variable {h ll e u act wr s}

/-- A fibre of the wave retires the instruction with its own write if it executes, and with none if it does not or if the write
goes to a window. -/
theorem fibreAt_retireWr {fid : Nat} (he : envOf s = some e) (hlive : Live e) (hf : fid ∈ e.fids) :
    ∃ w win, fibreAt (retireWr h ll e u act wr s) e.gid fid = retireFibre w win (nextPc e.pc) (getFibre e.g fid) ∧
      (w = Wr.none ∨ fid ∈ act ∧ w = wr fid) := by
  have hg := gang_of_envOf he
  have hl : (kget? (getGang s e.gid).fibres fid).isSome = true := hg ▸ hlive fid hf
  have hx : fibreAt s e.gid fid = getFibre e.g fid := by rw [fibreAt, hg]
  cases ll with
  | true => exact ⟨_, _, hx ▸ fibreAt_retire (s := { s with ids := s.ids + 1 }) u _ _ _ hf hl, .inl rfl⟩
  | false =>
    refine ⟨_, _, hx ▸ fibreAt_retire u _ _ _ hf hl, ?_⟩
    by_cases hact : fid ∈ act
    · exact .inr ⟨hact, if_pos (by simpa using hact)⟩
    · exact .inl (if_neg (by simpa using hact))

theorem fibreKept_retireWr {fid : Nat} {regs preds : List Nat} (he : envOf s = some e) (hlive : Live e) (hf : fid ∈ e.fids)
    (hw : fid ∈ act → Writes (· ∈ regs) (· ∈ preds) (wr fid)) :
    FibreKept regs (preds.filter (0 < ·)) (getFibre e.g fid) (fibreAt (retireWr h ll e u act wr s) e.gid fid) := by
  obtain ⟨w, win, heq, hcase⟩ := fibreAt_retireWr (h := h) (ll := ll) (u := u) (act := act) (wr := wr) he hlive hf
  rw [heq]
  refine fibreKept_retireFibre ?_ win _ _
  rcases hcase with rfl | ⟨hact, rfl⟩
  · exact .none
  · exact hw hact

end

/-! ### What a destination names -/

/-- The registers a destination names; its predicates are `dstPreds`. -/
def dstRegs : Dst → List Nat
  | .reg n => [n]
  | .pair n => [n, n + 1]
  | .quad n => (List.range 4).map (n + ·)
  | _ => []

@[simp] theorem dstRegs_tyDst (t : Ty) (d : Reg) : dstRegs (tyDst t d) = tyRegs t d := by
  unfold tyDst tyRegs; split <;> rfl

@[simp] theorem dstPreds_tyDst (t : Ty) (d : Reg) : dstPreds (tyDst t d) = [] := by
  unfold tyDst; split <;> rfl

theorem dstRegs_laneDst (t : Ty) (d : Reg) : dstRegs (laneDst t d) = laneRegs t d := by
  unfold laneDst laneRegs
  split
  · rfl
  · exact dstRegs_tyDst t d

theorem dstPreds_laneDst (t : Ty) (d : Reg) : dstPreds (laneDst t d) = [] := by
  unfold laneDst
  split
  · rfl
  · exact dstPreds_tyDst t d

theorem writes_dstWr (d : Dst) (r : Res) : Writes (· ∈ dstRegs d) (· ∈ dstPreds d) (dstWr d r) := by
  cases d <;> constructor <;> simp [dstWr, dstRegs, dstPreds, pairWr, quadWr, predWordWr, List.range_succ]

theorem writes_dstWr_lane (t : Ty) (d : Reg) (r : Res) : Writes (· ∈ laneRegs t d) (· ∈ []) (dstWr (laneDst t d) r) :=
  dstRegs_laneDst t d ▸ dstPreds_laneDst t d ▸ writes_dstWr (laneDst t d) r

/-! ### Each instruction retires and writes what it names -/

/-- What the executor of computing instructions names: the operands of R24, and the registers and predicates of its destination. -/
def aluNames (sp : AluSpec) : List RegUse × List Nat × List Nat := (aluUses sp, dstRegs sp.dst, dstPreds sp.dst)

/-- When its operands can be read, the instruction retires, and an executing fibre writes no register or predicate that is not
named. SPXI takes a poisoned guard for a trap (R353). -/
def RetiresNaming (i : Instr) (h : Hdr) (names : List RegUse × List Nat × List Nat) : Prop :=
  ∀ s e, Issues false s e → RegsOk e (executing h e) names.1 → (∀ f, i = .spxi f → GuardsClean h e) →
    ∃ ll wr, exec i s = .next (retireWr h ll e 0 (executing h e) wr s) ∧ ∀ fid, Writes (· ∈ names.2.1) (· ∈ names.2.2) (wr fid)

theorem writes_aluWr (sp : AluSpec) (x : Fibre) : Writes (· ∈ dstRegs sp.dst) (· ∈ dstPreds sp.dst) (aluWr sp x) :=
  (writes_dstWr _ _).taint _

theorem retiresNaming_of_execAlu {i : Instr} {h : Hdr} {names : List RegUse × List Nat × List Nat} {sp : AluSpec}
    (hexec : ∀ s, exec i s = execAlu sp s) (hh : sp.h = h) (hn : aluNames sp = names) : RetiresNaming i h names := by
  subst hh hn
  intro s e hi hr _
  exact ⟨sp.ll, _, (hexec s).trans (execAlu_runs hi hr), fun fid => writes_aluWr sp (getFibre e.g fid)⟩

theorem retiresNaming_of_execCross {i : Instr} {h : Hdr} {names : List RegUse × List Nat × List Nat} {ll : Bool} {uses : List RegUse}
    {fn : Env → List Nat → Nat → Wr} (hexec : ∀ s, exec i s = execCross h ll uses fn s) (hu : uses = names.1)
    (hw : ∀ e act fid, Writes (· ∈ names.2.1) (· ∈ names.2.2) (fn e act fid)) : RetiresNaming i h names := by
  subst hu
  intro s e hi hr _
  exact ⟨ll, _, (hexec s).trans (execCross_runs hi hr), fun fid => (hw e _ fid).taint _⟩

/-- MOV of .b128 copies a quad (R265). -/
theorem retiresNaming_movQuad {f : F0} (ht : f.ty = .b128) :
    RetiresNaming (.mov f) f.h ([(f.d.toNat, 4), (f.a.toNat, 4)], (List.range 4).map (f.d.toNat + ·), []) := by
  intro s e hi hr _
  refine ⟨false, fun fid => quadMove f (getFibre e.g fid), ?_, fun fid => Writes.taint _ ⟨?_, ?_⟩⟩
  · change execMov f s = _
    rw [execMov, if_pos ht, quadMoveIssue, issue_runs hi, regTraps_nil hr, orTrap_nil]
  · simp [List.range_succ]
  · simp

theorem actingPoison_nil {h : Hdr} {e : Env} (hg : GuardsClean h e) : actingPoison h e (executing h e) [] = [] := by
  unfold actingPoison
  rw [List.map_eq_nil_iff, List.filter_eq_nil_iff]
  intro fid hf
  simp [hg fid (List.mem_of_mem_filter hf)]

/-- The computation that SPXI runs behind its check of the guards (R213). -/
def spxiSpec (f : F4) : AluSpec :=
  { h := f.h, ll := false, srcs := [.reg f.a.toNat, .reg f.b.toNat, .pair f.c.toNat], dst := .quad f.d.toNat, scalar := false
    fn := fun _ l =>
      let o := BitVec.ofNat 64 (arg l 2)
      { val := spxi (BitVec.ofNat 32 (arg l 0)) (BitVec.ofNat 32 (arg l 1)) (o.truncate 32) ((o >>> 32).truncate 32), flags := 0,
        poison := argPoison l } }

/-- SPXI writes its quad like a computing instruction once its guards are clean (R353). -/
theorem retiresNaming_spxi (f : F4) : RetiresNaming (.spxi f) f.h
    ([(f.d.toNat, 4), (f.a.toNat, 1), (f.b.toNat, 1), (f.c.toNat, 2)], (List.range 4).map (f.d.toNat + ·), []) := by
  intro s e hi hr hg
  have hexec : execSpxi f s = execAlu (spxiSpec f) s := by
    rw [execSpxi, issue_runs hi, regTraps_nil hr, actingPoison_nil (hg f rfl), List.append_nil, orTrap_nil]
    rfl
  exact ⟨false, _, hexec.trans (execAlu_runs hi hr), fun fid => writes_aluWr (spxiSpec f) (getFibre e.g fid)⟩

theorem writes_scanWr (f : F0) (pick : List Nat → Nat → Nat) (upto : List Nat → Nat → List Nat) (e : Env) (act : List Nat)
    (fid : Nat) : Writes (· ∈ laneRegs f.ty f.d) (· ∈ []) (scanWr f pick upto e act fid) := writes_dstWr_lane ..

theorem writes_pfxWr (f : F0) (e : Env) (act : List Nat) (fid : Nat) :
    Writes (· ∈ laneRegs f.ty f.d) (· ∈ []) (pfxWr f e act fid) := by
  unfold pfxWr
  split <;> exact writes_scanWr ..

/-- Every computing or cross-lane instruction retires and writes what `computing` says that it names. -/
theorem retiresNaming_of_computing {i : Instr} {h : Hdr} {names : List RegUse × List Nat × List Nat} (hc : computing i = some names)
    (hh : hdrOf i = some h) : RetiresNaming i h names := by
  cases i with
  | iadd f | isub f | imul f | imulh f | imin f | imax f | iaddImm f | isubImm f | imulImm f | imulhImm f | iminImm f | imaxImm f
  | and_ f | or_ f | xor_ f | andn f | andImm f | orImm f | xorImm f | andnImm f | imad f | imadImm f | idiv f | irem f =>
    cases hc; cases hh
    exact retiresNaming_of_execAlu (fun _ => rfl) rfl (by simp [aluNames, aluUses, intBin, intLogic, intTri, divSpec, immSrc])
  | shl f | shr f | sar f | rol f | ror f | bfe f | shlImm f | shrImm f | sarImm f | rolImm f | rorImm f | bfeImm f
  | bfi f | bfiImm f =>
    cases hc; cases hh
    exact retiresNaming_of_execAlu (fun _ => rfl) rfl (by simp [aluNames, aluUses, intCount, bfiSpec, rawImm])
  | iabs f | ineg f | not_ f | brev f | movi f | cvt f | sel f | selImm f =>
    cases hc; cases hh
    exact retiresNaming_of_execAlu (fun _ => rfl) rfl (by simp [aluNames, aluUses, intUn, selSpec, immSrc])
  | popc f | clz f | ctz f | lea f | icmp f | icmpImm f | iset f | isetImm f =>
    cases hc; cases hh
    exact retiresNaming_of_execAlu (fun _ => rfl) rfl (by simp [aluNames, aluUses, intCnt, cmpSpec, immSrc, dstRegs, dstPreds])
  | mov f =>
    cases hh
    by_cases ht : f.ty = .b128
    · rw [computing, if_pos ht] at hc
      cases hc
      exact retiresNaming_movQuad ht
    · rw [computing, if_neg ht] at hc
      cases hc
      exact retiresNaming_of_execAlu (fun _ => if_neg ht) rfl (by simp [aluNames, aluUses, intUn])
  | pand f | por f | pxor f | pnot f | pmov f | pmovToRegister f | pmovFromRegister f | idot4 f | idot4Imm f
  | fadd f | fsub f | fmul f | ffma f | fmin f | fmax f | faddImm f | fsubImm f | fmulImm f | ffmaImm f | fminImm f | fmaxImm f
  | fabs f | fneg f | fclass f | fdiv f | fsqrt f | frsq f | frcp f | fexp2 f | flog2 f | frnd f
  | dadd f | dmul f | dfma f | ddiv f | dsqrt f | dmin f | dmax f | fcmp f | fcmpImm f | dcmp f
  | hadd2 f | hmul2 f | hfma2 f | bfma2 f | qdec f | hwcvt f | hwcvtSr f =>
    cases hc; cases hh
    exact retiresNaming_of_execAlu (fun _ => rfl) rfl rfl
  | lshfl f | lshfu f | lshfd f | lxor f | lbcast f =>
    cases hc; cases hh
    exact retiresNaming_of_execCross (fun _ => rfl) rfl (fun _ _ _ => writes_dstWr_lane ..)
  | lshflImm f | lshfuImm f | lshfdImm f | lxorImm f | lbcastImm f =>
    cases hc; cases hh
    exact retiresNaming_of_execCross (fun _ => rfl) (List.append_nil _) (fun _ _ _ => writes_dstWr_lane ..)
  | lpfx f =>
    cases hc; cases hh
    exact retiresNaming_of_execCross (fun _ => rfl) (List.append_nil _) (writes_pfxWr f)
  | lred f =>
    cases hc; cases hh
    exact retiresNaming_of_execCross (fun _ => rfl) (List.append_nil _) (writes_scanWr f _ _)
  | vote f | ballot f | match_ f | elect f =>
    cases hc; cases hh
    exact retiresNaming_of_execCross (fun _ => rfl) rfl
      (fun _ _ _ => by constructor <;> simp [voteWr, ballotWr, matchWr, electWr])
  | spxi f =>
    cases hc; cases hh
    exact retiresNaming_spxi f
  | _ => cases hc

/-- Settles O58: a computing instruction's step is a retirement whose executing fibres write only what it names, and a retirement
changes nothing else but what closing windows write. -/
theorem computingFrame : Obligations.ComputingFrame := by
  unfold Obligations.ComputingFrame
  intro i uses regs preds h s e t hc hh hi hlive hr hg hstep
  obtain ⟨ll, wr, hexec, hw⟩ := retiresNaming_of_computing hc hh s e hi hr hg
  obtain rfl : retireWr h ll e 0 (executing h e) wr s = t := Host.Outcome.next.inj (hexec.symm.trans hstep)
  refine ⟨outsideKept_retireWr .., othersKept_retireWr .., fun fid hf => ?_, fun fid hf hout => ?_⟩
  · exact fibreKept_retireWr hi.env hlive (List.mem_of_mem_filter hf) (fun _ => hw fid)
  · exact fibreKept_retireWr (preds := []) hi.env hlive hf (fun hact => absurd hact hout)

end Sys2Proof.Machine
end

section
/-! PROOF. Predicate instructions (R23, R269): what each form writes in a fibre, and that a write of p0 writes nothing (O6). -/
namespace Sys2Proof.Machine

theorem zext_ofBool_eq_one (b : Bool) : (((BitVec.ofBool b).zeroExtend 128).toNat == 1) = b := by
  cases b <;> rfl

/-- PMOV of the predicate word into a register (R269). -/
def predWordToReg (f : F0) : AluSpec :=
  { h := f.h, ll := false, srcs := [.predWord], dst := .reg f.d.toNat, scalar := true, fn := passFn }

/-- PMOV of a register into the predicate word (R269). -/
def regToPredWord (f : F0) : AluSpec :=
  { h := f.h, ll := false, srcs := [.reg f.a.toNat], dst := .predWord, scalar := true, fn := passFn }

theorem aluWr_predBin (f : F0) (op : Bool → Bool → Bool) (x : Fibre) : aluWr (predBin f op) x =
    putsPred f.h f.d (op (readPred x f.a.toNat).1 (readPred x f.b.toNat).1) ((readPred x f.a.toNat).2 || (readPred x f.b.toNat).2) x := by
  simp only [aluWr, predBin, strict, List.map_cons, List.map_nil, readSrc, arg, argPoison, List.getD_cons_zero, List.getD_cons_succ,
    zext_ofBool_eq_one, putsPred, List.any_cons, List.any_nil, Bool.or_false]

theorem aluWr_predUn (f : F0) (op : Bool → Bool) (x : Fibre) : aluWr (predUn f op) x =
    putsPred f.h f.d (op (readPred x f.a.toNat).1) (readPred x f.a.toNat).2 x := by
  simp only [aluWr, predUn, strict, List.map_cons, List.map_nil, readSrc, arg, argPoison, List.getD_cons_zero,
    zext_ofBool_eq_one, putsPred, List.any_cons, List.any_nil, Bool.or_false]

theorem aluWr_predWordToReg (f : F0) (x : Fibre) : aluWr (predWordToReg f) x =
    putsBits f.h .n32 f.d ((x.preds ||| 1).toNat, 0) (decide (x.predPoison &&& 0xFFFE ≠ 0)) x := by
  have hdst : tyDst .n32 f.d = .reg f.d.toNat := rfl
  have hval : (predWordOf x.preds).toNat = (x.preds ||| 1).toNat := by
    rw [predWordOf, BitVec.toNat_setWidth_of_le (by decide)]
  simp only [aluWr, predWordToReg, passFn, strict, List.map_cons, List.map_nil, readSrc, arg, argPoison, List.getD_cons_zero, hval,
    putsBits, hdst, List.any_cons, List.any_nil, Bool.or_false]

theorem aluWr_regToPredWord (f : F0) (x : Fibre) : aluWr (regToPredWord f) x = taint (guard f.h x).2
    { regs := [], flags := 0
      preds := (List.range 15).map (fun i => (i + 1, (wordOf f.a x).testBit (i + 1), wordPoi f.a x)) } := by
  have hbit : ∀ i, (BitVec.ofNat 128 (readSrc x (.reg f.a.toNat)).1.toNat).getLsbD i = (wordOf f.a x).testBit i := fun i => by
    rw [BitVec.ofNat_toNat, BitVec.setWidth_eq]; rfl
  simp only [aluWr, regToPredWord, passFn, strict, List.map_cons, List.map_nil, arg, argPoison, List.getD_cons_zero, dstWr, predWordWr,
    hbit, List.any_cons, List.any_nil, Bool.or_false]
  rfl

/-- An instruction whose destination is p0 writes no predicate of a fibre, for p0 keeps its value (R23). -/
theorem fibreKept_of_pred0 {sp : AluSpec} {s : State} {e : Env} {fid : Nat} (hd : sp.dst = .pred 0) (hi : Issues false s e) (hlive : Live e)
    (hf : fid ∈ executing sp.h e) : FibreKept [] [] (getFibre e.g fid) (fibreAt (retireWr sp.h sp.ll e 0 (executing sp.h e)
      (fun fid => aluWr sp (getFibre e.g fid)) s) e.gid fid) := by
  refine fibreKept_retireWr (preds := [0]) hi.env hlive (List.mem_of_mem_filter hf) fun _ => ?_
  have hw := writes_aluWr sp (getFibre e.g fid)
  rwa [hd] at hw

theorem computes_predBin {i : Instr} (f : F0) (op : Bool → Bool → Bool) (h : ∀ s, exec i s = execAlu (predBin f op) s) :
    Computes i f.h false [] (fun x => putsPred f.h f.d (op (readPred x f.a.toNat).1 (readPred x f.b.toNat).1)
      ((readPred x f.a.toNat).2 || (readPred x f.b.toNat).2) x) :=
  computes_of h rfl (aluWr_predBin f op)

theorem computes_predUn {i : Instr} (f : F0) (op : Bool → Bool) (h : ∀ s, exec i s = execAlu (predUn f op) s) :
    Computes i f.h false [] (fun x => putsPred f.h f.d (op (readPred x f.a.toNat).1) (readPred x f.a.toNat).2 x) :=
  computes_of h rfl (aluWr_predUn f op)

/-- A predicate instruction whose D is p0 retires and leaves every register and predicate alone (R23). -/
theorem keeps_of_pred0 {i : Instr} {sp : AluSpec} {s : State} {e : Env} (hexec : ∀ s, exec i s = execAlu sp s)
    (hd : sp.dst = .pred 0) (hu : aluUses sp = []) (hi : Issues false s e) (hlive : Live e) :
    ∃ t, exec i s = .next t ∧ ∀ fid ∈ executing sp.h e, FibreKept [] [] (getFibre e.g fid) (fibreAt t e.gid fid) :=
  ⟨_, (hexec s).trans (execAlu_runs hi (by simp [RegsOk, hu])), fun _ => fibreKept_of_pred0 hd hi hlive⟩

/-- Settles O6: each form is a computing instruction whose write is the one stated, and a write of p0 is none. -/
theorem predicateInstructionsComplete : Obligations.PredicateInstructionsComplete := by
  unfold Obligations.PredicateInstructionsComplete
  refine ⟨fun f => computes_predBin f (· && ·) fun _ => rfl, fun f => computes_predBin f (· || ·) fun _ => rfl,
    fun f => computes_predBin f (· != ·) fun _ => rfl, fun f => computes_predUn f (! ·) fun _ => rfl,
    fun f => computes_predUn f id fun _ => rfl,
    fun f => computes_of (sp := predWordToReg f) (fun _ => rfl) rfl (aluWr_predWordToReg f),
    fun f => computes_of (sp := regToPredWord f) (fun _ => rfl) rfl (aluWr_regToPredWord f), fun f s e h0 hi hlive i hmem => ?_⟩
  have hd : Dst.pred f.d.toNat = .pred 0 := by rw [h0]; rfl
  simp only [List.mem_cons, List.not_mem_nil, or_false] at hmem
  rcases hmem with rfl | rfl | rfl | rfl | rfl
  · exact keeps_of_pred0 (sp := predBin f (· && ·)) (fun _ => rfl) hd rfl hi hlive
  · exact keeps_of_pred0 (sp := predBin f (· || ·)) (fun _ => rfl) hd rfl hi hlive
  · exact keeps_of_pred0 (sp := predBin f (· != ·)) (fun _ => rfl) hd rfl hi hlive
  · exact keeps_of_pred0 (sp := predUn f (! ·)) (fun _ => rfl) hd rfl hi hlive
  · exact keeps_of_pred0 (sp := predUn f (fun p => p)) (fun _ => rfl) hd rfl hi hlive

end Sys2Proof.Machine
end

section
/-! PROOF. Register checks (R24): which cause an issue takes, what entering a handler does, and that every computing or cross-lane
instruction checks at issue the registers that it names (O60). -/
namespace Sys2Proof.Machine

/-! ### The lowest cause (R224) -/

theorem leastBy_spec {α : Type} {f : α → Nat} {l : List α} {x : α} (h : leastBy f l = some x) : x ∈ l ∧ ∀ y ∈ l, f x ≤ f y := by
  induction l generalizing x with
  | nil => cases h
  | cons a l ih =>
    simp only [leastBy] at h
    split at h
    next hn =>
      cases h
      cases l with
      | nil => simp
      | cons b l => simp only [leastBy] at hn; split at hn <;> [cases hn; (split at hn <;> cases hn)]
    next z hz =>
      obtain ⟨hmem, hle⟩ := ih hz
      split at h <;> cases h
      · exact ⟨List.mem_cons_self, List.forall_mem_cons.mpr ⟨Nat.le_refl _, fun y hy => Nat.le_trans (by assumption) (hle y hy)⟩⟩
      · exact ⟨List.mem_cons_of_mem _ hmem, List.forall_mem_cons.mpr ⟨by omega, hle⟩⟩

theorem leastBy_isSome {α : Type} (f : α → Nat) {l : List α} (h : l ≠ []) : ∃ x, leastBy f l = some x := by
  cases l with
  | nil => exact absurd rfl h
  | cons a l =>
    simp only [leastBy]
    split
    · exact ⟨_, rfl⟩
    · split <;> exact ⟨_, rfl⟩

/-- Among raised causes the ones of the lowest code are taken, with the value of one of them. -/
theorem pickCause_lowest {r r' : Raised} {c : Nat} (hr : r ≠ []) (hc : ∀ x ∈ r, x.2.1 = c) (hr' : ∀ x ∈ r', c < x.2.1) :
    ∃ v ∈ r, pickCause (r ++ r') = some (c, r.map (·.1), v.2.2) := by
  obtain ⟨x, hx⟩ := leastBy_isSome (fun x : Nat × Nat × W64 => x.2.1) (l := r ++ r') (by simp [hr])
  obtain ⟨hmem, hle⟩ := leastBy_spec hx
  obtain ⟨a, ha⟩ := List.exists_mem_of_ne_nil r hr
  have hxc : x.2.1 = c := by
    have h1 := hc a ha ▸ hle a (List.mem_append_left _ ha)
    rcases List.mem_append.mp hmem with h | h
    · exact hc x h
    · exact absurd (hr' x h) (by omega)
  have hfilter : (r ++ r').filter (fun y => y.2.1 == x.2.1) = r := by
    rw [List.filter_append, List.filter_eq_self.mpr (fun y hy => by simp [hc y hy, hxc]),
      List.filter_eq_nil_iff.mpr (fun y hy => by have := hr' y hy; simp [hxc]; omega), List.append_nil]
  obtain ⟨v, hv⟩ := leastBy_isSome (fun y : Nat × Nat × W64 => lane y.1) hr
  refine ⟨v, (leastBy_spec hv).1, ?_⟩
  simp only [pickCause, hx, hfilter, hv]
  rw [hxc]

/-! ### Entering a handler (R222) -/

theorem slot_of_envOf {s : State} {e : Env} (h : envOf s = some e) : getSlot s e.key = e.sl ∧ e.sl.gang = e.gid := by
  unfold envOf at h
  split at h
  · cases h
  · dsimp only at h
    split at h
    · cases h
    · cases h; exact ⟨rfl, rfl⟩

section
variable (gid : Nat) (fids : List Nat) (s : State)

/-- Giving up places in a quarry order changes quarries only. -/
@[simp] theorem dropSweeps_slots : (dropSweeps gid fids s).slots = s.slots := by unfold dropSweeps; dsimp only; split <;> rfl
@[simp] theorem dropSweeps_gangs : (dropSweeps gid fids s).gangs = s.gangs := by unfold dropSweeps; dsimp only; split <;> rfl
@[simp] theorem dropSweeps_mem : (dropSweeps gid fids s).mem = s.mem := by unfold dropSweeps; dsimp only; split <;> rfl
@[simp] theorem dropSweeps_hostMem : (dropSweeps gid fids s).hostMem = s.hostMem := by unfold dropSweeps; dsimp only; split <;> rfl
@[simp] theorem dropSweeps_peerMem : (dropSweeps gid fids s).peerMem = s.peerMem := by unfold dropSweeps; dsimp only; split <;> rfl

end

/-- The machine in which a handler is entered: poison that is consumed is logged, and places in a quarry order are given up. -/
def trapState (e : Env) (cause : Nat) (s : State) : State :=
  dropSweeps e.gid (getSlot s e.key).fids (if cause = 14 then logError .core e.core 3 0 s else s)

section
variable (e : Env) (cause : Nat) (s : State)

theorem trapState_part {α : Type} (p : State → α) (hd : ∀ gid fids s, p (dropSweeps gid fids s) = p s)
    (hm : ∀ m, p { s with mgmt := m } = p s) : p (trapState e cause s) = p s := by
  unfold trapState
  rw [hd]
  split
  · exact hm _
  · rfl

@[simp] theorem trapState_slots : (trapState e cause s).slots = s.slots := trapState_part e cause s (·.slots) dropSweeps_slots fun _ => rfl
@[simp] theorem trapState_gangs : (trapState e cause s).gangs = s.gangs := trapState_part e cause s (·.gangs) dropSweeps_gangs fun _ => rfl
@[simp] theorem trapState_mem : (trapState e cause s).mem = s.mem := trapState_part e cause s (·.mem) dropSweeps_mem fun _ => rfl
@[simp] theorem trapState_hostMem : (trapState e cause s).hostMem = s.hostMem :=
  trapState_part e cause s (·.hostMem) dropSweeps_hostMem fun _ => rfl
@[simp] theorem trapState_peerMem : (trapState e cause s).peerMem = s.peerMem :=
  trapState_part e cause s (·.peerMem) dropSweeps_peerMem fun _ => rfl

end

/-- The slot of a wave that enters its handler. -/
def handlerSlot (g : Gang) (sl : Slot) (cause : Nat) (async : Bool) (lanes : Word) (val pc : W64) : Slot :=
  { sl with
    trapcause := BitVec.ofNat 32 (cause + if async then 256 else 0), traplanes := lanes, trappc := pc, trapval := val
    handler := some { k := [], kPoison := 0, preds := 1, predPoison := 0, pc := lineOf g.handlerBase, base := lineOf g.handlerBase,
                      lanes := laneMask sl.fids, trapped := lanes, items := [] } }

/-- Entry at a HANDLERBASE that is set changes the slot and forgets the releases that the wave's fibres had begun. -/
theorem enterHandler_eq {e : Env} {cause : Nat} {async : Bool} {lanes : Word} {val pc : W64} {s : State}
    (hb : (getGang s e.gid).handlerBase ≠ 0) : enterHandler e cause async lanes val pc s =
      setSlot (setGang (trapState e cause s) e.gid (mapFibres (getGang s e.gid) (fun fid f =>
        if (getSlot s e.key).fids.contains fid then { f with relWait := none } else f)))
        e.key (handlerSlot (getGang s e.gid) (getSlot s e.key) cause async lanes val pc) := by
  have hs : getSlot (trapState e cause s) e.key = getSlot s e.key := by simp [getSlot]
  have hg : getGang (trapState e cause s) e.gid = getGang s e.gid := by simp [getGang]
  rw [← hg] at hb
  rw [← hs, ← hg]
  exact if_neg hb

/-- A synchronous trap that can be taken is taken as R222 says. -/
theorem takeTrap_trapped {s : State} {e : Env} {r : Raised} {cause : Nat} {fids : List Nat} {val : W64} (hc : CanTrap s e)
    (hp : pickCause r = some (cause, fids, val)) : ∃ t, takeTrap e r s = .next t ∧ Trapped e s t cause (laneMask fids) val := by
  obtain ⟨hslot, -⟩ := slot_of_envOf hc.env
  have hgang := gang_of_envOf hc.env
  refine ⟨enterHandler e cause false (laneMask fids) val e.pc s, by simp [takeTrap, hp, hc.user, hc.quiet, hc.plain], ?_⟩
  rw [enterHandler_eq (by rw [hgang]; exact hc.base), hslot, hgang]
  constructor
  case gangs => simp [releasesForgotten, hgang]
  case memory => exact ⟨by simp, by simp, by simp⟩
  all_goals rw [getSlot_setSlot]; rfl

/-! ### Every computing instruction checks its registers -/

/-- A form that checks its registers at issue: the traps of R24 come with traps of a higher code only. -/
def ChecksRegs (i : Instr) (h : Hdr) (uses : List RegUse) : Prop :=
  ∀ s e, Issues false s e → ∃ r k, exec i s = orTrap e (regTraps e (executing h e) uses ++ r) s k ∧ ∀ x ∈ r, 2 < x.2.1

theorem checksRegs_of_execAlu {i : Instr} {h : Hdr} {uses : List RegUse} {sp : AluSpec} (hexec : ∀ s, exec i s = execAlu sp s)
    (hh : sp.h = h) (hu : aluUses sp = uses) : ChecksRegs i h uses := by
  subst hh hu
  intro s e hi
  refine ⟨[], .next (retireWr sp.h sp.ll e 0 (executing sp.h e) (fun fid => aluWr sp (getFibre e.g fid)) s), ?_, by simp⟩
  rw [hexec, execAlu, issue_runs hi, List.append_nil]

theorem checksRegs_of_execCross {i : Instr} {h : Hdr} {uses uses' : List RegUse} {ll : Bool} {fn : Env → List Nat → Nat → Wr}
    (hexec : ∀ s, exec i s = execCross h ll uses' fn s) (hu : uses' = uses) : ChecksRegs i h uses := by
  subst hu
  intro s e hi
  refine ⟨[], .next (retireWr h ll e 0 (executing h e)
      (fun fid => taint (guard h (getFibre e.g fid)).2 (fn e (sortBy lane (executing h e)) fid)) s), ?_, by simp⟩
  rw [hexec, execCross, issue_runs hi, List.append_nil]

/-- SPXI checks its registers and then its guards (R353). -/
theorem checksRegs_spxi (f : F4) :
    ChecksRegs (.spxi f) f.h [(f.d.toNat, 4), (f.a.toNat, 1), (f.b.toNat, 1), (f.c.toNat, 2)] := by
  intro s e hi
  refine ⟨actingPoison f.h e (executing f.h e) [], execAlu (spxiSpec f) s, ?_, fun x hx => ?_⟩
  · change execSpxi f s = _
    rw [execSpxi, issue_runs hi]
    rfl
  · obtain ⟨fid, -, rfl⟩ := List.mem_map.mp hx
    exact (by decide : 2 < 14)

/-- MOV of .b128 checks both quads (R265). -/
theorem checksRegs_movQuad {f : F0} (ht : f.ty = .b128) : ChecksRegs (.mov f) f.h [(f.d.toNat, 4), (f.a.toNat, 4)] := by
  intro s e hi
  refine ⟨[], .next (retireWr f.h false e 0 (executing f.h e) (fun fid => quadMove f (getFibre e.g fid)) s), ?_, by simp⟩
  change execMov f s = _
  rw [execMov, if_pos ht, quadMoveIssue, issue_runs hi, List.append_nil]

/-- Every computing or cross-lane instruction checks at issue the registers that `computing` says it names. -/
theorem checksRegs_of_computing {i : Instr} {h : Hdr} {names : List RegUse × List Nat × List Nat} (hc : computing i = some names)
    (hh : hdrOf i = some h) : ChecksRegs i h names.1 := by
  cases i with
  | mov f =>
    cases hh
    by_cases ht : f.ty = .b128
    · rw [computing, if_pos ht] at hc
      cases hc
      exact checksRegs_movQuad ht
    · rw [computing, if_neg ht] at hc
      cases hc
      exact checksRegs_of_execAlu (fun _ => if_neg ht) rfl (by simp [aluUses, intUn])
  | spxi f =>
    cases hc; cases hh
    exact checksRegs_spxi f
  | iadd f | isub f | imul f | imulh f | imin f | imax f | iaddImm f | isubImm f | imulImm f | imulhImm f | iminImm f | imaxImm f
  | and_ f | or_ f | xor_ f | andn f | andImm f | orImm f | xorImm f | andnImm f | imad f | imadImm f | idiv f | irem f
  | shl f | shr f | sar f | rol f | ror f | bfe f | shlImm f | shrImm f | sarImm f | rolImm f | rorImm f | bfeImm f
  | bfi f | bfiImm f | iabs f | ineg f | not_ f | brev f | movi f | cvt f | sel f | selImm f
  | popc f | clz f | ctz f | lea f | icmp f | icmpImm f | iset f | isetImm f =>
    cases hc; cases hh
    exact checksRegs_of_execAlu (fun _ => rfl) rfl (by
      simp [aluUses, intBin, intLogic, intTri, divSpec, immSrc, intCount, bfiSpec, rawImm, intUn, selSpec, intCnt, cmpSpec])
  | pand f | por f | pxor f | pnot f | pmov f | pmovToRegister f | pmovFromRegister f | idot4 f | idot4Imm f
  | fadd f | fsub f | fmul f | ffma f | fmin f | fmax f | faddImm f | fsubImm f | fmulImm f | ffmaImm f | fminImm f | fmaxImm f
  | fabs f | fneg f | fclass f | fdiv f | fsqrt f | frsq f | frcp f | fexp2 f | flog2 f | frnd f
  | dadd f | dmul f | dfma f | ddiv f | dsqrt f | dmin f | dmax f | fcmp f | fcmpImm f | dcmp f
  | hadd2 f | hmul2 f | hfma2 f | bfma2 f | qdec f | hwcvt f | hwcvtSr f =>
    cases hc; cases hh
    exact checksRegs_of_execAlu (fun _ => rfl) rfl rfl
  | lshfl f | lshfu f | lshfd f | lxor f | lbcast f | vote f | ballot f | match_ f | elect f =>
    cases hc; cases hh
    exact checksRegs_of_execCross (fun _ => rfl) rfl
  | lshflImm f | lshfuImm f | lshfdImm f | lxorImm f | lbcastImm f | lpfx f | lred f =>
    cases hc; cases hh
    exact checksRegs_of_execCross (fun _ => rfl) (List.append_nil _)
  | _ => cases hc

/-! ### The lanes that break R24 -/

/-- The operand that is found breaks the rule. -/
theorem badReg_some {win n : Nat} {uses : List RegUse} (h : badReg win uses = some n) :
    ∃ u ∈ uses, (u.1 % u.2 ≠ 0 ∨ win ≤ u.1) ∧ n = u.1 := by
  induction uses with
  | nil => cases h
  | cons u us ih =>
    simp only [badReg] at h
    split at h
    next hbad => cases h; exact ⟨u, List.mem_cons_self, hbad, rfl⟩
    next => obtain ⟨v, hv, hbad⟩ := ih h; exact ⟨v, List.mem_cons_of_mem _ hv, hbad⟩

/-- A fibre breaks R24 with one of some operands. -/
def breaksRegs (e : Env) (uses : List RegUse) (fid : Nat) : Bool :=
  uses.any (fun u => decide (u.1 % u.2 ≠ 0) || decide ((getFibre e.g fid).win ≤ u.1))

theorem badReg_isSome (win : Nat) (uses : List RegUse) :
    (badReg win uses).isSome = uses.any (fun u => decide (u.1 % u.2 ≠ 0) || decide (win ≤ u.1)) := by
  induction uses with
  | nil => rfl
  | cons u us ih =>
    rw [List.any_cons, badReg, ← ih]
    split
    next h => simp only [Option.isSome_some, ← Bool.decide_or, h, decide_true, Bool.true_or]
    next h => simp only [← Bool.decide_or, h, decide_false, Bool.false_or]

theorem regTraps_fids (e : Env) (act : List Nat) (uses : List RegUse) :
    (regTraps e act uses).map (·.1) = act.filter (breaksRegs e uses) := by
  induction act with
  | nil => rfl
  | cons fid act ih =>
    have hsome := badReg_isSome (getFibre e.g fid).win uses
    rw [regTraps, List.filterMap_cons]
    cases hb : badReg (getFibre e.g fid).win uses with
    | none => rw [hb] at hsome; exact ih.trans (List.filter_cons_of_neg (by rw [breaksRegs, ← hsome]; decide)).symm
    | some n =>
      rw [hb] at hsome
      rw [List.filter_cons_of_pos (show breaksRegs e uses fid = true from hsome.symm), ← ih]
      rfl

theorem mem_regTraps {e : Env} {act : List Nat} {uses : List RegUse} {x : Nat × Nat × W64} (hx : x ∈ regTraps e act uses) :
    x.2.1 = 2 ∧ ∃ u ∈ uses, (u.1 % u.2 ≠ 0 ∨ (getFibre e.g x.1).win ≤ u.1) ∧ x.2.2 = BitVec.ofNat 64 u.1 := by
  obtain ⟨fid, -, hfid⟩ := List.mem_filterMap.mp hx
  split at hfid
  next n hn =>
    cases hfid
    obtain ⟨u, hu, hbad, rfl⟩ := badReg_some hn
    exact ⟨rfl, u, hu, hbad, rfl⟩
  next => cases hfid

theorem orTrap_cons {e : Env} {r : Raised} {s : State} {k : Out} (h : r ≠ []) : orTrap e r s k = takeTrap e r s := by
  cases r with
  | nil => exact absurd rfl h
  | cons x r => rfl

/-- Settles O60: the traps of R24 have the lowest code that the issue can raise, and a trap that can be taken is taken as R222 says. -/
theorem registerOutsideWindowTraps : Obligations.RegisterOutsideWindowTraps := by
  unfold Obligations.RegisterOutsideWindowTraps
  intro i uses regs preds h s e hc hh hi htrap bad hbad
  obtain ⟨r, k, hexec, hr⟩ := checksRegs_of_computing hc hh s e hi
  have hfids : (regTraps e (executing h e) uses).map (·.1) = bad := regTraps_fids ..
  have hne : regTraps e (executing h e) uses ≠ [] := fun h0 => hbad (by rw [← hfids, h0]; rfl)
  obtain ⟨v, hv, hpick⟩ := pickCause_lowest hne (fun x hx => (mem_regTraps hx).1) hr
  obtain ⟨-, u, hu, hbreak, hval⟩ := mem_regTraps hv
  obtain ⟨t, ht, htr⟩ := takeTrap_trapped htrap hpick
  rw [hfids] at htr
  exact ⟨t, by rw [hexec, orTrap_cons (by simp [hne]), ht], htr.atCause, htr.atLanes, htr.atPc, htr.handler, htr.gangs, htr.memory,
    v.1, hfids ▸ List.mem_map_of_mem hv, u, hu, hbreak, htr.atVal.trans hval⟩

end Sys2Proof.Machine
end

section
/-! PROOF. The step (R39, R234, R235, R386, R387): a turn of a wave is the meaning of its decoded instruction, a turn of an event that of
its row, and what passes after a turn (O54). -/
namespace Sys2Proof.Machine

/-! ### The turn of a wave -/

/-- A slot of a sound line that decodes is fetched as its instruction (R234). -/
theorem fetchNext_instr {e : Env} {s : State} {ia : Nat} {l : BitVec 512} {i : Instr}
    (hw : checkWindow s e.g.ctx (lineOf e.pc) pathVec 4 = .ok ia) (hl : lineBits s e.g.ctx ia = .ok l) (hp : parityOk l = true)
    (hz : lineWord l &&& 0xFE00 = 0) (hd : decode e.g.kernel.version (slotWord l (e.pc.toNat % 8)) = .ok i) : fetchNext e s = .instr i := by
  simp only [fetchNext, fetch, issuePc, hw, hl, hp, if_true, decodeSlot, hz, ne_eq, not_true_eq_false, if_false, hd]

theorem waveStep_instr {e : Env} {s : State} {i : Instr} (ha : pendingAsync e = none) (hf : fetchNext e s = .instr i) :
    waveStep e s = exec i (touchFetch e s) := by
  simp only [waveStep, ha, hf]

/-- A wave that may issue acts on a core that has not stopped issue. -/
theorem waveTurn_acts {c w : Nat} {s : State} {e : Env} (hreset : s.mgmt.resetting = false) (hhalt : (getCore s c).halted = false)
    (hexp : slotExpired s c w = false) (he : envOf (asWave c w s) = some e)
    (hmay : e.sl.handler.isSome = true ∨ selected e (asWave c w s) = true ∨ issuesNow e (asWave c w s) = false) :
    waveTurn c w s = pairUp e (asWave c w s) (waveStep e (asWave c w s)) := by
  have hgo : (e.sl.handler.isSome || selected e (asWave c w s) || !issuesNow e (asWave c w s)) = true := by
    rcases hmay with h | h | h <;> simp [h]
  unfold waveTurn
  rw [hreset, hhalt, hexp]
  simp only [he, hgo, if_true]
  rfl

/-- The turn at the head of the agenda is the step. -/
theorem step_turn {s : State} {t : Turn} {ts : List Turn} (h : s.agenda = t :: ts) :
    step s = afterTurn (runTurn t { s with agenda := ts }) := by
  unfold step
  rw [h]

theorem runTurn_event {i : Instr} {s : State} (he : encode i = none) (hr : isWaveRow i = false) : runTurn (.event i) s = exec i s :=
  if_pos (by rw [isEvent, he, hr]; rfl)

/-! ### Pairs -/

/-- After slot i its pair's second slot has issued too, or the core has counted that it did not (R386, R387). -/
theorem pairUp_next (e : Env) (s t : State) : pairUp e s (.next t) = .next t ∨ pairUp e s (.next t) = .next (perfEvent e.core 3 1 t) ∨
    ∃ u, pairable e s = true ∧ secondSlot e t = some u ∧ pairUp e s (.next t) = .next u := by
  unfold pairUp
  split
  next _ t' heq =>
    cases heq
    by_cases hb : (pairBit s e.g.ctx e.pc && retires e s t) = true
    · rw [if_pos hb]
      by_cases hp : pairable e s = true
      · rw [if_pos hp]
        cases hs : secondSlot e t with
        | none => exact .inr (.inl rfl)
        | some u => exact .inr (.inr ⟨u, hp, rfl, rfl⟩)
      · rw [if_neg hp]
        exact .inr (.inl rfl)
    · exact .inl (if_neg hb)
  next h => exact absurd rfl (h t)

theorem pairUp_single {e : Env} {s : State} (hp : pairBit s e.g.ctx e.pc = false) (r : Out) : pairUp e s r = r := by
  cases r with
  | next t => simp only [pairUp, hp, Bool.false_and]; rfl
  | fault r => rfl
  | refused r => rfl

theorem pairUp_stopped {r : Out} (e : Env) (s : State) (h : ∀ t, r ≠ .next t) : pairUp e s r = r := by
  cases r with
  | next t => exact absurd rfl (h t)
  | fault r => rfl
  | refused r => rfl

/-! ### After a turn -/

theorem serveQuarries_idle {s : State} (h : ∀ q ∈ s.quarries, q.2.ops = []) : serveQuarries s = s := by
  have hnone : s.quarries.filter (fun q => !q.2.ops.isEmpty) = [] := List.filter_eq_nil_iff.mpr fun q hq => by simp [h q hq]
  rw [serveQuarries, hnone, List.foldl_nil]

theorem settleFlushes_idle {s : State} (h : ∀ t ∈ s.tasks, t.2.flush = []) : settleFlushes s = s := by
  have hnone : s.tasks.filter (fun t => !t.2.flush.isEmpty) = [] := List.filter_eq_nil_iff.mpr fun t ht => by simp [h t ht]
  rw [settleFlushes, hnone, List.foldl_nil]

/-- A table whose entries keep a part keeps it under every key, the default's among them. -/
theorem kget_map_part {α β : Type} {m : KMap α} {f : Nat → α → α} {d : α} {p : α → β} (hp : ∀ k v, p (f k v) = p v) (n : Nat) :
    p (kget (m.map (fun e => (e.1, f e.1 e.2))) n d) = p (kget m n d) := by
  rw [kget, kget?_map, kget]
  cases kget? m n with
  | none => rfl
  | some v => exact hp n v

/-- Passing cycles counts them, and changes of a core the counters only. -/
theorem passCycles_core (s : State) (c : Nat) :
    { getCore (passCycles s) c with perfCount := (getCore s c).perfCount } = getCore s c := by
  have h := kget_map_part (m := s.cores) (d := Core.init) (p := fun v => { v with perfCount := [] })
    (f := fun _ v => perfBump 1 (min (Config.stepCycles s.steps) (127 - s.phase)) v) (fun _ _ => rfl) c
  exact congrArg (fun v : Core => { v with perfCount := (getCore s c).perfCount }) h

/-- A slot with the note of whether its wave is ready. -/
def notedSlot (s : State) (k : Nat) (v : Slot) : Slot :=
  let w := asWave (k / 32) (k % 32) s
  let ready := match envOf w with | some e => e.sl.handler.isNone && issuesNow e w | none => false
  { v with readySince := if ready then some (v.readySince.getD (now s)) else none }

/-- Noting which waves are ready changes of a slot the note only. -/
theorem noteReady_slot (s : State) (k : Nat) :
    { getSlot (noteReady s) k with readySince := (getSlot s k).readySince } = getSlot s k := by
  have h := kget_map_part (m := s.slots) (d := Slot.init) (p := fun v => { v with readySince := none })
    (f := notedSlot s) (fun _ _ => rfl) k
  exact congrArg (fun v : Slot => { v with readySince := (getSlot s k).readySince }) h

/-- Settles O54: the turn at the head of the agenda is the step, and its parts are the lemmas above. -/
theorem stepRunsDecodedInstruction : Obligations.StepRunsDecodedInstruction := by
  unfold Obligations.StepRunsDecodedInstruction
  refine ⟨?_, fun e s r => ⟨fun hp => pairUp_single hp r, pairUp_stopped e s, ?_⟩, ?_, fun s =>
    ⟨rfl, rfl, serveQuarries_idle, settleFlushes_idle, rfl, passCycles_core s, rfl, noteReady_slot s⟩⟩
  · intro s c w ts e i ia l hagenda hhalt hreset s0 s1 hexp he ha hw hl hp hz hd hmay
    rw [step_turn hagenda]
    refine congrArg afterTurn ((waveTurn_acts (s := s0) hreset hhalt hexp he hmay).trans ?_)
    rw [waveStep_instr ha (fetchNext_instr hw hl hp hz hd)]
  · rintro t rfl
    exact pairUp_next e s t
  · intro s i ts hagenda he hr
    rw [step_turn hagenda, runTurn_event he hr]

end Sys2Proof.Machine
end

section
/-! PROOF. What a retirement leaves in a fibre of the wave: its PC, the values that it has written, and the parts that it does not change. -/
namespace Sys2Proof.Machine

/-! ### The bits of a poison word -/

theorem getLsbD_setBit_same {k : Nat} (v : BitVec k) {i : Nat} (b : Bool) (h : i < k) : (setBit v i b).getLsbD i = b := by
  cases b <;> simp [setBit, h]

theorem getLsbD_setBit_clear {k : Nat} (v : BitVec k) (i : Nat) : (setBit v i false).getLsbD i = false := by
  simp only [setBit, Bool.false_eq_true, if_false, BitVec.getLsbD_and, BitVec.getLsbD_not, BitVec.getLsbD_shiftLeft,
    Nat.lt_irrefl, Nat.sub_self]
  grind

/-! ### A fibre that retires -/

section
variable (w : Wr) (win : Option Window) (pc : W64) (x : Fibre)

@[simp] theorem retireFibre_pc : (retireFibre w win pc x).pc = pc := rfl

theorem steadyPart_retireFibre : steadyPart (retireFibre w win pc x) = steadyPart x :=
  (spares_retireFibre (R := fun _ => True) (P := fun _ => True) (fun _ _ => ⟨fun _ _ => trivial, fun _ _ => trivial⟩)
    ⟨fun _ _ => trivial, fun _ _ => trivial⟩ win pc).steady

theorem retireFibre_part {α : Type} (p : Fibre → α) (hp : ∀ y, p (steadyPart y) = p y) : p (retireFibre w win pc x) = p x := by
  rw [← hp, steadyPart_retireFibre, hp]

@[simp] theorem retireFibre_win : (retireFibre w win pc x).win = x.win := retireFibre_part w win pc x (·.win) fun _ => rfl
@[simp] theorem retireFibre_joins : (retireFibre w win pc x).joins = x.joins := retireFibre_part w win pc x (·.joins) fun _ => rfl
@[simp] theorem retireFibre_waitlimit : (retireFibre w win pc x).waitlimit = x.waitlimit :=
  retireFibre_part w win pc x (·.waitlimit) fun _ => rfl

/-- A younger write discards the held writes of the same destinations (R239), so no closing window writes them. -/
theorem spares_tickWindows_writeAll :
    Spares (fun n => n ∉ w.regs.map (·.1)) (fun n => n ∉ w.preds.map (·.1)) (writeAll x w) (tickWindows (writeAll x w)) := by
  refine spares_tickWindows fun v hv => ?_
  rw [writeAll, pokeAll_windows] at hv
  obtain ⟨v, -, rfl⟩ := List.mem_map.mp hv
  exact ⟨fun r hr => by simpa using (List.mem_filter.mp hr).2, fun p hp => by simpa using (List.mem_filter.mp hp).2⟩

variable {w x} {n : Nat}

/-- What the instruction writes is there after its retirement. -/
theorem readReg_retireFibre (h : n ∈ w.regs.map (·.1)) : readReg (retireFibre w none pc x) n = readReg (writeAll x w) n :=
  (spares_tickWindows_writeAll w x).reg n (not_not_intro h)

theorem readPred_retireFibre (h : n ∈ w.preds.map (·.1)) : readPred (retireFibre w none pc x) n = readPred (writeAll x w) n :=
  (spares_tickWindows_writeAll w x).pred n (not_not_intro h)

end

/-! ### Values written to registers -/

theorem readPair_eq (x : Fibre) (n : Nat) :
    readPair x n = ((readReg x (n + 1)).1 ++ (readReg x n).1, (readReg x n).2 || (readReg x (n + 1)).2) := rfl

/-- The last write of a register stands, writes of other registers leave it. -/
theorem readReg_pokeReg_same (x : Fibre) (n : Nat) (v : Word) : readReg (pokeReg x n v false) n = (v, false) := by
  simp [readReg, pokeReg, getLsbD_setBit_clear]

theorem readReg_pokeReg_ne (x : Fibre) {n m : Nat} (v : Word) (p : Bool) (h : m ≠ n) : readReg (pokeReg x n v p) m = readReg x m := by
  simp [readReg, pokeReg, h, getLsbD_setBit_ne]

/-- Clean values written to distinct registers are read back. -/
theorem readReg_pokeRegs {rs : List (Nat × Word × Bool)} {r : Nat × Word × Bool} (hd : (rs.map (·.1)).Nodup) (hr : r ∈ rs)
    (hp : r.2.2 = false) (x : Fibre) : readReg (rs.foldl (fun f e => pokeReg f e.1 e.2.1 e.2.2) x) r.1 = (r.2.1, false) := by
  induction rs generalizing x with
  | nil => cases hr
  | cons a rs ih =>
    obtain ⟨hnot, hd⟩ := List.nodup_cons.mp hd
    rcases List.mem_cons.mp hr with rfl | hr
    · have hkeep : ∀ y, readReg (rs.foldl (fun f e => pokeReg f e.1 e.2.1 e.2.2) y) r.1 = readReg y r.1 := fun y =>
        List.foldlRecOn (motive := fun z : Fibre => readReg z r.1 = readReg y r.1) _ _ rfl fun z hz e he =>
          (readReg_pokeReg_ne z _ _ fun heq => hnot (List.mem_map.mpr ⟨e, he, heq.symm⟩)).trans hz
      rw [List.foldl_cons, hkeep, hp, readReg_pokeReg_same]
    · exact ih hd hr _

theorem readReg_writeRegs {rs : List (Nat × Word × Bool)} {r : Nat × Word × Bool} {fl : Word} (hd : (rs.map (·.1)).Nodup) (hr : r ∈ rs)
    (hp : r.2.2 = false) (x : Fibre) : readReg (writeAll x { regs := rs, preds := [], flags := fl }) r.1 = (r.2.1, false) :=
  readReg_pokeRegs hd hr hp _

section
variable (pc : W64) (x : Fibre) (n : Nat)

/-- After the retirement of an instruction that writes clean registers each of them holds its value. -/
theorem readReg_retireFibre_regs {rs : List (Nat × Word × Bool)} {r : Nat × Word × Bool} {fl : Word} (hd : (rs.map (·.1)).Nodup)
    (hr : r ∈ rs) (hp : r.2.2 = false) :
    readReg (retireFibre { regs := rs, preds := [], flags := fl } none pc x) r.1 = (r.2.1, false) :=
  (readReg_retireFibre pc (List.mem_map_of_mem hr)).trans (readReg_writeRegs hd hr hp x)

theorem append_halves (v : W64) : ((v >>> 32).truncate 32 : Word) ++ (v.truncate 32 : Word) = v := by
  ext i hi
  rw [BitVec.getElem_append]
  by_cases h : i < 32
  · simp [h, BitVec.getLsbD_eq_getElem hi]
  · simp [h, show 32 + (i - 32) = i by omega, BitVec.getLsbD_eq_getElem hi]

theorem append_quarters (v : Quad) : ((v >>> 64).truncate 64 : W64) ++ (v.truncate 64 : W64) = v := by
  ext i hi
  rw [BitVec.getElem_append]
  by_cases h : i < 64
  · simp [h, BitVec.getLsbD_eq_getElem hi]
  · simp [h, show 64 + (i - 64) = i by omega, BitVec.getLsbD_eq_getElem hi]

theorem readReg_retire_reg (v : Word) (fl : Word) :
    readReg (retireFibre { regs := [(n, v, false)], preds := [], flags := fl } none pc x) n = (v, false) :=
  readReg_retireFibre_regs pc x (r := (n, v, false)) (by simp) (by simp) rfl

theorem readPair_retire_pair (v : W64) (fl : Word) :
    readPair (retireFibre { regs := pairWr n v false, preds := [], flags := fl } none pc x) n = (v, false) := by
  have hlow := readReg_retireFibre_regs pc x (rs := pairWr n v false) (fl := fl) (r := (n, v.truncate 32, false))
    (by simp [pairWr]) (by simp [pairWr]) rfl
  have hhigh := readReg_retireFibre_regs pc x (rs := pairWr n v false) (fl := fl) (r := (n + 1, (v >>> 32).truncate 32, false))
    (by simp [pairWr]) (by simp [pairWr]) rfl
  rw [readPair_eq, hlow, hhigh, append_halves]
  rfl

theorem readQuad_retire_quad (v : Quad) (fl : Word) :
    readQuad (retireFibre { regs := quadWr n v false, preds := [], flags := fl } none pc x) n = (v, false) := by
  have hreg : ∀ r ∈ quadWr n v false, readReg (retireFibre { regs := quadWr n v false, preds := [], flags := fl } none pc x) r.1 =
      (r.2.1, false) := fun r hr =>
    readReg_retireFibre_regs pc x (by simp [quadWr, pairWr]; omega) hr (by
      simp only [quadWr, pairWr, List.cons_append, List.nil_append, List.mem_cons, List.not_mem_nil, or_false] at hr
      rcases hr with rfl | rfl | rfl | rfl <;> rfl)
  have hparts := hreg
  simp only [quadWr, pairWr, List.cons_append, List.nil_append, List.forall_mem_cons] at hparts
  obtain ⟨h0, h1, h2, h3, -⟩ := hparts
  simp only [quadWr, pairWr, List.cons_append, List.nil_append, readQuad, readPair_eq, h0, h1, h2, h3, append_halves, Bool.or_self]
  rw [append_quarters]

end

/-! ### The wave's fibres after a retirement -/

section
variable {e : Env} {s : State} (u : Nat) (wr : Nat → Wr) (win : Nat → Option Window) (pc : Nat → W64)

theorem fibreAt_retire_live {fid : Nat} (he : envOf s = some e) (hlive : Live e) (hf : fid ∈ e.fids) :
    fibreAt (retire e u wr win pc s) e.gid fid = retireFibre (wr fid) (win fid) (pc fid) (getFibre e.g fid) := by
  have hg := gang_of_envOf he
  rw [fibreAt_retire u wr win pc hf (hg ▸ hlive fid hf), fibreAt, hg]

theorem standAt_retire (he : envOf s = some e) (hlive : Live e) : StandAt e pc (retire e u wr win pc s) := fun fid hf => by
  rw [fibreAt_retire_live u wr win pc he hlive hf, retireFibre_pc]

theorem outsideKept_retire : OutsideKept s (retire e u wr win pc s) := rfl

end

/-! ### The fibres of a gang that are all updated -/

section
variable (g : Gang) (fn : Nat → Fibre → Fibre)

@[simp] theorem kget?_mapFibres (k : Nat) : kget? (mapFibres g fn).fibres k = (kget? g.fibres k).map (fn k) := kget?_map ..
/-- A part that each fibre keeps. -/
theorem getFibre_mapFibres_part {α : Type} {g : Gang} {fn : Nat → Fibre → Fibre} {p : Fibre → α} (h : ∀ k x, p (fn k x) = p x) (k : Nat) :
    p (getFibre (mapFibres g fn) k) = p (getFibre g k) := kget_map_part h k

@[simp] theorem mapFibres_joinSets : (mapFibres g fn).joinSets = g.joinSets := rfl
@[simp] theorem mapFibres_core : (mapFibres g fn).core = g.core := rfl
@[simp] theorem mapFibres_spfail : (mapFibres g fn).spfail = g.spfail := rfl

end

/-! ### The slot, the core and the gangs after a retirement -/

section
variable (e : Env) (s : State) (u : Nat) (wr : Nat → Wr) (win : Nat → Option Window) (pc : Nat → W64)

@[simp] theorem getSlot_retire : getSlot (retire e u wr win pc s) e.key = issuedSlot s e := by
  rw [retire_eq, getSlot, kget_kset_same]

theorem getSlot_retire_ne {k : Nat} (h : k ≠ e.key) : getSlot (retire e u wr win pc s) k = getSlot s k := by
  rw [retire_eq, getSlot, kget_kset_ne _ _ _ _ _ h]
  rfl

@[simp] theorem getCore_retire : getCore (retire e u wr win pc s) e.core = issuedCore s e u := by
  rw [retire_eq, getCore, kget_kset_same]

@[simp] theorem getGang_retire : getGang (retire e u wr win pc s) e.gid = mapFibres (getGang s e.gid) (fun fid f =>
    if e.fids.contains fid then retireFibre (wr fid) (win fid) (pc fid) f else f) := by
  rw [retire_eq, getGang, kget_kset_same]

@[simp] theorem getSlot_retirePlain : getSlot (retirePlain e u s) e.key = issuedSlot s e := getSlot_retire ..
@[simp] theorem getCore_retirePlain : getCore (retirePlain e u s) e.core = issuedCore s e u := getCore_retire ..

@[simp] theorem issuedSlot_fids : (issuedSlot s e).fids = (getSlot s e.key).fids := rfl
@[simp] theorem issuedSlot_atBrk : (issuedSlot s e).atBrk = (getSlot s e.key).atBrk := rfl

@[simp] theorem issuedCore_table : (issuedCore s e u).table = (getCore s e.core).table := rfl
@[simp] theorem issuedCore_blocks : (issuedCore s e u).blocks = (getCore s e.core).blocks := rfl
@[simp] theorem issuedCore_halted : (issuedCore s e u).halted = (getCore s e.core).halted := rfl

end

end Sys2Proof.Machine
end

section
/-! PROOF. System instructions (R52, R54, R367 to R377): reads and writes of CSRs, special registers and counters, NOP, BRK and its
resume (O13, O14). -/
namespace Sys2Proof.Machine

/-! ### CSRs -/

/-- A write of a fibre-held CSR is seen in the fibre. -/
theorem getFibre_update {g : Gang} {fid : Nat} (fn : Fibre → Fibre) (hl : (kget? g.fibres fid).isSome = true) :
    getFibre (mapFibres g (fun i f => if i = fid then fn f else f)) fid = fn (getFibre g fid) := by
  rw [getFibre_mapFibres _ _ _ hl, if_pos rfl]

/-- A write of a counter (R54). -/
theorem csrWrite_counter {n : Nat} (h0 : 0x40 ≤ n) (key gid fid : Nat) (v : W64) (s : State) : csrWrite key gid fid n v s =
    setCore s (getGang s gid).core { getCore s (getGang s gid).core with
      perfCount := kset (getCore s (getGang s gid).core).perfCount (n - 0x40) v } := by
  simp (disch := omega) only [csrWrite, if_neg]

/-- Settles O14: each write goes to the one place that the read takes its value from. -/
theorem csrWriteThenRead : Obligations.CsrWriteThenRead := by
  unfold Obligations.CsrWriteThenRead
  intro s key gid fid v hl
  refine ⟨?_, ?_, ?_, fun n h0 _ => ?_⟩
  · simp [csrWrite, csrRead, getFibre_update _ hl]
  · simp [csrWrite, csrRead, getFibre_update _ hl, fibreAt]
  · simp [csrWrite, csrRead]
  · rw [csrWrite_counter h0]
    simp (disch := omega) only [csrRead, if_neg, getGang_setCore, getCore_setCore, kget_kset_same]

/-- A CSR write keeps the fibres of the gang. -/
theorem csrWrite_live {key gid fid sel : Nat} {v : W64} {s : State} (k : Nat) (h : (kget? (getGang s gid).fibres k).isSome = true) :
    (kget? (getGang (csrWrite key gid fid sel v s) gid).fibres k).isSome = true := by
  unfold csrWrite
  dsimp only
  split_ifs <;> simp [h]

/-! ### Reads -/

/-- A value as the write of a register, or of a pair when it is wide. -/
def wideWr (wide : Bool) (n : Nat) (v : W64) : Wr :=
  { regs := if wide then pairWr n v false else [(n, v.truncate 32, false)], preds := [], flags := 0 }

/-- The value stands in the register, or in the pair. -/
def HoldsWide (wide : Bool) (d : Reg) (v : W64) (y : Fibre) : Prop :=
  if wide then readPair y d.toNat = (v, false) else readReg y d.toNat = (v.truncate 32, false)

theorem holdsWide_retireFibre (wide : Bool) (d : Reg) (v pc : W64) (x : Fibre) :
    HoldsWide wide d v (retireFibre (wideWr wide d.toNat v) none pc x) := by
  cases wide with
  | false => exact readReg_retire_reg ..
  | true => exact readPair_retire_pair ..

/-- A read retires with its value in every executing fibre. -/
def Reads (i : Instr) (h : Hdr) (d : Reg) (n : Nat) (wrote : State → Env → Nat → Fibre → Prop) : Prop :=
  ∀ s e, Issues false s e → Live e → GuardsClean h e → RegsOk e (executing h e) [(d.toNat, n)] →
    ∃ t, exec i s = .next t ∧ StandAt e (fun _ => nextPc e.pc) t ∧ OutsideKept s t ∧ OthersKept e s t ∧
      ∀ fid ∈ executing h e, wrote s e fid (fibreAt t e.gid fid)

/-- The retirement of an instruction that the control unit performs for the executing fibres. -/
def retireActing (e : Env) (act : List Nat) (wr : Nat → Wr) (s : State) : State :=
  retire e 5 (fun fid => if act.contains fid then wr fid else Wr.none) (fun _ => none) (fun _ => nextPc e.pc) s

theorem reads_of_retire {i : Instr} {h : Hdr} {d : Reg} {n : Nat} {wrote : State → Env → Nat → Fibre → Prop}
    {wr : State → Env → Nat → Wr}
    (hexec : ∀ s e, Issues false s e → GuardsClean h e → RegsOk e (executing h e) [(d.toNat, n)] →
      exec i s = .next (retireActing e (executing h e) (wr s e) s))
    (hw : ∀ s e fid x, wrote s e fid (retireFibre (wr s e fid) none (nextPc e.pc) x)) : Reads i h d n wrote := by
  intro s e hi hlive hg hr
  refine ⟨_, hexec s e hi hg hr, standAt_retire _ _ _ _ hi.env hlive, outsideKept_retire .., othersKept_retire .., fun fid hf => ?_⟩
  rw [retireActing, fibreAt_retire_live _ _ _ _ hi.env hlive (List.mem_of_mem_filter hf), if_pos (by simpa using hf)]
  exact hw ..

theorem reads_csrr (f : F6) : Reads (.csrr f) f.h f.d (csrN f.sel.toNat) (fun s e fid y =>
    HoldsWide (csrWide f.sel.toNat) f.d (csrRead s e.key e.gid fid f.sel.toNat) y) := by
  refine reads_of_retire (wr := fun s e fid => csrDst f.sel.toNat f.d.toNat (csrRead s e.key e.gid fid f.sel.toNat))
    (fun s e hi hg hr => ?_) fun s e fid x => holdsWide_retireFibre ..
  change execCsrr f s = _
  rw [execCsrr, issue_runs hi, regTraps_nil hr, guardPoison_nil hg]
  rfl

theorem reads_sread (f : F6) : Reads (.sread f) f.h f.d (if sregWide f.sel.toNat then 2 else 1) (fun s e fid y =>
    HoldsWide (sregWide f.sel.toNat) f.d (sregRead s e.gid fid f.sel.toNat) y) := by
  refine reads_of_retire (wr := fun s e fid => wideWr (sregWide f.sel.toNat) f.d.toNat (sregRead s e.gid fid f.sel.toNat))
    (fun s e hi hg hr => ?_) fun s e fid x => holdsWide_retireFibre ..
  change execSread f s = _
  rw [execSread, issue_runs hi, regTraps_nil hr, guardPoison_nil hg]
  rfl

theorem reads_perfr (f : F6) : Reads (.perfr f) f.h f.d 4 (fun s e _ y =>
    readQuad y f.d.toNat = (BitVec.ofNat 64 (now s) ++ kget (getCore s e.core).perfCount (f.sel.toNat % 8) 0, false)) := by
  refine reads_of_retire (wr := fun s e _ =>
      let v : Quad := BitVec.ofNat 64 (now s) ++ kget (getCore s e.core).perfCount (f.sel.toNat % 8) 0
      { regs := quadWr f.d.toNat v false, preds := [], flags := 0 })
    (fun s e hi hg hr => ?_) fun s e fid x => readQuad_retire_quad ..
  change execPerfr f s = _
  rw [execPerfr, issue_runs hi, regTraps_nil hr, guardPoison_nil hg]
  rfl

/-! ### NOP -/

theorem execNop_runs {f : F6} {s : State} {e : Env} (hi : Issues false s e) (hg : GuardsClean f.h e) :
    exec (.nop f) s = .next (retirePlain e 5 s) := by
  change execNop f s = _
  rw [execNop, issue_runs hi, guardPoison_nil hg, orTrap_nil]

/-- A plain retirement writes nothing in the wave's fibres but what closing windows hold. -/
theorem fibreKept_retirePlain {s : State} {e : Env} {fid : Nat} (u : Nat) (he : envOf s = some e) (hlive : Live e) (hf : fid ∈ e.fids) :
    FibreKept [] [] (getFibre e.g fid) (fibreAt (retirePlain e u s) e.gid fid) := by
  rw [retirePlain, fibreAt_retire_live _ _ _ _ he hlive hf]
  exact fibreKept_retireFibre (preds := []) .none none _ _

/-! ### CSR writes -/

theorem csrPoison_nil {h : Hdr} {e : Env} {act : List Nat} {src : Fibre → Bool} (hg : GuardsClean h e)
    (hs : ∀ fid ∈ act, src (getFibre e.g fid) = false) : csrPoison h e act src = [] := by
  rw [csrPoison, guardPoison_nil hg, List.nil_append, List.map_eq_nil_iff, List.filter_eq_nil_iff]
  intro fid hf
  simp [hs fid hf]

theorem execCsrw_runs {f : F6} {s : State} {e : Env} (hi : Issues false s e) (hg : GuardsClean f.h e) (ha : csrAccess f.sel.toNat = .rw)
    (hr : RegsOk e (executing f.h e) [(f.a.toNat, csrN f.sel.toNat)])
    (hp : ∀ fid ∈ executing f.h e, (csrSrc f.sel.toNat (getFibre e.g fid) f.a.toNat).2 = false) :
    exec (.csrw f) s = .next (retirePlain e 5 ((sortBy lane (executing f.h e)).foldl (fun s fid =>
      csrWrite e.key e.gid fid f.sel.toNat (csrSrc f.sel.toNat (getFibre e.g fid) f.a.toNat).1 s) s)) := by
  change execCsrw f s = _
  rw [execCsrw, issue_runs hi, regTraps_nil hr, csrPoison_nil hg hp, csrIllegal, if_pos ha]
  rfl

/-- CSRX for the executing fibres, by rising lane. -/
def csrxState (f : F6) (e : Env) (s : State) : State :=
  let r := csrxAll f e (sortBy lane (executing f.h e)) s
  retire e 5 (fun fid => match r.1.find? (fun x => x.1 == fid) with
    | some x => csrDst f.sel.toNat f.d.toNat x.2
    | none => Wr.none) (fun _ => none) (fun _ => nextPc e.pc) r.2

theorem execCsrx_runs {f : F6} {s : State} {e : Env} (hi : Issues false s e) (hg : GuardsClean f.h e) (ha : csrAccess f.sel.toNat = .rw)
    (hr : RegsOk e (executing f.h e) [(f.d.toNat, csrN f.sel.toNat), (f.a.toNat, csrN f.sel.toNat), (f.b.toNat, csrN f.sel.toNat)])
    (hp : ∀ fid ∈ executing f.h e, (csrSrc f.sel.toNat (getFibre e.g fid) f.a.toNat).2 = false ∧
      (csrSrc f.sel.toNat (getFibre e.g fid) f.b.toNat).2 = false) : exec (.csrx f) s = .next (csrxState f e s) := by
  change execCsrx f s = _
  rw [execCsrx, issue_runs hi, regTraps_nil hr, csrPoison_nil hg (fun fid hf => by simp [hp fid hf]), csrIllegal, if_pos ha]
  rfl

/-- The machine after one fibre's write of the merged value. -/
def csrxWritten (f : F6) (e : Env) (fid : Nat) (s : State) : State :=
  csrWrite e.key e.gid fid f.sel.toNat (csrMerge (csrRead s e.key e.gid fid f.sel.toNat)
    (csrSrc f.sel.toNat (getFibre e.g fid) f.a.toNat).1 (csrSrc f.sel.toNat (getFibre e.g fid) f.b.toNat).1) s

/-- The one executing fibre of a CSRX retires with its old value in D, after the write of the merged one. -/
theorem fibreAt_csrxState {f : F6} {s : State} {e : Env} {fid : Nat} (he : envOf s = some e) (hact : executing f.h e = [fid])
    (hl : (kget? e.g.fibres fid).isSome = true) : fibreAt (csrxState f e s) e.gid fid =
      retireFibre (csrDst f.sel.toNat f.d.toNat (csrRead s e.key e.gid fid f.sel.toNat)) none (nextPc e.pc)
        (fibreAt (csrxWritten f e fid s) e.gid fid) := by
  have hf : fid ∈ e.fids := List.mem_of_mem_filter (hact ▸ List.mem_singleton_self fid)
  have hlive : (kget? (getGang (csrxWritten f e fid s) e.gid).fibres fid).isSome = true :=
    csrWrite_live fid ((gang_of_envOf he).symm ▸ hl)
  rw [csrxState, hact]
  simp only [sortBy, insertBy, csrxAll]
  exact (fibreAt_retire _ _ _ _ hf hlive).trans (by simp [csrxWritten])

/-! ### BRK -/

/-- BRK of a claimed core halts it (R374). -/
def brkHalted (e : Env) (s : State) : State :=
  haltCore e.core (setSlot (closedState e s) e.key { getSlot s e.key with atBrk := true })

theorem execBrk_halts {f : F6} {s : State} {e : Env} (hi : Issues true s e) (hp : Plain f.h (closedEnv e))
    (hact : executing f.h (closedEnv e) ≠ []) (hc : (getCore s e.core).claimed = true) :
    exec (.brk f) s = .next (brkHalted e s) := by
  have htxn : (closedEnv e).sl.txn = none := hp.txn
  have hclaim : (getCore (closedState e s) (closedEnv e).core).claimed = true := hc
  change execBrk f s = _
  rw [execBrk, issue_waits hi, guardPoison_nil hp.clean, orTrap_nil, if_neg (by simpa using hact), hclaim, htxn]
  rfl

/-! ### The resume of a halted core -/

/-- What the resume of a core does for one wave slot. -/
def resumeSlot (core : Nat) (s : State) (w : Nat) : State :=
  let sl := getSlot s (slotKey core w)
  if !sl.atBrk then s
  else
    let s1 := setSlot s (slotKey core w) { sl with atBrk := false }
    match envOf { s1 with cur := some (core, w) } with
    | some e =>
      let s2 := retirePlain e 5 s1
      if pairBit s1 e.g.ctx e.pc then perfEvent core 3 1 s2 else s2
    | none => s1

theorem resumeCore_eq (core : Nat) (s : State) : resumeCore core s =
    (List.range 32).foldl (resumeSlot core) (setCore s core { getCore s core with halted := false }) := rfl

theorem resumeSlot_idle {core w : Nat} {s : State} (h : (getSlot s (slotKey core w)).atBrk = false) : resumeSlot core s w = s :=
  if_pos (by rw [h]; rfl)

theorem resumeSlots_idle {core : Nat} {s : State} {ws : List Nat} (h : ∀ w ∈ ws, (getSlot s (slotKey core w)).atBrk = false) :
    ws.foldl (resumeSlot core) s = s := by
  induction ws with
  | nil => rfl
  | cons w ws ih =>
    rw [List.foldl_cons, resumeSlot_idle (h w List.mem_cons_self)]
    exact ih fun v hv => h v (List.mem_cons_of_mem _ hv)

/-- What an instruction sees of the wave of a slot. -/
def envFrom (core w : Nat) (sl : Slot) (g : Gang) : Option Env :=
  match sl.running with
  | [] => none
  | fid :: fids => some { core := core, key := slotKey core w, sl := sl, gid := sl.gang, g := g, fids := fid :: fids,
                          pc := match sl.handler with | some h => h.pc | none => (getFibre g fid).pc }

theorem envOf_eq_envFrom (core w : Nat) (s : State) : envOf { s with cur := some (core, w) } =
    envFrom core w (getSlot s (slotKey core w)) (getGang s (getSlot s (slotKey core w)).gang) := rfl

theorem place_of_envFrom {core w : Nat} {sl : Slot} {g : Gang} {e : Env} (h : envFrom core w sl g = some e) :
    e.core = core ∧ e.key = slotKey core w := by
  unfold envFrom at h
  split at h
  · cases h
  · cases h; exact ⟨rfl, rfl⟩

/-- The wave whose BRK retires. -/
def brkOver (e : Env) : Env := { e with sl := { e.sl with atBrk := false } }

/-- The machine in which it retires. -/
def brkCleared (core w : Nat) (s : State) : State :=
  setSlot s (slotKey core w) { getSlot s (slotKey core w) with atBrk := false }

theorem envFrom_brkOver (core w : Nat) (sl : Slot) (g : Gang) :
    envFrom core w { sl with atBrk := false } g = (envFrom core w sl g).map brkOver := by
  have hr : Slot.running { sl with atBrk := false } = sl.running := rfl
  unfold envFrom
  rw [hr]
  cases sl.running <;> rfl

theorem envOf_brkCleared {s : State} {e : Env} {core w : Nat} (h : envOf { s with cur := some (core, w) } = some e) :
    envOf { brkCleared core w s with cur := some (core, w) } = some (brkOver e) := by
  rw [envOf_eq_envFrom] at h ⊢
  rw [brkCleared, getSlot_setSlot]
  exact (envFrom_brkOver ..).trans (congrArg (Option.map brkOver) h)

/-- The BRK of the wave of a slot retires; the core may count its PAIR bit. -/
theorem resumeSlot_retires {s : State} {e : Env} {core w : Nat} (hb : (getSlot s (slotKey core w)).atBrk = true)
    (h : envOf { s with cur := some (core, w) } = some e) :
    resumeSlot core s w = retirePlain (brkOver e) 5 (brkCleared core w s) ∨
    resumeSlot core s w = perfEvent core 3 1 (retirePlain (brkOver e) 5 (brkCleared core w s)) := by
  have henv : envOf { setSlot s (slotKey core w) { getSlot s (slotKey core w) with atBrk := false } with cur := some (core, w) } =
    some (brkOver e) := envOf_brkCleared h
  unfold resumeSlot
  rw [if_neg (by simp [hb])]
  dsimp only
  rw [henv]
  dsimp only
  split
  · exact .inr rfl
  · exact .inl rfl

/-- What holds once the BRK at which a wave halted has retired on its core. -/
structure BrkRetired (e : Env) (s t : State) : Prop where
  running : (getCore t e.core).halted = false
  cleared : (getSlot t e.key).atBrk = false
  slots : ∀ k, k ≠ e.key → getSlot t k = getSlot s k
  stand : StandAt e (fun _ => nextPc e.pc) t
  memory : MemoryKept s t

theorem brkRetired_perfEvent {e : Env} {s t : State} {core : Nat} (ev n : Nat) (hc : e.core = core) (h : BrkRetired e s t) :
    BrkRetired e s (perfEvent core ev n t) where
  running := by
    rw [← hc, perfEvent, getCore_setCore]
    exact h.running
  cleared := h.cleared
  slots := h.slots
  stand := h.stand
  memory := h.memory

theorem brkRetired_retirePlain {e : Env} {s : State} {core w : Nat} (hrun : (getCore s core).halted = false)
    (he : envOf { s with cur := some (core, w) } = some e) (hlive : Live e) :
    BrkRetired e s (retirePlain (brkOver e) 5 (brkCleared core w s)) := by
  obtain ⟨hcore, hkey⟩ := place_of_envFrom he
  have hgang : getGang (brkCleared core w s) (brkOver e).gid = e.g :=
    gang_of_envOf (s := { brkCleared core w s with cur := some (core, w) }) (envOf_brkCleared he)
  constructor
  case running =>
    change (getCore (retirePlain (brkOver e) 5 (brkCleared core w s)) (brkOver e).core).halted = false
    rw [getCore_retirePlain, issuedCore_halted, ← hrun, ← hcore]
    rfl
  case cleared =>
    change (getSlot (retirePlain (brkOver e) 5 (brkCleared core w s)) (brkOver e).key).atBrk = false
    rw [getSlot_retirePlain, issuedSlot_atBrk, brkCleared, ← hkey]
    exact congrArg (fun sl : Slot => sl.atBrk) (getSlot_setSlot ..)
  case slots =>
    intro k hk
    rw [retirePlain, getSlot_retire_ne (brkOver e) _ _ _ _ _ hk, getSlot, brkCleared, setSlot_slots, kget_kset_ne _ _ _ _ _ (hkey ▸ hk)]
    rfl
  case stand =>
    intro fid hf
    exact congrArg Fibre.pc (fibreAt_retire (e := brkOver e) 5 (fun _ => Wr.none) (fun _ => none) (fun _ => nextPc e.pc) hf
      (hgang.symm ▸ hlive fid hf))
  case memory => exact ⟨rfl, rfl, rfl⟩

/-- The only wave of a core that halted at a BRK is the one whose BRK retires when the core is resumed. -/
theorem brkRetired_resumeCore {s : State} {e : Env} {core w : Nat} (hw : w < 32)
    (hb : ∀ v < 32, (getSlot s (slotKey core v)).atBrk = true ↔ v = w) (he : envOf { s with cur := some (core, w) } = some e)
    (hlive : Live e) : BrkRetired e (setCore s core { getCore s core with halted := false }) (resumeCore core s) := by
  let s0 := setCore s core { getCore s core with halted := false }
  have hidle : ∀ v < 32, v ≠ w → (getSlot s0 (slotKey core v)).atBrk = false := fun v hv hne =>
    Bool.eq_false_iff.mpr fun h => hne ((hb v hv).mp h)
  obtain ⟨before, after, hrange⟩ := List.append_of_mem (List.mem_range.mpr hw)
  have hnodup : (before ++ w :: after).Nodup := hrange ▸ List.nodup_range
  have hlt : ∀ v ∈ before ++ w :: after, v < 32 := fun v hv => List.mem_range.mp (hrange ▸ hv)
  obtain ⟨-, hafter, hapart⟩ := List.nodup_append.mp hnodup
  have hbefore : ∀ v ∈ before, v ≠ w := fun v hv => hapart v hv w List.mem_cons_self
  have hretired : BrkRetired e s0 (resumeSlot core s0 w) := by
    have hplain := brkRetired_retirePlain (s := s0) (by rw [getCore_setCore]) he hlive
    rcases resumeSlot_retires (s := s0) ((hb w hw).mpr rfl) he with h | h <;> rw [h]
    · exact hplain
    · exact brkRetired_perfEvent 3 1 (place_of_envFrom he).1 hplain
  have hkey : ∀ v, v ≠ w → slotKey core v ≠ e.key := fun v hv => by
    rw [(place_of_envFrom he).2]
    simpa [slotKey] using hv
  rw [resumeCore_eq, hrange, List.foldl_append, List.foldl_cons,
    resumeSlots_idle fun v hv => hidle v (hlt v (List.mem_append_left _ hv)) (hbefore v hv), resumeSlots_idle fun v hv => ?_]
  · exact hretired
  · have hne : v ≠ w := fun h => (List.nodup_cons.mp hafter).1 (h ▸ hv)
    rw [hretired.slots _ (hkey v hne)]
    exact hidle v (hlt v (List.mem_append_right _ (List.mem_cons_of_mem _ hv))) hne

/-- Settles O13: each form runs its body, reads leave their value through the retirement, and the resume retires the one halted BRK. -/
theorem systemInstructionsComplete : Obligations.SystemInstructionsComplete := by
  unfold Obligations.SystemInstructionsComplete
  intro reads holds
  refine ⟨reads_csrr, reads_sread, reads_perfr, ?nop, fun f s e hi hg ha hr hp => execCsrw_runs hi hg ha hr hp, ?csrx, ?brk, ?resume⟩
  case nop =>
    intro f s e hi hlive hg
    exact ⟨_, execNop_runs hi hg, standAt_retire _ _ _ _ hi.env hlive, outsideKept_retire .., othersKept_retire ..,
      fun fid hf => fibreKept_retirePlain 5 hi.env hlive hf⟩
  case csrx =>
    intro f s e hi hg ha hr hp
    refine ⟨_, execCsrx_runs hi hg ha hr hp, fun fid hact hl => ?_⟩
    have hx := fibreAt_csrxState hi.env hact hl
    refine ⟨?_, fun h2 => ?_⟩
    · rw [hx]
      exact holdsWide_retireFibre ..
    · have hread : csrRead (csrxState f e s) e.key e.gid fid 2 = (fibreAt (csrxState f e s) e.gid fid).waitlimit := rfl
      rw [hread, hx, retireFibre_waitlimit, csrxWritten, h2]
      exact (csrWriteThenRead s e.key e.gid fid _ ((gang_of_envOf hi.env).symm ▸ hl)).1
  case brk =>
    intro f s e hi hp hact hc
    refine ⟨_, execBrk_halts hi hp hact hc, ?_, ?_, rfl, rfl, rfl, rfl⟩
    · rw [brkHalted, haltCore, getCore_setCore]
    · rw [brkHalted, haltCore, getSlot_setCore, getSlot_setSlot]
  case resume =>
    intro s core w e hw hb he _ hlive
    obtain ⟨hrun, hover, -, hstand, hmem⟩ := brkRetired_resumeCore hw hb he hlive
    rw [(place_of_envFrom he).1] at hrun
    exact ⟨hrun, hover, hstand, hmem.1, hmem.2.1, hmem.2.2⟩

end Sys2Proof.Machine
end

section
/-! PROOF. Splitting a wave (R36, R37, R297 to R299): what a fetch of a target, a batch put into the table and a new join set change, and
the four transfers (O10). -/
namespace Sys2Proof.Machine

/-! ### What a run of changes keeps -/

/-- A part of the machine that each of a run of changes keeps is kept by the run. -/
theorem foldl_part {σ α β : Type} {f : σ → α → σ} (p : σ → β) (h : ∀ s a, p (f s a) = p s) (l : List α) (s : σ) :
    p (l.foldl f s) = p s :=
  List.foldlRecOn (motive := fun t => p t = p s) l f rfl fun t ht a _ => (h t a).trans ht

/-- A fetch sets an A bit of memory and notes the leaf, no more (R83, R417). -/
theorem touchFetchAt_part {α : Type} (p : State → α) (hp : ∀ s m l, p { s with mem := m, leaves := l } = p s) (ctx : Nat) (pc : W64)
    (s : State) : p (touchFetchAt ctx pc s) = p s := by
  unfold touchFetchAt setAccessed
  split
  · rfl
  · split
    · rfl
    · split
      · split
        · rfl
        · exact hp ..
      · rfl

theorem targetsSeen_part {α : Type} (p : State → α) (hp : ∀ s m l, p { s with mem := m, leaves := l } = p s) (e : Env) (act : List Nat)
    (dest : Nat → W64) (s : State) : p (targetsSeen e act dest s) = p s :=
  foldl_part p (fun s fid => touchFetchAt_part p hp e.g.ctx (dest fid) s) act s

/-- Fibres put into the table of a core change that table only. -/
theorem toTable_part {α : Type} (p : State → α) (hp : ∀ s c v, p (setCore s c v) = p s) (core gid : Nat) (fids : List Nat) (w : Wait)
    (s : State) : p (toTable core gid fids w s) = p s := by
  unfold toTable
  split
  · rfl
  · exact hp ..

/-! ### Groups by PC (R36) -/

section
variable {pc : Nat → W64} {l grp : List Nat}

/-- A group is not empty, its fibres are of the list, and they have one PC. -/
theorem groupByPc_group (h : grp ∈ groupByPc pc l) : grp ≠ [] ∧ (∀ x ∈ grp, x ∈ l) ∧ ∀ x ∈ grp, ∀ y ∈ grp, pc x = pc y := by
  induction l generalizing grp with
  | nil => cases h
  | cons f fs ih =>
    simp only [groupByPc] at h
    split at h
    next g hg =>
      obtain ⟨hne, hsub, hsame⟩ := ih (List.mem_of_find?_eq_some hg)
      obtain ⟨a, as, rfl⟩ := List.exists_cons_of_ne_nil hne
      have hpc : pc a = pc f := by simpa using List.find?_some hg
      rcases List.mem_cons.mp h with rfl | h
      · have hall : ∀ x ∈ f :: a :: as, pc x = pc f := fun x hx => by
          rcases List.mem_cons.mp hx with rfl | hx
          · rfl
          · rw [hsame x hx a List.mem_cons_self, hpc]
        exact ⟨by simp, fun x hx => by
          rcases List.mem_cons.mp hx with rfl | hx
          · exact List.mem_cons_self
          · exact List.mem_cons_of_mem _ (hsub x hx), fun x hx y hy => (hall x hx).trans (hall y hy).symm⟩
      · obtain ⟨hne, hsub, hsame⟩ := ih (List.mem_of_mem_filter h)
        exact ⟨hne, fun x hx => List.mem_cons_of_mem _ (hsub x hx), hsame⟩
    next =>
      rcases List.mem_cons.mp h with rfl | h
      · simp
      · obtain ⟨hne, hsub, hsame⟩ := ih h
        exact ⟨hne, fun x hx => List.mem_cons_of_mem _ (hsub x hx), hsame⟩

end

/-! ### The split of a wave -/

/-- The fibres have different PCs (R36). -/
theorem diverged_iff {g : Gang} {fids : List Nat} :
    diverged g fids = true ↔ ∃ x ∈ fids, ∃ y ∈ fids, (getFibre g x).pc ≠ (getFibre g y).pc := by
  cases fids with
  | nil => simp [diverged]
  | cons a as =>
    simp only [diverged, List.any_eq_true, bne_iff_ne]
    constructor
    · rintro ⟨y, hy, hne⟩
      exact ⟨y, List.mem_cons_of_mem _ hy, a, List.mem_cons_self, hne⟩
    · rintro ⟨x, hx, y, hy, hne⟩
      by_cases hxa : (getFibre g x).pc = (getFibre g a).pc
      · exact ⟨y, (List.mem_cons.mp hy).resolve_left (fun h => hne (h ▸ hxa)), fun h => hne (hxa.trans h.symm)⟩
      · exact ⟨x, (List.mem_cons.mp hx).resolve_left (fun h => hxa (h ▸ rfl)), hxa⟩

/-- A split moves fibres between the slot and the table, and keeps every part that does not depend on either. -/
theorem regroup_part {α : Type} (p : State → α) (hc : ∀ s c v, p (setCore s c v) = p s) (hs : ∀ s k v, p (setSlot s k v) = p s)
    (core key gid : Nat) (s : State) : p (regroup core key gid s) = p s := by
  unfold regroup
  dsimp only
  split
  · rfl
  · exact (foldl_part p (fun s grp => toTable_part p hc core gid grp .ready s) _ _).trans (hs ..)

/-- The fibres that keep the slot are of the wave and have one PC. -/
theorem regroup_slot (core key gid : Nat) (s : State) : ∀ x ∈ (getSlot (regroup core key gid s) key).fids,
    x ∈ (getSlot s key).fids ∧ ∀ y ∈ (getSlot (regroup core key gid s) key).fids, (fibreAt s gid x).pc = (fibreAt s gid y).pc := by
  unfold regroup
  dsimp only
  split
  next h =>
    have hnil : (getSlot s key).fids = [] := by
      cases hf : (getSlot s key).fids with
      | nil => rfl
      | cons a as =>
        rw [hf] at h
        simp only [groupByPc] at h
        split at h <;> cases h
    simp [hnil]
  next keep rest h =>
    have hslot : ∀ s, getSlot (rest.foldl (fun s grp => toTable core gid grp .ready s) s) key = getSlot s key := fun s =>
      foldl_part (getSlot · key) (fun s grp => toTable_part (getSlot · key) (fun _ _ _ => rfl) core gid grp .ready s) rest s
    rw [hslot, getSlot_setSlot]
    obtain ⟨-, hsub, hsame⟩ := groupByPc_group (pc := fun f => (getFibre (getGang s gid) f).pc) (h ▸ List.mem_cons_self)
    exact fun x hx => ⟨hsub x hx, hsame x hx⟩

/-- The fibre of a gang in a new join set. -/
theorem fibreAt_openSet {gid fid : Nat} {fids : List Nat} {s : State} (hf : fid ∈ fids)
    (hl : (kget? (getGang s gid).fibres fid).isSome = true) :
    fibreAt (openSet gid fids s) gid fid = { fibreAt s gid fid with joins := s.ids :: (fibreAt s gid fid).joins } := by
  rw [openSet, fibreAt, getGang_setGang]
  have h := getFibre_mapFibres (getGang s gid) (fun fid f => if fids.contains fid then { f with joins := s.ids :: f.joins } else f) fid hl
  rwa [if_pos (by simpa using hf)] at h

/-- A wave outside a transaction has all the fibres of its slot. -/
theorem fids_of_envOf {s : State} {e : Env} (h : envOf s = some e) (ht : e.sl.txn = none) : e.sl.fids = e.fids := by
  unfold envOf at h
  split at h
  · cases h
  · dsimp only at h
    split at h
    · cases h
    next hr =>
      cases h
      change (getSlot s _).txn = none at ht
      simp only [Slot.running, ht] at hr
      exact hr

theorem contains_executing {h : Hdr} {e : Env} {fid : Nat} (hf : fid ∈ e.fids) :
    (executing h e).contains fid = (guard h (getFibre e.g fid)).1 := by
  rw [Bool.eq_iff_iff, List.contains_iff_mem, executing, List.mem_filter]
  exact and_iff_right hf

/-! ### A transfer -/

section
variable {s s' : State} {e : Env} {act : List Nat} {wr : Wr} {dest : Nat → W64}

/-- Where each fibre of the wave goes on. -/
def transferPc (e : Env) (act : List Nat) (dest : Nat → W64) (fid : Nat) : W64 := if act.contains fid then dest fid else nextPc e.pc

/-- The retirement that a transfer begins with. -/
def transferRetired (e : Env) (act : List Nat) (wr : Wr) (dest : Nat → W64) (s : State) : State :=
  retire e 5 (fun fid => if act.contains fid then wr else Wr.none) (fun _ => none) (transferPc e act dest) s

theorem transfer_eq : transfer e act wr dest s = .next (afterTransfer e (transferRetired e act wr dest s)) := rfl

theorem fibreAt_transferRetired (hg : getGang s e.gid = e.g) (hlive : Live e) {fid : Nat} (hf : fid ∈ e.fids) :
    fibreAt (transferRetired e act wr dest s) e.gid fid =
      retireFibre (if act.contains fid then wr else Wr.none) none (transferPc e act dest fid) (getFibre e.g fid) := by
  rw [transferRetired, fibreAt_retire _ _ _ _ hf (hg ▸ hlive fid hf), fibreAt, hg]

theorem diverged_transferRetired (hg : getGang s e.gid = e.g) (hlive : Live e) :
    diverged (getGang (transferRetired e act wr dest s) e.gid) e.fids = true ↔
      ∃ x ∈ e.fids, ∃ y ∈ e.fids, transferPc e act dest x ≠ transferPc e act dest y := by
  have hpc : ∀ x ∈ e.fids, (getFibre (getGang (transferRetired e act wr dest s) e.gid) x).pc = transferPc e act dest x := fun x hx =>
    congrArg (fun f : Fibre => f.pc) (fibreAt_transferRetired hg hlive hx)
  rw [diverged_iff]
  constructor <;> rintro ⟨x, hx, y, hy, hne⟩ <;> refine ⟨x, hx, y, hy, ?_⟩
  · rwa [hpc x hx, hpc y hy] at hne
  · rwa [hpc x hx, hpc y hy]

/-- What a transfer outside a transaction leaves (R36): every fibre at its PC with its write; a wave that parts in one new join set. -/
structure Lands (e : Env) (next : Nat → W64) (wr : Nat → Wr) (s t : State) : Prop where
  stand : StandAt e next t
  outside : OutsideKept s t
  fibre : ∀ fid ∈ e.fids, ∃ js, fibreAt t e.gid fid = { retireFibre (wr fid) none (next fid) (getFibre e.g fid) with joins := js }
  parts : (∃ x ∈ e.fids, ∃ y ∈ e.fids, next x ≠ next y) →
    (∃ k, kget? (getGang t e.gid).joinSets k = some { members := e.fids, waiting := [] } ∧
      ∀ fid ∈ e.fids, (fibreAt t e.gid fid).joins = k :: (getFibre e.g fid).joins) ∧
    ∀ x ∈ (getSlot t e.key).fids, x ∈ e.fids ∧ ∀ y ∈ (getSlot t e.key).fids, next x = next y
  together : (∀ x ∈ e.fids, ∀ y ∈ e.fids, next x = next y) → (getGang t e.gid).joinSets = e.g.joinSets ∧
    ∀ fid ∈ e.fids, (fibreAt t e.gid fid).joins = (getFibre e.g fid).joins

theorem lands_together (hg : getGang s e.gid = e.g) (hlive : Live e)
    (h : ¬ ∃ x ∈ e.fids, ∃ y ∈ e.fids, transferPc e act dest x ≠ transferPc e act dest y) :
    Lands e (transferPc e act dest) (fun fid => if act.contains fid then wr else Wr.none) s (transferRetired e act wr dest s) where
  stand fid hf := by rw [fibreAt_transferRetired hg hlive hf, retireFibre_pc]
  outside := outsideKept_retire ..
  fibre fid hf := ⟨_, fibreAt_transferRetired hg hlive hf⟩
  parts hp := absurd hp h
  together _ := by
    refine ⟨?_, fun fid hf => by rw [fibreAt_transferRetired hg hlive hf, retireFibre_joins]⟩
    rw [transferRetired, getGang_retire, hg]
    rfl

theorem lands_parts (hg : getGang s e.gid = e.g) (hs : (getSlot s e.key).fids = e.fids) (hlive : Live e)
    (h : ∃ x ∈ e.fids, ∃ y ∈ e.fids, transferPc e act dest x ≠ transferPc e act dest y) :
    Lands e (transferPc e act dest) (fun fid => if act.contains fid then wr else Wr.none) s
      (regroup e.core e.key e.gid (openSet e.gid e.fids (transferRetired e act wr dest s))) := by
  let r := transferRetired e act wr dest s
  have hgang : ∀ u, getGang (regroup e.core e.key e.gid u) e.gid = getGang u e.gid := fun u =>
    regroup_part (getGang · e.gid) (fun _ _ _ => rfl) (fun _ _ _ => rfl) e.core e.key e.gid u
  have hfib : ∀ fid ∈ e.fids, fibreAt (regroup e.core e.key e.gid (openSet e.gid e.fids r)) e.gid fid =
      { retireFibre (if act.contains fid then wr else Wr.none) none (transferPc e act dest fid) (getFibre e.g fid) with
        joins := r.ids :: (getFibre e.g fid).joins } := fun fid hf => by
    have hl : (kget? (getGang r e.gid).fibres fid).isSome = true := by
      rw [show getGang r e.gid = _ from getGang_retire .., kget?_mapFibres, Option.isSome_map, hg]
      exact hlive fid hf
    rw [fibreAt, hgang]
    exact (fibreAt_openSet hf hl).trans (by rw [fibreAt_transferRetired hg hlive hf, retireFibre_joins])
  have hpc : ∀ x ∈ e.fids, (fibreAt (openSet e.gid e.fids r) e.gid x).pc = transferPc e act dest x := fun x hx => by
    have h := hfib x hx
    rw [fibreAt, hgang] at h
    rw [fibreAt, h]
    rfl
  have hslot : (getSlot (openSet e.gid e.fids r) e.key).fids = e.fids := by
    have h : getSlot r e.key = issuedSlot s e := getSlot_retire ..
    change (getSlot r e.key).fids = e.fids
    rw [h, issuedSlot_fids, hs]
  constructor
  case stand => exact fun fid hf => by rw [hfib fid hf]; rfl
  case outside =>
    exact regroup_part (fun u : State => { u with gangs := s.gangs, cores := s.cores, slots := s.slots, ids := s.ids })
      (fun _ _ _ => rfl) (fun _ _ _ => rfl) e.core e.key e.gid _
  case fibre => exact fun fid hf => ⟨_, hfib fid hf⟩
  case parts =>
    refine fun _ => ⟨⟨r.ids, ?_, fun fid hf => by rw [hfib fid hf]⟩,
      fun x hx => ⟨hslot ▸ (regroup_slot _ _ _ _ x hx).1, fun y hy => ?_⟩⟩
    · rw [hgang, openSet, getGang_setGang]
      exact kget?_kset_same ..
    · obtain ⟨hxf, hsame⟩ := regroup_slot _ _ _ _ x hx
      obtain ⟨hyf, -⟩ := regroup_slot _ _ _ _ y hy
      rw [← hpc x (hslot ▸ hxf), ← hpc y (hslot ▸ hyf)]
      exact hsame y hy
  case together => exact fun ht => absurd h (by simpa using ht)

end

/-- A transfer outside a transaction lands (R36, R299). -/
theorem lands_transfer {s : State} {e : Env} {act : List Nat} {wr : Wr} {dest : Nat → W64} (hg : getGang s e.gid = e.g)
    (hs : (getSlot s e.key).fids = e.fids) (ht : e.sl.txn = none) (hlive : Live e) :
    Lands e (transferPc e act dest) (fun fid => if act.contains fid then wr else Wr.none) s
      (afterTransfer e (transferRetired e act wr dest s)) := by
  unfold afterTransfer
  by_cases h : ∃ x ∈ e.fids, ∃ y ∈ e.fids, transferPc e act dest x ≠ transferPc e act dest y
  · rw [if_pos ((diverged_transferRetired hg hlive).mpr h)]
    dsimp only
    rw [ht]
    exact lands_parts hg hs hlive h
  · rw [if_neg (fun hd => h ((diverged_transferRetired hg hlive).mp hd))]
    exact lands_together hg hlive h

/-! ### The four transfers (R297, R298) -/

/-- A transfer can go there: a marked slot of a line that can be fetched (R235). -/
def GoodTarget (s : State) (e : Env) (v : W64) : Prop := targetTrap s e.g.ctx v = none ∧ targetPage s e.g.ctx v = none

theorem needTargets_good {e : Env} {act : List Nat} {t : Nat → W64} {s : State} {k : State → Out}
    (h : ∀ fid ∈ act, targetPage s e.g.ctx (t fid) = none) : needTargets e act t s k = k (targetsSeen e act t s) := by
  have hnone : act.find? (fun fid => (targetPage s e.g.ctx (t fid)).isSome) = none :=
    List.find?_eq_none.mpr fun fid hf => by simp [h fid hf]
  rw [needTargets, hnone]
  rfl

/-- A direct transfer to a good target. -/
theorem directTransfer_runs {f : F3} {uses : List RegUse} {wr : Env → Wr} {sc : State → Env → Handler → Out} {s : State} {e : Env}
    (hi : Issues false s e) (hg : GuardsClean f.h e) (hr : RegsOk e (executing f.h e) uses)
    (ht : ∀ fid ∈ executing f.h e, GoodTarget s e (target3 e.pc f)) : directTransfer f uses wr sc s =
      transfer e (executing f.h e) (wr e) (fun _ => target3 e.pc f) (targetsSeen e (executing f.h e) (fun _ => target3 e.pc f) s) := by
  rw [directTransfer, issue_runs hi]
  dsimp only
  have htrap : (match targetTrap s e.g.ctx (target3 e.pc f) with
      | some (c, v) => (executing f.h e).map (fun fid => (fid, c, v))
      | none => []) = [] := by
    cases hact : executing f.h e with
    | nil => split <;> rfl
    | cons fid fids => rw [(ht fid (hact ▸ List.mem_cons_self)).1]
  rw [regTraps_nil hr, guardPoison_nil hg, List.nil_append, List.nil_append]
  refine (congrArg (orTrap e · _ _) htrap).trans ?_
  exact needTargets_good fun fid hf => (ht fid hf).2

/-- A transfer to the PCs in the pair A, all of them good targets. -/
theorem pairTransfer_runs {f : F3} {s : State} {e : Env} (hi : Issues false s e) (hg : GuardsClean f.h e)
    (hr : RegsOk e (executing f.h e) [(f.a.toNat, 2)])
    (ht : ∀ fid ∈ executing f.h e, (readPair (getFibre e.g fid) f.a.toNat).2 = false ∧
      GoodTarget s e (readPair (getFibre e.g fid) f.a.toNat).1) : pairTransfer f s =
      transfer e (executing f.h e) Wr.none (fun fid => (readPair (getFibre e.g fid) f.a.toNat).1)
        (targetsSeen e (executing f.h e) (fun fid => (readPair (getFibre e.g fid) f.a.toNat).1) s) := by
  rw [pairTransfer, issue_runs hi]
  dsimp only
  rw [regTraps_nil hr, guardPoison_nil hg, List.nil_append, List.nil_append, List.filterMap_eq_nil_iff.mpr fun fid hf => ?_, orTrap_nil]
  · exact needTargets_good fun fid hf => (ht fid hf).2.2
  · obtain ⟨hp, htrap, -⟩ := ht fid hf
    simp [hp, htrap]

/-- The wave's own parts after the fetch of the targets. -/
theorem getGang_targetsSeen (e : Env) (act : List Nat) (dest : Nat → W64) (s : State) (g : Nat) :
    getGang (targetsSeen e act dest s) g = getGang s g :=
  targetsSeen_part (getGang · g) (fun _ _ _ => rfl) e act dest s

theorem getSlot_targetsSeen (e : Env) (act : List Nat) (dest : Nat → W64) (s : State) (k : Nat) :
    getSlot (targetsSeen e act dest s) k = getSlot s k :=
  targetsSeen_part (getSlot · k) (fun _ _ _ => rfl) e act dest s

/-- The transfer of a wave outside a transaction, seen from before the fetch of its targets. -/
theorem lands_of_transfer {s : State} {e : Env} {h : Hdr} {wr : Wr} {dest : Nat → W64} (he : envOf s = some e) (ht : e.sl.txn = none)
    (hlive : Live e) : Lands e (transferPc e (executing h e) dest) (fun fid => if (executing h e).contains fid then wr else Wr.none)
      (targetsSeen e (executing h e) dest s)
      (afterTransfer e (transferRetired e (executing h e) wr dest (targetsSeen e (executing h e) dest s))) :=
  lands_transfer (by rw [getGang_targetsSeen, gang_of_envOf he])
    (by rw [getSlot_targetsSeen, (slot_of_envOf he).1, fids_of_envOf he ht]) ht hlive

/-- A transfer completes as O10 says of each of the four. -/
def TransferCompletes (i : Instr) (h : Hdr) (dest : Nat → W64) (wrote : Fibre → Prop) (s : State) (e : Env) : Prop :=
  ∃ t, exec i s = .next t ∧ (e.sl.txn = none →
    StandAt e (fun fid => if (guard h (getFibre e.g fid)).1 then dest fid else nextPc e.pc) t ∧
    OutsideKept (targetsSeen e (executing h e) dest s) t ∧ (∀ fid ∈ executing h e, wrote (fibreAt t e.gid fid)) ∧
    let next := fun fid => if (guard h (getFibre e.g fid)).1 then dest fid else nextPc e.pc
    ((∃ x ∈ e.fids, ∃ y ∈ e.fids, next x ≠ next y) →
      (∃ k, kget? (getGang t e.gid).joinSets k = some { members := e.fids, waiting := [] } ∧
        ∀ fid ∈ e.fids, (fibreAt t e.gid fid).joins = k :: (getFibre e.g fid).joins) ∧
      ∀ x ∈ (getSlot t e.key).fids, ∀ y ∈ (getSlot t e.key).fids, next x = next y) ∧
    ((∀ x ∈ e.fids, ∀ y ∈ e.fids, next x = next y) → (getGang t e.gid).joinSets = e.g.joinSets ∧
      ∀ fid ∈ e.fids, (fibreAt t e.gid fid).joins = (getFibre e.g fid).joins))

theorem transfer_completes {i : Instr} {s : State} {e : Env} {h : Hdr} {wr : Wr} {dest : Nat → W64} {wrote : Fibre → Prop}
    (hi : Issues false s e) (hlive : Live e)
    (hexec : exec i s = transfer e (executing h e) wr dest (targetsSeen e (executing h e) dest s))
    (hw : ∀ pc x js, wrote { retireFibre wr none pc x with joins := js }) : TransferCompletes i h dest wrote s e := by
  let next := fun fid => if (guard h (getFibre e.g fid)).1 then dest fid else nextPc e.pc
  refine ⟨_, hexec.trans transfer_eq, fun ht => ?_⟩
  have hnext : ∀ fid ∈ e.fids, transferPc e (executing h e) dest fid = next fid := fun fid hf => by
    rw [transferPc, contains_executing hf]
  obtain ⟨stand, outside, fibre, parts, together⟩ := lands_of_transfer (h := h) (wr := wr) (dest := dest) hi.env ht hlive
  refine ⟨fun fid hf => (stand fid hf).trans (hnext fid hf), outside, fun fid hf => ?_, ?_, fun hsame => ?_⟩
  · obtain ⟨js, hx⟩ := fibre fid (List.mem_of_mem_filter hf)
    rw [hx, if_pos (by simpa using hf)]
    exact hw ..
  · rintro ⟨x, hx, y, hy, hne⟩
    obtain ⟨hset, hslot⟩ := parts ⟨x, hx, y, hy, by rwa [hnext x hx, hnext y hy]⟩
    exact ⟨hset, fun x hx y hy =>
      ((hnext x (hslot x hx).1).symm.trans ((hslot x hx).2 y hy)).trans (hnext y (hslot y hy).1)⟩
  · exact together fun x hx y hy => ((hnext x hx).trans (hsame x hx y hy)).trans (hnext y hy).symm

/-- A transfer to a direct target, in the form of the obligation. -/
theorem direct_completes {i : Instr} {f : F3} {uses : List RegUse} {wr : Env → Wr} {sc : State → Env → Handler → Out} {s : State} {e : Env}
    {wrote : Fibre → Prop} (hexec : ∀ s, exec i s = directTransfer f uses wr sc s) (hi : Issues false s e) (hlive : Live e)
    (hg : GuardsClean f.h e) (hr : RegsOk e (executing f.h e) uses) (ht : ∀ fid ∈ executing f.h e, GoodTarget s e (target3 e.pc f))
    (hw : ∀ pc x js, wrote { retireFibre (wr e) none pc x with joins := js }) : TransferCompletes i f.h (fun _ => target3 e.pc f) wrote s e :=
  transfer_completes hi hlive ((hexec s).trans (directTransfer_runs hi hg hr ht)) hw

/-- A transfer to the PCs of a pair, in the form of the obligation. -/
theorem pair_completes {i : Instr} {f : F3} {s : State} {e : Env} (hexec : ∀ s, exec i s = pairTransfer f s) (hi : Issues false s e)
    (hlive : Live e) (hg : GuardsClean f.h e) (hr : RegsOk e (executing f.h e) [(f.a.toNat, 2)])
    (ht : ∀ fid ∈ executing f.h e, (readPair (getFibre e.g fid) f.a.toNat).2 = false ∧
      GoodTarget s e (readPair (getFibre e.g fid) f.a.toNat).1) :
    TransferCompletes i f.h (fun fid => (readPair (getFibre e.g fid) f.a.toNat).1) (fun _ => True) s e :=
  transfer_completes hi hlive ((hexec s).trans (pairTransfer_runs hi hg hr ht)) fun _ _ _ => trivial

/-- Settles O10: each transfer runs to its targets, and the wave lands there together or in parts. -/
theorem transfersComplete : Obligations.TransfersComplete := by
  unfold Obligations.TransfersComplete
  refine ⟨fun f s e hi hlive hg hr ht => ?_, fun f s e hi hlive hg hr ht => ?_, fun f s e hi hlive hg hr ht => ?_,
    fun f s e hi hlive hg hr ht => ?_⟩
  · have h : TransferCompletes (.bra f) f.h (fun _ => target3 e.pc f) (fun _ => True) s e :=
      direct_completes (fun s => show exec (.bra f) s = execBra f s from rfl) hi hlive hg hr
        (fun fid hf => ht fid hf (List.ne_nil_of_mem hf)) fun _ _ _ => trivial
    exact h
  · have h : TransferCompletes (.call f) f.h (fun _ => target3 e.pc f) (fun y => readPair y f.d.toNat = (nextPc e.pc, false)) s e :=
      direct_completes (fun s => show exec (.call f) s = execCall f s from rfl) hi hlive hg hr ht
        fun pc x _ => readPair_retire_pair pc x f.d.toNat (nextPc e.pc) 0
    exact h
  · have h : TransferCompletes (.brx f) f.h (fun fid => (readPair (getFibre e.g fid) f.a.toNat).1) (fun _ => True) s e :=
      pair_completes (fun s => show exec (.brx f) s = execBrx f s from rfl) hi hlive hg hr ht
    exact h
  · have h : TransferCompletes (.ret f) f.h (fun fid => (readPair (getFibre e.g fid) f.a.toNat).1) (fun _ => True) s e :=
      pair_completes (fun s => show exec (.ret f) s = execRet f s from rfl) hi hlive hg hr ht
    exact h

end Sys2Proof.Machine
end

section
/-! PROOF. Changes under which no fibre runs, begins or ends: caches that write back, waves that wake, scratchpad lines that are written,
barriers that open, and the allocator status words (R34, R43, R100, R101, R153, R157 to R159, R201, R305). -/
namespace Sys2Proof.Machine

/-! ### Caches and the writes on their way (R85, R92, R101, R105) -/

/-- A part of the machine that does not depend on the caches, on the writes and requests on their way, or on the next identifier. -/
def CacheBlind {α : Type} (p : State → α) : Prop :=
  ∀ s i b l w r, p { s with ids := i, slabs := b, l1 := l, wcb := w, reqs := r } = p s

section
variable {α : Type} {p : State → α} (hp : CacheBlind p)
include hp

theorem pushWrite_part (slab : Nat) (m : WriteMsg) (s : State) : p (pushWrite slab m s) = p s := hp s _ _ s.l1 s.wcb s.reqs

theorem sendDirty_part (core ctx sector : Nat) (v : L1Sector) (s : State) : p (sendDirty core ctx sector v s) = p s := by
  unfold sendDirty
  split
  · rfl
  · exact pushWrite_part hp ..

theorem handOver_part (k ctx sector : Nat) (v : L1Sector) (s : State) : p (handOver k ctx sector v s) = p s := by
  unfold handOver
  split
  · rfl
  · exact hp s s.ids s.slabs s.l1 s.wcb _

theorem loseLine_part (k : Nat) (l : L1Line) (s : State) : p (loseLine k l s) = p s := by
  rw [loseLine, sendLine, sendDirty_part hp, sendDirty_part hp, handOver_part hp, handOver_part hp]

theorem blockFills_part (core : Nat) (sector : Option (Nat × Nat)) (s : State) : p (blockFills core sector s) = p s :=
  hp s s.ids s.slabs s.l1 s.wcb _

theorem cleanAll_part (core : Nat) (drop : Bool) (s : State) : p (cleanAll core drop s) = p s := by
  have hlines : ∀ (k : Nat) (ls : List L1Line) (v : KMap (List L1Line)) (s : State),
      p { ls.foldl (fun s l => loseLine k l s) s with l1 := v } = p s := fun k ls v s =>
    (hp _ (ls.foldl (fun s l => loseLine k l s) s).ids _ _ _ _).trans (foldl_part p (fun s l => loseLine_part hp k l s) ls s)
  unfold cleanAll
  dsimp only
  split
  · rw [blockFills_part hp]
    exact foldl_part p (fun s k => hlines ..) _ s
  · exact foldl_part p (fun s k => hlines ..) _ s

theorem wcFlush_part (core : Nat) (q : WcEntry → Bool) (s : State) : p (wcFlush core q s) = p s :=
  (hp _ (((kget s.wcb core []).filter q).foldl (fun s w => wcSend core w s) s).ids _ _ _ _).trans
    (foldl_part p (fun s _ => pushWrite_part hp (slabOf core) _ s) _ s)

theorem releaseCaches_part (core : Nat) (s : State) : p (releaseCaches core s) = p s := by
  rw [releaseCaches, wcFlush_part hp, cleanAll_part hp]

theorem acquireEffect_part (core : Nat) (sc : BitVec 2) (s : State) : p (acquireEffect core sc s) = p s := by
  unfold acquireEffect
  dsimp only
  split
  · rfl
  · split
    · exact cleanAll_part hp ..
    · exact (hp _ (cleanAll core true s).ids _ (cleanAll core true s).l1 (cleanAll core true s).wcb (cleanAll core true s).reqs).trans
        (cleanAll_part hp core true s)

/-- A release at scope g that has been performed sends what the core's store buffer gathered, no more (R101). -/
theorem release_part {e : Env} {fids : List Nat} {s : State} (h : (release e fids 0 s).1 = true) : p (release e fids 0 s).2 = p s := by
  unfold release at h ⊢
  dsimp only at h ⊢
  split at h
  next hf => rw [if_pos hf]
  next hf =>
    rw [if_neg hf]
    split at h
    · cases h
    next hr =>
      rw [if_neg hr]
      split at h
      · cases h
      next hd =>
        rw [if_neg hd]
        exact wcFlush_part hp ..

end

/-! ### Calm changes -/

/-- A fibre without its PC, TXSTATUS and progress count: what a wake-up and an open barrier leave. -/
def calmPart (x : Fibre) : Fibre := { x with pc := 0, txstatus := 0, progress := 0 }

/-- Two stages of a gang with the same fibres, but for what a wake-up and an open barrier set. -/
structure SameFibres (g g' : Gang) : Prop where
  core : g'.core = g.core
  spfail : g'.spfail = g.spfail
  joinSets : g'.joinSets = g.joinSets
  fibre : ∀ fid, (kget? g'.fibres fid).map calmPart = (kget? g.fibres fid).map calmPart

theorem SameFibres.refl (g : Gang) : SameFibres g g := ⟨rfl, rfl, rfl, fun _ => rfl⟩

theorem SameFibres.trans {g g' g'' : Gang} (h : SameFibres g g') (h' : SameFibres g' g'') : SameFibres g g'' :=
  ⟨h'.core.trans h.core, h'.spfail.trans h.spfail, h'.joinSets.trans h.joinSets, fun fid => (h'.fibre fid).trans (h.fibre fid)⟩

theorem sameFibres_mapFibres {g : Gang} {fn : Nat → Fibre → Fibre} (h : ∀ fid x, calmPart (fn fid x) = calmPart x) :
    SameFibres g (mapFibres g fn) := by
  refine ⟨rfl, rfl, rfl, fun fid => ?_⟩
  rw [kget?_mapFibres, Option.map_map]
  cases kget? g.fibres fid with
  | none => rfl
  | some x => exact congrArg some (h fid x)

/-- The batches of a core's table are still there: each waits as it did, or is ready. -/
def TableKept (c c' : Core) : Prop :=
  ∀ b ∈ c.table, ∃ b' ∈ c'.table, b'.gang = b.gang ∧ b'.fids = b.fids ∧ (b'.wait = b.wait ∨ b'.wait = .ready)

theorem TableKept.refl (c : Core) : TableKept c c := fun b hb => ⟨b, hb, rfl, rfl, .inl rfl⟩

theorem TableKept.trans {c c' c'' : Core} (h : TableKept c c') (h' : TableKept c' c'') : TableKept c c'' := by
  intro b hb
  obtain ⟨b', hb', hg, hf, hw⟩ := h b hb
  obtain ⟨b'', hb'', hg', hf', hw'⟩ := h' b' hb'
  refine ⟨b'', hb'', hg'.trans hg, hf'.trans hf, ?_⟩
  rcases hw' with hw' | hw'
  · rw [hw']; exact hw
  · exact .inr hw'

/-- Batches of the table made ready. -/
theorem tableKept_map {c c' : Core} {q : Batch → Bool} {n : Nat}
    (h : c'.table = c.table.map (fun b => if q b then { b with wait := .ready, since := n } else b)) : TableKept c c' := by
  intro b hb
  refine ⟨_, h ▸ List.mem_map_of_mem hb, ?_⟩
  split
  · exact ⟨rfl, rfl, .inr rfl⟩
  · exact ⟨rfl, rfl, .inl rfl⟩

/-- From `s` to `t` no fibre has run, begun or ended, no wave slot has changed and no memory byte: waves may have woken, waiting fibres
may have become ready. The PCs of a gang without a sleeping wave stand. -/
structure Calm (s t : State) : Prop where
  slots : t.slots = s.slots
  memory : MemoryKept s t
  gang : ∀ g, SameFibres (getGang s g) (getGang t g)
  pc : ∀ g, NoSleeper s g → ∀ fid, (fibreAt t g fid).pc = (fibreAt s g fid).pc
  sleepers : ∀ p ∈ t.sleepers, p ∈ s.sleepers
  blocks : ∀ c, (getCore t c).blocks = (getCore s c).blocks
  table : ∀ c, TableKept (getCore s c) (getCore t c)

theorem MemoryKept.refl (s : State) : MemoryKept s s := ⟨rfl, rfl, rfl⟩

theorem MemoryKept.trans {s t u : State} (h : MemoryKept s t) (h' : MemoryKept t u) : MemoryKept s u :=
  ⟨h'.1.trans h.1, h'.2.1.trans h.2.1, h'.2.2.trans h.2.2⟩

theorem Calm.refl (s : State) : Calm s s :=
  ⟨rfl, .refl s, fun _ => .refl _, fun _ _ _ => rfl, fun _ h => h, fun _ => rfl, fun _ => .refl _⟩

theorem Calm.noSleeper {s t : State} (h : Calm s t) {g : Nat} (hn : NoSleeper s g) : NoSleeper t g := fun p hp => hn p (h.sleepers p hp)

theorem Calm.trans {s t u : State} (h : Calm s t) (h' : Calm t u) : Calm s u where
  slots := h'.slots.trans h.slots
  memory := h.memory.trans h'.memory
  gang g := (h.gang g).trans (h'.gang g)
  pc g hn fid := (h'.pc g (h.noSleeper hn) fid).trans (h.pc g hn fid)
  sleepers p hp := h.sleepers p (h'.sleepers p hp)
  blocks c := (h'.blocks c).trans (h.blocks c)
  table c := (h.table c).trans (h'.table c)

/-- A run of calm changes. -/
theorem Calm.foldl {α : Type} {f : State → α → State} (h : ∀ s a, Calm s (f s a)) (l : List α) (s : State) : Calm s (l.foldl f s) :=
  List.foldlRecOn (motive := Calm s) l f (.refl s) fun t ht a _ => ht.trans (h t a)

theorem calm_of_same {s t : State} (hg : t.gangs = s.gangs) (hc : t.cores = s.cores) (hs : t.slots = s.slots) (hm : MemoryKept s t)
    (hz : ∀ p ∈ t.sleepers, p ∈ s.sleepers) : Calm s t := by
  have hgang : ∀ g, getGang t g = getGang s g := fun g => by rw [getGang, hg]; rfl
  have hcore : ∀ c, getCore t c = getCore s c := fun c => by rw [getCore, hc]; rfl
  exact ⟨hs, hm, fun g => hgang g ▸ .refl _, fun g _ fid => by rw [fibreAt, hgang]; rfl, hz,
    fun c => by rw [hcore], fun c => hcore c ▸ .refl _⟩

/-- A gang changes, its fibres do not but for what a wake-up sets. -/
theorem calm_setGang {s : State} {gid : Nat} {v : Gang} (h : SameFibres (getGang s gid) v)
    (hpc : NoSleeper s gid → ∀ fid, (getFibre v fid).pc = (fibreAt s gid fid).pc) : Calm s (setGang s gid v) := by
  refine ⟨rfl, .refl s, fun g => ?_, fun g hn fid => ?_, fun _ hp => hp, fun _ => rfl, fun _ => .refl _⟩
  · by_cases hg : g = gid
    · subst hg; rw [getGang_setGang]; exact h
    · rw [getGang_setGang_ne s v hg]; exact .refl _
  · by_cases hg : g = gid
    · subst hg; rw [fibreAt, getGang_setGang]; exact hpc hn fid
    · rw [fibreAt, getGang_setGang_ne s v hg]; rfl

/-- A part of a gang beside its fibres changes. -/
theorem calm_setGang_beside {s : State} {gid : Nat} {v : Gang} (hf : v.fibres = (getGang s gid).fibres) (hc : v.core = (getGang s gid).core)
    (hx : v.spfail = (getGang s gid).spfail) (hj : v.joinSets = (getGang s gid).joinSets) : Calm s (setGang s gid v) :=
  calm_setGang ⟨hc, hx, hj, fun fid => by rw [hf]⟩ fun _ fid => by rw [getFibre, hf]; rfl

theorem getCore_setCore_ne (s : State) {c k : Nat} (v : Core) (h : k ≠ c) : getCore (setCore s c v) k = getCore s k := by
  simp [getCore, setCore, h]

theorem calm_setCore {s : State} {core : Nat} {v : Core} (hb : v.blocks = (getCore s core).blocks) (ht : TableKept (getCore s core) v) :
    Calm s (setCore s core v) := by
  refine ⟨rfl, .refl s, fun _ => .refl _, fun _ _ _ => rfl, fun _ hp => hp, fun c => ?_, fun c => ?_⟩ <;> by_cases hc : c = core
  · subst hc; rw [getCore_setCore, hb]
  · rw [getCore_setCore_ne s v hc]
  · subst hc; rw [getCore_setCore]; exact ht
  · rw [getCore_setCore_ne s v hc]; exact .refl _

theorem calm_of_cacheBlind {s t : State} (h : ∀ {α : Type} (p : State → α), CacheBlind p → p t = p s) : Calm s t :=
  calm_of_same (h (·.gangs) fun _ _ _ _ _ _ => rfl) (h (·.cores) fun _ _ _ _ _ _ => rfl) (h (·.slots) fun _ _ _ _ _ _ => rfl)
    ⟨h (·.mem) fun _ _ _ _ _ _ => rfl, h (·.hostMem) fun _ _ _ _ _ _ => rfl, h (·.peerMem) fun _ _ _ _ _ _ => rfl⟩
    fun _ hp => h (·.sleepers) (fun _ _ _ _ _ _ => rfl) ▸ hp

theorem calm_releaseCaches (core : Nat) (s : State) : Calm s (releaseCaches core s) := calm_of_cacheBlind fun _ hp => releaseCaches_part hp core s
theorem calm_acquireEffect (core : Nat) (sc : BitVec 2) (s : State) : Calm s (acquireEffect core sc s) :=
  calm_of_cacheBlind fun _ hp => acquireEffect_part hp core sc s
theorem calm_release {e : Env} {fids : List Nat} {s : State} (h : (release e fids 0 s).1 = true) : Calm s (release e fids 0 s).2 :=
  calm_of_cacheBlind fun _ hp => release_part hp h

/-! ### Waves that wake (R153, R157 to R159) -/

/-- A wave that wakes starts at its outermost TBEGIN, and its batches are ready. -/
theorem calm_wakeSleeper (sid : Nat) (s : State) : Calm s (wakeSleeper sid s) := by
  unfold wakeSleeper
  split
  · exact .refl s
  next p hp =>
    dsimp only
    have hwoken : ∀ g : Gang, SameFibres g (mapFibres g (fun fid f => if p.fids.contains fid then
        { f with pc := p.beginPc, txstatus := txWord 0 p.coarse 0 12 } else f)) := fun g =>
      sameFibres_mapFibres fun fid x => by split <;> rfl
    have hsleeps : ¬ NoSleeper s p.gang := fun h => h (sid, p) (kget?_mem hp) rfl
    refine .trans (t := setCore (match kget? s.gangs p.gang with
        | some g => setGang s p.gang (mapFibres g (fun fid f => if p.fids.contains fid then
            { f with pc := p.beginPc, txstatus := txWord 0 p.coarse 0 12 } else f))
        | none => s) p.core _) ?_ (calm_of_same rfl rfl rfl (.refl _) fun q hq => List.mem_of_mem_filter hq)
    split
    next g hg =>
      have hget : getGang s p.gang = g := by rw [getGang, kget, hg]; rfl
      exact (calm_setGang (hget ▸ hwoken g) fun h => absurd h hsleeps).trans (calm_setCore rfl (tableKept_map rfl))
    next => exact calm_setCore rfl (tableKept_map rfl)

theorem calm_wakeAll (ws : List WakeReg) (s : State) : Calm s (wakeAll ws s) := by
  refine Calm.foldl (fun s w => ?_) ws s
  split
  · exact calm_wakeSleeper ..
  · exact calm_of_same rfl rfl rfl (.refl _) fun _ h => h

theorem calm_wakeScratch (gid off : Nat) (s : State) : Calm s (wakeScratch gid off s) := calm_wakeAll ..

/-- The allocator status words of a core's gangs follow, and the waves registered on them wake (R34). -/
theorem calm_refreshAlloc (core : Nat) (s : State) : Calm s (refreshAlloc core s) := by
  refine Calm.foldl (fun s gid => ?_) _ s
  split
  · exact .refl s
  next g hg =>
    dsimp only
    split
    · exact .refl s
    · have hget : getGang s gid = g := by rw [getGang, kget, hg]; rfl
      subst hget
      refine .trans ?_ (calm_wakeScratch ..)
      exact calm_setGang_beside rfl rfl rfl rfl

/-! ### Scratchpads and the swap of their banks (R148, R164, R201) -/

theorem calm_scratchWrite (gid off : Nat) (bs : List Byte) (s : State) : Calm s (scratchWrite gid off bs s) := by
  refine .trans ?_ (Calm.foldl (fun s l => calm_wakeScratch gid (l * 256) s) _ _)
  exact calm_setGang_beside rfl rfl rfl rfl

theorem calm_syncBytes (gid : Nat) (sync : Option Nat) (n : Nat) (s : State) : Calm s (syncBytes gid sync n s) := by
  unfold syncBytes
  split
  · exact calm_scratchWrite ..
  · exact .refl s

theorem calm_swapGang (gid : Nat) (s : State) : Calm s (swapGang gid s) := by
  refine .trans (.trans ?_ (Calm.foldl (fun s l => calm_wakeScratch gid (l * 256) s) _ _))
    (Calm.foldl (fun s (c : XCount) => calm_syncBytes gid (some c.off) c.bytes s) _ _)
  exact calm_setGang_beside rfl rfl rfl rfl

theorem calm_swapCrew (crew : Nat) (s : State) : Calm s (swapCrew crew s) := Calm.foldl (fun s gid => calm_swapGang gid s) _ s

/-! ### Barriers that open (R43, R304, R305) -/

/-- The waiting fibres become ready, their progress counts 0. -/
def passedFibre (s : State) (gid : Nat) (w : Wait) (fid : Nat) (x : Fibre) : Fibre :=
  if (tableWaiters s gid w).contains fid then { x with progress := 0 } else x

theorem passedFibre_part {α : Type} (p : Fibre → α) (hp : ∀ x, p { x with progress := 0 } = p x) (s : State) (gid : Nat) (w : Wait)
    (fid : Nat) (x : Fibre) : p (passedFibre s gid w fid x) = p x := by
  unfold passedFibre
  split
  · exact hp x
  · rfl

theorem getGang_passGang (gid : Nat) (w : Wait) (s : State) :
    getGang (passGang gid w s) gid = mapFibres (getGang s gid) (passedFibre s gid w) := getGang_setGang ..

theorem calm_passGang (gid : Nat) (w : Wait) (s : State) : Calm s (passGang gid w s) := by
  refine .trans (t := setCore s (getGang s gid).core _) ?_ (calm_setGang (v := mapFibres (getGang s gid) (passedFibre s gid w)) ?_ ?_)
  · exact calm_setCore rfl (tableKept_map rfl)
  · exact sameFibres_mapFibres (passedFibre_part calmPart (fun _ => rfl) s gid w)
  · exact fun _ => getFibre_mapFibres_part (passedFibre_part (fun x : Fibre => x.pc) (fun _ => rfl) s gid w)

theorem calm_checkBar (gid : Nat) (s : State) : Calm s (checkBar gid s) := by
  unfold checkBar
  split
  · exact calm_passGang ..
  · exact .refl s

theorem calm_checkBarx (crew : Nat) (s : State) : Calm s (checkBarx crew s) := by
  unfold checkBarx
  dsimp only
  split
  · exact ((calm_swapCrew crew s).trans (Calm.foldl (fun s gid => (calm_releaseCaches ..).trans (calm_acquireEffect ..)) _ _)).trans
      (Calm.foldl (fun s gid => calm_passGang gid .barx s) _ _)
  · exact .refl s

/-- The tile of a task counts as retired (R342). -/
theorem calm_checkReleased (tid : Nat) (s : State) : Calm s (checkReleased tid s) := by
  unfold checkReleased
  dsimp only
  split
  · exact calm_of_same rfl rfl rfl (.refl _) fun _ h => h
  · exact .refl s

end Sys2Proof.Machine
end

section
/-! PROOF. JOIN and the barriers (R37, R43, R240, R300, R304, R305): the wave whose open windows have closed, fibres that leave a slot for
the table, join sets that fill and close (O11). -/
namespace Sys2Proof.Machine

/-! ### Windows that close (R240) -/

section
variable {α : Type} {p : Fibre → α}

theorem pokeAll_part (hp : ∀ x r rp q qp m, p { x with regs := r, regPoison := rp, preds := q, predPoison := qp, fpmode := m } = p x)
    (x : Fibre) (w : Wr) : p (pokeAll x w) = p x := by
  have hreg : ∀ (y : Fibre) (r : Nat × Word × Bool), p (pokeReg y r.1 r.2.1 r.2.2) = p y := fun y r => hp y _ _ y.preds y.predPoison y.fpmode
  have hpred : ∀ (y : Fibre) (r : Nat × Bool × Bool), p (pokePred y r.1 r.2.1 r.2.2) = p y := fun y r => by
    unfold pokePred
    split
    · rfl
    · exact hp y y.regs y.regPoison _ _ y.fpmode
  unfold pokeAll
  exact ((hp _ _ _ _ _ _).trans (foldl_part p hpred w.preds _)).trans (foldl_part p hreg w.regs x)

/-- Closing windows changes registers, predicates, flags and windows, no other part. -/
theorem closeWindows_part
    (hp : ∀ x r rp q qp m ws, p { x with regs := r, regPoison := rp, preds := q, predPoison := qp, fpmode := m, windows := ws } = p x)
    (x : Fibre) : p (closeWindows x) = p x := by
  unfold closeWindows settle
  dsimp only
  refine (foldl_part p (fun y w => pokeAll_part (fun x r rp q qp m => hp x r rp q qp m x.windows) y _) _ _).trans ?_
  exact hp x x.regs x.regPoison x.preds x.predPoison x.fpmode _

end

section
variable {s : State} {e : Env}

theorem live_closedEnv (h : Live e) : Live (closedEnv e) := fun fid hf => by
  rw [closedEnv, kget?_mapFibres, Option.isSome_map]
  exact h fid hf

theorem getGang_closedState (e : Env) (s : State) : getGang (closedState e s) e.gid = (closedEnv e).g := getGang_setGang ..

/-- A part of the wave's fibres that closing windows keeps. -/
theorem closedEnv_part {α : Type} {p : Fibre → α}
    (hp : ∀ x r rp q qp m ws, p { x with regs := r, regPoison := rp, preds := q, predPoison := qp, fpmode := m, windows := ws } = p x)
    (e : Env) (fid : Nat) : p (getFibre (closedEnv e).g fid) = p (getFibre e.g fid) :=
  getFibre_mapFibres_part (fun k x => by
    split
    · exact closeWindows_part hp x
    · rfl) fid

theorem closedEnv_joins (e : Env) (fid : Nat) : (getFibre (closedEnv e).g fid).joins = (getFibre e.g fid).joins :=
  closedEnv_part (p := fun x => x.joins) (fun _ _ _ _ _ _ _ => rfl) e fid

end

/-! ### Retirement and the table -/

/-- A retirement changes the gang, the slot and the core. -/
theorem retire_part {α : Type} {p : State → α} (hg : ∀ s g v, p (setGang s g v) = p s) (hs : ∀ s k v, p (setSlot s k v) = p s)
    (hc : ∀ s c v, p (setCore s c v) = p s) (e : Env) (u : Nat) (wr : Nat → Wr) (win : Nat → Option Window) (pc : Nat → W64) (s : State) :
    p (retire e u wr win pc s) = p s := by
  rw [retire, noteIssue, hc, hs, hg]

/-- Fibres put into the table stand there as one batch. -/
theorem mem_toTable {core gid : Nat} {fids : List Nat} (w : Wait) (s : State) (h : fids ≠ []) :
    ∃ b ∈ (getCore (toTable core gid fids w s) core).table, b.gang = gid ∧ b.fids = fids ∧ b.wait = w := by
  rw [toTable, if_neg (by simpa using h), getCore_setCore]
  exact ⟨_, List.mem_append_right _ (List.mem_singleton_self _), rfl, rfl, rfl⟩

/-- The batches that were there before stand too. -/
theorem mem_toTable_of_mem {core gid c : Nat} {fids : List Nat} {w : Wait} {s : State} {b : Batch} (h : b ∈ (getCore s c).table) :
    b ∈ (getCore (toTable core gid fids w s) c).table := by
  unfold toTable
  split
  · exact h
  · by_cases hc : c = core
    · subst hc; rw [getCore_setCore]; exact List.mem_append_left _ h
    · rw [getCore_setCore_ne _ _ hc]; exact h

/-- Several batches put into the table stand there. -/
theorem mem_foldl_toTable {core gid : Nat} {w : Wait} {grps : List (List Nat)} {grp : List Nat} (h : grp ∈ grps) (hne : grp ≠ []) (s : State) :
    ∃ b ∈ (getCore (grps.foldl (fun s grp => toTable core gid grp w s) s) core).table, b.gang = gid ∧ b.fids = grp ∧ b.wait = w := by
  induction grps generalizing s with
  | nil => cases h
  | cons a as ih =>
    rcases List.mem_cons.mp h with rfl | h
    · obtain ⟨b, hb, hbs⟩ := mem_toTable (core := core) (gid := gid) w s hne
      exact ⟨b, List.foldlRecOn (motive := fun t => b ∈ (getCore t core).table) as _ hb fun t ht _ _ => mem_toTable_of_mem ht, hbs⟩
    · exact ih h _

theorem leaveSlot_fids (key : Nat) (fids : List Nat) (s : State) :
    (getSlot (leaveSlot key fids s) key).fids = without (getSlot s key).fids fids := by
  rw [leaveSlot, getSlot_setSlot]

theorem mem_without {x : Nat} {l r : List Nat} : x ∈ without l r ↔ x ∈ l ∧ x ∉ r := by
  simp [without]

theorem mem_noteLines {x : Nat} {new old : List Nat} : x ∈ noteLines new old ↔ x ∈ new ∨ x ∈ old := by
  induction new generalizing old with
  | nil => simp [noteLines]
  | cons a as ih =>
    have h : noteLines (a :: as) old = noteLines as (insertNat a old) := rfl
    rw [h, ih, insertNat]
    split
    next hc => simp only [List.contains_iff_mem] at hc; grind
    next => simp only [List.mem_append, List.mem_cons, List.not_mem_nil, or_false]; tauto

theorem noteLines_same {l : List Nat} {k : Nat} (h : ∀ x ∈ l, x = k) (hne : l ≠ []) : noteLines l [] = [k] := by
  have hrun : ∀ l : List Nat, (∀ x ∈ l, x = k) → noteLines l [k] = [k] := fun l => by
    induction l with
    | nil => exact fun _ => rfl
    | cons a as ih =>
      intro h
      obtain rfl := h a List.mem_cons_self
      exact (congrArg (noteLines as) (show insertNat a [a] = [a] by simp [insertNat])).trans (ih fun x hx => h x (List.mem_cons_of_mem _ hx))
  obtain ⟨a, as, rfl⟩ := List.exists_cons_of_ne_nil hne
  obtain rfl := h a List.mem_cons_self
  exact hrun as fun x hx => h x (List.mem_cons_of_mem _ hx)

/-! ### Join sets that fill and close (R37) -/

section
variable {α : Type} {p : State → α}

theorem arriveJoin_part (hg : ∀ s g v, p (setGang s g v) = p s) (gid fid : Nat) (s : State) : p (arriveJoin gid fid s) = p s := by
  unfold arriveJoin
  dsimp only
  split
  · rfl
  · exact hg ..

theorem closeSet_part (hg : ∀ s g v, p (setGang s g v) = p s) (hc : ∀ s c v, p (setCore s c v) = p s) (gid set : Nat) (s : State) :
    p (closeSet gid set s) = p s := by
  unfold closeSet
  dsimp only
  rw [foldl_part p (fun s grp => toTable_part p hc _ gid grp .ready s), hc, hg]

theorem recount_part (hg : ∀ s g v, p (setGang s g v) = p s) (hc : ∀ s c v, p (setCore s c v) = p s) (gid set : Nat) (s : State) :
    p (recount gid set s) = p s := by
  unfold recount
  dsimp only
  split
  · rfl
  · split
    · exact hg ..
    · split
      · exact closeSet_part hg hc gid set s
      · rfl

end

/-- An arrival changes the join sets only. -/
theorem fibreAt_arriveJoin (gid fid g k : Nat) (s : State) : fibreAt (arriveJoin gid fid s) g k = fibreAt s g k := by
  unfold arriveJoin
  dsimp only
  split
  · rfl
  · by_cases hg : g = gid
    · subst hg; rw [fibreAt, getGang_setGang]; rfl
    · rw [fibreAt, getGang_setGang_ne _ _ hg]; rfl

/-- A set that has closed is no longer open for its members. -/
def poppedFibre (set : Nat) (js : JoinSet) (fid : Nat) (x : Fibre) : Fibre :=
  if js.members.contains fid then { x with joins := x.joins.filter (· != set) } else x

/-- The gang whose set has closed. -/
def closedGang (g : Gang) (set : Nat) (js : JoinSet) : Gang :=
  { mapFibres g (poppedFibre set js) with joinSets := kdel g.joinSets set }

theorem getGang_closeSet {gid set : Nat} {s : State} {js : JoinSet} (h : kget? (getGang s gid).joinSets set = some js) :
    getGang (closeSet gid set s) gid = closedGang (getGang s gid) set js := by
  unfold closeSet
  dsimp only
  rw [foldl_part (getGang · gid) (fun s grp => toTable_part (getGang · gid) (fun _ _ _ => rfl) _ gid grp .ready s)]
  rw [getGang_setCore, getGang_setGang, kget, h]
  rfl

/-! ### A wave at a JOIN -/

/-- The executing fibres that have an open join set. -/
def meeting (g : Gang) (act : List Nat) : List Nat := act.filter (fun fid => !(getFibre g fid).joins.isEmpty)

/-- The machine once the fibres at a JOIN have retired, arrived at their innermost sets and left the slot. -/
def joinArrived (e : Env) (act : List Nat) (s : State) : State :=
  let meet := meeting (getGang s e.gid) act
  leaveSlot e.key meet (meet.foldl (fun s fid => arriveJoin e.gid fid s) (retirePlain e 5 s))

/-- The innermost sets of the fibres at a JOIN. -/
def meetSets (g : Gang) (act : List Nat) : List Nat := noteLines ((meeting g act).map (fun fid => ((getFibre g fid).joins).headD 0)) []

theorem joinWave_eq (e : Env) (act : List Nat) (s : State) : joinWave e act s =
    (meetSets (getGang s e.gid) act).foldl (fun s k => recount e.gid k s) ((meetSets (getGang s e.gid) act).foldl
      (fun t k => toTable e.core e.gid ((meeting (getGang s e.gid) act).filter
        (fun fid => ((getFibre (getGang s e.gid) fid).joins).headD 0 == k)) (.join k) t) (joinArrived e act s)) := rfl

section
variable {e : Env} {s : State} {act : List Nat}

/-- After a JOIN a part of the machine that depends on no gang and no core is as the arrival at the sets has left it. -/
theorem joinWave_part {α : Type} {p : State → α} (hg : ∀ s g v, p (setGang s g v) = p s) (hc : ∀ s c v, p (setCore s c v) = p s) :
    p (joinWave e act s) = p (joinArrived e act s) := by
  rw [joinWave_eq, foldl_part p (fun s k => recount_part hg hc e.gid k s),
    foldl_part p (fun t k => toTable_part p hc e.core e.gid _ (.join k) t)]

theorem joinArrived_part {α : Type} {p : State → α} (hg : ∀ s g v, p (setGang s g v) = p s) (hs : ∀ s k v, p (setSlot s k v) = p s)
    (hc : ∀ s c v, p (setCore s c v) = p s) : p (joinArrived e act s) = p s := by
  rw [joinArrived, leaveSlot, hs, foldl_part p (fun s fid => arriveJoin_part hg e.gid fid s), retirePlain, retire_part hg hs hc]

theorem memoryKept_joinWave : MemoryKept s (joinWave e act s) := by
  have hmem : ∀ {α : Type} (p : State → α), (∀ s g v, p (setGang s g v) = p s) → (∀ s k v, p (setSlot s k v) = p s) →
      (∀ s c v, p (setCore s c v) = p s) → p (joinWave e act s) = p s := fun p hg hs hc =>
    (joinWave_part hg hc).trans (joinArrived_part hg hs hc)
  exact ⟨hmem (·.mem) (fun _ _ _ => rfl) (fun _ _ _ => rfl) (fun _ _ _ => rfl),
    hmem (·.hostMem) (fun _ _ _ => rfl) (fun _ _ _ => rfl) (fun _ _ _ => rfl),
    hmem (·.peerMem) (fun _ _ _ => rfl) (fun _ _ _ => rfl) (fun _ _ _ => rfl)⟩

/-- The fibres that meet leave the slot, and no others. -/
theorem slot_joinWave : (getSlot (joinWave e act s) e.key).fids = without (getSlot s e.key).fids (meeting (getGang s e.gid) act) := by
  rw [joinWave_part (p := (getSlot · e.key)) (fun _ _ _ => rfl) (fun _ _ _ => rfl), joinArrived, leaveSlot_fids,
    foldl_part (getSlot · e.key) (fun s fid => arriveJoin_part (p := (getSlot · e.key)) (fun _ _ _ => rfl) e.gid fid s),
    getSlot_retirePlain, issuedSlot_fids]

theorem mem_slot_joinWave {fid : Nat} (ha : fid ∈ act) : fid ∈ (getSlot (joinWave e act s) e.key).fids ↔
    fid ∈ (getSlot s e.key).fids ∧ (getFibre (getGang s e.gid) fid).joins = [] := by
  rw [slot_joinWave, mem_without]
  simp [meeting, ha]

end

/-- A part that each fibre of a gang keeps, of a fibre that may be none. -/
theorem map_mapFibres_part {α : Type} {g : Gang} {fn : Nat → Fibre → Fibre} {q : Fibre → α} (h : ∀ k x, q (fn k x) = q x) (k : Nat) :
    (kget? (mapFibres g fn).fibres k).map q = (kget? g.fibres k).map q := by
  rw [kget?_mapFibres, Option.map_map]
  cases kget? g.fibres k with
  | none => rfl
  | some x => exact congrArg some (h k x)

theorem fibreAt_of_map {α : Type} {q : Fibre → α} {s t : State} {g k : Nat}
    (h : (kget? (getGang t g).fibres k).map q = (kget? (getGang s g).fibres k).map q) : q (fibreAt t g k) = q (fibreAt s g k) := by
  have hget : ∀ u, q (fibreAt u g k) = ((kget? (getGang u g).fibres k).map q).getD (q Fibre.init) := fun u => by
    rw [fibreAt, getFibre, kget, Option.getD_map]
  rw [hget, hget, h]

section
variable {α : Type} {q : Fibre → α} (hq : ∀ x js, q { x with joins := js } = q x)
include hq

/-- The sets of a gang change by a recount, and its members' lists of open sets, no other part of a fibre. -/
theorem recount_fibre (gid set g k : Nat) (s : State) :
    (kget? (getGang (recount gid set s) g).fibres k).map q = (kget? (getGang s g).fibres k).map q := by
  by_cases hg : g = gid
  case neg =>
    have hkeep : ∀ s v, getGang (setGang s gid v) g = getGang s g := fun s v => getGang_setGang_ne s v hg
    unfold recount closeSet
    dsimp only
    split
    · rfl
    · split
      · rw [hkeep]
      · split
        · rw [foldl_part (getGang · g) (fun s grp => toTable_part (getGang · g) (fun _ _ _ => rfl) _ gid grp .ready s),
            getGang_setCore, hkeep]
        · rfl
  case pos =>
    subst hg
    unfold recount
    dsimp only
    split
    · rfl
    next js hjs =>
      split
      · rw [getGang_setGang]
      · split
        · rw [getGang_closeSet hjs]
          refine map_mapFibres_part (fn := poppedFibre set js) (fun k x => ?_) k
          unfold poppedFibre
          split
          · exact hq ..
          · rfl
        · rfl

/-- A JOIN leaves every fibre as its retirement does, but for the open sets. -/
theorem fibre_joinWave (e : Env) (act : List Nat) (s : State) (g k : Nat) :
    q (fibreAt (joinWave e act s) g k) = q (fibreAt (retirePlain e 5 s) g k) := by
  rw [joinWave_eq, foldl_part (fun s => q (fibreAt s g k)) (fun s set => fibreAt_of_map (recount_fibre hq e.gid set g k s)),
    foldl_part (fibreAt · g k) (fun t set => toTable_part (fibreAt · g k) (fun _ _ _ => rfl) e.core e.gid _ (.join set) t)]
  exact congrArg q (foldl_part (fibreAt · g k) (fun s fid => fibreAt_arriveJoin e.gid fid g k s) _ _)

end

section
variable {s : State} {e : Env}

theorem fibreAt_closedState (e : Env) (s : State) (fid : Nat) : fibreAt (closedState e s) e.gid fid = getFibre (closedEnv e).g fid :=
  congrArg (getFibre · fid) (getGang_closedState e s)

/-- The wave's fibres after a retirement that follows the close of the windows. -/
theorem fibreAt_retirePlain_closed (hlive : Live e) (u : Nat) {fid : Nat} (hf : fid ∈ e.fids) :
    fibreAt (retirePlain (closedEnv e) u (closedState e s)) e.gid fid =
      retireFibre Wr.none none (nextPc e.pc) (getFibre (closedEnv e).g fid) := by
  have h := fibreAt_retire (e := closedEnv e) (s := closedState e s) u (fun _ => Wr.none) (fun _ => none) (fun _ => nextPc e.pc) hf
    (by rw [show getGang (closedState e s) (closedEnv e).gid = _ from getGang_closedState e s]; exact live_closedEnv hlive fid hf)
  exact h.trans (congrArg (retireFibre Wr.none none (nextPc e.pc)) (fibreAt_closedState e s fid))

theorem standAt_joinWave (hlive : Live e) (act : List Nat) :
    StandAt e (fun _ => nextPc e.pc) (joinWave (closedEnv e) act (closedState e s)) := fun fid hf => by
  rw [fibre_joinWave (q := fun x => x.pc) (fun _ _ => rfl), fibreAt_retirePlain_closed hlive 5 hf, retireFibre_pc]

theorem memoryKept_closedState : MemoryKept s (closedState e s) := ⟨rfl, rfl, rfl⟩

theorem getSlot_closedState (he : envOf s = some e) : getSlot (closedState e s) e.key = e.sl := (slot_of_envOf he).1

/-- JOIN outside a transaction. -/
theorem execJoin_runs {f : F3} (hi : Issues true s e) (hg : GuardsClean f.h (closedEnv e)) (ht : e.sl.txn = none) :
    execJoin f s = .next (joinWave (closedEnv e) (executing f.h (closedEnv e)) (closedState e s)) := by
  have ht' : (closedEnv e).sl.txn = none := ht
  rw [execJoin, issue_waits hi, guardPoison_nil hg, orTrap_nil, ht']

theorem execJoin_next {f : F3} (hi : Issues true s e) (hg : GuardsClean f.h (closedEnv e)) : ∃ t, execJoin f s = .next t := by
  rw [execJoin, issue_waits hi, guardPoison_nil hg, orTrap_nil]
  split <;> exact ⟨_, rfl⟩

theorem join_completes {f : F3} (hi : Issues true s e) (hlive : Live e) (hg : GuardsClean f.h (closedEnv e)) :
    ∃ t, execJoin f s = .next t ∧ (e.sl.txn = none → StandAt e (fun _ => nextPc e.pc) t ∧ MemoryKept s t ∧
      ∀ fid ∈ executing f.h (closedEnv e), (getFibre e.g fid).joins = [] → fid ∈ (getSlot t e.key).fids) := by
  by_cases ht : e.sl.txn = none
  case neg => exact (execJoin_next hi hg).imp fun t h => ⟨h, fun h' => absurd h' ht⟩
  case pos =>
    refine ⟨_, execJoin_runs hi hg ht, fun _ => ⟨standAt_joinWave hlive _, memoryKept_closedState.trans memoryKept_joinWave,
      fun fid hf hj => ?_⟩⟩
    refine (mem_slot_joinWave (e := closedEnv e) hf).mpr ⟨?_, ?_⟩
    · rw [show (closedEnv e).key = e.key from rfl, getSlot_closedState hi.env, fids_of_envOf hi.env ht]
      exact List.mem_of_mem_filter hf
    · rw [show getGang (closedState e s) (closedEnv e).gid = _ from getGang_closedState e s, closedEnv_joins, hj]

end

/-! ### A join set that every executing fibre has innermost (R37) -/

theorem kget?_kdel_same {α : Type} (m : KMap α) (n : Nat) : kget? (kdel m n) n = none := by
  unfold kdel
  induction m with
  | nil => rfl
  | cons a m ih =>
    by_cases h : a.1 = n
    · rw [List.filter_cons_of_neg (by simpa using h)]; exact ih
    · rw [List.filter_cons_of_pos (by simpa using h)]
      obtain ⟨k, v⟩ := a
      exact (if_neg h).trans ih

theorem mem_sortBy {α : Type} {f : α → Nat} {l : List α} {x : α} : x ∈ sortBy f l ↔ x ∈ l := by
  have hins : ∀ (y : α) (l : List α), x ∈ insertBy f y l ↔ x = y ∨ x ∈ l := fun y l => by
    induction l with
    | nil => simp [insertBy]
    | cons a as ih =>
      simp only [insertBy]
      split
      · simp
      · simp only [List.mem_cons, ih]; tauto
  induction l with
  | nil => simp [sortBy]
  | cons a as ih => exact (hins a _).trans ((or_congr_right ih).trans List.mem_cons.symm)

section
variable {pc : Nat → W64}

/-- No fibre of the one list has the PC of a fibre of the other. -/
def PcApart (pc : Nat → W64) (g h : List Nat) : Prop := ∀ x ∈ g, ∀ y ∈ h, pc x ≠ pc y

theorem pcApart_symm : Std.Symm (PcApart pc) := ⟨fun _ _ h x hx y hy => (h y hy x hx).symm⟩

theorem groupByPc_cover {l : List Nat} {x : Nat} (h : x ∈ l) : ∃ grp ∈ groupByPc pc l, x ∈ grp := by
  induction l with
  | nil => cases h
  | cons f fs ih =>
    simp only [groupByPc]
    split
    next grp hgrp =>
      rcases List.mem_cons.mp h with rfl | h
      · exact ⟨_, List.mem_cons_self, List.mem_cons_self⟩
      · obtain ⟨g, hg, hx⟩ := ih h
        by_cases hga : g = grp
        · exact ⟨_, List.mem_cons_self, List.mem_cons_of_mem _ (hga ▸ hx)⟩
        · exact ⟨g, List.mem_cons_of_mem _ (List.mem_filter.mpr ⟨hg, by simpa using hga⟩), hx⟩
    next =>
      rcases List.mem_cons.mp h with rfl | h
      · exact ⟨_, List.mem_cons_self, List.mem_cons_self⟩
      · exact (ih h).imp fun g hg => ⟨List.mem_cons_of_mem _ hg.1, hg.2⟩

theorem groupByPc_apart (l : List Nat) : (groupByPc pc l).Pairwise (PcApart pc) := by
  induction l with
  | nil => exact .nil
  | cons f fs ih =>
    simp only [groupByPc]
    split
    next grp hgrp =>
      have hmem := List.mem_of_find?_eq_some hgrp
      obtain ⟨hne, -, hsame⟩ := groupByPc_group hmem
      obtain ⟨a, as, rfl⟩ := List.exists_cons_of_ne_nil hne
      have hpc : pc a = pc f := by simpa using List.find?_some hgrp
      refine .cons (fun h hh x hx y hy => ?_) (ih.filter _)
      obtain ⟨hh, hha⟩ := List.mem_filter.mp hh
      have hsymm := pcApart_symm (pc := pc)
      have hap : PcApart pc (a :: as) h := ih.forall hmem hh (by simpa using Ne.symm (bne_iff_ne.mp hha))
      rcases List.mem_cons.mp hx with rfl | hx
      · exact hpc ▸ hap a List.mem_cons_self y hy
      · exact hap x hx y hy
    next hnone =>
      refine .cons (fun h hh x hx y hy => ?_) ih
      obtain ⟨hne, -, hsame⟩ := groupByPc_group hh
      obtain ⟨a, as, rfl⟩ := List.exists_cons_of_ne_nil hne
      have hpc : ¬ pc a = pc f := by simpa using List.find?_eq_none.mp hnone _ hh
      rw [List.mem_singleton.mp hx, hsame y hy a List.mem_cons_self]
      exact Ne.symm hpc

/-- A group has every fibre of its PC. -/
theorem groupByPc_full {l grp : List Nat} (h : grp ∈ groupByPc pc l) {x y : Nat} (hx : x ∈ grp) (hy : y ∈ l) (hpc : pc y = pc x) :
    y ∈ grp := by
  obtain ⟨g, hg, hyg⟩ := groupByPc_cover (pc := pc) hy
  by_cases hgg : g = grp
  · exact hgg ▸ hyg
  · have hsymm := pcApart_symm (pc := pc)
    exact absurd hpc ((groupByPc_apart l).forall hg h hgg y hyg x hx)

end

/-- A slot of a wave outside a transaction pins no fibre. -/
theorem isPinned_of_slots {s t : State} {key : Nat} {v : Slot} (h : t.slots = kset s.slots key v) (hv : v.txn = none) {gid fid : Nat}
    (hp : isPinned s gid fid = false) : isPinned t gid fid = false := by
  have hany : ∀ (q : Nat × Slot → Bool), q (key, v) = false → ∀ m : KMap Slot, m.any q = false →
      (kset m key v).any q = false := fun q hq m => by
    induction m with
    | nil => simp [kset, hq]
    | cons a m ih =>
      obtain ⟨k, w⟩ := a
      intro ha
      simp only [List.any_cons, Bool.or_eq_false_iff] at ha
      simp only [kset]
      split
      · simp [hq, ha]
      · split
        · simp [hq, ha]
        · simp [ih ha.2, ha]
  unfold isPinned at hp ⊢
  rw [h]
  exact hany _ (by simp [hv]) _ hp

theorem getGang_arriveJoin {gid fid k : Nat} {ks : List Nat} {s : State} (h : (fibreAt s gid fid).joins = k :: ks) :
    getGang (arriveJoin gid fid s) gid = { getGang s gid with
      joinSets := kmod (getGang s gid).joinSets k { members := [], waiting := [] } fun js => { js with waiting := insertNat fid js.waiting } } := by
  change (getFibre (getGang s gid) fid).joins = k :: ks at h
  unfold arriveJoin
  dsimp only
  rw [h]
  exact getGang_setGang ..

/-- Fibres with one innermost set arrive there. -/
theorem joinSet_arrivals {gid k : Nat} {act : List Nat} {s : State} {js : JoinSet} (ha : ∀ fid ∈ act, ∃ ks, (fibreAt s gid fid).joins = k :: ks)
    (hk : kget? (getGang s gid).joinSets k = some js) :
    kget? (getGang (act.foldl (fun s fid => arriveJoin gid fid s) s) gid).joinSets k = some { js with waiting := noteLines act js.waiting } := by
  induction act generalizing s js with
  | nil => exact hk
  | cons a as ih =>
    obtain ⟨ks, hks⟩ := ha a List.mem_cons_self
    refine ih (s := arriveJoin gid a s) (js := { js with waiting := insertNat a js.waiting })
      (fun fid hf => fibreAt_arriveJoin gid a gid fid s ▸ ha fid (List.mem_cons_of_mem _ hf)) ?_
    rw [getGang_arriveJoin hks, kmod, kget, hk]
    exact kget?_kset_same ..

/-- An arrival changes no part of the gang beside its sets. -/
theorem gang_arriveJoin {α : Type} {q : Gang → α} (hq : ∀ g js, q { g with joinSets := js } = q g) (gid fid : Nat) (s : State) :
    q (getGang (arriveJoin gid fid s) gid) = q (getGang s gid) := by
  unfold arriveJoin
  dsimp only
  split
  · rfl
  · rw [getGang_setGang, hq]

/-- The machine once fibres with one innermost set have come to a JOIN and wait for the set. -/
def joinWaits (e : Env) (act : List Nat) (k : Nat) (s : State) : State := toTable e.core e.gid act (.join k)
  (leaveSlot e.key act (act.foldl (fun s fid => arriveJoin e.gid fid s) (retirePlain e 5 s)))

theorem joinWave_one {e : Env} {act : List Nat} {k : Nat} {s : State} (hne : act ≠ [])
    (h : ∀ fid ∈ act, ∃ ks, (fibreAt s e.gid fid).joins = k :: ks) : joinWave e act s = recount e.gid k (joinWaits e act k s) := by
  have hhead : ∀ fid ∈ act, ((getFibre (getGang s e.gid) fid).joins).headD 0 = k := fun fid hf => by
    obtain ⟨ks, hks⟩ := h fid hf
    rw [show (getFibre (getGang s e.gid) fid).joins = _ from hks]
    rfl
  have hmeet : meeting (getGang s e.gid) act = act := List.filter_eq_self.mpr fun fid hf => by
    obtain ⟨ks, hks⟩ := h fid hf
    rw [show (getFibre (getGang s e.gid) fid).joins = _ from hks]
    rfl
  have hsets : meetSets (getGang s e.gid) act = [k] := by
    rw [meetSets, hmeet]
    refine noteLines_same (fun x hx => ?_) (by simpa using hne)
    obtain ⟨fid, hf, rfl⟩ := List.mem_map.mp hx
    exact hhead fid hf
  have hall : act.filter (fun fid => ((getFibre (getGang s e.gid) fid).joins).headD 0 == k) = act :=
    List.filter_eq_self.mpr fun fid hf => beq_iff_eq.mpr (hhead fid hf)
  rw [joinWave_eq, hsets, hmeet, joinArrived, hmeet]
  simp only [List.foldl_cons, List.foldl_nil]
  rw [hall]
  rfl

section
variable {s : State} {e : Env} {act : List Nat} {k : Nat}

theorem getGang_joinWaits : getGang (joinWaits e act k s) e.gid =
    getGang (act.foldl (fun s fid => arriveJoin e.gid fid s) (retirePlain e 5 s)) e.gid :=
  toTable_part (getGang · e.gid) (fun _ _ _ => rfl) ..

theorem fibreAt_joinWaits (fid : Nat) : fibreAt (joinWaits e act k s) e.gid fid = fibreAt (retirePlain e 5 s) e.gid fid := by
  rw [fibreAt, getGang_joinWaits]
  exact foldl_part (fibreAt · e.gid fid) (fun s x => fibreAt_arriveJoin e.gid x e.gid fid s) _ _

theorem gang_joinWaits {α : Type} {q : Gang → α} (hq : ∀ g js, q { g with joinSets := js } = q g) :
    q (getGang (joinWaits e act k s) e.gid) = q (getGang (retirePlain e 5 s) e.gid) := by
  rw [getGang_joinWaits]
  exact foldl_part (fun t : State => q (getGang t e.gid)) (fun t fid => gang_arriveJoin hq e.gid fid t) act _

theorem core_joinWaits : (getGang (joinWaits e act k s) e.gid).core = (getGang s e.gid).core := by
  rw [gang_joinWaits (q := fun g => g.core) fun _ _ => rfl, retirePlain, getGang_retire, mapFibres_core]

theorem live_joinWaits (fid : Nat) :
    (kget? (getGang (joinWaits e act k s) e.gid).fibres fid).isSome = (kget? (getGang s e.gid).fibres fid).isSome := by
  rw [gang_joinWaits (q := fun g => (kget? g.fibres fid).isSome) fun _ _ => rfl, retirePlain, getGang_retire, kget?_mapFibres, Option.isSome_map]

/-- A part of a fibre that no retirement changes. -/
theorem fibre_retirePlain {α : Type} {q : Fibre → α} (hq : ∀ y, q (steadyPart y) = q y) (u fid : Nat) :
    q (fibreAt (retirePlain e u s) e.gid fid) = q (fibreAt s e.gid fid) := by
  rw [fibreAt, retirePlain, getGang_retire]
  refine getFibre_mapFibres_part (p := q) (fun k x => ?_) fid
  split
  · exact retireFibre_part _ _ _ _ q hq
  · rfl

theorem joinSet_joinWaits {js : JoinSet} (h : ∀ fid ∈ act, ∃ ks, (fibreAt s e.gid fid).joins = k :: ks)
    (hk : kget? (getGang s e.gid).joinSets k = some js) :
    kget? (getGang (joinWaits e act k s) e.gid).joinSets k = some { js with waiting := noteLines act js.waiting } := by
  rw [getGang_joinWaits]
  refine joinSet_arrivals (fun fid hf => ?_) ?_
  · rw [fibre_retirePlain (q := fun x => x.joins) fun _ => rfl]
    exact h fid hf
  · rw [retirePlain, getGang_retire, mapFibres_joinSets]
    exact hk

theorem isPinned_joinWaits (hn : (getSlot s e.key).txn = none) {gid fid : Nat} (hp : isPinned s gid fid = false) :
    isPinned (joinWaits e act k s) gid fid = false := by
  have hret : isPinned (retirePlain e 5 s) gid fid = false :=
    isPinned_of_slots (v := issuedSlot s e) (by rw [retirePlain, retire_eq]) hn hp
  have harr : isPinned (act.foldl (fun s x => arriveJoin e.gid x s) (retirePlain e 5 s)) gid fid = false :=
    (foldl_part (isPinned · gid fid) (fun s x => arriveJoin_part (p := (isPinned · gid fid)) (fun _ _ _ => rfl) e.gid x s) _ _).trans hret
  have hslot : (getSlot (act.foldl (fun s x => arriveJoin e.gid x s) (retirePlain e 5 s)) e.key).txn = none := by
    rw [foldl_part (getSlot · e.key) (fun s x => arriveJoin_part (p := (getSlot · e.key)) (fun _ _ _ => rfl) e.gid x s), getSlot_retirePlain]
    exact hn
  exact (toTable_part (isPinned · gid fid) (fun _ _ _ => rfl) ..).trans 
    (isPinned_of_slots (v := { getSlot _ e.key with fids := without (getSlot _ e.key).fids act }) rfl hslot harr)

end

theorem recount_waits {gid set : Nat} {s : State} {js : JoinSet} (h : kget? (getGang s gid).joinSets set = some js)
    {m : Nat} (hm : m ∈ js.members) (hw : m ∉ js.waiting) : recount gid set s = s := by
  unfold recount
  dsimp only
  rw [h]
  dsimp only
  rw [if_neg (by simp [List.ne_nil_of_mem hm]), if_neg (by simpa using ⟨m, hm, hw⟩)]

theorem recount_closes {gid set : Nat} {s : State} {js : JoinSet} (h : kget? (getGang s gid).joinSets set = some js)
    (hne : js.members ≠ []) (hall : ∀ m ∈ js.members, m ∈ js.waiting) : recount gid set s = closeSet gid set s := by
  unfold recount
  dsimp only
  rw [h]
  dsimp only
  rw [if_neg (by simpa using hne), if_pos (by simpa using hall)]

theorem closeSet_joins {gid set m : Nat} {s : State} {js : JoinSet} (h : kget? (getGang s gid).joinSets set = some js) (hm : m ∈ js.members)
    (hl : (kget? (getGang s gid).fibres m).isSome = true) :
    (fibreAt (closeSet gid set s) gid m).joins = (fibreAt s gid m).joins.filter (· != set) := by
  rw [fibreAt, getGang_closeSet h]
  refine (congrArg (fun x : Fibre => x.joins) (getFibre_mapFibres (getGang s gid) (poppedFibre set js) m hl)).trans ?_
  rw [poppedFibre, if_pos (by simpa using hm)]
  rfl

/-- The machine once a set has closed, before its members go on. -/
def setClosed (gid set : Nat) (js : JoinSet) (s : State) : State :=
  let s1 := setGang s gid (closedGang (getGang s gid) set js)
  let c := getCore s1 (getGang s gid).core
  setCore s1 (getGang s gid).core { c with table := c.table.filter (fun b => !(b.gang == gid && b.wait == .join set)) }

/-- The batches in which the members of a closed set go on. -/
def closedGroups (gid set : Nat) (js : JoinSet) (s : State) : List (List Nat) :=
  groupByPc (fun f => (getFibre (closedGang (getGang s gid) set js) f).pc) (sortBy lane (js.waiting.filter (fun x => !isPinned s gid x)))

theorem closeSet_eq {gid set : Nat} {s : State} {js : JoinSet} (h : kget? (getGang s gid).joinSets set = some js) : closeSet gid set s =
    (closedGroups gid set js s).foldl (fun t grp => toTable (getGang s gid).core gid grp .ready t) (setClosed gid set js s) := by
  unfold closeSet
  dsimp only
  rw [kget, h]
  rfl

/-- Each member of a closed set that is not pinned is ready with all the members of its PC. -/
theorem closeSet_ready {gid set : Nat} {s : State} {js : JoinSet} (h : kget? (getGang s gid).joinSets set = some js)
    (hw : ∀ m ∈ js.members, m ∈ js.waiting ∧ isPinned s gid m = false) {m : Nat} (hm : m ∈ js.members) :
    ∃ b ∈ (getCore (closeSet gid set s) (getGang s gid).core).table, b.gang = gid ∧ b.wait = .ready ∧ m ∈ b.fids ∧
      (∀ x ∈ b.fids, (fibreAt (closeSet gid set s) gid x).pc = (fibreAt (closeSet gid set s) gid m).pc) ∧
      ∀ x ∈ js.members, (fibreAt (closeSet gid set s) gid x).pc = (fibreAt (closeSet gid set s) gid m).pc → x ∈ b.fids := by
  have hpc : ∀ x, (fibreAt (closeSet gid set s) gid x).pc = (getFibre (closedGang (getGang s gid) set js) x).pc := fun x => by
    rw [fibreAt, getGang_closeSet h]
  have hlist : ∀ x ∈ js.members, x ∈ sortBy lane (js.waiting.filter (fun x => !isPinned s gid x)) := fun x hx =>
    mem_sortBy.mpr (List.mem_filter.mpr ⟨(hw x hx).1, by simp [(hw x hx).2]⟩)
  obtain ⟨grp, hgrp, hmg⟩ := groupByPc_cover (pc := fun f => (getFibre (closedGang (getGang s gid) set js) f).pc) (hlist m hm)
  obtain ⟨hne, -, hsame⟩ := groupByPc_group hgrp
  obtain ⟨b, hb, hgang, rfl, hwait⟩ := mem_foldl_toTable (core := (getGang s gid).core) (gid := gid) (w := .ready) hgrp hne
    (setClosed gid set js s)
  refine ⟨b, closeSet_eq h ▸ hb, hgang, hwait, hmg, fun x hx => ?_, fun x hx hxm => ?_⟩
  · rw [hpc, hpc]
    exact hsame x hx m hmg
  · rw [hpc, hpc] at hxm
    exact groupByPc_full hgrp hmg (hlist x hx) hxm

section
variable {s : State} {e : Env}

/-- Fibres at a JOIN, all with one innermost set. -/
theorem join_oneSet_completes {f : F3} {act : List Nat} {k : Nat} {js : JoinSet} (hi : Issues true s e) (hlive : Live e)
    (hp : Plain f.h (closedEnv e)) (hact : executing f.h (closedEnv e) = act) (hne : act ≠ [])
    (hj : ∀ fid ∈ act, ∃ ks, (getFibre e.g fid).joins = k :: ks) (hk : kget? e.g.joinSets k = some js) (hmem : js.members ≠ []) :
    ∃ t, execJoin f s = .next t ∧ MemoryKept s t ∧ StandAt e (fun _ => nextPc e.pc) t ∧
      (∀ fid ∈ act, fid ∉ (getSlot t e.key).fids) ∧
      ((∃ m ∈ js.members, m ∉ js.waiting ∧ m ∉ act) →
        (∃ js1, kget? (getGang t e.gid).joinSets k = some js1 ∧ js1.members = js.members ∧ ∀ fid ∈ act, fid ∈ js1.waiting) ∧
        ∃ b ∈ (getCore t e.core).table, b.gang = e.gid ∧ b.fids = act ∧ b.wait = .join k) ∧
      ((∀ m ∈ js.members, (m ∈ js.waiting ∨ m ∈ act) ∧ isPinned s e.gid m = false) →
        kget? (getGang t e.gid).joinSets k = none ∧ ∀ m ∈ js.members,
          ((kget? e.g.fibres m).isSome = true → (fibreAt t e.gid m).joins = (getFibre e.g m).joins.filter (· != k)) ∧
          ∃ b ∈ (getCore t e.g.core).table, b.gang = e.gid ∧ b.wait = .ready ∧ m ∈ b.fids ∧
            (∀ x ∈ b.fids, (fibreAt t e.gid x).pc = (fibreAt t e.gid m).pc) ∧
            ∀ x ∈ js.members, (fibreAt t e.gid x).pc = (fibreAt t e.gid m).pc → x ∈ b.fids) := by
  have hgang : getGang (closedState e s) (closedEnv e).gid = (closedEnv e).g := getGang_closedState e s
  have hjoins : ∀ fid ∈ act, ∃ ks, (fibreAt (closedState e s) (closedEnv e).gid fid).joins = k :: ks := fun fid hf => by
    obtain ⟨ks, hks⟩ := hj fid hf
    exact ⟨ks, (congrArg (·.joins) (fibreAt_closedState e s fid)).trans ((closedEnv_joins e fid).trans hks)⟩
  have hsets : kget? (getGang (closedState e s) (closedEnv e).gid).joinSets k = some js := by rw [hgang]; exact hk
  have hslot : (getSlot (closedState e s) (closedEnv e).key).txn = none := (congrArg (·.txn) (getSlot_closedState hi.env)).trans hp.txn
  have hset := joinSet_joinWaits hjoins hsets
  have hone := joinWave_one hne hjoins
  refine ⟨_, hact ▸ execJoin_runs hi hp.clean hp.txn, memoryKept_closedState.trans memoryKept_joinWave, standAt_joinWave hlive _,
    fun fid hf hs => ?_, fun ⟨m, hm, hw, hma⟩ => ?_, fun hall => ?_⟩
  · obtain ⟨ks, hks⟩ := hjoins fid hf
    have hnil := ((mem_slot_joinWave (e := closedEnv e) hf).mp hs).2
    exact absurd (hks.symm.trans hnil) (by simp)
  · rw [hone, recount_waits hset hm (by simp [mem_noteLines, hw, hma])]
    refine ⟨⟨_, hset, rfl, fun fid hf => mem_noteLines.mpr (.inl hf)⟩, ?_⟩
    exact mem_toTable _ _ hne
  · rw [hone, recount_closes hset hmem fun m hm => mem_noteLines.mpr (hall m hm).1.symm]
    refine ⟨?_, fun m hm => ⟨fun hl => ?_, ?_⟩⟩
    · exact (congrArg (fun g : Gang => kget? g.joinSets k) (getGang_closeSet hset)).trans (kget?_kdel_same ..)
    · refine (closeSet_joins hset hm ?_).trans ?_
      · rw [live_joinWaits, hgang]
        exact (kget?_mapFibres ..).symm ▸ Option.isSome_map.trans hl
      · rw [fibreAt_joinWaits, fibre_retirePlain (q := fun x => x.joins) fun _ => rfl]
        exact congrArg (List.filter (· != k)) ((congrArg (·.joins) (fibreAt_closedState e s m)).trans (closedEnv_joins e m))
    · have h := closeSet_ready hset (fun m hm => ⟨mem_noteLines.mpr (hall m hm).1.symm, isPinned_joinWaits hslot (hall m hm).2⟩) hm
      rwa [core_joinWaits, hgang] at h

end

/-! ### Barriers (R43, R304, R305) -/

section
variable {s : State} {e : Env} {act : List Nat} {w : Wait}

theorem arrive_part {α : Type} {p : State → α} (hg : ∀ s g v, p (setGang s g v) = p s) (hs : ∀ s k v, p (setSlot s k v) = p s)
    (hc : ∀ s c v, p (setCore s c v) = p s) : p (arrive e act w s) = p s := by
  rw [arrive, toTable_part p hc, leaveSlot, hs, retirePlain, retire_part hg hs hc]

theorem memoryKept_arrive : MemoryKept s (arrive e act w s) :=
  ⟨arrive_part (p := (·.mem)) (fun _ _ _ => rfl) (fun _ _ _ => rfl) (fun _ _ _ => rfl),
    arrive_part (p := (·.hostMem)) (fun _ _ _ => rfl) (fun _ _ _ => rfl) (fun _ _ _ => rfl),
    arrive_part (p := (·.peerMem)) (fun _ _ _ => rfl) (fun _ _ _ => rfl) (fun _ _ _ => rfl)⟩

theorem memoryKept_retirePlain (e : Env) (u : Nat) (s : State) : MemoryKept s (retirePlain e u s) :=
  ⟨retire_part (p := (·.mem)) (fun _ _ _ => rfl) (fun _ _ _ => rfl) (fun _ _ _ => rfl) ..,
    retire_part (p := (·.hostMem)) (fun _ _ _ => rfl) (fun _ _ _ => rfl) (fun _ _ _ => rfl) ..,
    retire_part (p := (·.peerMem)) (fun _ _ _ => rfl) (fun _ _ _ => rfl) (fun _ _ _ => rfl) ..⟩

/-- The fibres have left the slot, and stand in the table as one batch that waits or is ready. -/
def Queued (e : Env) (act : List Nat) (w : Wait) (t : State) : Prop := (∀ fid ∈ act, fid ∉ (getSlot t e.key).fids) ∧
  (act ≠ [] → ∃ b ∈ (getCore t e.core).table, b.gang = e.gid ∧ b.fids = act ∧ (b.wait = w ∨ b.wait = .ready))

theorem queued_arrive : Queued e act w (arrive e act w s) := by
  refine ⟨fun fid hf => ?_, fun hne => ?_⟩
  · rw [arrive, toTable_part (getSlot · e.key) (fun _ _ _ => rfl), leaveSlot_fids, mem_without]
    exact fun h => h.2 hf
  · obtain ⟨b, hb, hgang, hfids, hwait⟩ := mem_toTable (core := e.core) (gid := e.gid) w (leaveSlot e.key act (retirePlain e 5 s)) hne
    exact ⟨b, hb, hgang, hfids, .inl hwait⟩

/-- It stands there after a calm change. -/
theorem Queued.calm {t : State} (h : Queued e act w s) (hc : Calm s t) : Queued e act w t := by
  refine ⟨fun fid hf => ?_, fun hne => ?_⟩
  · rw [getSlot, hc.slots]
    exact h.1 fid hf
  · obtain ⟨b, hb, hgang, hfids, hwait⟩ := h.2 hne
    obtain ⟨b', hb', hgang', hfids', hwait'⟩ := hc.table e.core b hb
    refine ⟨b', hb', hgang'.trans hgang, hfids'.trans hfids, ?_⟩
    rcases hwait' with h | h
    · rw [h]; exact hwait
    · exact .inr h

theorem pc_checkBar (gid g fid : Nat) (s : State) : (fibreAt (checkBar gid s) g fid).pc = (fibreAt s g fid).pc := by
  unfold checkBar
  split
  · by_cases hg : g = gid
    · subst hg
      rw [fibreAt, getGang_passGang]
      exact getFibre_mapFibres_part (p := fun x => x.pc) (passedFibre_part (fun x : Fibre => x.pc) (fun _ => rfl) s g .bar) fid
    · rw [fibreAt, passGang, getGang_setGang_ne _ _ hg]; rfl
  · rfl

theorem fibreAt_arrive (fid : Nat) : fibreAt (arrive e act w s) e.gid fid = fibreAt (retirePlain e 5 s) e.gid fid :=
  toTable_part (fibreAt · e.gid fid) (fun _ _ _ => rfl) ..

theorem bar_completes {f : F3} (hi : Issues true s e) (hlive : Live e) (hp : Plain f.h (closedEnv e))
    (hr : (release (closedEnv e) (executing f.h (closedEnv e)) 0 (closedState e s)).1 = true) :
    ∃ t, execBar f s = .next t ∧ StandAt e (fun _ => nextPc e.pc) t ∧ MemoryKept s t ∧ Queued e (executing f.h (closedEnv e)) .bar t := by
  generalize hact : executing f.h (closedEnv e) = act at hr ⊢
  let r := (release (closedEnv e) act 0 (closedState e s)).2
  have hexec : execBar f s = .next (checkBar e.gid (arrive (closedEnv e) act .bar r)) := by
    rw [execBar, issue_waits hi, forbidInTxn_none hp.txn, guardPoison_nil hp.clean, orTrap_nil, hact]
    dsimp only
    rw [hr]
    rfl
  have hcalm : Calm (arrive (closedEnv e) act .bar r) (checkBar e.gid (arrive (closedEnv e) act .bar r)) := calm_checkBar ..
  refine ⟨_, hexec, fun fid hf => ?_, ?_, queued_arrive.calm hcalm⟩
  · have hgang : getGang r e.gid = (closedEnv e).g :=
      (release_part (p := (getGang · e.gid)) (fun _ _ _ _ _ _ => rfl) hr).trans (getGang_closedState e s)
    rw [pc_checkBar]
    refine (congrArg (·.pc) (fibreAt_arrive (e := closedEnv e) fid)).trans ?_
    have h := fibreAt_retire (e := closedEnv e) (s := r) 5 (fun _ => Wr.none) (fun _ => none) (fun _ => nextPc e.pc) hf
      (by rw [show getGang r (closedEnv e).gid = _ from hgang]; exact live_closedEnv hlive fid hf)
    exact congrArg (·.pc) h
  · exact memoryKept_closedState.trans ((calm_release hr).memory.trans (memoryKept_arrive.trans hcalm.memory))

theorem barx_completes {f : F3} (hi : Issues true s e) (hp : Plain f.h (closedEnv e)) (hsize : 2 ≤ (getCrew s e.g.crew).size)
    (hchain : chainsPending (closedState e s) e.gid = false)
    (hr : (release (closedEnv e) (executing f.h (closedEnv e)) 0 (closedState e s)).1 = true) :
    ∃ t, execBarx f s = .next t ∧ MemoryKept s t ∧ Queued e (executing f.h (closedEnv e)) .barx t := by
  generalize hact : executing f.h (closedEnv e) = act at hr ⊢
  let r := (release (closedEnv e) act 0 (closedState e s)).2
  have hcrew : ¬ (getCrew (closedState e s) (closedEnv e).g.crew).size < 2 := by
    change ¬ (getCrew s e.g.crew).size < 2
    omega
  have hexec : execBarx f s = if act.isEmpty then .next (retirePlain (closedEnv e) 5 (closedState e s))
      else .next (checkBarx e.g.crew (arrive (closedEnv e) act .barx r)) := by
    rw [execBarx, issue_waits hi, forbidInTxn_none hp.txn, guardPoison_nil hp.clean, if_neg hcrew, List.append_nil, orTrap_nil, hact]
    rw [show chainsPending (closedState e s) (closedEnv e).gid = false from hchain]
    dsimp only
    rw [hr]
    rfl
  by_cases hempty : act = []
  · subst hempty
    refine ⟨_, hexec, (memoryKept_closedState (e := e)).trans ?_, fun _ hf => absurd hf (by simp), fun h => absurd rfl h⟩
    exact memoryKept_retirePlain (closedEnv e) 5 _
  · rw [if_neg (by simpa using hempty)] at hexec
    have hcalm : Calm (arrive (closedEnv e) act .barx r) (checkBarx e.g.crew (arrive (closedEnv e) act .barx r)) := calm_checkBarx ..
    exact ⟨_, hexec, memoryKept_closedState.trans ((calm_release hr).memory.trans (memoryKept_arrive.trans hcalm.memory)),
      queued_arrive.calm hcalm⟩

end

/-- Settles O11: a JOIN and a BAR retire their wave; the fibres that wait stand in the table, and a set that closes sends its members on. -/
theorem joinsAndBarriersComplete : Obligations.JoinsAndBarriersComplete := by
  unfold Obligations.JoinsAndBarriersComplete
  refine ⟨fun f s e hi hlive hg => ?_, fun f s e hi hlive hp hr => ?_, fun f s e k js hi hlive hp hne hj hk hmem => ?_,
    fun f s e hi hp hsize hchain hr => ?_⟩
  · obtain ⟨t, ht, h⟩ := join_completes hi hlive hg
    exact ⟨t, (show exec (.join f) s = execJoin f s from rfl).trans ht, h⟩
  · obtain ⟨t, ht, h⟩ := bar_completes hi hlive hp hr
    exact ⟨t, (show exec (.bar f) s = execBar f s from rfl).trans ht, h⟩
  · obtain ⟨t, ht, h⟩ := join_oneSet_completes hi hlive hp rfl hne hj hk hmem
    exact ⟨t, (show exec (.join f) s = execJoin f s from rfl).trans ht, h⟩
  · obtain ⟨t, ht, h⟩ := barx_completes hi hp hsize hchain hr
    exact ⟨t, (show exec (.barx f) s = execBarx f s from rfl).trans ht, h⟩

end Sys2Proof.Machine
end

section
/-! PROOF. SPAWN, QUIT and YIELD (R26, R27, R34, R301 to R303): fibres that begin, end or are set aside (O12). -/
namespace Sys2Proof.Machine

/-! ### YIELD -/

/-- The progress count of a yielding fibre is kept (R303). -/
def keptProgress (g : Gang) (act : List Nat) (fid : Nat) (x : Fibre) : Fibre :=
  if act.contains fid then { x with progress := (getFibre g fid).progress } else x

/-- The machine after a YIELD. -/
def yielded (e : Env) (act : List Nat) (s : State) : State :=
  toTable e.core e.gid act .ready (leaveSlot e.key act (setGang (retirePlain e 5 s) e.gid
    (mapFibres (getGang (retirePlain e 5 s) e.gid) (keptProgress e.g act))))

section
variable {s : State} {e : Env} {act : List Nat}

theorem yielded_part {α : Type} {p : State → α} (hg : ∀ s g v, p (setGang s g v) = p s) (hs : ∀ s k v, p (setSlot s k v) = p s)
    (hc : ∀ s c v, p (setCore s c v) = p s) : p (yielded e act s) = p s := by
  rw [yielded, toTable_part p hc, leaveSlot, hs, hg, retirePlain, retire_part hg hs hc]

theorem memoryKept_yielded : MemoryKept s (yielded e act s) :=
  ⟨yielded_part (p := (·.mem)) (fun _ _ _ => rfl) (fun _ _ _ => rfl) (fun _ _ _ => rfl),
    yielded_part (p := (·.hostMem)) (fun _ _ _ => rfl) (fun _ _ _ => rfl) (fun _ _ _ => rfl),
    yielded_part (p := (·.peerMem)) (fun _ _ _ => rfl) (fun _ _ _ => rfl) (fun _ _ _ => rfl)⟩

theorem slot_yielded {fid : Nat} (hf : fid ∈ act) : fid ∉ (getSlot (yielded e act s) e.key).fids := by
  rw [yielded, toTable_part (getSlot · e.key) (fun _ _ _ => rfl), leaveSlot_fids, mem_without]
  exact fun h => h.2 hf

theorem getGang_yielded : getGang (yielded e act s) e.gid = mapFibres (getGang (retirePlain e 5 s) e.gid) (keptProgress e.g act) := by
  rw [yielded, toTable_part (getGang · e.gid) (fun _ _ _ => rfl)]
  exact getGang_setGang ..

theorem fibreAt_yielded (hlive : Live e) {fid : Nat} (hf : fid ∈ e.fids) : fibreAt (yielded (closedEnv e) act (closedState e s)) e.gid fid =
    keptProgress (closedEnv e).g act fid (retireFibre Wr.none none (nextPc e.pc) (getFibre (closedEnv e).g fid)) := by
  have hfib := fibreAt_retirePlain_closed (s := s) hlive 5 hf
  have hl : (kget? (getGang (retirePlain (closedEnv e) 5 (closedState e s)) (closedEnv e).gid).fibres fid).isSome = true := by
    rw [retirePlain, getGang_retire, kget?_mapFibres, Option.isSome_map,
      show getGang (closedState e s) (closedEnv e).gid = _ from getGang_closedState e s]
    exact live_closedEnv hlive fid hf
  rw [← hfib]
  exact (congrArg (getFibre · fid) (getGang_yielded (e := closedEnv e))).trans (getFibre_mapFibres _ _ fid hl)

theorem keptProgress_part {α : Type} {q : Fibre → α} (hq : ∀ x n, q { x with progress := n } = q x) (g : Gang) (fid : Nat) (x : Fibre) :
    q (keptProgress g act fid x) = q x := by
  unfold keptProgress
  split
  · exact hq ..
  · rfl

/-- A fibre whose wave retires an instruction that writes nothing keeps its registers. -/
theorem registersKept_retireFibre (pc : W64) (x : Fibre) : RegistersKept x (retireFibre Wr.none none pc x) := by
  have h := fibreKept_retireFibre (regs := []) (preds := []) .none none pc x
  exact ⟨fun n => h.reg n (by simp), fun n => h.pred n (by simp), h.modes, retireFibre_win .., retireFibre_waitlimit ..⟩

theorem registersKept_keptProgress {g : Gang} {fid : Nat} {x y : Fibre} (h : RegistersKept x y) : RegistersKept x (keptProgress g act fid y) := by
  have hq : ∀ {α : Type} (q : Fibre → α), (∀ x n, q { x with progress := n } = q x) → q (keptProgress g act fid y) = q y :=
    fun q hq => keptProgress_part hq g fid y
  exact ⟨fun n hn => (hq (readReg · n) fun _ _ => rfl).trans (h.reg n hn), fun n hn => (hq (readPred · n) fun _ _ => rfl).trans (h.pred n hn),
    (hq (fun x => x.fpmode &&& ~~~flagMask) fun _ _ => rfl).trans h.modes, (hq (·.win) fun _ _ => rfl).trans h.win,
    (hq (·.waitlimit) fun _ _ => rfl).trans h.waitlimit⟩

theorem yield_completes {f : F3} (hi : Issues true s e) (hlive : Live e) (hp : Plain f.h (closedEnv e)) :
    ∃ t, execYield f s = .next t ∧ StandAt e (fun _ => nextPc e.pc) t ∧ MemoryKept s t ∧
      (∀ fid ∈ executing f.h (closedEnv e), fid ∉ (getSlot t e.key).fids ∧ (fibreAt t e.gid fid).progress = (getFibre e.g fid).progress) ∧
      (∀ fid ∈ e.fids, RegistersKept (getFibre (closedEnv e).g fid) (fibreAt t e.gid fid)) ∧
      (executing f.h (closedEnv e) ≠ [] → ∃ b ∈ (getCore t e.core).table, b.gang = e.gid ∧ b.wait = .ready ∧
        b.fids = executing f.h (closedEnv e)) := by
  have hexec : execYield f s = .next (yielded (closedEnv e) (executing f.h (closedEnv e)) (closedState e s)) := by
    rw [execYield, issue_waits hi, forbidInTxn_none hp.txn, guardPoison_nil hp.clean, orTrap_nil]
    rfl
  have hfib := fun fid (hf : fid ∈ e.fids) => fibreAt_yielded (s := s) (act := executing f.h (closedEnv e)) hlive hf
  refine ⟨_, hexec, fun fid hf => ?_, memoryKept_closedState.trans memoryKept_yielded, fun fid hf => ⟨slot_yielded hf, ?_⟩, fun fid hf => ?_,
    fun hne => ?_⟩
  · rw [hfib fid hf, keptProgress_part (q := fun x => x.pc) fun _ _ => rfl, retireFibre_pc]
  · rw [hfib fid (List.mem_of_mem_filter hf), keptProgress, if_pos (by simpa using hf)]
    exact closedEnv_part (p := fun x => x.progress) (fun _ _ _ _ _ _ _ => rfl) e fid
  · rw [hfib fid hf]
    exact registersKept_keptProgress (registersKept_retireFibre ..)
  · obtain ⟨b, hb, hgang, hfids, hwait⟩ := mem_toTable .ready _ hne
    exact ⟨b, hb, hgang, hwait, hfids⟩

end

/-! ### A fibre ends (R27) -/

theorem kget?_filter {α : Type} (q : Nat → Bool) (m : KMap α) {n : Nat} (h : q n = true) : kget? (m.filter (fun e => q e.1)) n = kget? m n := by
  induction m with
  | nil => rfl
  | cons a m ih =>
    obtain ⟨j, v⟩ := a
    by_cases hj : q j = true
    · rw [List.filter_cons_of_pos (p := fun e : Nat × α => q e.1) hj]
      by_cases hn : j = n
      · exact (if_pos hn).trans (if_pos hn).symm
      · exact (if_neg hn).trans (ih.trans (if_neg hn).symm)
    · rw [List.filter_cons_of_neg (p := fun e : Nat × α => q e.1) hj]
      exact ih.trans (if_neg (fun hn : j = n => hj (hn ▸ h))).symm

theorem kget?_kdel_ne {α : Type} (m : KMap α) {n k : Nat} (h : k ≠ n) : kget? (kdel m n) k = kget? m k :=
  kget?_filter (· != n) m (bne_iff_ne.mpr h)

section
variable {α : Type} {q : Core → α} (hq : ∀ c tb, q { c with table := tb } = q c)
include hq

/-- Batches put into a table change the table of the core, no other part of it. -/
theorem core_toTable (core gid c : Nat) (fids : List Nat) (w : Wait) (s : State) : q (getCore (toTable core gid fids w s) c) = q (getCore s c) := by
  unfold toTable
  split
  · rfl
  · by_cases hc : c = core
    · subst hc; rw [getCore_setCore, hq]
    · rw [getCore_setCore_ne _ _ hc]

theorem core_closeSet (gid set c : Nat) (s : State) : q (getCore (closeSet gid set s) c) = q (getCore s c) := by
  unfold closeSet
  dsimp only
  rw [foldl_part (fun s => q (getCore s c)) (fun s grp => core_toTable hq _ gid c grp .ready s)]
  by_cases hc : c = (getGang s gid).core
  · subst hc; rw [getCore_setCore, hq]; rfl
  · rw [getCore_setCore_ne _ _ hc]; rfl

theorem core_recount (gid set c : Nat) (s : State) : q (getCore (recount gid set s) c) = q (getCore s c) := by
  unfold recount
  dsimp only
  split
  · rfl
  · split
    · rfl
    · split
      · exact core_closeSet hq ..
      · rfl

theorem core_leaveJoins (gid fid c : Nat) (s : State) : q (getCore (leaveJoins gid fid s) c) = q (getCore s c) :=
  foldl_part (fun s => q (getCore s c)) (fun s k => core_recount hq gid k c s) _ _

end

section
variable {α : Type} {q : Gang → α} (hq : ∀ g f js, q { g with fibres := f, joinSets := js } = q g)
include hq

theorem gang_recount (gid set : Nat) (s : State) : q (getGang (recount gid set s) gid) = q (getGang s gid) := by
  unfold recount
  dsimp only
  split
  · rfl
  next js hjs =>
    split
    · rw [getGang_setGang]; exact hq (getGang s gid) (getGang s gid).fibres _
    · split
      · rw [getGang_closeSet hjs]; exact hq (getGang s gid) (closedGang (getGang s gid) set js).fibres (kdel (getGang s gid).joinSets set)
      · rfl

theorem gang_leaveJoins (gid fid : Nat) (s : State) : q (getGang (leaveJoins gid fid s) gid) = q (getGang s gid) := by
  unfold leaveJoins
  dsimp only
  rw [foldl_part (fun s => q (getGang s gid)) (fun s k => gang_recount hq gid k s), getGang_setGang]
  exact hq (getGang s gid) _ _

end

theorem leaveJoins_part {α : Type} {p : State → α} (hg : ∀ s g v, p (setGang s g v) = p s) (hc : ∀ s c v, p (setCore s c v) = p s)
    (gid fid : Nat) (s : State) : p (leaveJoins gid fid s) = p s :=
  (foldl_part p (fun s k => recount_part hg hc gid k s) _ _).trans (hg ..)

/-- A fibre that has left its sets. -/
def unjoined (fid i : Nat) (x : Fibre) : Fibre := if i = fid then { x with joins := [] } else x

/-- A fibre leaves its sets: the lists of open sets change, no other part of a fibre. -/
theorem fibre_leaveJoins {α : Type} {q : Fibre → α} (hq : ∀ x js, q { x with joins := js } = q x) (gid fid k : Nat) (s : State) :
    (kget? (getGang (leaveJoins gid fid s) gid).fibres k).map q = (kget? (getGang s gid).fibres k).map q := by
  unfold leaveJoins
  dsimp only
  rw [foldl_part (fun s => (kget? (getGang s gid).fibres k).map q) (fun s set => recount_fibre hq gid set gid k s), getGang_setGang]
  refine map_mapFibres_part (g := getGang s gid) (fn := unjoined fid) (fun k x => ?_) k
  unfold unjoined
  split
  · exact hq ..
  · rfl

section
variable {α : Type} {gid fid : Nat} {s : State}

/-- The end of a fibre touches its gang, its core and what it has under way. -/
theorem endFibre_part {p : State → α} (hg : ∀ s g v, p (setGang s g v) = p s) (hc : ∀ s c v, p (setCore s c v) = p s)
    (ho : ∀ s r sl cl d pk a, p { s with reqs := r, slots := sl, clusters := cl, drains := d, packets := pk, acks := a } = p s) :
    p (endFibre gid fid s) = p s := by
  unfold endFibre outlive
  dsimp only
  exact (ho ..).trans ((hc ..).trans ((hg ..).trans (leaveJoins_part hg hc gid fid s)))

theorem gang_endFibre : getGang (endFibre gid fid s) gid = { getGang (leaveJoins gid fid s) gid with
    fibres := kdel (getGang (leaveJoins gid fid s) gid).fibres fid
    asyncs := (getGang (leaveJoins gid fid s) gid).asyncs.filter (fun a => a.fid != fid) } := getGang_setGang ..

theorem core_endFibre : (getGang (endFibre gid fid s) gid).core = (getGang s gid).core := by
  rw [gang_endFibre]
  exact gang_leaveJoins (q := fun g => g.core) (fun _ _ _ => rfl) gid fid s

/-- The fibre is gone, the others stand. -/
theorem fibres_endFibre {q : Fibre → α} (hq : ∀ x js, q { x with joins := js } = q x) (k : Nat) :
    (kget? (getGang (endFibre gid fid s) gid).fibres k).map q = if k = fid then none else (kget? (getGang s gid).fibres k).map q := by
  rw [gang_endFibre]
  split
  next h => subst h; rw [kget?_kdel_same]; rfl
  next h => rw [kget?_kdel_ne _ h, fibre_leaveJoins hq]

/-- Its block is free, the others are held. -/
theorem blocks_endFibre : (getCore (endFibre gid fid s) (getGang s gid).core).blocks =
    (getCore s (getGang s gid).core).blocks.filter (fun b => !(b.gang == gid && b.fid == fid)) := by
  have hcore : (getGang (leaveJoins gid fid s) gid).core = (getGang s gid).core :=
    gang_leaveJoins (q := fun g => g.core) (fun _ _ _ => rfl) gid fid s
  rw [← core_leaveJoins (q := fun c => c.blocks) (fun _ _ => rfl) gid fid _ s, ← hcore]
  unfold endFibre outlive
  dsimp only
  exact congrArg (·.blocks) (getCore_setCore ..)

/-- The log of a slot once a fibre has ended: its entries name another number. -/
def outlivedSlot (gid fid : Nat) (v : Slot) : Slot :=
  { v with log := v.log.map (fun l => if l.gang = gid then { l with fids := l.fids.map (fun x => if x = fid then fid + 2048 else x) } else l) }

theorem slotFids_endFibre (key : Nat) : (getSlot (endFibre gid fid s) key).fids = (getSlot s key).fids := by
  have hslots : (leaveJoins gid fid s).slots = s.slots := leaveJoins_part (p := (·.slots)) (fun _ _ _ => rfl) (fun _ _ _ => rfl) gid fid s
  refine (kget_map_part (f := fun _ v => outlivedSlot gid fid v) (p := fun sl : Slot => sl.fids) (fun _ _ => rfl) key).trans ?_
  exact congrArg (fun m => (kget m key Slot.init).fids) hslots

end

/-- The machine once fibres of a gang have ended. -/
def endFibres (gid : Nat) (act : List Nat) (s : State) : State := act.foldl (fun s fid => endFibre gid fid s) s

section
variable {α : Type} {gid : Nat}

theorem fibres_endFibres {q : Fibre → α} (hq : ∀ x js, q { x with joins := js } = q x) (act : List Nat) (s : State) (k : Nat) :
    (kget? (getGang (endFibres gid act s) gid).fibres k).map q = if k ∈ act then none else (kget? (getGang s gid).fibres k).map q := by
  induction act generalizing s with
  | nil => rfl
  | cons a as ih =>
    refine (ih (endFibre gid a s)).trans ?_
    rw [fibres_endFibre hq]
    by_cases hka : k = a <;> by_cases hks : k ∈ as <;> simp [hka, hks]

theorem blocks_endFibres (act : List Nat) (s : State) : ∀ b ∈ (getCore (endFibres gid act s) (getGang s gid).core).blocks,
    b ∈ (getCore s (getGang s gid).core).blocks ∧ (b.gang = gid → b.fid ∉ act) := by
  induction act generalizing s with
  | nil => exact fun b hb => ⟨hb, fun _ => by simp⟩
  | cons a as ih =>
    intro b hb
    have h := ih (endFibre gid a s) b (by rw [core_endFibre]; exact hb)
    rw [core_endFibre, blocks_endFibre, List.mem_filter] at h
    obtain ⟨⟨hb, hba⟩, has⟩ := h
    refine ⟨hb, fun hg => ?_⟩
    have hne : b.fid ≠ a := by simpa [hg] using hba
    simp [hne, has hg]

theorem endFibres_part {p : State → α} (hg : ∀ s g v, p (setGang s g v) = p s) (hc : ∀ s c v, p (setCore s c v) = p s)
    (ho : ∀ s r sl cl d pk a, p { s with reqs := r, slots := sl, clusters := cl, drains := d, packets := pk, acks := a } = p s)
    (act : List Nat) (s : State) : p (endFibres gid act s) = p s :=
  foldl_part p (fun _ _ => endFibre_part hg hc ho) act s

theorem slotFids_endFibres (act : List Nat) (s : State) (key : Nat) : (getSlot (endFibres gid act s) key).fids = (getSlot s key).fids :=
  foldl_part (fun s => (getSlot s key).fids) (fun _ _ => slotFids_endFibre key) act s

end

/-! ### QUIT (R302) -/

section
variable {s : State} {e : Env} {act : List Nat}

/-- The machine once the fibres of a QUIT have ended, before barriers open. -/
def quitted (e : Env) (act : List Nat) (s : State) : State := endFibres e.gid act (leaveSlot e.key act (retirePlain e 5 s))

/-- What else follows a QUIT: the status words, the tile of its task, and barriers that were waiting for it. -/
def afterQuit (e : Env) (s : State) : State := checkBarx e.g.crew (checkBar e.gid (checkReleased e.g.task (refreshAlloc e.core s)))

theorem calm_afterQuit : Calm s (afterQuit e s) :=
  (((calm_refreshAlloc ..).trans (calm_checkReleased ..)).trans (calm_checkBar ..)).trans (calm_checkBarx ..)

theorem quitted_part {α : Type} {p : State → α} (hg : ∀ s g v, p (setGang s g v) = p s) (hs : ∀ s k v, p (setSlot s k v) = p s)
    (hc : ∀ s c v, p (setCore s c v) = p s)
    (ho : ∀ s r sl cl d pk a, p { s with reqs := r, slots := sl, clusters := cl, drains := d, packets := pk, acks := a } = p s) :
    p (quitted e act s) = p s := by
  rw [quitted, endFibres_part hg hc ho, leaveSlot, hs, retirePlain, retire_part hg hs hc]

theorem memoryKept_quitted : MemoryKept s (quitted e act s) :=
  ⟨quitted_part (p := (·.mem)) (fun _ _ _ => rfl) (fun _ _ _ => rfl) (fun _ _ _ => rfl) (fun _ _ _ _ _ _ _ => rfl),
    quitted_part (p := (·.hostMem)) (fun _ _ _ => rfl) (fun _ _ _ => rfl) (fun _ _ _ => rfl) (fun _ _ _ _ _ _ _ => rfl),
    quitted_part (p := (·.peerMem)) (fun _ _ _ => rfl) (fun _ _ _ => rfl) (fun _ _ _ => rfl) (fun _ _ _ _ _ _ _ => rfl)⟩

theorem slot_quitted (key : Nat) (h : key = e.key) : (getSlot (quitted e act s) key).fids = without (getSlot s key).fids act := by
  subst h
  rw [quitted, slotFids_endFibres, leaveSlot_fids, getSlot_retirePlain, issuedSlot_fids]

theorem fibres_quitted {α : Type} {q : Fibre → α} (hq : ∀ x js, q { x with joins := js } = q x) (k : Nat) :
    (kget? (getGang (quitted e act s) e.gid).fibres k).map q =
      if k ∈ act then none else (kget? (getGang (retirePlain e 5 s) e.gid).fibres k).map q := fibres_endFibres hq act _ k

theorem blocks_quitted : ∀ b ∈ (getCore (quitted e act s) (getGang s e.gid).core).blocks, ¬ (b.gang = e.gid ∧ b.fid ∈ act) := by
  have hcore : (getGang (leaveSlot e.key act (retirePlain e 5 s)) e.gid).core = (getGang s e.gid).core := by
    rw [leaveSlot, getGang_setSlot, retirePlain, getGang_retire, mapFibres_core]
  intro b hb h
  exact (blocks_endFibres act _ b (hcore ▸ hb)).2 h.1 h.2

/-- After a calm change a fibre is there that was there before. -/
theorem Calm.isSome {t : State} (h : Calm s t) (g fid : Nat) :
    (kget? (getGang t g).fibres fid).isSome = (kget? (getGang s g).fibres fid).isSome := by
  simpa using congrArg Option.isSome ((h.gang g).fibre fid)

theorem quit_completes {f : F3} (hi : Issues true s e) (hp : Plain f.h (closedEnv e)) :
    ∃ t, execQuit f s = .next t ∧ MemoryKept s t ∧
      (∀ fid ∈ executing f.h (closedEnv e), kget? (getGang t e.gid).fibres fid = none ∧ fid ∉ (getSlot t e.key).fids ∧
        ∀ b ∈ (getCore t e.g.core).blocks, ¬ (b.gang = e.gid ∧ b.fid = fid)) ∧
      (NoSleeper s e.gid → ∀ fid ∈ e.fids, fid ∉ executing f.h (closedEnv e) → (kget? e.g.fibres fid).isSome = true →
        (fibreAt t e.gid fid).pc = nextPc e.pc ∧ fid ∈ (getSlot t e.key).fids) := by
  generalize hact : executing f.h (closedEnv e) = act
  have hexec : execQuit f s = if act.isEmpty then .next (retirePlain (closedEnv e) 5 (closedState e s))
      else .next (afterQuit (closedEnv e) (quitted (closedEnv e) act (closedState e s))) := by
    rw [execQuit, issue_waits hi, forbidInTxn_none hp.txn, guardPoison_nil hp.clean, orTrap_nil, hact]
    rfl
  have hgang : getGang (closedState e s) (closedEnv e).gid = (closedEnv e).g := getGang_closedState e s
  have hslot : (getSlot (closedState e s) (closedEnv e).key).fids = e.fids := by
    rw [show getSlot (closedState e s) (closedEnv e).key = e.sl from getSlot_closedState hi.env, fids_of_envOf hi.env hp.txn]
  have hpc : ∀ fid ∈ e.fids, (kget? e.g.fibres fid).isSome = true →
      (fibreAt (retirePlain (closedEnv e) 5 (closedState e s)) e.gid fid).pc = nextPc e.pc := fun fid hf hl => by
    have h := fibreAt_retire (e := closedEnv e) (s := closedState e s) 5 (fun _ => Wr.none) (fun _ => none) (fun _ => nextPc e.pc) hf
      (by rw [hgang]; exact (kget?_mapFibres ..).symm ▸ Option.isSome_map.trans hl)
    exact congrArg (·.pc) h
  by_cases hempty : act = []
  · subst hempty
    refine ⟨_, hexec, (memoryKept_closedState (e := e)).trans (memoryKept_retirePlain (closedEnv e) 5 _), fun _ hf => absurd hf (by simp),
      fun _ fid hf _ hl => ⟨hpc fid hf hl, ?_⟩⟩
    rw [show getSlot _ e.key = _ from getSlot_retirePlain (closedEnv e) (closedState e s) 5, issuedSlot_fids, hslot]
    exact hf
  · rw [if_neg (by simpa using hempty)] at hexec
    have hcalm : Calm (quitted (closedEnv e) act (closedState e s)) (afterQuit (closedEnv e) (quitted (closedEnv e) act (closedState e s))) :=
      calm_afterQuit
    have hfids : (getSlot (afterQuit (closedEnv e) (quitted (closedEnv e) act (closedState e s))) e.key).fids = without e.fids act := by
      rw [getSlot, hcalm.slots]
      exact (slot_quitted e.key rfl).trans (congrArg (without · act) hslot)
    refine ⟨_, hexec, memoryKept_closedState.trans (memoryKept_quitted.trans hcalm.memory), fun fid hf => ⟨?_, ?_, ?_⟩, fun hn fid hf ha hl =>
      ⟨?_, ?_⟩⟩
    · have h : (kget? (getGang (quitted (closedEnv e) act (closedState e s)) e.gid).fibres fid).map (fun x => x.pc) = none :=
        (fibres_quitted (fun _ _ => rfl) fid).trans (if_pos hf)
      have h' := hcalm.isSome e.gid fid
      rw [Option.map_eq_none_iff.mp h] at h'
      simpa using h'
    · rw [hfids, mem_without]
      exact fun h => h.2 hf
    · rw [hcalm.blocks]
      intro b hb h
      refine blocks_quitted (e := closedEnv e) (s := closedState e s) (act := act) b ?_ ⟨h.1, h.2 ▸ hf⟩
      rw [hgang]
      exact hb
    · have hn' : NoSleeper (quitted (closedEnv e) act (closedState e s)) e.gid := by
        rw [NoSleeper, quitted_part (p := (·.sleepers)) (fun _ _ _ => rfl) (fun _ _ _ => rfl) (fun _ _ _ => rfl) (fun _ _ _ _ _ _ _ => rfl)]
        exact hn
      rw [hcalm.pc e.gid hn', ← hpc fid hf hl]
      exact fibreAt_of_map (q := fun x => x.pc) ((fibres_quitted (e := closedEnv e) (fun _ _ => rfl) fid).trans (if_neg ha))
    · rw [hfids, mem_without]
      exact ⟨hf, ha⟩

end

/-! ### SPAWN (R26, R301) -/

/-- A fetch reads no gang. -/
theorem touchFetchAt_setGang (ctx : Nat) (pc : W64) (gid : Nat) (v : Gang) (s : State) :
    touchFetchAt ctx pc (setGang s gid v) = setGang (touchFetchAt ctx pc s) gid v := by
  unfold touchFetchAt
  rw [show checkWindow (setGang s gid v) ctx (lineOf pc) pathVec 4 = checkWindow s ctx (lineOf pc) pathVec 4 from rfl]
  cases checkWindow s ctx (lineOf pc) pathVec 4 with
  | error => rfl
  | ok ia =>
    dsimp only
    split
    · rfl
    · rw [show translate (setGang s gid v) ctx ia true false = translate s ctx ia true false from rfl]
      cases translate s ctx ia true false with
      | error => rfl
      | ok l =>
        dsimp only
        unfold setAccessed
        split <;> rfl

theorem targetsSeen_closed (e : Env) (act : List Nat) (dest : Nat → W64) (s : State) :
    targetsSeen (closedEnv e) act dest (closedState e s) = closedState e (targetsSeen e act dest s) := by
  unfold targetsSeen closedState
  induction act generalizing s with
  | nil => rfl
  | cons a as ih => rw [List.foldl_cons, List.foldl_cons, touchFetchAt_setGang]; exact ih _

/-- Fibres with nothing under way have released at scope g (R101). -/
theorem release_idle {e : Env} {act : List Nat} {s : State}
    (h : ∀ fid ∈ act, hasReq s e.gid fid = false ∧ (fibreAt s e.gid fid).flushWait = none) : (release e act 0 s).1 = true := by
  have hreq : act.any (fun fid => hasReq s e.gid fid) = false := List.any_eq_false.mpr fun fid hf => by simp [(h fid hf).1]
  have hflush : flushDone s (getGang s e.gid) (slabOf e.core) act = true := by
    unfold flushDone
    rw [Bool.not_eq_true', List.any_eq_false]
    intro fid hf
    rw [show (getFibre (getGang s e.gid) fid).flushWait = none from (h fid hf).2]
    simp
  unfold release
  dsimp only
  rw [hreq, hflush]
  split <;> rfl

/-! One lane's SPAWN. -/

section
variable {e : Env} {win : Nat} {pc : W64} {fid : Nat} {s : State}

/-- The machine with a fibre created. -/
def withFibre (e : Env) (win : Nat) (pc : W64) (parent i b : Nat) (s : State) : State :=
  setCore (setGang s e.gid { getGang s e.gid with
      fibres := kset (getGang s e.gid).fibres i (spawnFibre (getFibre e.g parent) win b pc) }) e.core
    { getCore s e.core with blocks := (getCore s e.core).blocks ++ [{ base := b, size := win, gang := e.gid, fid := i }] }

/-- The machine with a failed SPAWN counted. -/
def withFailure (e : Env) (s : State) : State := setGang s e.gid { getGang s e.gid with spfail := (getGang s e.gid).spfail + 1 }

theorem spawnOne_creates {i b : Nat} (hroom : coreFibres s e.core < 2048) (hi : freeIndex s e.gid = some i)
    (hb : findBlock (heldBlocks s e.core) win = some b) : spawnOne e win pc fid s = (some i, withFibre e win pc fid i b s) := by
  unfold spawnOne
  dsimp only
  rw [if_neg (by omega), hi, hb]
  rfl

theorem spawnOne_fails (h : 2048 ≤ coreFibres s e.core ∨ freeIndex s e.gid = none ∨ findBlock (heldBlocks s e.core) win = none) :
    spawnOne e win pc fid s = (none, withFailure e s) := by
  unfold spawnOne
  dsimp only
  split
  · rfl
  next hroom =>
    rcases h with h | h | h
    · exact absurd h hroom
    · rw [h]; rfl
    · rw [h]
      split
      next hb => cases hb
      next => rfl

theorem spawnOne_cases (e : Env) (win : Nat) (pc : W64) (fid : Nat) (s : State) :
    spawnOne e win pc fid s = (none, withFailure e s) ∨ ∃ i b, freeIndex s e.gid = some i ∧
      spawnOne e win pc fid s = (some i, withFibre e win pc fid i b s) := by
  by_cases h : 2048 ≤ coreFibres s e.core ∨ freeIndex s e.gid = none ∨ findBlock (heldBlocks s e.core) win = none
  · exact .inl (spawnOne_fails h)
  · obtain ⟨hroom, hi, hb⟩ : coreFibres s e.core < 2048 ∧ freeIndex s e.gid ≠ none ∧ findBlock (heldBlocks s e.core) win ≠ none := by
      simpa only [not_or, not_le] using h
    obtain ⟨i, hi⟩ := Option.ne_none_iff_exists'.mp hi
    obtain ⟨b, hb⟩ := Option.ne_none_iff_exists'.mp hb
    exact .inr ⟨i, b, hi, spawnOne_creates hroom hi hb⟩

theorem spawnOne_part {α : Type} {p : State → α} (hg : ∀ s g v, p (setGang s g v) = p s) (hc : ∀ s c v, p (setCore s c v) = p s) :
    p (spawnOne e win pc fid s).2 = p s := by
  rcases spawnOne_cases e win pc fid s with h | ⟨i, b, -, h⟩ <;> rw [h]
  · exact hg ..
  · exact (hc ..).trans (hg ..)

/-- A fibre that lives keeps its place. -/
theorem spawnOne_live {k : Nat} (h : (kget? (getGang s e.gid).fibres k).isSome = true) :
    (kget? (getGang (spawnOne e win pc fid s).2 e.gid).fibres k).isSome = true := by
  rcases spawnOne_cases e win pc fid s with hs | ⟨i, b, -, hs⟩ <;> rw [hs]
  · exact (congrArg (fun g : Gang => (kget? g.fibres k).isSome) (getGang_setGang ..)).trans h
  · refine (congrArg (fun g : Gang => (kget? g.fibres k).isSome) (getGang_setGang ..)).trans ?_
    by_cases hk : k = i
    · subst hk; rw [kget?_kset_same]; rfl
    · rw [kget?_kset_ne _ _ _ _ hk]; exact h

end

section
variable {e : Env} {win : Nat} {pc : W64}

theorem spawnAll_part {α : Type} {p : State → α} (hg : ∀ s g v, p (setGang s g v) = p s) (hc : ∀ s c v, p (setCore s c v) = p s)
    (fids : List Nat) (s : State) : p (spawnAll e win pc fids s).2 = p s := by
  induction fids generalizing s with
  | nil => rfl
  | cons a as ih => exact (ih _).trans (spawnOne_part hg hc)

theorem spawnAll_live {k : Nat} (fids : List Nat) (s : State) (h : (kget? (getGang s e.gid).fibres k).isSome = true) :
    (kget? (getGang (spawnAll e win pc fids s).2 e.gid).fibres k).isSome = true := by
  induction fids generalizing s with
  | nil => exact h
  | cons a as ih => exact ih _ (spawnOne_live h)

end

/-! The wave's SPAWN. -/

/-- What the executing fibres of a SPAWN got, and the machine with the fibres created. -/
def spawns (e : Env) (f : F3) (act : List Nat) (s : State) : List (Nat × Option Nat) × State :=
  spawnAll e (16 * 2 ^ f.mod.toNat) (target3 e.pc f) (sortBy lane act) s

/-- The predicate that tells a fibre whether it got one. -/
def spawnWr (f : F3) (act : List Nat) (got : List (Nat × Option Nat)) (fid : Nat) : Wr :=
  if act.contains fid then { Wr.none with preds := [(f.d.toNat, (got.find? (fun x => x.1 == fid)).any (fun x => x.2.isSome), false)] } else Wr.none

/-- The machine once a SPAWN has retired. -/
def spawnRetired (e : Env) (f : F3) (act : List Nat) (s : State) : State :=
  retire e 5 (spawnWr f act (spawns e f act s).1) (fun _ => none) (fun _ => nextPc e.pc) (spawns e f act s).2

/-- The machine once the new fibres stand in the table. -/
def spawnQueued (e : Env) (f : F3) (act : List Nat) (s : State) : State :=
  (laneBatches ((spawns e f act s).1.filterMap (·.2))).foldl (fun t b => toTable e.core e.gid b .ready t) (spawnRetired e f act s)

section
variable {e : Env} {f : F3} {act : List Nat} {s : State}

theorem spawnQueued_part {α : Type} {p : State → α} (hg : ∀ s g v, p (setGang s g v) = p s) (hs : ∀ s k v, p (setSlot s k v) = p s)
    (hc : ∀ s c v, p (setCore s c v) = p s) : p (spawnQueued e f act s) = p s := by
  rw [spawnQueued, foldl_part p (fun t b => toTable_part p hc e.core e.gid b .ready t), spawnRetired, retire_part hg hs hc]
  exact spawnAll_part hg hc ..

theorem memoryKept_spawnQueued : MemoryKept s (spawnQueued e f act s) :=
  ⟨spawnQueued_part (p := (·.mem)) (fun _ _ _ => rfl) (fun _ _ _ => rfl) (fun _ _ _ => rfl),
    spawnQueued_part (p := (·.hostMem)) (fun _ _ _ => rfl) (fun _ _ _ => rfl) (fun _ _ _ => rfl),
    spawnQueued_part (p := (·.peerMem)) (fun _ _ _ => rfl) (fun _ _ _ => rfl) (fun _ _ _ => rfl)⟩

theorem getGang_spawnQueued : getGang (spawnQueued e f act s) e.gid = getGang (spawnRetired e f act s) e.gid :=
  foldl_part (getGang · e.gid) (fun t b => toTable_part (getGang · e.gid) (fun _ _ _ => rfl) e.core e.gid b .ready t) _ _

theorem pc_spawnQueued {fid : Nat} (hf : fid ∈ e.fids) (hl : (kget? (getGang s e.gid).fibres fid).isSome = true) :
    (fibreAt (spawnQueued e f act s) e.gid fid).pc = nextPc e.pc := by
  rw [fibreAt, getGang_spawnQueued]
  exact congrArg (·.pc) (fibreAt_retire (s := (spawns e f act s).2) _ _ _ _ hf (spawnAll_live _ _ hl))

/-- The machine in which a SPAWN to a good target begins to create fibres. -/
def spawnStart (e : Env) (f : F3) (act : List Nat) (s : State) : State :=
  (release (closedEnv e) act 0 (closedState e (targetsSeen e act (fun _ => target3 e.pc f) s))).2

theorem release_spawnStart (hidle : Idle s e act) :
    (release (closedEnv e) act 0 (closedState e (targetsSeen e act (fun _ => target3 e.pc f) s))).1 = true := by
  refine release_idle fun fid hf => ⟨?_, ?_⟩
  · exact (targetsSeen_part (hasReq · e.gid fid) (fun _ _ _ => rfl) ..).trans (hidle fid hf).1
  · refine (congrArg (·.flushWait) (fibreAt_closedState e _ fid)).trans ?_
    exact (closedEnv_part (p := fun x => x.flushWait) (fun _ _ _ _ _ _ _ => rfl) e fid).trans (hidle fid hf).2

theorem execSpawn_runs (hi : Issues true s e) (hp : Plain f.h (closedEnv e)) (hact : executing f.h (closedEnv e) = act)
    (ht : targetTrap s e.g.ctx (target3 e.pc f) = none) (hpage : targetPage s e.g.ctx (target3 e.pc f) = none) (hidle : Idle s e act) :
    execSpawn f s = .next (refreshAlloc e.core (spawnQueued (closedEnv e) f act (spawnStart e f act s))) := by
  rw [execSpawn, issue_waits hi, forbidInTxn_none hp.txn, guardPoison_nil hp.clean, hact]
  dsimp only
  rw [show targetTrap (closedState e s) (closedEnv e).g.ctx (target3 (closedEnv e).pc f) = none from ht]
  dsimp only
  rw [List.nil_append, orTrap_nil,
    needTargets_good (e := closedEnv e) (s := closedState e s) (t := fun _ => target3 (closedEnv e).pc f)
    (fun _ _ => hpage), targetsSeen_closed]
  rw [show (release (closedEnv e) act 0 (closedState e (targetsSeen e act (fun _ => target3 (closedEnv e).pc f) s))).1 = true from
    release_spawnStart hidle]
  rfl

/-- A part of the machine that the start of a SPAWN keeps. -/
theorem spawnStart_part {α : Type} {p : State → α} (hp : CacheBlind p) (hidle : Idle s e act) :
    p (spawnStart e f act s) = p (closedState e (targetsSeen e act (fun _ => target3 e.pc f) s)) :=
  release_part hp (release_spawnStart hidle)

theorem getGang_spawnStart (hidle : Idle s e act) : getGang (spawnStart e f act s) e.gid = (closedEnv e).g :=
  (spawnStart_part (p := (getGang · e.gid)) (fun _ _ _ _ _ _ => rfl) hidle).trans (getGang_closedState ..)

theorem heldBlocks_spawnStart (hidle : Idle s e act) (core : Nat) : heldBlocks (spawnStart e f act s) core = heldBlocks s core :=
  (spawnStart_part (p := (heldBlocks · core)) (fun _ _ _ _ _ _ => rfl) hidle).trans
    (targetsSeen_part (heldBlocks · core) (fun _ _ _ => rfl) ..)

theorem freeIndex_closedState (he : getGang s e.gid = e.g) : freeIndex (closedState e s) e.gid = freeIndex s e.gid := by
  unfold freeIndex
  dsimp only
  rw [getGang_closedState, he]
  refine congrArg (List.find? · (List.range 1024)) (funext fun i => ?_)
  rw [closedEnv, kget?_mapFibres, Option.isNone_map]
  rfl

theorem freeIndex_spawnStart (he : getGang s e.gid = e.g) (hidle : Idle s e act) : freeIndex (spawnStart e f act s) e.gid = freeIndex s e.gid := by
  refine (spawnStart_part (p := (freeIndex · e.gid)) (fun _ _ _ _ _ _ => rfl) hidle).trans ?_
  rw [freeIndex_closedState (by rw [getGang_targetsSeen, he])]
  exact targetsSeen_part (freeIndex · e.gid) (fun _ _ _ => rfl) ..

theorem coreFibres_closedState (he : getGang s e.gid = e.g) (core : Nat) : coreFibres (closedState e s) core = coreFibres s core := by
  have hlen : ∀ g, (getGang (closedState e s) g).fibres.length = (getGang s g).fibres.length := fun g => by
    by_cases hg : g = e.gid
    · subst hg; rw [getGang_closedState, he]; exact List.length_map ..
    · rw [closedState, getGang_setGang_ne _ _ hg]
  unfold coreFibres
  exact congrArg (fun fn => (getCore s core).gangs.foldl fn 0) (funext fun n => funext fun g => congrArg (n + ·) (hlen g))

theorem coreFibres_spawnStart (he : getGang s e.gid = e.g) (hidle : Idle s e act) (core : Nat) :
    coreFibres (spawnStart e f act s) core = coreFibres s core := by
  refine (spawnStart_part (p := (coreFibres · core)) (fun _ _ _ _ _ _ => rfl) hidle).trans ?_
  rw [coreFibres_closedState (by rw [getGang_targetsSeen, he])]
  exact targetsSeen_part (coreFibres · core) (fun _ _ _ => rfl) ..

end

/-- A predicate written at retirement holds its value; p0 reads as one. -/
theorem readPred_retire_pred (pc : W64) (x : Fibre) {n : Nat} (v : Bool) (hn : n < 16) :
    readPred (retireFibre { Wr.none with preds := [(n, v, false)] } none pc x) n = if n = 0 then (true, false) else (v, false) := by
  rw [readPred_retireFibre pc (by simp)]
  by_cases h : n = 0
  · subst h; rfl
  · rw [if_neg h]
    simp only [writeAll, pokeAll, pokePred, readPred, h, if_false, List.foldl_cons, List.foldl_nil, orFlags]
    rw [getLsbD_setBit_same _ _ hn, getLsbD_setBit_same _ _ hn]

/-- A created fibre has the parent's registers 0 to 7 (R26). -/
theorem readReg_spawnFibre (x : Fibre) (win b : Nat) (pc : W64) {n : Nat} (h : n < 8) : readReg (spawnFibre x win b pc) n = readReg x n := by
  have hval : kget (x.regs.filter (fun e => decide (e.1 < 8))) n 0 = kget x.regs n 0 :=
    congrArg (·.getD 0) (kget?_filter (fun k => decide (k < 8)) x.regs (decide_eq_true h))
  have hbit : (x.regPoison &&& 0xFF).getLsbD n = x.regPoison.getLsbD n := by
    rw [BitVec.getLsbD_and]
    have : ∀ k < 8, (0xFF : BitVec 256).getLsbD k = true := by decide
    rw [show (0xFF : BitVec _).getLsbD n = true from this n h, Bool.and_true]
  exact Prod.ext hval hbit

/-- A free index is that of no live fibre. -/
theorem freeIndex_none {s : State} {gid i : Nat} (h : freeIndex s gid = some i) : kget? (getGang s gid).fibres i = none := by
  unfold freeIndex at h
  have h := List.find?_some h
  simp only [Bool.and_eq_true, Option.isNone_iff_eq_none] at h
  exact h.1

section
variable {e : Env} {f : F3} {fid i b : Nat} {s s' : State}

/-- The predicate of a wave's one executing fibre. -/
theorem spawnWr_one (r : Option Nat) :
    spawnWr f [fid] [(fid, r)] fid = { Wr.none with preds := [(f.d.toNat, r.isSome, false)] } := by
  simp [spawnWr]

/-- The retirement of a SPAWN by one fibre. -/
def spawnRetiredOne (e : Env) (f : F3) (fid : Nat) (r : Option Nat) (s : State) : State :=
  retire e 5 (spawnWr f [fid] [(fid, r)]) (fun _ => none) (fun _ => nextPc e.pc) s

theorem spawnQueued_created (h : spawnOne e (16 * 2 ^ f.mod.toNat) (target3 e.pc f) fid s = (some i, s')) :
    spawnQueued e f [fid] s = toTable e.core e.gid [i] .ready (spawnRetiredOne e f fid (some i) s') := by
  have hs : spawns e f [fid] s = ([(fid, some i)], s') := by
    change ([(fid, (spawnOne e (16 * 2 ^ f.mod.toNat) (target3 e.pc f) fid s).1)], (spawnOne e _ _ fid s).2) = _
    rw [h]
  rw [spawnQueued, spawnRetired, hs]
  rfl

theorem spawnQueued_failed (h : spawnOne e (16 * 2 ^ f.mod.toNat) (target3 e.pc f) fid s = (none, s')) :
    spawnQueued e f [fid] s = spawnRetiredOne e f fid none s' := by
  have hs : spawns e f [fid] s = ([(fid, none)], s') := by
    change ([(fid, (spawnOne e (16 * 2 ^ f.mod.toNat) (target3 e.pc f) fid s).1)], (spawnOne e _ _ fid s).2) = _
    rw [h]
  rw [spawnQueued, spawnRetired, hs]
  rfl

/-- The predicate of the fibre that has executed a SPAWN. -/
theorem readPred_spawnRetiredOne (r : Option Nat) (hf : fid ∈ e.fids) (hl : (kget? (getGang s e.gid).fibres fid).isSome = true)
    (hn : f.d.toNat < 16) : readPred (fibreAt (spawnRetiredOne e f fid r s) e.gid fid) f.d.toNat =
      if f.d.toNat = 0 then (true, false) else (r.isSome, false) := by
  rw [spawnRetiredOne, fibreAt_retire _ _ _ _ hf hl, spawnWr_one, readPred_retire_pred _ _ _ hn]

theorem fibres_spawnRetiredOne (r : Option Nat) (hi : i ∉ e.fids) :
    kget? (getGang (spawnRetiredOne e f fid r s) e.gid).fibres i = kget? (getGang s e.gid).fibres i := by
  rw [spawnRetiredOne, getGang_retire, kget?_mapFibres]
  have hout : e.fids.contains i = false := by simpa using hi
  simp only [hout, Bool.false_eq_true, if_false, Option.map_id_fun', id_eq]

/-- A fibre as a calm change leaves it. -/
theorem Calm.fibre {t : State} (h : Calm s t) {g k : Nat} {x : Fibre} (hx : kget? (getGang s g).fibres k = some x) :
    (kget? (getGang t g).fibres k).isSome = true ∧ calmPart (fibreAt t g k) = calmPart x := by
  have hm := (h.gang g).fibre k
  rw [hx] at hm
  obtain ⟨y, hy, hyx⟩ := Option.map_eq_some_iff.mp hm
  rw [hy, fibreAt, getFibre, kget, hy]
  exact ⟨rfl, hyx⟩

/-- A part of a fibre that a calm change keeps. -/
theorem Calm.fibre_part {α : Type} {q : Fibre → α} {t : State} (h : Calm s t) (hq : ∀ x, q (calmPart x) = q x) (g k : Nat) :
    q (fibreAt t g k) = q (fibreAt s g k) := by
  have hm := fibreAt_of_map (q := calmPart) ((h.gang g).fibre k)
  rw [← hq, hm, hq]

/-- What a SPAWN that creates a fibre leaves. -/
theorem spawn_creates (hlive : Live e) (hg : getGang s e.gid = e.g) (hf : fid ∈ e.fids) (hroom : coreFibres s e.core < 2048)
    (hi : freeIndex s e.gid = some i) (hb : findBlock (heldBlocks s e.core) (16 * 2 ^ f.mod.toNat) = some b) {t : State}
    (hc : Calm (spawnQueued e f [fid] s) t) :
    (kget? (getGang t e.gid).fibres i).isSome = true ∧
    calmPart (fibreAt t e.gid i) = calmPart (spawnFibre (getFibre e.g fid) (16 * 2 ^ f.mod.toNat) b (target3 e.pc f)) ∧
    (NoSleeper s e.gid → (fibreAt t e.gid i).pc = target3 e.pc f) ∧
    { base := b, size := 16 * 2 ^ f.mod.toNat, gang := e.gid, fid := i } ∈ (getCore t e.core).blocks ∧
    (∃ r ∈ (getCore t e.core).table, r.gang = e.gid ∧ r.fids = [i] ∧ r.wait = .ready) ∧
    (f.d.toNat < 16 → readPred (fibreAt t e.gid fid) f.d.toNat = (true, false)) := by
  have hqueued := spawnQueued_created (spawnOne_creates (fid := fid) (pc := target3 e.pc f) hroom hi hb)
  have hsleep : (spawnQueued e f [fid] s).sleepers = s.sleepers :=
    spawnQueued_part (p := (·.sleepers)) (fun _ _ _ => rfl) (fun _ _ _ => rfl) (fun _ _ _ => rfl)
  have hnone := freeIndex_none hi
  have hif : i ∉ e.fids := fun h => by
    have := hlive i h
    rw [← hg, hnone] at this
    cases this
  have hcreated : getGang (withFibre e (16 * 2 ^ f.mod.toNat) (target3 e.pc f) fid i b s) e.gid = { getGang s e.gid with
      fibres := kset (getGang s e.gid).fibres i (spawnFibre (getFibre e.g fid) (16 * 2 ^ f.mod.toNat) b (target3 e.pc f)) } := getGang_setGang ..
  have hfibre : kget? (getGang (spawnQueued e f [fid] s) e.gid).fibres i =
      some (spawnFibre (getFibre e.g fid) (16 * 2 ^ f.mod.toNat) b (target3 e.pc f)) := by
    rw [hqueued, toTable_part (getGang · e.gid) (fun _ _ _ => rfl), fibres_spawnRetiredOne _ hif, hcreated]
    exact kget?_kset_same ..
  obtain ⟨hsome, hcalm⟩ := hc.fibre hfibre
  refine ⟨hsome, hcalm, fun hn => ?_, ?_, ?_, fun hd => ?_⟩
  · rw [hc.pc e.gid (by rw [NoSleeper, hsleep]; exact hn), fibreAt, getFibre, kget, hfibre]
    rfl
  · rw [hc.blocks, hqueued, core_toTable (q := fun c => c.blocks) (fun _ _ => rfl), spawnRetiredOne, getCore_retire, issuedCore_blocks,
      withFibre, getCore_setCore]
    exact List.mem_append_right _ (List.mem_singleton_self _)
  · obtain ⟨r, hr, hgang, hfids, hwait⟩ := mem_toTable (core := e.core) (gid := e.gid) (fids := [i]) .ready
      (spawnRetiredOne e f fid (some i) (withFibre e (16 * 2 ^ f.mod.toNat) (target3 e.pc f) fid i b s)) (by simp)
    rw [← hqueued] at hr
    obtain ⟨r', hr', hgang', hfids', hwait'⟩ := hc.table e.core r hr
    exact ⟨r', hr', hgang'.trans hgang, hfids'.trans hfids, hwait'.elim (·.trans hwait) id⟩
  · rw [hc.fibre_part (q := (readPred · f.d.toNat)) fun _ => rfl, hqueued, toTable_part (fibreAt · e.gid fid) (fun _ _ _ => rfl),
      readPred_spawnRetiredOne _ hf ?_ hd]
    · split <;> rfl
    · rw [hcreated, kget?_kset_ne _ _ _ _ fun h : fid = i => hif (h ▸ hf), hg]
      exact hlive fid hf

/-- What a SPAWN that finds no room leaves. -/
theorem spawn_fails (hlive : Live e) (hg : getGang s e.gid = e.g) (hf : fid ∈ e.fids)
    (h : 2048 ≤ coreFibres s e.core ∨ freeIndex s e.gid = none ∨ findBlock (heldBlocks s e.core) (16 * 2 ^ f.mod.toNat) = none) {t : State}
    (hc : Calm (spawnQueued e f [fid] s) t) :
    (getGang t e.gid).spfail = e.g.spfail + 1 ∧
    (∀ i, (kget? (getGang t e.gid).fibres i).isSome = (kget? e.g.fibres i).isSome) ∧
    (0 < f.d.toNat → f.d.toNat < 16 → readPred (fibreAt t e.gid fid) f.d.toNat = (false, false)) := by
  have hqueued := spawnQueued_failed (spawnOne_fails (fid := fid) (pc := target3 e.pc f) h)
  have hfailed : getGang (withFailure e s) e.gid = { e.g with spfail := e.g.spfail + 1 } := by rw [withFailure, getGang_setGang, hg]
  have hgang : getGang (spawnQueued e f [fid] s) e.gid = mapFibres { e.g with spfail := e.g.spfail + 1 } (fun k x =>
      if e.fids.contains k then retireFibre (spawnWr f [fid] [(fid, none)] k) none (nextPc e.pc) x else x) := by
    rw [hqueued, spawnRetiredOne, getGang_retire, hfailed]
  refine ⟨?_, fun i => ?_, fun h0 hd => ?_⟩
  · rw [(hc.gang e.gid).spfail, hgang]; rfl
  · rw [hc.isSome, hgang, kget?_mapFibres, Option.isSome_map]
  · rw [hc.fibre_part (q := (readPred · f.d.toNat)) fun _ => rfl, hqueued, readPred_spawnRetiredOne _ hf ?_ hd, if_neg (by omega)]
    · rfl
    · rw [hfailed]; exact hlive fid hf

end

theorem noSleeper_spawnStart {e : Env} {f : F3} {act : List Nat} {s : State} (hidle : Idle s e act) {g : Nat} (hn : NoSleeper s g) :
    NoSleeper (spawnStart e f act s) g := by
  rw [NoSleeper, spawnStart_part (p := (·.sleepers)) (fun _ _ _ _ _ _ => rfl) hidle]
  intro p hp
  exact hn p ((targetsSeen_part (·.sleepers) (fun _ _ _ => rfl) e act (fun _ => target3 e.pc f) s) ▸ hp)

/-- A SPAWN to a good target whose fibres have nothing under way. -/
theorem spawn_completes {f : F3} {s : State} {e : Env} {act : List Nat} (hi : Issues true s e) (hlive : Live e) (hp : Plain f.h (closedEnv e))
    (hact : executing f.h (closedEnv e) = act) (ht : targetTrap s e.g.ctx (target3 e.pc f) = none)
    (hpage : targetPage s e.g.ctx (target3 e.pc f) = none) (hidle : Idle s e act) :
    ∃ t, execSpawn f s = .next t ∧ Calm (spawnQueued (closedEnv e) f act (spawnStart e f act s)) t ∧
      MemoryKept (targetsSeen e act (fun _ => target3 e.pc f) s) t ∧ (NoSleeper s e.gid → StandAt e (fun _ => nextPc e.pc) t) := by
  have hcalm := calm_refreshAlloc e.core (spawnQueued (closedEnv e) f act (spawnStart e f act s))
  have hstart : MemoryKept (targetsSeen e act (fun _ => target3 e.pc f) s) (spawnStart e f act s) :=
    memoryKept_closedState.trans (calm_release (release_spawnStart hidle)).memory
  refine ⟨_, execSpawn_runs hi hp hact ht hpage hidle, hcalm, hstart.trans (memoryKept_spawnQueued.trans hcalm.memory), fun hn fid hf => ?_⟩
  rw [hcalm.pc e.gid]
  · refine pc_spawnQueued (e := closedEnv e) hf ?_
    rw [show getGang (spawnStart e f act s) (closedEnv e).gid = _ from getGang_spawnStart hidle]
    exact live_closedEnv hlive fid hf
  · rw [NoSleeper, spawnQueued_part (p := (·.sleepers)) (fun _ _ _ => rfl) (fun _ _ _ => rfl) (fun _ _ _ => rfl)]
    exact noSleeper_spawnStart hidle hn

/-- Settles O12: a SPAWN creates its fibre or counts its failure, a QUIT ends its fibres, a YIELD sets them aside. -/
theorem fibreControlCompletes : Obligations.FibreControlCompletes := by
  unfold Obligations.FibreControlCompletes
  refine ⟨fun f s e hi hlive hp => ?_, fun f s e hi hp => ?_, fun f s e hi hlive hp => ?_⟩
  · dsimp only
    intro ht hpage hidle
    obtain ⟨t, hexec, hcalm, hmem, hstand⟩ := spawn_completes hi hlive hp rfl ht hpage hidle
    refine ⟨t, (show exec (.spawn f) s = execSpawn f s from rfl).trans hexec, hmem, hstand, fun fid hone => ?_⟩
    have hf : fid ∈ e.fids := List.mem_of_mem_filter (show fid ∈ executing f.h (closedEnv e) from hone ▸ List.mem_singleton_self _)
    rw [hone] at hcalm hidle
    have hroom := coreFibres_spawnStart (f := f) (gang_of_envOf hi.env) hidle e.core
    have hfree := freeIndex_spawnStart (f := f) (gang_of_envOf hi.env) hidle
    have hheld := heldBlocks_spawnStart (f := f) hidle e.core
    have hgang := getGang_spawnStart (f := f) hidle
    constructor
    · intro i b hr hix hbl
      obtain ⟨hsome, hsame, hpc, hblock, htable, hpred⟩ := spawn_creates (live_closedEnv hlive) hgang hf (hroom ▸ hr) (hfree.trans hix)
        (hheld ▸ hbl) hcalm
      have hpart : ∀ {α : Type} (q : Fibre → α), (∀ x, q (calmPart x) = q x) → q (fibreAt t e.gid i) =
          q (spawnFibre (getFibre (closedEnv e).g fid) (16 * 2 ^ f.mod.toNat) b (target3 e.pc f)) := fun q hq =>
        (hq _).symm.trans ((congrArg q hsame).trans (hq _))
      exact ⟨hsome, hpart (·.win) fun _ => rfl, hpart (·.block) fun _ => rfl, hpart (·.fpmode) fun _ => rfl, hpart (·.waitlimit) fun _ => rfl,
        fun n hn => (hpart (readReg · n) fun _ => rfl).trans (readReg_spawnFibre _ _ _ _ hn), fun hn => hpc (noSleeper_spawnStart hidle hn),
        hblock, htable, hpred⟩
    · intro h
      obtain ⟨hcount, hsome, hpred⟩ := spawn_fails (live_closedEnv hlive) hgang hf (by rwa [← hroom, ← hfree, ← hheld] at h) hcalm
      exact ⟨hcount, fun i => (hsome i).trans (by rw [closedEnv, kget?_mapFibres, Option.isSome_map]), hpred⟩
  · obtain ⟨t, ht, h⟩ := quit_completes hi hp
    exact ⟨t, (show exec (.quit f) s = execQuit f s from rfl).trans ht, h⟩
  · obtain ⟨t, ht, h⟩ := yield_completes hi hlive hp
    exact ⟨t, (show exec (.yield f) s = execYield f s from rfl).trans ht, h⟩

end Sys2Proof.Machine
end

section
/-! PROOF. The events of waves (O38), refuted in the clause of a change of fused mode (R86). The clause asks of the cluster only that its cores
hold no gang. Nothing in it ties the wave slots of a core to the gangs of the core, as every state that the machine reaches may well do. -/
namespace Sys2Proof.Machine

/-- A transaction that buffers stores to line 0. -/
def bufferingTxn : Txn :=
  { beginPc := 0, abortPc := 0, levels := [], reads := [], writes := { TxnWrites.empty with globLines := [0] }, held := [], active := [],
    arrived := [], checked := 0, sets := [] }

/-- A machine whose core 0 has no gang, while slot 0 of the core still holds a transaction and its L1 the line that it buffers. -/
def bufferedState : State :=
  { State.reset with
    slots := [(0, { Slot.init with txn := some bufferingTxn })]
    l1 := [(0, [{ ctx := 0, line := 0, way := 0, rr := 0, lo := L1Sector.blank, hi := L1Sector.blank }])] }

theorem bufferedState_idle : ∀ i < 4, (getCore bufferedState (4 * 0 + i)).gangs = [] := by decide

/-- The line stays, for a line that a transaction buffers is kept in its L1 (R149). -/
theorem fusedModeChange_bufferedState :
    ∃ t, exec (.fusedModeChange 0) bufferedState = .next t ∧ kget t.l1 (4 * 0 + 0) [] ≠ [] :=
  ⟨_, rfl, by decide⟩

/-- Refutes O38: a change of fused mode keeps the L1 lines that an open transaction of the cluster buffers (R149), so an L1 that should be
empty is not. The clause of R86 speaks of every state, also of one whose core has no gang while a slot of it holds such a transaction. -/
theorem not_waveEventsComplete : ¬ Obligations.WaveEventsComplete := by
  unfold Obligations.WaveEventsComplete
  rintro ⟨-, -, -, -, hfused, -⟩
  obtain ⟨t, ht, -, -, hl1⟩ := hfused bufferedState 0 (by decide) bufferedState_idle
  obtain ⟨u, hu, hne⟩ := fusedModeChange_bufferedState
  obtain rfl : t = u := Host.Outcome.next.inj (ht.symm.trans hu)
  exact hne (hl1 0 (by decide))

end Sys2Proof.Machine
end

section
/-! PROOF. Admission, dispatch and the end of gangs (R28, R29, R44, R46 to R49, R76, R141, R392): a gang that is placed on a core, a step of the
quarry unit, and O39. -/
namespace Sys2Proof.Machine

/-! ### L1 ways that are withdrawn (R87, R147) -/

section
variable {α : Type} {p : State → α} (hp : CacheBlind p) (hg : ∀ s g v, p (setGang s g v) = p s) (hs : ∀ s k v, p (setSlot s k v) = p s)
  (hc : ∀ s c v, p (setCore s c v) = p s)

include hg hs hc in
/-- An aborted transaction changes its gang, its slot and the table of its core. -/
theorem abortTxn_part (core key gid cause code : Nat) (s : State) : p (abortTxn core key gid cause code s) = p s := by
  unfold abortTxn
  split
  · rfl
  · unfold closeTxn
    dsimp only
    split
    · rfl
    · rw [toTable_part p hc, hg, hs]

include hg hs hc in
theorem evictBuffered_part (core ctx line : Nat) (s : State) : p (evictBuffered core ctx line s) = p s := by
  refine foldl_part p (fun s c => foldl_part p (fun s w => ?_) _ _) _ _
  dsimp only
  split
  · split
    · exact abortTxn_part hg hs hc ..
    · rfl
  · rfl

include hp in
theorem cleanSector_part (core ctx ia : Nat) (drop : Bool) (s : State) : p (cleanSector core ctx ia drop s) = p s := by
  have hl1 : ∀ (s : State) v, p { s with l1 := v } = p s := fun s v => hp s s.ids s.slabs v s.wcb s.reqs
  unfold cleanSector
  split
  · rfl
  next l _ =>
    dsimp only
    generalize setSectorOfLine l ia _ = l'
    split
    · exact (hl1 ..).trans ((sendDirty_part hp ..).trans (handOver_part hp ..))
    · exact (hl1 ..).trans ((sendDirty_part hp ..).trans (handOver_part hp ..))

include hp hg hs hc in
theorem trimWays_part (cluster : Nat) (s : State) : p (trimWays cluster s) = p s := by
  refine foldl_part p (fun s i => ?_) _ _
  refine foldl_part p (fun s l => ?_) _ _
  rw [cleanSector_part hp, cleanSector_part hp, evictBuffered_part hg hs hc]

end

/-! ### A gang that is placed on a core (R29, R76, R392) -/

section
variable {α : Type} {q : Gang → α} (hq : ∀ g f, q { g with fibres := f } = q g)
include hq

/-- A wave that wakes changes its fibres, no other part of a gang. -/
theorem gang_wakeSleeper (sid gid : Nat) (s : State) : q (getGang (wakeSleeper sid s) gid) = q (getGang s gid) := by
  unfold wakeSleeper
  split
  · rfl
  next p hp =>
    dsimp only
    split
    next g hg =>
      have hget : getGang s p.gang = g := by rw [getGang, kget, hg]; rfl
      by_cases hgid : gid = p.gang
      · subst hgid
        refine (congrArg q (getGang_setGang ..)).trans ((hq g _).trans (congrArg q hget.symm))
      · exact congrArg q (getGang_setGang_ne s _ hgid)
    next => rfl

theorem gang_wakeAll (ws : List WakeReg) (gid : Nat) (s : State) : q (getGang (wakeAll ws s) gid) = q (getGang s gid) := by
  refine foldl_part (fun s => q (getGang s gid)) (fun s w => ?_) ws s
  split
  · exact gang_wakeSleeper hq ..
  · rfl

end

/-- The allocator status words change no scratchpad. -/
theorem scratch_refreshAlloc (core gid : Nat) (s : State) : (getGang (refreshAlloc core s) gid).scratch = (getGang s gid).scratch := by
  refine foldl_part (fun s => (getGang s gid).scratch) (fun s k => ?_) _ _
  dsimp only
  split
  · rfl
  next g hg =>
    split
    · rfl
    · have hget : getGang s k = g := by rw [getGang, kget, hg]; rfl
      rw [wakeScratch, gang_wakeAll (q := fun g => g.scratch) fun _ _ => rfl]
      by_cases hgid : gid = k
      · subst hgid; rw [getGang_setGang, hget]
      · rw [getGang_setGang_ne _ _ hgid]

theorem calm_toTable (core gid : Nat) (fids : List Nat) (w : Wait) (s : State) : Calm s (toTable core gid fids w s) := by
  have hkept : ∀ b ∈ (getCore s core).table, b ∈ (getCore (toTable core gid fids w s) core).table := fun b hb => mem_toTable_of_mem hb
  unfold toTable at hkept ⊢
  split
  · exact .refl s
  next h =>
    rw [if_neg h, getCore_setCore] at hkept
    exact calm_setCore rfl fun b hb => ⟨b, hkept b hb, rfl, rfl, .inl rfl⟩

theorem kget?_range_map {α : Type} (f : Nat → α) {n i : Nat} (h : i < n) : kget? ((List.range n).map (fun k => (k, f k))) i = some (f i) := by
  have hlist : ∀ l : List Nat, i ∈ l → kget? (l.map (fun k => (k, f k))) i = some (f i) := fun l => by
    induction l with
    | nil => exact fun h => absurd h (by simp)
    | cons a as ih =>
      intro hi
      by_cases ha : a = i
      · subst ha; exact if_pos rfl
      · exact (if_neg ha).trans (ih ((List.mem_cons.mp hi).resolve_left (Ne.symm ha)))
  exact hlist _ (List.mem_range.mpr h)

/-- A gang with the kernel's initial fibres and a scratchpad that reads zero. -/
structure GangStarts (k : Kernel) (pay : W64) (g : Gang) : Prop where
  scratch : g.scratch = []
  fibre : ∀ i < k.gang, ∃ b, kget? g.fibres i = some (initialFibre k pay b)

section
variable (tid crew gidx core : Nat) (c : Core) (bank shadow : Nat) (s : State)

/-- The gang of a launch as it is placed, its status word not yet written. -/
def placedGang : Gang :=
  let t := getTask s tid
  let k := (kget s.launches t.launch Launch.init).kernel
  { Gang.init with
    ctx := t.ctx, launch := t.launch, task := tid, crew := crew, gid := gidx, core := core, kernel := k, handlerBase := k.handler
    fibres := (List.range k.gang).map (fun i => (i, initialFibre k t.pay
      (match c.blocks.find? (fun b => b.gang == s.ids && b.fid == i) with | some b => b.base | none => 0)))
    granule := bank, shadowGranule := shadow, granules := blockGranules k.spad, frees0 := c.frees, admitted := now s }

/-- The machine with the gang on its core, before its waves stand in the table. -/
def gangPlaced : State :=
  let g := placedGang tid crew gidx core c bank shadow s
  let s1 := trimWays (clusterOf core) (setGang (setCore { s with ids := s.ids + 1 } core { c with gangs := c.gangs ++ [s.ids] }) s.ids g)
  setGang s1 s.ids { g with allocWord := allocatorWord s1 g }

/-- The waves of a gang that starts. -/
def startWaves (n : Nat) : List (List Nat) := (List.range ((n + 31) / 32)).map (fun j => (List.range n).filter (fun i => i / 32 == j))

/-- The machine with the waves in the table, after the start acquire (R46). -/
def gangStarted (gid n : Nat) : State :=
  acquireEffect core 2 ((startWaves n).foldl (fun s w => toTable core gid w .ready s) (refreshAlloc core s))

variable {tid crew gidx core c bank shadow s}

theorem admitGang_eq (h : canAdmit s (kget s.launches (getTask s tid).launch Launch.init).kernel s.ids core = some (c, bank, shadow)) :
    admitGang tid crew gidx core s = some (gangStarted core (gangPlaced tid crew gidx core c bank shadow s) s.ids
      (kget s.launches (getTask s tid).launch Launch.init).kernel.gang) := by
  unfold admitGang
  dsimp only
  rw [h]
  rfl

theorem gangPlaced_part {α : Type} {p : State → α} (hp : CacheBlind p) (hg : ∀ s g v, p (setGang s g v) = p s)
    (hs : ∀ s k v, p (setSlot s k v) = p s) (hc : ∀ s c v, p (setCore s c v) = p s) :
    p (gangPlaced tid crew gidx core c bank shadow s) = p s := by
  rw [gangPlaced, hg, trimWays_part hp hg hs hc, hg, hc]
  exact hp s (s.ids + 1) s.slabs s.l1 s.wcb s.reqs

theorem memoryKept_gangPlaced : MemoryKept s (gangPlaced tid crew gidx core c bank shadow s) :=
  ⟨gangPlaced_part (p := (·.mem)) (fun _ _ _ _ _ _ => rfl) (fun _ _ _ => rfl) (fun _ _ _ => rfl) (fun _ _ _ => rfl),
    gangPlaced_part (p := (·.hostMem)) (fun _ _ _ _ _ _ => rfl) (fun _ _ _ => rfl) (fun _ _ _ => rfl) (fun _ _ _ => rfl),
    gangPlaced_part (p := (·.peerMem)) (fun _ _ _ _ _ _ => rfl) (fun _ _ _ => rfl) (fun _ _ _ => rfl) (fun _ _ _ => rfl)⟩

theorem gangStarts_gangPlaced : GangStarts (kget s.launches (getTask s tid).launch Launch.init).kernel (getTask s tid).pay
    (getGang (gangPlaced tid crew gidx core c bank shadow s) s.ids) := by
  rw [gangPlaced, getGang_setGang]
  exact ⟨rfl, fun i hi => ⟨_, kget?_range_map _ hi⟩⟩

theorem calm_gangStarted (gid n : Nat) : Calm s (gangStarted core s gid n) :=
  ((calm_refreshAlloc ..).trans (Calm.foldl (fun s w => calm_toTable core gid w .ready s) _ _)).trans (calm_acquireEffect ..)

theorem scratch_gangStarted (gid n g : Nat) : (getGang (gangStarted core s gid n) g).scratch = (getGang s g).scratch := by
  rw [gangStarted, acquireEffect_part (p := (getGang · g)) fun _ _ _ _ _ _ => rfl,
    foldl_part (getGang · g) (fun s w => toTable_part (getGang · g) (fun _ _ _ => rfl) core gid w .ready s), scratch_refreshAlloc]

end

/-- The window and the registers of a fibre that starts (R392). -/
theorem readPair_initialFibre (k : Kernel) (pay : W64) (b : Nat) : readPair (initialFibre k pay b) 0 = (pay, false) :=
  Prod.ext (append_halves pay) (by simp [readPair, initialFibre, Fibre.init])

/-- A gang that is placed has its fibres at ENTRY with the payload (R76, R392). -/
theorem admitGang_starts {s : State} {tid crew gidx core : Nat} {k : Kernel} {pay : W64} (hpay : (getTask s tid).pay = pay)
    (hkernel : (kget s.launches (getTask s tid).launch Launch.init).kernel = k) (hroom : (canAdmit s k s.ids core).isSome = true) :
    ∃ u, admitGang tid crew gidx core s = some u ∧ MemoryKept s u ∧ (getGang u s.ids).scratch = [] ∧ ∀ i < k.gang,
      (fibreAt u s.ids i).win = k.regs ∧ readPair (fibreAt u s.ids i) 0 = (pay, false) ∧
      (NoSleeper s s.ids → (fibreAt u s.ids i).pc = k.entry) := by
  subst hpay hkernel
  obtain ⟨⟨c, bank, shadow⟩, hplace⟩ := Option.isSome_iff_exists.mp hroom
  have hcalm := calm_gangStarted (core := core) (s := gangPlaced tid crew gidx core c bank shadow s) s.ids
    (kget s.launches (getTask s tid).launch Launch.init).kernel.gang
  have hstarts := gangStarts_gangPlaced (tid := tid) (crew := crew) (gidx := gidx) (core := core) (c := c) (bank := bank) (shadow := shadow) (s := s)
  have hsleep : (gangPlaced tid crew gidx core c bank shadow s).sleepers = s.sleepers :=
    gangPlaced_part (p := (·.sleepers)) (fun _ _ _ _ _ _ => rfl) (fun _ _ _ => rfl) (fun _ _ _ => rfl) (fun _ _ _ => rfl)
  refine ⟨_, admitGang_eq hplace, memoryKept_gangPlaced.trans hcalm.memory, (scratch_gangStarted ..).trans hstarts.scratch, fun i hi => ?_⟩
  obtain ⟨b, hb⟩ := hstarts.fibre i hi
  have hpart : ∀ {α : Type} (q : Fibre → α), (∀ x, q (calmPart x) = q x) → q (fibreAt _ s.ids i) = q (initialFibre _ _ b) := fun q hq =>
    (hq _).symm.trans ((congrArg q (hcalm.fibre hb).2).trans (hq _))
  refine ⟨hpart (·.win) fun _ => rfl, (hpart (readPair · 0) fun _ => rfl).trans (readPair_initialFibre ..), fun hn => ?_⟩
  rw [hcalm.pc s.ids (by rw [NoSleeper, hsleep]; exact hn), fibreAt, getFibre, kget, hb]
  rfl

/-! ### A task whose crew starts (R29, R44) -/

/-- The machine with the gangs of a crew placed and its task running. -/
def taskStarted (tid : Nat) (x : Task) (gs : List Nat) (s s1 : State) : State :=
  setTask (setCrew s1 s.ids { Crew.init with size := gs.length, gangs := gs, live := gs }) tid
    { x with st := .running, crew := s.ids, gangsLeft := gs.length, startGens := gensOf s x.ctx, started := now s }

/-- A task may start: it waits for admission in a context that admits, and nothing of it has been saved. -/
structure MayStart (s : State) (tid : Nat) (x : Task) (k : Kernel) : Prop where
  task : kget? s.tasks tid = some x
  kernel : (kget s.launches x.launch Launch.init).kernel = k
  fresh : savedGangs s tid = []
  waits : x.st = .admitting
  admits : ctxAdmits s x.ctx = true

section
variable {s : State} {tid : Nat} {x : Task} {k : Kernel}

theorem MayStart.getTask (h : MayStart s tid x k) : getTask s tid = x := by rw [Machine.getTask, kget, h.task]; rfl

theorem placeTask_starts (h : MayStart s tid x k) {cores gs : List Nat} {s1 : State} (hlen : cores.length = k.crew)
    (hdist : allDistinct cores = true) (howner : onOwner s k x.cluster cores = true) (hslab : ∀ c ∈ cores, slabOf c = slabOf (cores.headD 0))
    (hadmit : admitAll tid s.ids (cores.zipIdx.map (fun x => (x.2, x.1))) [] { s with ids := s.ids + 1 } = some (gs, s1)) :
    placeTask tid cores s = .next (taskStarted tid x gs s s1) := by
  have hany : cores.any (fun c => slabOf c != slabOf (cores.headD 0)) = false := List.any_eq_false.mpr fun c hc => by simp [hslab c hc]
  have hgo : ¬ (x.st ≠ .admitting ∨ (!ctxAdmits s x.ctx) = true ∨ cores.length ≠ k.crew ∨ (!allDistinct cores) = true ∨
      (!onOwner s k x.cluster cores) = true ∨ cores.any (fun c => slabOf c != slabOf (cores.headD 0)) = true) := by
    simp only [h.waits, h.admits, hlen, hdist, howner, hany]
    simp
  unfold placeTask admitTask
  rw [h.fresh, h.task]
  dsimp only
  rw [h.kernel, if_neg hgo, hadmit]
  rfl

theorem taskStarted_task (gs : List Nat) (s1 : State) : getTask (taskStarted tid x gs s s1) tid =
    { x with st := .running, crew := s.ids, gangsLeft := gs.length, startGens := gensOf s x.ctx, started := now s } := kget_kset_same ..

theorem taskStarted_crew (gs : List Nat) (s1 : State) :
    getCrew (taskStarted tid x gs s s1) s.ids = { Crew.init with size := gs.length, gangs := gs, live := gs } := kget_kset_same ..

theorem taskOf_launch (h : MayStart s tid x k) : (kget s.launches (Machine.getTask s tid).launch Launch.init).kernel = k := by
  rw [h.getTask, h.kernel]

/-- A gang that is admitted by itself (R29). -/
theorem gangAdmit_completes {core : Nat} (h : MayStart s tid x k) (hcrew : k.crew = 1) (howner : ∀ c, x.cluster = some c → clusterOf core = c)
    (hroom : (canAdmit s k (s.ids + 1) core).isSome = true) : ∃ t, execGangAdmit tid core s = .next t ∧ MemoryKept s t ∧
      (getTask t tid).st = .running ∧ (getTask t tid).crew = s.ids ∧ (getCrew t s.ids).gangs = [s.ids + 1] ∧
      (getCrew t s.ids).live = [s.ids + 1] ∧ (getGang t (s.ids + 1)).scratch = [] ∧ ∀ i < k.gang,
        (fibreAt t (s.ids + 1) i).win = k.regs ∧ readPair (fibreAt t (s.ids + 1) i) 0 = (x.pay, false) ∧
        ((∀ p ∈ s.sleepers, p.2.gang ≠ s.ids + 1) → (fibreAt t (s.ids + 1) i).pc = k.entry) := by
  obtain ⟨u, hadmit, hmem, hscratch, hfibre⟩ := admitGang_starts (crew := s.ids) (gidx := 0) (s := { s with ids := s.ids + 1 })
    (congrArg (·.pay) h.getTask) (taskOf_launch (s := s) h) hroom
  have howns : onOwner s k x.cluster [core] = true := by
    unfold onOwner
    split
    · rfl
    next c hc => exact List.all_eq_true.mpr fun y hy => by rw [List.mem_singleton.mp (List.mem_of_mem_take hy), howner c hc, beq_self_eq_true]
  have hall : admitAll tid s.ids ([core].zipIdx.map (fun x => (x.2, x.1))) [] { s with ids := s.ids + 1 } = some ([s.ids + 1], u) := by
    change admitAll tid s.ids [(0, core)] [] _ = _
    rw [admitAll, hadmit]
    rfl
  have hexec : execGangAdmit tid core s = .next (taskStarted tid x [s.ids + 1] s u) := by
    unfold execGangAdmit
    rw [taskOf_launch h, if_neg (not_not_intro hcrew)]
    exact placeTask_starts h hcrew.symm rfl howns (fun c hc => by rw [List.mem_singleton.mp hc]; rfl) hall
  exact ⟨_, hexec, hmem, by rw [taskStarted_task], by rw [taskStarted_task], by rw [taskStarted_crew], by rw [taskStarted_crew], hscratch, hfibre⟩

/-- A crew that is admitted whole (R44). -/
theorem crewAdmit_completes {cores gs : List Nat} {s1 : State} (h : MayStart s tid x k) (hcrew : 2 ≤ k.crew) (hlen : cores.length = k.crew)
    (hdist : allDistinct cores = true) (howner : onOwner s k x.cluster cores = true) (hslab : ∀ c ∈ cores, slabOf c = slabOf (cores.headD 0))
    (hadmit : admitAll tid s.ids (cores.zipIdx.map (fun x => (x.2, x.1))) [] { s with ids := s.ids + 1 } = some (gs, s1)) :
    ∃ t, execCrewAdmit tid cores s = .next t ∧ (getTask t tid).st = .running ∧ (getTask t tid).crew = s.ids ∧
      (getCrew t s.ids).gangs = gs ∧ (getCrew t s.ids).live = gs ∧ (getCrew t s.ids).size = gs.length := by
  have hexec : execCrewAdmit tid cores s = .next (taskStarted tid x gs s s1) := by
    unfold execCrewAdmit
    rw [taskOf_launch h, if_neg (by omega)]
    exact placeTask_starts h hlen hdist howner hslab hadmit
  exact ⟨_, hexec, by rw [taskStarted_task], by rw [taskStarted_task], by rw [taskStarted_crew], by rw [taskStarted_crew],
    by rw [taskStarted_crew]⟩

end

/-! ### The next task of a grid (R47, R48) -/

theorem taskDispatch_completes {s : State} {lid : Nat} {l : Launch} (hl : kget? s.launches lid = some l) (hgrid : l.sweep = false)
    (hleft : l.next < l.x * l.y * l.z) (hnone : admitting s lid = false) (hctx : ctxAdmits s l.ctx = true)
    (hpred : ∀ i ∈ predecessors l l.next, tileRetired s lid i = true) :
    ∃ t, execTaskDispatch lid s = .next t ∧ MemoryKept s t ∧ (kget t.launches lid Launch.init).next = l.next + 1 ∧
      getTask t s.ids = { Task.init with launch := lid, index := l.next, ctx := l.ctx, pay := l.arg, st := .admitting } := by
  have hall : (predecessors l l.next).all (fun i => tileRetired s lid i) = true := List.all_eq_true.mpr hpred
  unfold execTaskDispatch
  rw [hl]
  dsimp only
  rw [if_neg (by simp only [hgrid, hnone, hctx, hall]; simpa using hleft)]
  exact ⟨_, rfl, ⟨rfl, rfl, rfl⟩, congrArg (fun v : Launch => v.next) (kget_kset_same ..), kget_kset_same ..⟩

/-! ### The end of a gang (R28, R46) -/

theorem gangEnd_enabled {s : State} {gid : Nat} {g : Gang} (hfib : g.fibres = []) (hbusy : ∀ n ∈ [1, 2, 3], engineBusy s gid n = false)
    (hreq : ∀ r ∈ s.reqs, r.gang ≠ gid) :
    ¬ ((!g.fibres.isEmpty) = true ∨ [1, 2, 3].any (engineBusy s gid) = true ∨ s.reqs.any (fun r => r.gang == gid) = true) := by
  rintro (h | h | h)
  · rw [hfib] at h; cases h
  · obtain ⟨n, hn, h⟩ := List.any_eq_true.mp h
    rw [hbusy n hn] at h; cases h
  · obtain ⟨r, hr, h⟩ := List.any_eq_true.mp h
    exact hreq r hr (beq_iff_eq.mp h)

theorem gangEnd_releases {s : State} {gid : Nat} {g : Gang} (hg : kget? s.gangs gid = some g) (hfib : g.fibres = [])
    (hbusy : ∀ n ∈ [1, 2, 3], engineBusy s gid n = false) (hreq : ∀ r ∈ s.reqs, r.gang ≠ gid) (hwait : g.relWait = none) :
    ∃ t, execGangEnd gid s = .next t ∧ MemoryKept s t ∧ (getGang t gid).relWait.isSome = true := by
  unfold execGangEnd
  rw [hg]
  dsimp only
  rw [if_neg (gangEnd_enabled hfib hbusy hreq), hwait]
  refine ⟨_, rfl, (calm_releaseCaches g.core s).memory.trans ⟨rfl, rfl, rfl⟩, ?_⟩
  rw [getGang_setGang]
  rfl

theorem gangEnd_ends {s : State} {gid : Nat} {g : Gang} {n tk : Nat} (hg : kget? s.gangs gid = some g) (hfib : g.fibres = [])
    (hbusy : ∀ n ∈ [1, 2, 3], engineBusy s gid n = false) (hreq : ∀ r ∈ s.reqs, r.gang ≠ gid) (hwait : g.relWait = some (n, tk))
    (hdone : writesPerformed s (slabOf g.core) 2 n tk = true) : execGangEnd gid s = .next (endGang gid s) := by
  unfold execGangEnd
  rw [hg]
  dsimp only
  rw [if_neg (gangEnd_enabled hfib hbusy hreq), hwait]
  exact if_pos hdone

end Sys2Proof.Machine
end

section
/-! PROOF. The steps of a quarry unit leave the management state alone (R125, R126, R130 to R141), sweep tasks are dispatched (R49, R141), and O39. -/
namespace Sys2Proof.Machine

/-! ### What the changes of a step leave -/

theorem mgmt_agentMerge (a : Nat) (w : List Nat) (s : State) : (agentMerge a w s).mgmt = s.mgmt := by
  unfold agentMerge
  split <;> rfl

theorem mgmt_spotSeen (p : Spot) (s : State) : (spotSeen p s).mgmt = s.mgmt := by
  unfold spotSeen setAccessed
  split
  · split <;> rfl
  · rfl

theorem mgmt_unitSaw (u : UnitEnv) (p : Spot) (s : State) : (unitSaw u p s).mgmt = s.mgmt :=
  (mgmt_agentMerge ..).trans (mgmt_spotSeen p s)

theorem mgmt_unitSend (u : UnitEnv) (kind : WKind) (ia : Nat) (p : Spot) (mask : BitVec 128) (d : BitVec 1024) (poison : Bool) (s : State) :
    (unitSend u kind ia p mask d poison s).mgmt = s.mgmt :=
  (pushWrite_part (p := (·.mgmt)) (fun _ _ _ _ _ _ => rfl) ..).trans (mgmt_spotSeen p s)

theorem mgmt_freezeUnit (u : UnitEnv) (s : State) : (freezeUnit u s).mgmt = s.mgmt := by
  unfold freezeUnit
  split <;> rfl

theorem mgmt_thawUnit (u : UnitEnv) (s t : State) : (thawUnit u s t).mgmt = t.mgmt := by
  unfold thawUnit
  dsimp only
  split
  · split <;> rfl
  · rfl

theorem mgmt_heard (q : Nat) (op : QOp) (s : State) : (heard q op s).mgmt = s.mgmt := by
  unfold heard
  split
  · rfl
  · split
    · exact mgmt_agentMerge ..
    · exact mgmt_agentMerge ..
    · rfl

theorem mgmt_quarryAcquire (q gang : Nat) (s : State) : (quarryAcquire q gang s).mgmt = s.mgmt := by
  unfold quarryAcquire
  split
  · rfl
  · exact acquireEffect_part (p := (·.mgmt)) (fun _ _ _ _ _ _ => rfl) ..

theorem mgmt_fillResult (gang fid window : Nat) (regs : List (Nat × Word × Bool)) (s : State) :
    (fillResult gang fid window regs s).mgmt = s.mgmt := by
  unfold fillResult
  split <;> rfl

theorem mgmt_wakeSleeper (sid : Nat) (s : State) : (wakeSleeper sid s).mgmt = s.mgmt := by
  unfold wakeSleeper
  split
  · rfl
  · dsimp only
    split <;> rfl

theorem mgmt_wakeAll (ws : List WakeReg) (s : State) : (wakeAll ws s).mgmt = s.mgmt := by
  refine foldl_part (fun s : State => s.mgmt) (fun s w => ?_) ws s
  split
  · exact mgmt_wakeSleeper ..
  · rfl

theorem mgmt_scratchWrite (gid off : Nat) (bs : List Byte) (s : State) : (scratchWrite gid off bs s).mgmt = s.mgmt :=
  foldl_part (fun s : State => s.mgmt) (fun s _ => mgmt_wakeAll _ s) _ _

theorem mgmt_migArrive (ctx gid off : Nat) (s : State) : (migArrive ctx gid off s).mgmt = s.mgmt := by
  unfold migArrive
  split
  · split
    · exact mgmt_scratchWrite ..
    · rfl
  · dsimp only
    split <;> rfl

theorem mgmt_drainSlice (slab : Nat) (s : State) : (drainSlice slab s).mgmt = s.mgmt := by
  unfold drainSlice
  dsimp only
  split <;> rfl

theorem mgmt_endStep (q : Nat) (s : State) : (endStep q s).mgmt = s.mgmt := mgmt_drainSlice ..

theorem mgmt_beginStep (q : Nat) (op : QOp) (s : State) : (beginStep q op s).mgmt = s.mgmt := by
  unfold beginStep
  split
  · rfl
  · exact mgmt_heard ..

/-! ### Steps that leave it alone -/

/-- A step that is performed leaves the management state as it was. -/
structure KeepsMgmt {α : Type} (m : QM α) : Prop where
  kept : ∀ s x t, m s = .ok (x, t) → t.mgmt = s.mgmt

/-- A step that is never performed. -/
def NeverOk {α : Type} (m : QM α) : Prop := ∀ s x t, m s ≠ .ok (x, t)

section
variable {α β : Type}

theorem bind_ok {m : QM α} {f : α → QM β} {s t : State} {y : β} (h : (m >>= f) s = .ok (y, t)) :
    ∃ x u, m s = .ok (x, u) ∧ f x u = .ok (y, t) := by
  change Except.bind (m s) (fun p => f p.1 p.2) = _ at h
  cases hm : m s with
  | error b => rw [hm] at h; cases h
  | ok p => rw [hm] at h; exact ⟨p.1, p.2, rfl, h⟩

namespace KeepsMgmt

theorem pure (x : α) : KeepsMgmt (Pure.pure x : QM α) := ⟨fun s y t h => by cases h; rfl⟩

theorem throw (b : Blocked) : KeepsMgmt (MonadExcept.throw b : QM α) := ⟨fun s y t h => by cases h⟩

theorem bind {m : QM α} {f : α → QM β} (hm : KeepsMgmt m) (hf : ∀ x, KeepsMgmt (f x)) : KeepsMgmt (m >>= f) where
  kept s y t h := by
    obtain ⟨x, u, hx, hy⟩ := bind_ok h
    exact ((hf x).kept u y t hy).trans (hm.kept s x u hx)

theorem get : KeepsMgmt (MonadState.get : QM State) := ⟨fun s y t h => by cases h; rfl⟩

/-- A step that begins by looking at the state. -/
theorem look {f : State → QM α} (h : ∀ s x t, f s s = .ok (x, t) → t.mgmt = s.mgmt) : KeepsMgmt (MonadState.get >>= f) := ⟨h⟩

theorem modify {f : State → State} (h : ∀ s, (f s).mgmt = s.mgmt) : KeepsMgmt (modify f : QM PUnit) where
  kept s y t ht := by
    cases ht
    exact h s

theorem ite {c : Prop} [Decidable c] {m n : QM α} (hm : KeepsMgmt m) (hn : KeepsMgmt n) : KeepsMgmt (if c then m else n) := by
  split
  · exact hm
  · exact hn

theorem of_never {m : QM α} (h : NeverOk m) : KeepsMgmt m := ⟨fun s x t hx => absurd hx (h s x t)⟩

end KeepsMgmt

theorem neverOk_bind {m : QM α} {f : α → QM β} (hf : ∀ x, NeverOk (f x)) : NeverOk (m >>= f) := fun s y t h => by
  obtain ⟨x, u, -, hy⟩ := bind_ok h
  exact hf x u y t hy

theorem neverOk_throw (b : Blocked) : NeverOk (MonadExcept.throw b : QM α) := fun s y t h => by cases h

end

/-! ### Reads and writes of the unit -/

theorem keeps_unitGet (u : UnitEnv) (kernel : Bool) (va : W64) (n : Nat) : KeepsMgmt (unitGet u kernel va n) := by
  refine .look fun s x t h => ?_
  cases hspot : unitSpot s u.ctx va pathVec kernel false (vecFault s va false) with
  | error b => rw [hspot] at h; cases h
  | ok r =>
    rw [hspot] at h
    dsimp only at h
    split at h
    · cases h
    · split at h
      · cases h
      · cases h
        exact mgmt_unitSaw ..

theorem keeps_unitSectors (u : UnitEnv) (kernel : Bool) (va : W64) (n : Nat) : KeepsMgmt (unitSectors u kernel va n) := by
  induction n generalizing va with
  | zero => exact .pure _
  | succ n ih => exact .bind (keeps_unitGet ..) fun _ => .bind (ih _) fun _ => .pure _

theorem keeps_unitMake (u : UnitEnv) (kind : WKind) (kernel : Bool) (va : W64) (bs : List Byte) : KeepsMgmt (unitMake u kind kernel va bs) := by
  refine .look fun s x t h => ?_
  cases hspot : unitSpot s u.ctx va pathVec kernel true (vecFault s va true) with
  | error b => rw [hspot] at h; cases h
  | ok r =>
    rw [hspot] at h
    cases h
    exact mgmt_unitSend ..

theorem keeps_unitPut (u : UnitEnv) (kernel : Bool) (va : W64) (bs : List Byte) : KeepsMgmt (unitPut u kernel va bs) := keeps_unitMake ..

theorem keeps_unitRun {α : Type} {u : UnitEnv} {m : QM α} (h : KeepsMgmt m) : KeepsMgmt (unitRun u m) where
  kept s x t ht := by
    unfold unitRun at ht
    split at ht
    next y v hv =>
      cases ht
      exact (mgmt_thawUnit ..).trans ((h.kept _ _ _ hv).trans (mgmt_freezeUnit u s))
    · cases ht

/-! ### The descriptor and the table (R127, R130, R131) -/

theorem keeps_readDesc (u : UnitEnv) (va : W64) : KeepsMgmt (readDesc u va) :=
  .bind (keeps_unitSectors ..) fun b => by
    split
    · exact .bind .get fun _ => .throw _
    · exact .pure _

theorem keeps_qenv (q : Nat) (u : UnitEnv) : KeepsMgmt (qenv q u) := .bind .get fun _ => .bind (keeps_readDesc ..) fun _ => .pure _

section
variable (e : QEnv)

theorem keeps_readEntry (i : Nat) : KeepsMgmt (readEntry e i) :=
  .bind (keeps_unitGet ..) fun _ => .ite (.bind .get fun _ => .throw _) (.pure _)

theorem keeps_writeEntry (i : Nat) (x : QEntry) : KeepsMgmt (writeEntry e i x) := keeps_unitPut ..

theorem keeps_writeDesc (off n v : Nat) : KeepsMgmt (writeDesc e off n v) := .bind .get fun _ => keeps_unitPut ..

theorem keeps_probe (k : W64) (h n : Nat) : KeepsMgmt (probe e k h n) := by
  induction n generalizing h with
  | zero => exact .pure _
  | succ n ih => exact .bind (keeps_readEntry ..) fun _ => .ite (.pure _) (.ite (.pure _) (ih _))

theorem keeps_lookup (k : W64) : KeepsMgmt (lookup e k) := keeps_probe ..

theorem keeps_firstEmpty (h n : Nat) : KeepsMgmt (firstEmpty e h n) := by
  induction n generalizing h with
  | zero => exact .pure _
  | succ n ih => exact .bind (keeps_readEntry ..) fun _ => .ite (.pure _) (ih _)

theorem keeps_insertEntry (x : QEntry) : KeepsMgmt (insertEntry e x) :=
  .bind (keeps_firstEmpty ..) fun
    | none => .pure _
    | some _ => keeps_writeEntry ..

theorem keeps_shiftBack (hole i n : Nat) : KeepsMgmt (shiftBack e hole i n) := by
  induction n generalizing hole i with
  | zero => exact .pure _
  | succ n ih =>
    exact .bind (keeps_readEntry ..) fun _ => .ite (.pure _) (.ite (ih ..) (.bind (keeps_writeEntry ..) fun _ =>
      .bind (keeps_writeEntry ..) fun _ => ih ..))

theorem keeps_removeEntry (i : Nat) : KeepsMgmt (removeEntry e i) := .bind (keeps_writeEntry ..) fun _ => keeps_shiftBack ..

theorem keeps_allEntries (n : Nat) : KeepsMgmt (allEntries e n) := by
  induction n with
  | zero => exact .pure _
  | succ n ih => exact .bind ih fun _ => .bind (keeps_readEntry ..) fun _ => .pure _

theorem keeps_topSlot (n : Nat) : KeepsMgmt (topSlot e n) :=
  .bind (keeps_unitGet ..) fun _ => .ite (.bind .get fun _ => .throw _) (.pure _)

theorem keeps_firstFound (ks : List W64) : KeepsMgmt (firstFound e ks) := by
  induction ks with
  | nil => exact .pure _
  | cons k ks ih =>
    exact .bind (keeps_lookup ..) fun
      | none => ih
      | some _ => .pure _

theorem keeps_removeKeys (ks : List W64) : KeepsMgmt (removeKeys e ks) := by
  induction ks with
  | nil => exact .pure _
  | cons k ks ih =>
    exact .bind (keeps_lookup ..) fun
      | none => ih
      | some _ => .bind (keeps_removeEntry ..) fun _ => ih

theorem keeps_releaseSlots (q : Nat) (slots : List Nat) : KeepsMgmt (releaseSlots q slots) :=
  .look fun s x t h => by cases h; rfl

theorem keeps_qFail (st : Nat) : KeepsMgmt (qFail st) := .pure _

/-! ### The instructions' steps (R132 to R140) -/

theorem keeps_qFind (k : W64) (g : Word) : KeepsMgmt (qFind e k g) :=
  .bind .get fun _ => .ite (.pure _) (.ite (.pure _) (.bind (keeps_firstFound ..) fun
    | some _ => .pure _
    | none => .bind (keeps_firstFound ..) fun
      | some _ => .pure _
      | none => .bind (keeps_firstFound ..) fun
        | some _ => .pure _
        | none => .pure _))

theorem keeps_coarserNeighbour (k : W64) (ds : List Nat) : KeepsMgmt (coarserNeighbour e k ds) := by
  induction ds with
  | nil => exact .pure _
  | cons d ds ih =>
    unfold coarserNeighbour
    split
    · exact ih
    · exact .ite ih (.bind (keeps_lookup ..) fun
        | none => ih
        | some _ => .pure _)

theorem keeps_insertChildren (k : W64) (cost : Nat) (v : Quarry) (is : List Nat) (n : Nat) : KeepsMgmt (insertChildren e k cost v is n) := by
  induction is generalizing n with
  | nil => exact .pure _
  | cons i is ih => exact .bind (keeps_topSlot ..) fun _ => .bind .get fun _ => .bind (keeps_insertEntry ..) fun _ => ih _

theorem keeps_qRefine (k : W64) : KeepsMgmt (qRefine e k) :=
  .bind .get fun _ => .ite (keeps_qFail _) (.bind (keeps_lookup ..) fun
    | none => keeps_qFail _
    | some _ => .ite (keeps_qFail _) (.ite (keeps_qFail _) (.bind (keeps_coarserNeighbour ..) fun
      | some _ => .pure _
      | none => .ite (keeps_qFail _) (.ite (keeps_qFail _) (.bind (keeps_insertChildren ..) fun _ => .bind (keeps_lookup ..) fun
        | none => keeps_qFail _
        | some _ => .bind (keeps_removeEntry ..) fun _ => .bind (keeps_writeDesc ..) fun _ => .bind (keeps_writeDesc ..) fun _ =>
            .bind (keeps_writeDesc ..) fun _ => .bind (keeps_releaseSlots ..) fun _ => .pure _)))))

theorem keeps_childEntries (k : W64) (is : List Nat) : KeepsMgmt (childEntries e k is) := by
  induction is with
  | nil => exact .pure _
  | cons i is ih =>
    exact .bind (keeps_lookup ..) fun
      | none => .pure _
      | some _ => .bind ih fun _ => .pure _

theorem keeps_finerNeighbour (k : W64) (ds : List Nat) : KeepsMgmt (finerNeighbour e k ds) := by
  induction ds with
  | nil => exact .pure _
  | cons d ds ih =>
    exact .ite (.pure _) (.bind (keeps_firstFound ..) fun
      | none => ih
      | some _ => .pure _)

theorem keeps_qCoarsen (k : W64) : KeepsMgmt (qCoarsen e k) :=
  .bind .get fun _ => .ite (keeps_qFail _) (.ite (keeps_qFail _) (.bind (keeps_childEntries ..) fun
    | none => keeps_qFail _
    | some _ => .ite (keeps_qFail _) (.ite (keeps_qFail _) (.bind (keeps_finerNeighbour ..) fun
      | some _ => .pure _
      | none => .ite (keeps_qFail _) (.bind (keeps_topSlot ..) fun _ => .bind (keeps_removeKeys ..) fun _ => .bind .get fun _ =>
          .bind (keeps_insertEntry ..) fun _ => .bind (keeps_writeDesc ..) fun _ => .bind (keeps_writeDesc ..) fun _ =>
          .bind (keeps_writeDesc ..) fun _ => .bind (keeps_releaseSlots ..) fun _ => .pure _)))))

theorem keeps_addCost (k : W64) (n : Nat) : KeepsMgmt (addCost e k n) :=
  .bind (keeps_lookup ..) fun
    | none => .pure _
    | some _ => .bind (keeps_writeEntry ..) fun _ => .pure _

theorem keeps_qCost (k amount : W64) : KeepsMgmt (qCost e k amount) :=
  .ite (keeps_qFail _) (.bind (keeps_addCost ..) fun _ => keeps_qFail _)

theorem keeps_rebalBlocks (oldK newK : List Nat) (g1 : Word) (moving : Bool) (l : List (Nat × QEntry)) (n : Nat) :
    KeepsMgmt (rebalBlocks e oldK newK g1 moving l n) := by
  induction l generalizing n with
  | nil => exact .pure _
  | cons a l ih =>
    exact .bind .get fun _ => .bind .get fun _ => .ite
      (.bind (keeps_topSlot ..) fun _ => .bind (keeps_writeEntry ..) fun _ => .bind (.modify fun _ => rfl) fun _ => ih _)
      (.bind (keeps_writeEntry ..) fun _ => ih _)

theorem keeps_writeKerfs (ks : List Nat) (j : Nat) : KeepsMgmt (writeKerfs e ks j) := by
  induction ks generalizing j with
  | nil => exact .pure _
  | cons k ks ih => exact .bind (keeps_unitPut ..) fun _ => ih _

theorem keeps_qRebal (gang task : Nat) : KeepsMgmt (qRebal e gang task) :=
  .bind .get fun _ => .ite (.pure _) (.bind (keeps_allEntries ..) fun _ => .ite (.pure _) (.ite (.pure _)
    (.bind (keeps_rebalBlocks ..) fun _ => .ite (.pure _) (.bind (keeps_writeDesc ..) fun _ => .bind (keeps_writeDesc ..) fun _ =>
      .bind (keeps_writeKerfs ..) fun _ => .bind (.modify fun _ => rfl) fun _ => .pure _))))

theorem keeps_qInstr (kind : QKind) (gang : Nat) (k arg : W64) : KeepsMgmt (qInstr e kind gang k arg) :=
  .bind .get fun _ => by
    cases kind with
    | find => exact keeps_qFind ..
    | owner => exact .pure _
    | refine => exact keeps_qRefine ..
    | coarsen => exact keeps_qCoarsen ..
    | cost => exact keeps_qCost ..
    | rebal => exact keeps_qRebal ..
    | gen => exact .pure _

theorem keeps_sweepBlocks : KeepsMgmt (sweepBlocks e) := .bind (keeps_allEntries ..) fun _ => .pure _

end

/-! ### The order (R125, R126, R143) -/

theorem keeps_qBody (q : Nat) (op : QOp) (u : UnitEnv) : KeepsMgmt (qBody q op u) :=
  .bind .get fun s => by
    cases op with
    | instr => exact .bind (keeps_qenv ..) fun _ => .bind (keeps_qInstr ..) fun _ => .modify fun _ => rfl
    | reply => exact .ite (.throw _) (.modify fun _ => (mgmt_quarryAcquire ..).trans (mgmt_fillResult ..))
    | arrive => exact .ite (.throw _) (.modify fun _ => mgmt_migArrive ..)
    | charge => exact .bind (keeps_qenv ..) fun _ => .bind (keeps_addCost ..) fun _ => .pure _
    | place l =>
      refine .bind .get fun t => ?_
      split
      · exact .pure _
      · exact .bind (keeps_qenv ..) fun _ => .bind (keeps_sweepBlocks _) fun _ => .modify fun _ => rfl
    | done => exact keeps_unitMake ..
    | sweep =>
      exact .bind .get fun _ => .ite (.pure _) (.of_never (neverOk_bind fun _ => neverOk_bind fun _ => neverOk_bind fun _ => neverOk_throw _))
    | copy => exact .pure _
    | complete => exact .pure _
    | dispatch => exact .pure _

theorem keeps_qStep (q : Nat) (op : QOp) : KeepsMgmt (qStep q op) :=
  .bind (.modify fun _ => mgmt_heard ..) fun _ => .bind .get fun _ => keeps_unitRun (keeps_qBody ..)

theorem mgmt_runQuarry (q n : Nat) (s : State) : (runQuarry q n s).mgmt = s.mgmt := by
  induction n generalizing s with
  | zero => rfl
  | succ n ih =>
    unfold runQuarry
    dsimp only
    split
    · rfl
    · split
      · rfl
      · split
        next hstep => rw [ih, mgmt_endStep, (keeps_qStep _ _).kept _ _ _ hstep]; rfl
        next => exact mgmt_beginStep ..
        next => rfl

/-- What waits in a quarry's order leaves the management state alone. -/
theorem mgmt_serveQuarry (q : Nat) (s : State) : (serveQuarry q s).mgmt = s.mgmt := by
  unfold serveQuarry
  split
  · rfl
  · exact mgmt_runQuarry ..

/-! ### A sweep task is dispatched (R49, R141) -/

/-- The end of a step leaves the next identifier and the quarry's generation. -/
theorem ids_endStep (q : Nat) (s : State) : (endStep q s).ids = s.ids := by
  unfold endStep drainSlice
  dsimp only
  split <;> rfl

theorem gen_endStep (q : Nat) (s : State) : (getQuarry (endStep q s) q).gen = (getQuarry s q).gen := by
  have hdrain : ∀ slab t, getQuarry (drainSlice slab t) q = getQuarry t q := fun slab t => by
    unfold drainSlice
    dsimp only
    split <;> rfl
  rw [endStep, hdrain, getQuarry, setQuarry, kget_kset_same]

/-- A step that can be performed, in a quarry with nothing before it. -/
theorem quarryStep_performs {α : Type} {q : Nat} {op : QOp} {a : QM α} {fin : α → State → Option State} {s0 s1 s2 : State} {x : α}
    (hreset : s0.mgmt.resetting = false) (hstall : (getQuarry (serveQuarry q s0) q).stall = none)
    (hops : (getQuarry (serveQuarry q s0) q).ops = []) (ha : a (serveQuarry q s0) = .ok (x, s1)) (hfin : fin x (endStep q s1) = some s2) :
    quarryStep q op a fin s0 = .next s2 := by
  unfold quarryStep
  dsimp only
  rw [mgmt_serveQuarry, hreset, hstall, hops]
  dsimp only [Option.isSome_none, List.isEmpty_nil, Bool.not_true, Bool.or_self]
  rw [if_neg (by decide), ha]
  dsimp only
  rw [hfin]

/-- The launch of a sweep without a block whose task has been dispatched. -/
def dropBlock (index : Nat) (l : Launch) : Launch := { l with blocks := l.blocks.filter (fun x => x.index != index) }

theorem sweepTaskDispatch_completes {s0 s1 : State} {lid index c : Nat} {l : Launch} {b : SweepBlock} {pay : W64}
    (hl : kget? s0.launches lid = some l) (hb : l.blocks.find? (fun b => b.index == index) = some b) (hsweep : l.sweep = true)
    (hctx : ctxAdmits s0 l.ctx = true) (hdesc : (getQuarry s0 (launchQuarry l)).desc ≠ 0)
    (hstall : (getQuarry (serveQuarry (launchQuarry l) s0) (launchQuarry l)).stall = none)
    (hops : (getQuarry (serveQuarry (launchQuarry l) s0) (launchQuarry l)).ops = [])
    (hready : sweepReady (launchQuarry l) (.dispatch lid index) b (serveQuarry (launchQuarry l) s0) = .ok (some (pay, c), s1)) :
    ∃ t, execSweepTaskDispatch lid index s0 = .next t ∧ (∀ x ∈ (kget t.launches lid Launch.init).blocks, x.index ≠ index) ∧
      getTask t s1.ids = { Task.init with
        launch := lid, index := index, ctx := l.ctx, key := b.key, gen := (getQuarry s1 (launchQuarry l)).gen, pay := pay, st := .admitting,
        cluster := some c, startGens := [(launchQuarry l, (getQuarry s1 (launchQuarry l)).gen)] } := by
  have hreset : s0.mgmt.resetting = false := by
    simp only [ctxAdmits, Bool.and_eq_true, Bool.not_eq_true'] at hctx
    exact hctx.2
  unfold execSweepTaskDispatch
  rw [hl]
  dsimp only
  rw [hb]
  dsimp only
  rw [if_neg (by simp only [hsweep, hctx]; simpa using hdesc)]
  refine ⟨_, quarryStep_performs hreset hstall hops hready rfl, fun x hx => ?_, ?_⟩
  · have hleft := congrArg (fun v : Launch => v.blocks) (kget_kset_same (endStep (launchQuarry l) s1).launches lid
      (dropBlock index (kget (endStep (launchQuarry l) s1).launches lid Launch.init)) Launch.init)
    have hx := List.mem_filter.mp (hleft ▸ hx)
    simpa using hx.2
  · rw [← ids_endStep (launchQuarry l) s1, ← gen_endStep (launchQuarry l) s1]
    exact kget_kset_same ..

/-- Settles O39: gangs, crews and tasks start and gangs end as the sections say. -/
theorem dispatchEventsComplete : Obligations.DispatchEventsComplete := by
  unfold Obligations.DispatchEventsComplete
  refine ⟨fun s tid core x k hr hcrew howner hroom => ?_, fun s tid cores x k gs s1 hr hcrew hlen hdist howner hslab hadmit => ?_,
    fun s lid l hl hgrid hleft hnone hctx hpred => ?_, fun s0 lid index l b pay c s1 hl hb hsweep => ?_,
    fun s gid g hg hfib hbusy hreq => ⟨?_, ?_⟩⟩
  · obtain ⟨hx, hk, hsaved, hst, hctx⟩ := hr
    obtain ⟨t, ht, h⟩ := gangAdmit_completes ⟨hx, hk, hsaved, hst, hctx⟩ hcrew howner hroom
    exact ⟨t, (show exec (.gangAdmit tid core) s = execGangAdmit tid core s from rfl).trans ht, h⟩
  · obtain ⟨hx, hk, hsaved, hst, hctx⟩ := hr
    obtain ⟨t, ht, h⟩ := crewAdmit_completes ⟨hx, hk, hsaved, hst, hctx⟩ hcrew hlen hdist howner hslab hadmit
    exact ⟨t, (show exec (.crewAdmit tid cores) s = execCrewAdmit tid cores s from rfl).trans ht, h⟩
  · obtain ⟨t, ht, h⟩ := taskDispatch_completes hl hgrid hleft hnone hctx hpred
    exact ⟨t, (show exec (.taskDispatch lid) s = execTaskDispatch lid s from rfl).trans ht, h⟩
  · dsimp only
    intro hctx hdesc hstall hops hready
    obtain ⟨t, ht, h⟩ := sweepTaskDispatch_completes hl hb hsweep hctx hdesc hstall hops hready
    exact ⟨t, (show exec (.sweepTaskDispatch lid index) s0 = execSweepTaskDispatch lid index s0 from rfl).trans ht, h⟩
  · intro hwait
    obtain ⟨t, ht, h⟩ := gangEnd_releases hg hfib hbusy hreq hwait
    exact ⟨t, (show exec (.gangEnd gid) s = execGangEnd gid s from rfl).trans ht, h⟩
  · intro n tk hwait hdone
    exact (show exec (.gangEnd gid) s = execGangEnd gid s from rfl).trans (gangEnd_ends hg hfib hbusy hreq hwait hdone)

end Sys2Proof.Machine
end

section
/-! PROOF. Computing instructions whose poison is that of any source (R256, R274): what they write in a fibre, and the two divisions
(R57, R251, R258; O2). -/
namespace Sys2Proof.Machine

/-! ### Results that any poisoned source poisons -/

/-- A computation on numbers with a register of a type as its destination writes the bits and flags that it answers. -/
theorem aluWr_strict {sp : AluSpec} {t : Ty} {d : Reg} {fn : Word → List (Quad × Bool) → Nat × Word} (hdst : sp.dst = tyDst t d)
    (hfn : sp.fn = strict fn) (x : Fibre) : aluWr sp x =
    putsBits sp.h t d (fn x.fpmode (sp.srcs.map (readSrc x))) (sp.srcs.any fun r => (readSrc x r).2) x := by
  simp only [aluWr, putsBits, hdst, hfn, strict, argPoison, List.any_map]
  rfl

/-- Its completion, from the registers that it names, its result and its poison in one fibre. -/
theorem computes_strict {i : Instr} {sp : AluSpec} {t : Ty} {d : Reg} {fn : Word → List (Quad × Bool) → Nat × Word}
    {uses : List RegUse} {res : Fibre → Nat × Word} {poi : Fibre → Bool} (hexec : ∀ s, exec i s = execAlu sp s)
    (hdst : sp.dst = tyDst t d) (hfn : sp.fn = strict fn) (huses : aluUses sp = uses)
    (hres : ∀ x, fn x.fpmode (sp.srcs.map (readSrc x)) = res x) (hpoi : ∀ x, (sp.srcs.any fun r => (readSrc x r).2) = poi x) :
    Computes i sp.h sp.ll uses (fun x => putsBits sp.h t d (res x) (poi x) x) :=
  computes_of hexec huses fun x => by rw [aluWr_strict hdst hfn, hres, hpoi]

/-! ### Integer division (R57, R258) -/

theorem computes_division {i : Instr} (f : F0) (op : Ty → Int → Int → Nat × Word) (hexec : ∀ s, exec i s = execAlu (divSpec f op) s) :
    Computes i f.h true (tyUse f.ty f.d ++ tyUse f.ty f.a ++ tyUse f.ty f.b) (fun x =>
      putsBits f.h f.ty f.d (op f.ty (valOf f.ty f.a x) (valOf f.ty f.b x)) (poiOf f.ty f.a x || poiOf f.ty f.b x) x) :=
  computes_strict (sp := divSpec f op) hexec rfl rfl (by simp [aluUses, divSpec]) (fun _ => rfl)
    (fun _ => by simp [divSpec, poiOf])

/-- Settles O2: both divisions are computing instructions that hold their result in a window, and each answers what R57 says. -/
theorem integerDivisionCompletes : Obligations.IntegerDivisionCompletes :=
  ⟨fun f => computes_division f divide fun _ => rfl, fun f => computes_division f remainder fun _ => rfl⟩

end Sys2Proof.Machine
end

section
/-! PROOF. Floating-point instructions that write a register (R62, R63, R65, R272 to R281): their completion, and the special operands
of each operation in the formats that are not FP8 (O7). -/
namespace Sys2Proof.Machine

/-! ### Completion -/

/-- An operation on the classes of registers of a type. -/
theorem floats_of {i : Instr} {h : Hdr} {ll : Bool} {t : Ty} {rm : BitVec 3} {srcs : List Reg} {d : Reg}
    {op : Nat → Bool → List Cls → Nat × Word}
    (hexec : ∀ s, exec i s = execAlu (fltSpec h ll t rm (srcs.map (tySrc t)) d op) s) : Floats i h ll t rm srcs d op := by
  refine computes_strict hexec rfl rfl ?_ (fun x => ?_) (fun x => ?_)
  · simp [aluUses, fltSpec, Function.comp_def]
  · simp only [fltSpec, List.map_map]; rfl
  · simp only [fltSpec, List.any_map]; rfl

theorem toNat_rawImm (f : F1) (x : Fibre) : (readSrc x (rawImm f)).1.toNat = f.imm.toNat := by
  rw [rawImm, readSrc_imm, BitVec.toNat_setWidth_of_le (by decide), BitVec.toNat_setWidth_of_le (by decide)]

/-- An operation on the classes of registers and, as the last source, of the immediate (R244, R254). -/
theorem floatsImm_of {i : Instr} {f : F1} {srcs : List Reg} {op : Nat → Bool → List Cls → Nat × Word}
    (hexec : ∀ s, exec i s = execAlu (fltSpec f.h false .f32 f.rm (srcs.map (tySrc .f32) ++ [rawImm f]) f.d op) s) :
    FloatsImm i f srcs op := by
  refine computes_strict hexec rfl rfl ?_ (fun x => ?_) (fun x => ?_)
  · simp [aluUses, fltSpec, rawImm, Function.comp_def]
  · simp only [fltSpec, List.map_append, List.map_map, List.map_cons, List.map_nil, Function.comp_def, toNat_rawImm]; rfl
  · simp only [fltSpec, List.any_append, List.any_map, rawImm, readSrc_imm, List.any_cons, List.any_nil, Bool.or_false]; rfl

/-- An instruction on the bits of one register (R277, R279). -/
theorem computes_sign {i : Instr} (f : F0) (op : Nat → Nat) (hexec : ∀ s, exec i s = execAlu (signSpec f op) s) :
    Computes i f.h false [(f.d.toNat, 1), (f.a.toNat, 1)] (fun x =>
      putsBits f.h .f32 f.d (op (wordOf f.a x), 0) (wordPoi f.a x) x) :=
  computes_strict (sp := signSpec f op) hexec rfl rfl rfl (fun _ => rfl) (fun _ => Bool.or_false _)

theorem wordOf_lt (r : Reg) (x : Fibre) : wordOf r x < 2 ^ 32 := by
  have hword : wordOf r x = ((readReg x r.toNat).1.zeroExtend 128).toNat := rfl
  rw [hword, BitVec.toNat_setWidth_of_le (by decide)]
  exact BitVec.isLt _

/-- FNEG changes the sign bit alone (R277). -/
theorem add_two_pow_31_mod {n : Nat} (h : n < 2 ^ 32) : (n + 2 ^ 31) % 2 ^ 32 = if n < 2 ^ 31 then n + 2 ^ 31 else n - 2 ^ 31 := by
  split <;> omega

/-! ### NaN operands (R60, R62) -/

@[simp] theorem isSnan_nan (s : Bool) : isSnan (.nan s) = s := rfl
@[simp] theorem isSnan_inf (n : Bool) : isSnan (.inf n) = false := rfl
@[simp] theorem isSnan_zero (n : Bool) : isSnan (.zero n) = false := rfl
@[simp] theorem isSnan_fin (n : Bool) (k : Nat) (e : Int) : isSnan (.fin n k e) = false := rfl
@[simp] theorem isSnan_negCls (x : Cls) : isSnan (negCls x) = isSnan x := by cases x <;> rfl
@[simp] theorem isNan_negCls (x : Cls) : isNan (negCls x) = isNan x := by cases x <;> rfl

theorem isNan_iff {x : Cls} : isNan x = true ↔ ∃ s, x = .nan s := by cases x <;> simp [isNan]

theorem addCls_of_nan (m : Nat) {x y : Cls} (h : isNan x = true ∨ isNan y = true) : addCls m x y = (.nan false, false) := by
  rcases h with h | h <;> obtain ⟨s, rfl⟩ := isNan_iff.mp h
  · rfl
  · cases x <;> rfl

theorem mulCls_of_nan {x y : Cls} (h : isNan x = true ∨ isNan y = true) : mulCls x y = (.nan false, false) := by
  rcases h with h | h <;> obtain ⟨s, rfl⟩ := isNan_iff.mp h
  · rfl
  · cases x <;> rfl

theorem divCls_of_nan {x y : Cls} (h : isNan x = true ∨ isNan y = true) : divCls x y = (.nan false, 0) := by
  rcases h with h | h <;> obtain ⟨s, rfl⟩ := isNan_iff.mp h
  · rfl
  · cases x <;> rfl

/-- An invalid product is a NaN that no operand was (R62). -/
theorem mulCls_of_invalid {x y : Cls} (h : (mulCls x y).2 = true) :
    mulCls x y = (.nan false, true) ∧ isSnan x = false ∧ isSnan y = false := by
  revert h
  cases x <;> cases y <;> simp [mulCls]

/-! ### The rounding of a class that is not finite -/

@[simp] theorem nvIf_false : nvIf false = 0 := rfl
@[simp] theorem nvIf_true : nvIf true = flNV := rfl
@[simp] theorem finish_nan (f : Fmt) (nan : Bool) (m : Nat) (z s : Bool) : finish f nan m z (.nan s) = (canonNan f, 0) := rfl
@[simp] theorem finish_zero (f : Fmt) (nan : Bool) (m : Nat) (z a : Bool) : finish f nan m z (.zero a) = (signBit f a, 0) := rfl

theorem finish_inf {f : Fmt} (hf : isFp8 f = false) (nan : Bool) (m : Nat) (z a : Bool) :
    finish f nan m z (.inf a) = (infBits f a, 0) := by simp [finish, hf]

theorem roundUnits_fp32_one (m : Nat) (neg : Bool) : roundUnits fp32 m neg 1 0 = (2 ^ 23, -23, false, false) := by
  have hlog : Nat.log2 1 = 0 := by decide
  simp [roundUnits, fp32, hlog]

/-- 2^0 is 1.0, whatever the mode (R280). -/
theorem finish_fp32_one (m : Nat) (z : Bool) : finish fp32 false m z (.fin false 1 0) = (0x3F800000, 0) := by
  have hfp8 : isFp8 fp32 = false := rfl
  have hfb : fp32.fb = 23 := rfl
  have hpack : packUnits fp32 false (2 ^ 23) (-23) = (0x3F800000, false) := by decide
  have hsize : exceeds fp32 1 1 0 = false := by decide
  simp only [finish, hfp8, roundFin, roundUnits_fp32_one, hpack, hsize, hfb]
  simp

/-- log2 1.0 is +0 (R280). -/
theorem log2Cls_one : log2Cls (classify fp32 0x3F800000) = (.zero false, 0) := by decide

section
variable (f : Fmt) (m : Nat) (z : Bool)

/-! ### An operation on classes: the exact answer, rounded, with NV for a signalling operand or an invalid operation -/

theorem addOp_pair (x y : Cls) : addOp f m z [x, y] = ((finish f false m z (addCls m x y).1).1,
    (finish f false m z (addCls m x y).1).2 ||| nvIf (isSnan x || isSnan y || (addCls m x y).2)) := rfl
theorem subOp_pair (x y : Cls) : subOp f m z [x, y] = addOp f m z [x, negCls y] := rfl
theorem mulOp_pair (x y : Cls) : mulOp f m z [x, y] = ((finish f false m z (mulCls x y).1).1,
    (finish f false m z (mulCls x y).1).2 ||| nvIf (isSnan x || isSnan y || (mulCls x y).2)) := rfl
theorem fmaOp_triple (x y w : Cls) : fmaOp f m z [x, y, w] = ((finish f false m z (addCls m (mulCls x y).1 w).1).1,
    (finish f false m z (addCls m (mulCls x y).1 w).1).2 |||
      nvIf (isSnan x || isSnan y || isSnan w || (mulCls x y).2 || (addCls m (mulCls x y).1 w).2)) := rfl
theorem divOp_pair (x y : Cls) : divOp f m z [x, y] = ((finish f false m z (divCls x y).1).1,
    (finish f false m z (divCls x y).1).2 ||| (divCls x y).2 ||| nvIf (isSnan x || isSnan y)) := rfl
theorem unOp_single (fn : Cls → Cls × Word) (x : Cls) : unOp fn f m z [x] = ((finish f false m z (fn x).1).1,
    (finish f false m z (fn x).1).2 ||| (fn x).2 ||| nvIf (isSnan x)) := rfl

/-! ### Operations with a NaN operand -/

theorem arithmetic_of_nan {x y : Cls} (h : isNan x = true ∨ isNan y = true) :
    ∀ op ∈ [addOp f, subOp f, mulOp f, divOp f], op m z [x, y] = (canonNan f, nvIf (isSnan x || isSnan y)) := by
  have hsub : isNan x = true ∨ isNan (negCls y) = true := by rwa [isNan_negCls]
  simp only [List.forall_mem_cons, List.not_mem_nil, false_implies, implies_true, and_true]
  refine ⟨?_, ?_, ?_, ?_⟩
  · simp [addOp_pair, addCls_of_nan m h]
  · simp [subOp_pair, addOp_pair, addCls_of_nan m hsub]
  · simp [mulOp_pair, mulCls_of_nan h]
  · simp [divOp_pair, divCls_of_nan h]

theorem fmaOp_of_nan {x y w : Cls} (h : isNan x = true ∨ isNan y = true ∨ isNan w = true) :
    fmaOp f m z [x, y, w] = (canonNan f, nvIf (isSnan x || isSnan y || isSnan w || (mulCls x y).2)) := by
  have hsum : addCls m (mulCls x y).1 w = (.nan false, false) := by
    refine addCls_of_nan m ?_
    rcases h with h | h | h
    · exact .inl (by rw [mulCls_of_nan (.inl h)]; rfl)
    · exact .inl (by rw [mulCls_of_nan (.inr h)]; rfl)
    · exact .inr h
  simp [fmaOp_triple, hsum]

theorem unOp_of_nan (s : Bool) : ∀ fn ∈ [sqrtCls, rsqCls, rcpCls, exp2Cls, log2Cls],
    unOp fn f m z [.nan s] = (canonNan f, nvIf s) := by
  simp [unOp_single, sqrtCls, rsqCls, rcpCls, exp2Cls, log2Cls]

/-! ### Infinities and zeros -/

theorem fmaOp_of_invalid {x y : Cls} (w : Cls) (h : (mulCls x y).2 = true) :
    fmaOp f m z [x, y, w] = (canonNan f, flNV) ∧ mulOp f m z [x, y] = (canonNan f, flNV) := by
  obtain ⟨hmul, -, -⟩ := mulCls_of_invalid h
  have hsum : addCls m (.nan false) w = (.nan false, false) := addCls_of_nan m (.inl rfl)
  constructor
  · simp [fmaOp_triple, hmul, hsum]
  · simp [mulOp_pair, hmul]

theorem addOp_inf_inf (hf : isFp8 f = false) (a b : Bool) :
    addOp f m z [.inf a, .inf b] = if a = b then (infBits f a, 0) else (canonNan f, flNV) := by
  by_cases hab : a = b <;> simp [addOp_pair, addCls, hab, finish_inf hf]

theorem subOp_inf_inf (hf : isFp8 f = false) (a b : Bool) :
    subOp f m z [.inf a, .inf b] = if a = b then (canonNan f, flNV) else (infBits f a, 0) := by
  rw [subOp_pair, negCls, addOp_inf_inf f m z hf]
  cases a <;> cases b <;> rfl

theorem mulOp_inf_inf (hf : isFp8 f = false) (a b : Bool) : mulOp f m z [.inf a, .inf b] = (infBits f (a != b), 0) := by
  simp [mulOp_pair, mulCls, negOf, finish_inf hf]

theorem mulOp_inf_fin (hf : isFp8 f = false) (a n : Bool) (k : Nat) (t : Int) :
    mulOp f m z [.inf a, .fin n k t] = (infBits f (a != n), 0) := by
  simp [mulOp_pair, mulCls, negOf, finish_inf hf]

theorem addOp_inf_fin (hf : isFp8 f = false) (a n : Bool) (k : Nat) (t : Int) :
    addOp f m z [.inf a, .fin n k t] = (infBits f a, 0) := by
  simp [addOp_pair, addCls, finish_inf hf]

theorem addOp_zero_zero (a b : Bool) :
    addOp f m z [.zero a, .zero b] = (signBit f (if a = b then a else m == 3), 0) := by
  simp [addOp_pair, addCls]

theorem mulOp_zero_zero (a b : Bool) : mulOp f m z [.zero a, .zero b] = (signBit f (a != b), 0) := by
  simp [mulOp_pair, mulCls, negOf]

theorem mulOp_zero_fin (a n : Bool) (k : Nat) (t : Int) : mulOp f m z [.zero a, .fin n k t] = (signBit f (a != n), 0) := by
  simp [mulOp_pair, mulCls, negOf]

theorem atExp_not (n : Bool) (k : Nat) (e e0 : Int) : atExp (!n) k e e0 = -atExp n k e e0 := by
  cases n <;> simp [atExp]

/-- Opposite values cancel to a zero, whose sign is minus under RDN alone (R62). -/
theorem addOp_opposite (n : Bool) (k : Nat) (t : Int) :
    addOp f m z [.fin n k t, .fin (!n) k t] = (signBit f (m == 3), 0) := by
  simp [addOp_pair, addCls, atExp_not, ofInt]

/-- ∞/∞ and 0/0 are invalid; a division by an infinity is zero, and one of a finite value by zero an infinity with DZ (R280). -/
theorem divOp_special (hf : isFp8 f = false) (a b n : Bool) (k : Nat) (t : Int) :
    divOp f m z [.inf a, .inf b] = (canonNan f, flNV) ∧ divOp f m z [.zero a, .zero b] = (canonNan f, flNV) ∧
    divOp f m z [.zero a, .inf b] = (signBit f (a != b), 0) ∧ divOp f m z [.fin n k t, .inf a] = (signBit f (n != a), 0) ∧
    divOp f m z [.fin n k t, .zero a] = (infBits f (n != a), flDZ) := by
  simp [divOp_pair, divCls, negOf, finish_inf hf]

/-! ### The functions of one operand (R280) -/

theorem unOp_negative : ∀ fn ∈ [sqrtCls, rsqCls, log2Cls],
    unOp fn f m z [.inf true] = (canonNan f, flNV) ∧ ∀ k t, unOp fn f m z [.fin true k t] = (canonNan f, flNV) := by
  simp [unOp_single, sqrtCls, rsqCls, log2Cls]

theorem unOp_inf (hf : isFp8 f = false) : ∀ fn ∈ [sqrtCls, exp2Cls, log2Cls], unOp fn f m z [.inf false] = (infBits f false, 0) := by
  simp [unOp_single, sqrtCls, exp2Cls, log2Cls, finish_inf hf]

theorem unOp_sqrt_zero (a : Bool) : unOp sqrtCls f m z [.zero a] = (signBit f a, 0) := by
  simp [unOp_single, sqrtCls]

theorem unOp_rcp_inf (a : Bool) : unOp rcpCls f m z [.inf a] = (signBit f a, 0) := by
  simp [unOp_single, rcpCls]

/-- The poles: 1/√0, 1/0 and log2 0 are infinities with DZ. -/
theorem unOp_pole (hf : isFp8 f = false) (a : Bool) : unOp rsqCls f m z [.zero a] = (infBits f a, flDZ) ∧
    unOp rcpCls f m z [.zero a] = (infBits f a, flDZ) ∧ unOp log2Cls f m z [.zero a] = (infBits f true, flDZ) := by
  simp [unOp_single, rsqCls, rcpCls, log2Cls, finish_inf hf]

theorem unOp_exp2_zero (a : Bool) : unOp exp2Cls fp32 m z [.zero a] = (0x3F800000, 0) := by
  simp [unOp_single, exp2Cls, finish_fp32_one]

/-- 1/√∞, 2^-∞ and log2 1 are +0. -/
theorem unOp_vanishing : unOp rsqCls f m z [.inf false] = (signBit f false, 0) ∧
    unOp exp2Cls f m z [.inf true] = (signBit f false, 0) ∧
    unOp log2Cls f m z [classify fp32 0x3F800000] = (signBit f false, 0) := by
  have hone : isSnan (classify fp32 0x3F800000) = false := by decide
  refine ⟨?_, ?_, ?_⟩
  · simp [unOp_single, rsqCls]
  · simp [unOp_single, exp2Cls]
  · simp [unOp_single, log2Cls_one, hone]

end

/-! ### O7 -/

theorem isFp8_of_computing : ∀ f ∈ [fp64, fp32, fp16, bf16], isFp8 f = false := by decide

/-- Settles O7: each form runs its operation on the classes of its operands, and each operation has the special results stated. -/
theorem singlePrecisionCompletes : Obligations.SinglePrecisionCompletes := by
  unfold Obligations.SinglePrecisionCompletes
  refine ⟨fun f => floats_of fun _ => rfl, fun f => floatsImm_of fun _ => rfl, fun f => floats_of fun _ => rfl,
    fun f => floatsImm_of fun _ => rfl, fun f => floats_of fun _ => rfl, fun f => floatsImm_of fun _ => rfl,
    fun f => floats_of fun _ => rfl, fun f => floatsImm_of fun _ => rfl, fun f => floats_of fun _ => rfl,
    fun f => floatsImm_of fun _ => rfl, fun f => floats_of fun _ => rfl, fun f => floatsImm_of fun _ => rfl,
    fun f => computes_sign f (· % 2 ^ 31) fun _ => rfl, fun f => ?_, fun f => computes_sign f (classMask fp32) fun _ => rfl,
    fun f => floats_of fun _ => rfl, fun f => floats_of fun _ => rfl, fun f => floats_of fun _ => rfl,
    fun f => floats_of fun _ => rfl, fun f => floats_of fun _ => rfl, fun f => floats_of fun _ => rfl,
    fun f => floats_of fun _ => rfl, fun f hmem m z => ?_⟩
  · simp only [← add_two_pow_31_mod (wordOf_lt f.a _)]
    exact computes_sign f (fun a => (a + 2 ^ 31) % 2 ^ 32) fun _ => rfl
  · intro nan inf zero zeroInf
    have hf := isFp8_of_computing f hmem
    have hinvalid : ∀ x y, zeroInf x y = (mulCls x y).2 := fun x y => by cases x <;> cases y <;> rfl
    refine ⟨fun x y h => arithmetic_of_nan f m z h, fun x y w h => ?_, fun x y w h => ?_, fun a b => ?_, fun a n k t => ?_,
      unOp_of_nan f m z, unOp_negative f m z, unOp_inf f m z hf, fun a => ?_, unOp_vanishing f m z⟩
    · rw [hinvalid]
      exact fmaOp_of_nan f m z h
    · exact fmaOp_of_invalid f m z w (hinvalid x y ▸ h)
    · obtain ⟨hii, hzz, hzi, -, -⟩ := divOp_special f m z hf a b true 0 0
      exact ⟨addOp_inf_inf f m z hf a b, subOp_inf_inf f m z hf a b, mulOp_inf_inf f m z hf a b, hii, hzz,
        addOp_zero_zero f m z a b, mulOp_zero_zero f m z a b, hzi⟩
    · obtain ⟨-, -, -, hinf, hzero⟩ := divOp_special f m z hf a a n k t
      exact ⟨addOp_inf_fin f m z hf a n k t, mulOp_inf_fin f m z hf a n k t, mulOp_zero_fin f m z a n k t,
        addOp_opposite f m z n k t, hzero, hinf⟩
    · obtain ⟨hrsq, hrcp, hlog⟩ := unOp_pole f m z hf a
      exact ⟨unOp_sqrt_zero f m z a, hrsq, hrcp, unOp_rcp_inf f m z a, hlog, unOp_exp2_zero m z a⟩

end Sys2Proof.Machine
end

section
/-! PROOF. FP64, paired, compare and conversion instructions (R72, R272, R273, R278, R282 to R287): their completion, and what CVT, QDEC
and HWCVT answer case by case (O8). -/
namespace Sys2Proof.Machine

/-! ### Completion -/

@[simp] theorem getLsbD_ofNat_toNat (b : Bool) : (BitVec.ofNat 128 b.toNat).getLsbD 0 = b := by cases b <;> rfl

/-- A compare writes its predicate and its flags (R278). -/
theorem computes_compare {i : Instr} {h : Hdr} {ll : Bool} {t : Ty} {c : BitVec 8} {a : Reg} {b : Src} {d : Reg}
    {uses : List RegUse} {srcs : Fibre → List Nat} {poi : Fibre → Bool}
    (hexec : ∀ s, exec i s = execAlu (fcmpSpec h ll t c a b d) s) (huses : srcUse (tySrc t a) ++ srcUse b = uses)
    (hsrcs : ∀ x, [rawOf t a x, (readSrc x b).1.toNat] = srcs x) (hpoi : ∀ x, (poiOf t a x || (readSrc x b).2) = poi x) :
    Computes i h ll uses (fun x =>
      let l := (srcs x).map (ftzIn (ftzOn x.fpmode) (fmtOf t))
      let r := fcmpCond (c.toNat % 8) (cls l 0) (cls l 1)
      taint (guard h x).2 { regs := [], preds := [(d.toNat, r.1, poi x)], flags := r.2 }) := by
  refine computes_of hexec ?_ fun x => ?_
  · simp [aluUses, fcmpSpec, ← huses]
  · rw [← hsrcs, ← hpoi]
    simp only [aluWr, fcmpSpec, fltFn, strict, dstWr, argPoison, getLsbD_ofNat_toNat, List.map_cons, List.map_nil, List.any_cons,
      List.any_nil, Bool.or_false, rawOf, poiOf]

/-- A paired operation acts on both elements and gathers their flags (R273, R283). -/
theorem computes_pair {i : Instr} {f : F0} {srcs : List Reg} {op : Fmt → Nat → Bool → List Cls → Nat × Word}
    (hexec : ∀ s, exec i s = execAlu (pairSpec f.h f.ty f.rm srcs f.d op) s) :
    Computes i f.h false (([f.d] ++ srcs).map (fun r => (r.toNat, 1))) (fun x =>
      let one := fun k => op (fmtOf f.ty) (rmOf f.rm x.fpmode) (ftzOn x.fpmode)
        (srcs.map (fun r => ftzIn (ftzOn x.fpmode) (fmtOf f.ty) (wordOf r x / 2 ^ (16 * k) % 2 ^ 16)))
      putsBits f.h .n32 f.d ((one 0).1 + (one 1).1 * 2 ^ 16, (one 0).2 ||| (one 1).2) (srcs.any (fun r => wordPoi r x)) x) := by
  refine computes_strict hexec rfl rfl ?_ (fun x => ?_) (fun x => ?_)
  · simp only [aluUses, pairSpec, List.map_map, Function.comp_def, srcUse_reg, dstUse_reg, ← List.flatMap_def, ← List.map_eq_flatMap]
    rfl
  · simp only [pairSpec, List.map_map]; rfl
  · simp only [pairSpec, List.any_map]; rfl

/-- A conversion is long-latency when either type is .f64 (R251, R284). -/
theorem computes_cvt (f : F0) : Computes (.cvt f) f.h (f.ty == .f64 || f.tys == .f64) (tyUse f.ty f.d ++ tyUse f.tys f.a) (fun x =>
    putsBits f.h f.ty f.d (cvtBits f.ty f.tys f.rm f.nan x.fpmode (rawOf f.tys f.a x)) (poiOf f.tys f.a x) x) :=
  computes_strict (sp :=
      { h := f.h, ll := f.ty == .f64 || f.tys == .f64, srcs := [tySrc f.tys f.a], dst := tyDst f.ty f.d,
        scalar := false, fn := strict _ }) (fun _ => rfl) rfl rfl (by simp [aluUses]) (fun _ => rfl) (fun _ => Bool.or_false _)

theorem computes_qdec (f : F0) :
    Computes (.qdec f) f.h false [(f.d.toNat, 1), (f.a.toNat, 1), (f.b.toNat, 1), (f.c.toNat, 1)] (fun x =>
      putsBits f.h .n32 f.d (qdecBits (fmtOf f.ty) (rmOf f.rm x.fpmode) (ftzOn x.fpmode) (wordOf f.a x) (wordOf f.b x) (wordOf f.c x)
        (f.mod.toNat % 8)) (wordPoi f.a x || (wordPoi f.b x || wordPoi f.c x)) x) :=
  computes_strict (sp :=
      { h := f.h, ll := false, srcs := [.reg f.a.toNat, .reg f.b.toNat, .reg f.c.toNat], dst := .reg f.d.toNat,
        scalar := false, fn := strict _ }) (fun _ => rfl) rfl rfl rfl (fun _ => rfl)
    (fun x => by simp only [List.any_cons, List.any_nil, Bool.or_false]; rfl)

theorem computes_hwcvt (f : F0) : Computes (.hwcvt f) f.h false [(f.d.toNat, 1), (f.a.toNat, 4)] (fun x =>
    putsBits f.h .n32 f.d (hwcvtBits f.ty { mode := f.rm.toNat, nan := f.nan, seed := 0, tx := 0, ty := 0 } (readQuad x f.a.toNat).1, 0)
      (readQuad x f.a.toNat).2 x) :=
  computes_strict (sp :=
      { h := f.h, ll := false, srcs := [.quad f.a.toNat], dst := .reg f.d.toNat, scalar := false, fn := strict _ })
    (fun _ => rfl) rfl rfl rfl (fun _ => rfl) (fun _ => Bool.or_false _)

theorem computes_hwcvtSr (f : F0) :
    Computes (.hwcvtSr f) f.h false [(f.d.toNat, 1), (f.a.toNat, 4), (f.b.toNat, 2), (f.c.toNat, 2)] (fun x =>
      putsBits f.h .n32 f.d (hwcvtBits f.ty (srMode f.nan (rawOf .n64 f.b x) (rawOf .n64 f.c x)) (readQuad x f.a.toNat).1, 0)
        ((readQuad x f.a.toNat).2 || (poiOf .n64 f.b x || poiOf .n64 f.c x)) x) :=
  computes_strict (sp :=
      { h := f.h, ll := false, srcs := [.quad f.a.toNat, .pair f.b.toNat, .pair f.c.toNat], dst := .reg f.d.toNat,
        scalar := false, fn := strict _ }) (fun _ => rfl) rfl rfl rfl (fun _ => rfl)
    (fun x => by simp only [List.any_cons, List.any_nil, Bool.or_false]; rfl)

/-! ### CVT (R284) -/

theorem asInt_emod (signed : Bool) (w v : Nat) : asInt signed w v % 2 ^ w = (v : Int) % 2 ^ w := by
  unfold asInt
  split
  · have hcast : Int.ofNat (v % 2 ^ w) - Int.ofNat (2 ^ w) = (v : Int) % 2 ^ w - 2 ^ w := by simp
    rw [hcast, Int.sub_emod_right, Int.emod_emod_of_dvd _ (dvd_refl _)]
  · simp

/-- A value wrapped and read back is put as the value itself (R74, R255). -/
theorem putTy_asInt_wrapInt (t : Ty) (v : Int) : putTy t (asInt t.signed t.bits (wrapInt v t.bits)) = putTy t v := by
  have hwrap : wrapInt (asInt t.signed t.bits (wrapInt v t.bits)) t.bits = wrapInt v t.bits := by
    have hpos : (0 : Int) ≤ v % 2 ^ t.bits := Int.emod_nonneg _ (by positivity)
    rw [wrapInt, asInt_emod, wrapInt, Int.toNat_of_nonneg hpos, Int.emod_emod_of_dvd _ (dvd_refl _)]
  rw [putTy, hwrap, ← putTy]

theorem putTy_asInt_zero (t : Ty) : putTy t (asInt t.signed t.bits 0) = 0 := by
  cases t <;> rfl

/-- From an integer: wrapped into an integer type, rounded into a float. -/
theorem cvtBits_of_int (t : Ty) {s : Ty} (rm : BitVec 3) (nan : Bool) (fm : Word) (a : Nat) (hs : s.isInt = true) :
    (t.isInt = true → cvtBits t s rm nan fm a = (putTy t (getTy s a), 0)) ∧
    (t.isInt = false → cvtBits t s rm nan fm a = finish (fmtOf t) nan (rmOf rm fm) (ftzOn fm)
      (if getTy s a = 0 then .zero false else .fin (decide (getTy s a < 0)) (getTy s a).natAbs 0)) := by
  refine ⟨fun ht => ?_, fun ht => ?_⟩
  · simp only [cvtBits, hs, ht, if_true]
  · simp only [cvtBits, hs, ht, if_true, Bool.false_eq_true, if_false, intToFloat, ofInt]

/-- From a float to an integer type: rounded and saturated, then put at the type. -/
theorem cvtBits_of_float_to_int {t s : Ty} (rm : BitVec 3) (nan : Bool) (fm : Word) (a : Nat) (hs : s.isInt = false)
    (ht : t.isInt = true) : cvtBits t s rm nan fm a =
    let r := floatToInt t.signed t.bits (rmOf rm fm) (ftzIn (ftzOn fm) (fmtOf s) (a % 2 ^ s.bits))
    (putTy t (asInt t.signed t.bits r.1), r.2) := by
  simp only [cvtBits, hs, ht, if_true, Bool.false_eq_true, if_false]

/-- A value between two bounds, or the bound that it passes, with NV (R284). -/
theorem put_saturated (t : Ty) (lo hi v : Int) (fl : Word) :
    let r := if hi < v then (wrapInt hi t.bits, flNV) else if v < lo then (wrapInt lo t.bits, flNV) else (wrapInt v t.bits, fl)
    (putTy t (asInt t.signed t.bits r.1), r.2) =
      if hi < v then (putTy t hi, flNV) else if v < lo then (putTy t lo, flNV) else (putTy t v, fl) := by
  split_ifs <;> simp only [putTy_asInt_wrapInt]

/-- From a float to another: a NaN is made canonical with NV for a signalling one, any other class is rounded. -/
theorem cvtBits_of_float_to_float {t s : Ty} (rm : BitVec 3) (nan : Bool) (fm : Word) (a : Nat) (hs : s.isInt = false)
    (ht : t.isInt = false) : cvtBits t s rm nan fm a =
    floatToFloat (fmtOf t) nan (rmOf rm fm) (ftzOn fm) (ftzIn (ftzOn fm) (fmtOf s) (a % 2 ^ s.bits)) := by
  simp only [cvtBits, hs, ht, Bool.false_eq_true, if_false]

theorem floatToFloat_cases (f : Fmt) (nan : Bool) (m : Nat) (z : Bool) (x : Cls) :
    (∀ q, x = .nan q → floatToFloat f nan m z x = (canonNan f, nvIf q)) ∧
    (∀ n, x = .inf n → isFp8 f = false → floatToFloat f nan m z x = (infBits f n, 0)) ∧
    (∀ n, x = .zero n → floatToFloat f nan m z x = (signBit f n, 0)) ∧
    (∀ n k e, x = .fin n k e → floatToFloat f nan m z x = finish f nan m z (.fin n k e)) := by
  refine ⟨?_, ?_, ?_, ?_⟩
  · rintro q rfl; simp [floatToFloat]
  · rintro n rfl hf; simp [floatToFloat, finish_inf hf]
  · rintro n rfl; simp [floatToFloat]
  · rintro n k e rfl; simp [floatToFloat]

/-! ### HWCVT (R72, R287) -/

section
variable {w : Quad} {t : Ty} {m : DrainMode}

theorem hwcvtBits_nan (t : Ty) (m : DrainMode) (h : haulF w = 3) : hwcvtBits t m w = nanOrZero (targetOf t) := by
  simp [hwcvtBits, drainElement, h]

theorem hwcvtBits_inf (t : Ty) (m : DrainMode) (h : haulF w = 1 ∨ haulF w = 2) :
    hwcvtBits t m w = (toTarget (targetOf t) (m.mode % 4) m.nan (.inf (haulF w == 2))).1 := by
  rcases h with h | h <;> simp [hwcvtBits, drainElement, h, isNan, negOf]

theorem hwcvtBits_zero (t : Ty) (m : DrainMode) (h : haulF w = 0) (hv : haulV w = 0) : hwcvtBits t m w = 0 := by
  cases t <;> simp [hwcvtBits, drainElement, h, hv, isNan, targetOf, signBit]

theorem hwcvtBits_finite (t : Ty) (hm : m.mode < 4) (h : haulF w = 0) (hv : haulV w ≠ 0) : hwcvtBits t m w =
    (toTarget (targetOf t) m.mode m.nan (.fin (decide (haulV w < 0)) (haulV w).natAbs (-56))).1 := by
  have hmode : m.mode ≠ 4 := by omega
  simp [hwcvtBits, drainElement, h, hv, isNan, negOf, hmode]

end

theorem targetOf_float : ∀ t ∈ [Ty.f32, .f16, .bf16], targetOf t = .flt (fmtOf t) ∧ isFp8 (fmtOf t) = false := by decide

/-- An infinity saturates at INT32 (R72). -/
theorem toTarget_i32_inf (m : Nat) (nan n : Bool) : (toTarget .i32 m nan (.inf n)).1 = if n then 2 ^ 31 else 2 ^ 31 - 1 := by
  cases n <;> rfl

/-! ### O8 -/

/-- Settles O8: each form runs its operation on its operands, and the conversions answer as stated in each case. -/
theorem otherFormatsComplete : Obligations.OtherFormatsComplete := by
  unfold Obligations.OtherFormatsComplete
  intro compare pair
  refine ⟨fun f => floats_of fun _ => rfl, fun f => floats_of fun _ => rfl, fun f => floats_of fun _ => rfl,
    fun f => floats_of fun _ => rfl, fun f => floats_of fun _ => rfl, fun f => floats_of fun _ => rfl,
    fun f => floats_of fun _ => rfl,
    fun f => computes_compare (b := tySrc .f32 f.b) (fun _ => rfl) rfl (fun _ => rfl) (fun _ => rfl),
    fun f => computes_compare (b := rawImm f) (fun _ => rfl) rfl (fun _ => ?_) (fun _ => Bool.or_false _),
    fun f => computes_compare (b := tySrc .f64 f.b) (fun _ => rfl) rfl (fun _ => rfl) (fun _ => rfl),
    fun f => computes_pair fun _ => rfl, fun f => computes_pair fun _ => rfl, fun f => computes_pair fun _ => rfl,
    fun f => computes_pair fun _ => rfl, computes_cvt, computes_qdec, computes_hwcvt, computes_hwcvtSr,
    fun t s rm nan fm a hs => cvtBits_of_int t rm nan fm a hs, fun t s rm nan fm a hs ht => ?_, fun t s rm nan fm a hs ht => ?_,
    fun f hmem m z a b c j => ?_, fun w m hm => ?_⟩
  · rw [toNat_rawImm]
  · intro lo hi
    rw [cvtBits_of_float_to_int rm nan fm a hs ht]
    cases ftzIn (ftzOn fm) (fmtOf s) (a % 2 ^ s.bits) with
    | nan q => simp only [floatToInt, putTy_asInt_zero]
    | inf n => simp only [floatToInt, putTy_asInt_wrapInt]; rfl
    | zero n => simp only [floatToInt, putTy_asInt_zero]
    | fin n k e => exact put_saturated t lo hi _ _
  · intro x
    rw [cvtBits_of_float_to_float rm nan fm a hs ht]
    exact floatToFloat_cases _ _ _ _ _
  · intro code
    have hf : isFp8 f = false := isFp8_of_computing f (List.mem_cons_of_mem _ hmem)
    unfold qdecBits
    cases ftzIn z fp32 c with
    | nan s => rfl
    | inf n => simp only [finish_inf hf]; rfl
    | zero n => rfl
    | fin n k e => rfl
  · intro hf v
    refine ⟨fun h => ⟨hwcvtBits_nan .i32 m h, fun t ht => ?_⟩, fun h => ⟨?_, fun t ht => ?_⟩,
      fun h hv t _ => hwcvtBits_zero t m h hv, fun h hv t ht => ?_⟩
    · rw [hwcvtBits_nan t m h, (targetOf_float t ht).1, nanOrZero]
    · rw [hwcvtBits_inf .i32 m h, targetOf, toTarget_i32_inf]
      simp only [beq_iff_eq]
      rfl
    · obtain ⟨htarget, hfp8⟩ := targetOf_float t ht
      rw [hwcvtBits_inf t m h, htarget, toTarget, finish_inf hfp8]
      rfl
    · rw [hwcvtBits_finite t hm h hv, (targetOf_float t ht).1, toTarget]
      rfl

end Sys2Proof.Machine
end

section
/-! PROOF. The commands of the ring (O47), refuted in the clause of EVRSET (R405, R414). The clause asks of the event ring only that its TAIL is its
HEAD; a ring into which a record is on its way is of that kind too, and the machine answers BUSY for it. -/
namespace Sys2Proof.Machine

/-- The reply of a command, written or waiting, changes no event ring. -/
theorem rings_finishCmd (c : CmdRun) (status detail : Nat) (s : State) : (finishCmd c status detail s).rings = s.rings := by
  unfold finishCmd
  split <;> rfl

/-- EVRSET answers BUSY while a record is on its way into the ring. -/
theorem execEvrset_busy {s : State} {c : CmdRun} (hc : startedCmd s 6 (fun _ => true) = some c) (hserved : ringServed s = true)
    (hanswer : c.answer = none) (hcheck : refuseCmd s c = none) (hsent : (getRing s (byteAt c.bytes 8)).sent.isSome = true) :
    exec .evrset s = .next (finishCmd c 2 0 s) := by
  change execEvrset s = _
  unfold execEvrset runOp runCmd
  rw [hc]
  dsimp only
  rw [hserved, hanswer, hcheck]
  dsimp only [Bool.not_true]
  rw [if_pos (Or.inr hsent)]
  rfl

/-- An EVRSET of ring 5 by context 0, whose image stands at bus address 0x1000. -/
def evrsetCmd : CmdRun :=
  { index := 0, op := 6, ctx := 0, bytes := bytesOfNat 64 (6 + 5 * 2 ^ 64 + 0x1000 * 2 ^ 128), begun := false, mark := 0, record := none,
    step := none, answer := none, done := false }

/-- A ring at 0x61000 whose one record has been sent to its home and not been applied there: TAIL has not passed it. -/
def sendingRing : EventRing :=
  { EventRing.init with
    set := true, base := 0x61000, sent := some (0, 0)
    waiting := [{ seq := 1, time := 0, status := 0, type := 0, queue := 0, ctx := 0, tag := 0, summary := 0, urgent := false, ready := true,
                  stall := none }] }

/-- A leased package with that command and that ring; the image has BASE 0x62000, ELOG 4, COUNT 1 and TIME 1. -/
def sendingState : State :=
  { State.reset with
    ctxs := [(0, { Ctx.init with st := .live })], rings := [(5, sendingRing)], cmds := [evrsetCmd]
    mgmt := { State.reset.mgmt with pkg := .leased }, port := { State.reset.port with dcrDb := 1 }
    hostMem := [(0x1001, 0x20), (0x1002, 6), (0x1008, 4), (0x100A, 1), (0x100C, 1)] }

theorem sendingState_started : startedCmd sendingState 6 (fun _ => true) = some evrsetCmd ∧ ringServed sendingState = true ∧
    evrsetCmd.answer = none ∧ refuseCmd sendingState evrsetCmd = none := by decide

theorem sendingState_image : badRingImage (readBytes sendingState.hostMem (field evrsetCmd.bytes 16 8) 32) = [] ∧
    field (readBytes sendingState.hostMem (field evrsetCmd.bytes 16 8) 32) 0 8 = 0x62000 := by decide

/-- Refutes O47: an EVRSET of a ring whose TAIL is its HEAD is answered BUSY while a record is on its way into the ring, and the ring keeps
its base (R405). The clause of EVRSET has no premise that none is. -/
theorem not_commandsComplete : ¬ Obligations.CommandsComplete := by
  unfold Obligations.CommandsComplete
  rintro ⟨-, -, -, -, -, -, -, -, hevrset, -⟩
  obtain ⟨hstarted, hserved, hanswer, hcheck⟩ := sendingState_started
  obtain ⟨himage, hbase⟩ := sendingState_image
  obtain ⟨t, ht, -, -, hring, -⟩ := hevrset sendingState evrsetCmd ⟨hstarted, hserved, hanswer, hcheck⟩ ⟨by decide, himage⟩
  have hbusy := execEvrset_busy hstarted hserved hanswer hcheck (by decide)
  have hrings : t.rings = sendingState.rings := by
    rw [← rings_finishCmd evrsetCmd 0 0 t, ← rings_finishCmd evrsetCmd 2 0 sendingState, Host.Outcome.next.inj (ht.symm.trans hbusy)]
  rw [getRing, hrings, hbase] at hring
  exact absurd hring (by decide)

end Sys2Proof.Machine
end

section
/-! PROOF. Changes of the machine that write no byte of memory and no register (R83, R100, R101, R227, R230): how the fibres that live after
them stand to the fibres before, and that caches, releases, traps and the end of gangs are such changes. -/
namespace Sys2Proof.Machine

/-! ### Fibres before and after -/

/-- Memory stands, and every fibre that lives in `t` lived in `s`, `R` taking it from the one to the other. -/
structure Moves (R : Fibre → Fibre → Prop) (s t : State) : Prop where
  memory : MemoryKept s t
  fibre : ∀ g k y, kget? (getGang t g).fibres k = some y → ∃ x, kget? (getGang s g).fibres k = some x ∧ R x y

/-- The registers, predicates and modes of a fibre, what its windows hold, its window size and WAITLIMIT; the other parts are blanked. -/
def registerPart (x : Fibre) : Fibre :=
  { x with pc := 0, txstatus := 0, progress := 0, joins := [], sbset := false, park := .no, block := 0, relWait := none, flushWait := none }

/-- From `s` to `t` memory and the registers of the fibres that live are untouched. -/
abbrev Steady : State → State → Prop := Moves (fun x y => registerPart y = registerPart x)

/-- The same, but for registers that an open window held. -/
abbrev Retired : State → State → Prop := Moves RegistersKept

section
variable {R R' R'' : Fibre → Fibre → Prop} {s t u : State}

theorem Moves.trans (h : Moves R s t) (h' : Moves R' t u) (hR : ∀ x y z, R x y → R' y z → R'' x z) : Moves R'' s u where
  memory := h.memory.trans h'.memory
  fibre g k z hz := by
    obtain ⟨y, hy, hyz⟩ := h'.fibre g k z hz
    obtain ⟨x, hx, hxy⟩ := h.fibre g k y hy
    exact ⟨x, hx, hR x y z hxy hyz⟩

theorem Moves.of_gangs (hR : ∀ x, R x x) (hg : t.gangs = s.gangs) (hm : MemoryKept s t) : Moves R s t where
  memory := hm
  fibre g k y hy := ⟨y, by rwa [getGang, hg] at hy, hR y⟩

/-- One gang is written, its fibres by `R`. -/
theorem Moves.setGang {gid : Nat} {v : Gang} {fn : Nat → Fibre → Fibre} (hR : ∀ x, R x x) (hfn : ∀ k x, R x (fn k x))
    (hv : v.fibres = (mapFibres (getGang s gid) fn).fibres) : Moves R s (setGang s gid v) where
  memory := .refl s
  fibre g k y hy := by
    by_cases hg : g = gid
    · subst hg
      rw [getGang_setGang, hv, kget?_mapFibres] at hy
      obtain ⟨x, hx, rfl⟩ := Option.map_eq_some_iff.mp hy
      exact ⟨x, hx, hfn k x⟩
    · rw [getGang_setGang_ne s v hg] at hy
      exact ⟨y, hy, hR y⟩

theorem Steady.of_gangs (hg : t.gangs = s.gangs) (hm : MemoryKept s t := by exact ⟨rfl, rfl, rfl⟩) : Steady s t :=
  Moves.of_gangs (fun _ => rfl) hg hm

theorem Steady.refl (s : State) : Steady s s := .of_gangs rfl

theorem Steady.trans (h : Steady s t) (h' : Steady t u) : Steady s u := Moves.trans h h' fun _ _ _ hxy hyz => hyz.trans hxy

theorem Steady.foldl {α : Type} {f : State → α → State} (h : ∀ s a, Steady s (f s a)) (l : List α) (s : State) : Steady s (l.foldl f s) :=
  List.foldlRecOn (motive := Steady s) l f (.refl s) fun t ht a _ => ht.trans (h t a)

theorem Steady.ite {c : Prop} [Decidable c] (h : Steady s t) (h' : Steady s u) : Steady s (if c then t else u) := by
  split
  · exact h
  · exact h'

/-- The state that an operation answers, where the instruction may ask for one of two. -/
theorem Steady.ite_snd {α : Type} {c : Prop} [Decidable c] {a b : α × State} (h : Steady s a.2) (h' : Steady s b.2) :
    Steady s (if c then a else b).2 := by
  split
  · exact h
  · exact h'

theorem steady_setGang {gid : Nat} {v : Gang} {fn : Nat → Fibre → Fibre} (hfn : ∀ k x, registerPart (fn k x) = registerPart x)
    (hv : v.fibres = (mapFibres (getGang s gid) fn).fibres) : Steady s (setGang s gid v) :=
  Moves.setGang (fun _ => rfl) hfn hv

/-- A part of a gang beside its fibres is written. -/
theorem steady_setGang_beside {gid : Nat} {v : Gang} (hv : v.fibres = (getGang s gid).fibres) : Steady s (setGang s gid v) :=
  steady_setGang (fn := fun _ x => x) (fun _ _ => rfl) (hv.trans (List.map_id' _).symm)

/-- Waves that wake and barriers that open write no register. -/
theorem Calm.steady (h : Calm s t) : Steady s t where
  memory := h.memory
  fibre g k y hy := by
    have hmap := (h.gang g).fibre k
    rw [hy] at hmap
    obtain ⟨x, hx, hxy⟩ := Option.map_eq_some_iff.mp hmap.symm
    exact ⟨x, hx, (congrArg registerPart hxy).symm⟩

theorem steady_of_cacheBlind (h : ∀ {α : Type} (p : State → α), CacheBlind p → p t = p s) : Steady s t := (calm_of_cacheBlind h).steady

/-- What depends on registers and windows alone is the same of fibres that agree in them. -/
theorem eq_of_registerPart {α : Type} {q : Fibre → α} (hq : ∀ x, q (registerPart x) = q x) {x y : Fibre}
    (h : registerPart y = registerPart x) : q y = q x := (hq y).symm.trans ((congrArg q h).trans (hq x))

theorem registersKept_then {x y z : Fibre} (h : RegistersKept x y) (hz : registerPart z = registerPart y) : RegistersKept x z where
  reg n hn := (eq_of_registerPart (q := (readReg · n)) (fun _ => rfl) hz).trans (h.reg n hn)
  pred n hn := (eq_of_registerPart (q := (readPred · n)) (fun _ => rfl) hz).trans (h.pred n hn)
  modes := (eq_of_registerPart (q := fun x => x.fpmode &&& ~~~flagMask) (fun _ => rfl) hz).trans h.modes
  win := (eq_of_registerPart (q := (·.win)) (fun _ => rfl) hz).trans h.win
  waitlimit := (eq_of_registerPart (q := (·.waitlimit)) (fun _ => rfl) hz).trans h.waitlimit

theorem then_registersKept {x y z : Fibre} (h : registerPart y = registerPart x) (hz : RegistersKept y z) : RegistersKept x z := by
  have hwin : y.windows = x.windows := eq_of_registerPart (q := (·.windows)) (fun _ => rfl) h
  exact {
    reg n hn := (hz.reg n (hwin ▸ hn)).trans (eq_of_registerPart (q := (readReg · n)) (fun _ => rfl) h)
    pred n hn := (hz.pred n (hwin ▸ hn)).trans (eq_of_registerPart (q := (readPred · n)) (fun _ => rfl) h)
    modes := hz.modes.trans (eq_of_registerPart (q := fun x => x.fpmode &&& ~~~flagMask) (fun _ => rfl) h)
    win := hz.win.trans (eq_of_registerPart (q := (·.win)) (fun _ => rfl) h)
    waitlimit := hz.waitlimit.trans (eq_of_registerPart (q := (·.waitlimit)) (fun _ => rfl) h) }

theorem registersKept_refl (x : Fibre) : RegistersKept x x := ⟨fun _ _ => rfl, fun _ _ => rfl, rfl, rfl, rfl⟩

theorem Steady.retired (h : Steady s t) : Retired s t := Moves.trans h (Steady.refl t) fun x _ _ hxy hyz =>
  registersKept_then (registersKept_refl x) (hyz.trans hxy)

/-- A retirement after untouched registers, and untouched registers after it. -/
theorem Retired.before (h : Steady s t) (h' : Retired t u) : Retired s u := Moves.trans h h' fun _ _ _ => then_registersKept
theorem Retired.after (h : Retired s t) (h' : Steady t u) : Retired s u := Moves.trans h h' fun _ _ _ => registersKept_then

/-- An instruction whose results come with replies writes only what closing windows held (R239). -/
theorem retired_retire (e : Env) (u : Nat) (win : Nat → Option Window) (pc : Nat → W64) (s : State) :
    Retired s (retire e u (fun _ => Wr.none) win pc s) := by
  have hfibre : ∀ k x, RegistersKept x (if e.fids.contains k then retireFibre Wr.none (win k) (pc k) x else x) := fun k x => by
    split
    · have h := fibreKept_retireFibre (regs := []) (preds := []) .none (win k) (pc k) x
      exact ⟨fun n => h.reg n (by simp), fun n => h.pred n (by simp), h.modes, retireFibre_win .., retireFibre_waitlimit ..⟩
    · exact registersKept_refl x
  exact Retired.after (Moves.setGang (s := s) registersKept_refl hfibre rfl) (.of_gangs rfl)

theorem retired_retirePlain (e : Env) (u : Nat) (s : State) : Retired s (retirePlain e u s) := retired_retire ..

end

/-! ### Tables, logs and counters -/

theorem steady_toTable (core gid : Nat) (fids : List Nat) (w : Wait) (s : State) : Steady s (toTable core gid fids w s) :=
  (calm_toTable ..).steady

theorem steady_splitParked (e : Env) (stuck : List Nat) (s : State) : Steady s (splitParked e stuck s) := by
  unfold splitParked
  dsimp only
  split
  · exact .refl s
  · exact .trans (t := leaveSlot e.key _ s) (.of_gangs rfl) (steady_toTable ..)

theorem steady_logStall (s : State) (e : Env) (act : List Nat) : Steady s (logStall s e act) := by
  refine .trans ?_ (steady_splitParked ..)
  split
  · exact .refl s
  · exact .of_gangs rfl

theorem steady_closeEntry (key entry : Nat) (s : State) : Steady s (closeEntry key entry s) := by
  unfold closeEntry
  split
  · exact .refl s
  · exact .of_gangs rfl

/-! ### Releases (R100, R101) -/

theorem steady_wcFlush (core : Nat) (q : WcEntry → Bool) (s : State) : Steady s (wcFlush core q s) :=
  steady_of_cacheBlind fun _ hp => wcFlush_part hp ..

theorem steady_acquireEffect (core : Nat) (sc : BitVec 2) (s : State) : Steady s (acquireEffect core sc s) := (calm_acquireEffect ..).steady

/-- A release, performed or begun, writes back and notes in its fibres what it waits for. -/
theorem steady_release (e : Env) (fids : List Nat) (sc : BitVec 2) (s : State) : Steady s (release e fids sc s).2 := by
  unfold release
  dsimp only
  split
  · exact .refl s
  split
  · exact steady_splitParked ..
  split
  · exact .refl s
  split
  · exact steady_wcFlush ..
  split
  · split
    · exact steady_setGang (fun k x => by split <;> rfl) rfl
    · exact .refl s
  split
  · exact (calm_releaseCaches ..).steady
  · exact (calm_releaseCaches ..).steady.trans (steady_setGang (fun k x => by split <;> rfl) rfl)

/-! ### The end of gangs and tasks (R227, R230) -/

/-- A gang is gone, the others stand. -/
theorem steady_of_gone {s t : State} {gid : Nat} (hg : t.gangs = kdel s.gangs gid) (hm : MemoryKept s t) : Steady s t where
  memory := hm
  fibre g k y hy := by
    rw [getGang, hg] at hy
    by_cases hgid : g = gid
    · subst hgid
      rw [kget, kget?_kdel_same] at hy
      cases hy
    · rw [kget, kget?_kdel_ne _ hgid] at hy
      exact ⟨y, hy, rfl⟩

theorem steady_endGangForced (gid : Nat) (s : State) : Steady s (endGangForced gid s).1 := by
  unfold endGangForced
  refine .trans ?_ (calm_refreshAlloc _ _).steady
  exact steady_of_gone (gid := gid) rfl ⟨rfl, rfl, rfl⟩

theorem steady_endGangsForced (gs : List Nat) (s : State) : Steady s (endGangsForced gs s).1 := by
  induction gs generalizing s with
  | nil => exact .refl s
  | cons g gs ih => exact (steady_endGangForced g s).trans (ih _)

theorem steady_pushQOp (q : Nat) (op : QOp) (s : State) : Steady s (pushQOp q op s) := by
  unfold pushQOp
  split
  · exact .refl s
  · split
    · exact .refl s
    · exact .of_gangs rfl

theorem steady_retireTask (tid : Nat) (fail : Option Nat) (s : State) : Steady s (retireTask tid fail s) := by
  unfold retireTask
  dsimp only
  have hcharge : ∀ (c : Prop) [Decidable c] q op (u : State), Steady s u → Steady s (if c then pushQOp q op u else u) := fun c _ q op u hu => by
    split
    · exact hu.trans (steady_pushQOp ..)
    · exact hu
  split
  · exact hcharge _ _ _ _ (hcharge _ _ _ _ (.of_gangs rfl))
  · exact hcharge _ _ _ _ (.of_gangs rfl)

theorem steady_setTask (s : State) (tid : Nat) (v : Task) : Steady s (setTask s tid v) := .of_gangs rfl

theorem steady_failTask (tid cause : Nat) (s : State) : Steady s (failTask tid cause s) := by
  unfold failTask
  dsimp only
  refine .trans ?_ (steady_retireTask _ _ _)
  refine .trans ?_ (steady_setTask _ _ _)
  refine .trans ?_ (steady_endGangsForced _ _)
  split
  · exact .refl s
  · exact .of_gangs rfl

/-- A trap failure, where one is met (R227). -/
theorem steady_trapFailureIf {c : Prop} [Decidable c] {e : Env} {cause : Nat} {s t : State} (h : Steady s t) :
    Steady s (if c then trapFailure e cause t else t) := by
  split
  · exact h.trans (.trans (t := report _ t) (.of_gangs rfl) (steady_failTask ..))
  · exact h

/-! ### Traps (R222) -/

theorem steady_enterHandler (e : Env) (cause : Nat) (async : Bool) (lanes : Word) (val pc : W64) (s : State) :
    Steady s (enterHandler e cause async lanes val pc s) := by
  have htrap : Steady s (trapState e cause s) := .of_gangs (trapState_gangs ..) ⟨trapState_mem .., trapState_hostMem .., trapState_peerMem ..⟩
  refine steady_trapFailureIf (htrap.trans (.trans (t := setGang (trapState e cause s) e.gid _) (steady_setGang (fn := fun fid f =>
    if (getSlot (trapState e cause s) e.key).fids.contains fid then { f with relWait := none } else f) (fun k x => ?_) rfl) (.of_gangs rfl)))
  split <;> rfl

end Sys2Proof.Machine
end

section
/-! PROOF. Loads, stores and operations that leave a core (R85, R88, R90 to R92, R105, R117, R314, R315): what the L1, the slices and the requests
on their way take of them is neither memory nor a register. -/
namespace Sys2Proof.Machine

/-! ### The L1, the slices and the requests on their way -/

section
variable {α : Type} {p : State → α} (hp : CacheBlind p)
include hp

theorem l1Put_part (core ia : Nat) (l : L1Line) (s : State) : p (l1Put core ia l s) = p s := hp s s.ids s.slabs _ s.wcb s.reqs

theorem addReq_part (r : Req) (s : State) : p (addReq r s) = p s := hp s _ s.slabs s.l1 s.wcb _

theorem blockIf_part (core : Nat) (q : Req → Bool) (s : State) : p (blockIf core q s) = p s := hp s s.ids s.slabs s.l1 s.wcb _

theorem layerStores_part (entry : Nat) (s : State) : p (layerStores entry s) = p s := hp s s.ids s.slabs s.l1 s.wcb _

theorem sliceTouch_part (slab ctx sector : Nat) (s : State) : p (sliceTouch slab ctx sector s) = p s := hp s s.ids _ s.l1 s.wcb s.reqs

theorem slicePut_part (slab : Nat) (c : SliceCopy) (s : State) : p (slicePut slab c s) = p s := by
  unfold slicePut
  dsimp only
  split
  · rfl
  · exact hp s s.ids _ s.l1 s.wcb s.reqs

theorem l1Hit_part (core ctx ia : Nat) (s : State) : p (l1Hit core ctx ia s) = p s := by
  unfold l1Hit
  split
  · exact l1Put_part hp ..
  · rfl

theorem l1Merge_part (core ctx ia : Nat) (mask : BitVec 128) (d : BitVec 1024) (poison dirty : Bool) (s : State) :
    p (l1Merge core ctx ia mask d poison dirty s) = p s := by
  unfold l1Merge
  split
  · rfl
  · exact l1Put_part hp ..

theorem keepCopy_part (r : Req) (s : State) : p (keepCopy r s) = p s := by
  unfold keepCopy sliceStore
  split
  · exact sliceTouch_part hp ..
  · exact slicePut_part hp ..

theorem storeClean_part (r : Req) (s : State) : p (storeClean r s) = p s := by
  unfold storeClean
  dsimp only
  split
  · exact blockFills_part hp ..
  · rw [l1Hit_part hp, l1Merge_part hp, blockFills_part hp]

theorem sendStore_part (r : Req) (s : State) : p (sendStore r s) = p s := by
  unfold sendStore
  dsimp only
  rw [pushWrite_part hp]
  have hbytes : p (if r.ord = 0 then if keepsCopy s r = true then keepCopy r (storeClean r s) else storeClean r s
      else blockFills r.core (some (r.ctx, r.ia / 128)) (cleanSector r.core r.ctx r.ia true s)) = p s := by
    split
    · split
      · rw [keepCopy_part hp, storeClean_part hp]
      · exact storeClean_part hp ..
    · rw [blockFills_part hp, cleanSector_part hp]
  split
  · rw [sliceTouch_part hp, hbytes]
  · exact hbytes

theorem maintain_part (core : Nat) (q : Nat → Nat → Bool) (drop : Bool) (s : State) : p (maintain core q drop s) = p s := by
  refine foldl_part p (fun s k => foldl_part p (fun s l => foldl_part p (fun s sec => ?_) _ s) _ s) _ s
  split
  · exact cleanSector_part hp ..
  · rfl

theorem entryMaintain_part (core ctx : Nat) (bs : List Byte) (drop : Bool) (s : State) : p (entryMaintain core ctx bs drop s) = p s := by
  unfold entryMaintain
  exact maintain_part hp ..

theorem sendOp_part (r : Req) (s : State) : p (sendOp r s) = p s := (pushWrite_part hp ..).trans (addReq_part hp r s)

theorem startAtomic_part (r : Req) (s : State) : p (startAtomic r s) = p s := by
  rw [startAtomic, sendOp_part hp, clearWay, wcFlush_part hp, blockFills_part hp, cleanSector_part hp]

end

/-! ### An access leaves its core -/

theorem steady_addReq (r : Req) (s : State) : Steady s (addReq r s) := .of_gangs rfl

/-- The core counts an event. -/
theorem steady_perfEvent (core ev n : Nat) (s : State) : Steady s (perfEvent core ev n s) := .of_gangs rfl

theorem steady_startLoad (r : Req) (s : State) : Steady s (startLoad r s) := by
  have hmiss : Steady s (perfEvent r.core 5 1 (if r.kind = .prefetch then s else wcFlush r.core (fun w => w.ctx == r.ctx && w.sector == r.ia / 128) s)) := by
    refine .trans ?_ (steady_perfEvent ..)
    split
    · exact .refl s
    · exact steady_wcFlush ..
  unfold startLoad
  dsimp only
  split
  · exact .trans (steady_of_cacheBlind fun _ hp => l1Hit_part hp r.core r.ctx r.ia s) (steady_addReq ..)
  · generalize perfEvent r.core 5 1 _ = s1 at hmiss ⊢
    refine hmiss.trans ?_
    split
    · exact .trans (steady_of_cacheBlind fun _ hp => sliceTouch_part hp (slabOf r.core) r.ctx (r.ia / 128) s1) (steady_addReq ..)
    · exact steady_addReq ..

theorem steady_startStore (r : Req) (s : State) : Steady s (startStore r s) := by
  have hmiss : Steady s (if (l1Sector s r.core r.ctx r.ia).present = 0 then perfEvent r.core 5 1 s else s) := by
    split
    · exact steady_perfEvent ..
    · exact .refl s
  unfold startStore
  dsimp only
  generalize (if (l1Sector s r.core r.ctx r.ia).present = 0 then perfEvent r.core 5 1 s else s) = s1 at hmiss ⊢
  refine hmiss.trans ?_
  split
  · exact (steady_addReq ..).trans (steady_of_cacheBlind fun _ hp => sendStore_part hp ..)
  split
  · exact steady_of_cacheBlind fun _ hp => (l1Hit_part hp ..).trans (l1Merge_part hp ..)
  · exact steady_addReq ..

/-! ### Scratchpads and shadow banks (R163, R200, R316) -/

theorem steady_scratchStore (gid off n : Nat) (bs : List Byte) (poison : Bool) (s : State) :
    Steady s (scratchMark gid off n poison (scratchWrite gid off bs s)) :=
  (calm_scratchWrite ..).steady.trans (steady_setGang_beside rfl)

theorem steady_shadowWrite (target off : Nat) (bs : List Byte) (poison : Bool) (count : Option Word) (s : State) :
    Steady s (shadowWrite target off bs poison count s) := steady_setGang_beside rfl

/-- Results known at issue wait in requests for their replies. -/
theorem retired_scratchReply (e : Env) (f : F2) (d : Ty × Nat) (vals : List (Nat × Quad × Bool)) (wr : Nat → Wr) (act : List Nat) (s : State) :
    Retired s (scratchReply e f d vals wr act s) :=
  .before (t := { s with ids := s.ids + 1 }) (.of_gangs rfl) (.after (retired_retire ..) (.foldl (fun s _ => steady_addReq _ s) _ _))

end Sys2Proof.Machine
end

section
/-! PROOF. What an instruction of the memory, sync-word and task-queue families leaves unchanged (O59): whichever way its issue goes, the step is a
retirement or a steady change, after the A bits that a poisoned translation sets. -/
namespace Sys2Proof.Machine

/-! ### A bits (R83, R216) -/

/-- A byte that is not zero is read back in any table, canonical or not. -/
theorem readByte_writeByte_of_ne_zero (m : Mem) (n : Nat) {v : Byte} (hv : v ≠ memDefault) : readByte (writeByte m n v) n = v := by
  induction m with
  | nil => simp [writeByte, hv, readByte]
  | cons c m ih =>
    simp only [writeByte, hv, if_false]
    split
    · exact if_pos rfl
    split
    · exact if_pos rfl
    next hne => exact (if_neg hne).trans ih

theorem or_accessed_ne_zero (b : Byte) : b ||| 0x10 ≠ memDefault := by
  intro h
  have hbit : (b ||| 0x10).getLsbD 4 = false := by rw [h]; rfl
  simp at hbit

theorem MemoryKept.butA {s t : State} (h : MemoryKept s t) : MemoryKeptButA s t :=
  ⟨h.2.1, h.2.2, fun a => .inl (by rw [h.1])⟩

theorem MemoryKeptButA.trans {s t u : State} (h : MemoryKeptButA s t) (h' : MemoryKeptButA t u) : MemoryKeptButA s u := by
  obtain ⟨hhost, hpeer, hbyte⟩ := h
  obtain ⟨hhost', hpeer', hbyte'⟩ := h'
  refine ⟨hhost'.trans hhost, hpeer'.trans hpeer, fun a => ?_⟩
  rcases hbyte a with h | h <;> rcases hbyte' a with h' | h' <;> rw [h', h]
  · exact .inl rfl
  · exact .inr rfl
  · exact .inr rfl
  · exact .inr (by rw [BitVec.or_assoc, BitVec.or_self])

theorem butA_setAccessed (l : Leaf) (s : State) : MemoryKeptButA s (setAccessed l s) := by
  unfold setAccessed
  split
  · exact (MemoryKept.refl s).butA
  refine ⟨rfl, rfl, fun a => ?_⟩
  dsimp only
  split
  · exact .inl rfl
  · by_cases ha : a = l.entry
    · subst ha
      exact .inr (readByte_writeByte_of_ne_zero _ _ (or_accessed_ne_zero _))
    · exact .inl (readByte_writeByte_ne _ _ ha)

theorem butA_touchPage (ctx ia : Nat) (write : Bool) (s : State) : MemoryKeptButA s (touchPage ctx ia write s) := by
  unfold touchPage
  split
  · exact (MemoryKept.refl s).butA
  split
  · exact butA_setAccessed ..
  · exact (MemoryKept.refl s).butA

theorem gangs_touchPage (ctx ia : Nat) (write : Bool) (s : State) : (touchPage ctx ia write s).gangs = s.gangs := by
  unfold touchPage
  split
  · rfl
  split
  · unfold setAccessed
    split <;> rfl
  · rfl

section
variable (e : Env) (p : Nat → Bool) (write : Bool) (accs : List (Nat × W64 × Nat)) (s : State)

theorem butA_touched : MemoryKeptButA s (touched e p write accs s) :=
  List.foldlRecOn (motive := MemoryKeptButA s) _ _ (MemoryKept.refl s).butA fun t ht a _ => ht.trans (butA_touchPage _ a.2.2 write t)

theorem gangs_touched : (touched e p write accs s).gangs = s.gangs :=
  List.foldlRecOn (motive := fun t => t.gangs = s.gangs) _ _ rfl fun t ht a _ => (gangs_touchPage _ a.2.2 write t).trans ht

/-- Where no place reads as poisoned, no page is touched. -/
theorem touched_clean (h : ∀ ia, p ia = false) : touched e p write accs s = s := by
  rw [touched, List.filter_eq_nil_iff.mpr fun a _ => by rw [h]; exact Bool.false_ne_true, List.foldl_nil]

end

/-! ### Outcomes of an issue -/

/-- A wave without handler and outside a transaction. -/
structure Ordinary (e : Env) : Prop where
  handler : e.sl.handler = none
  txn : e.sl.txn = none

/-- What the step of a memory instruction of the wave may leave: the frame of O59, its fibres seen through the gangs. -/
structure FramedBy (e : Env) (s t : State) : Prop where
  butA : MemoryKeptButA s t
  clean : NoPoisonSeen s e → MemoryKept s t
  fibre : ∀ g k y, kget? (getGang t g).fibres k = some y → ∃ x, kget? (getGang s g).fibres k = some x ∧ RegistersKept x y

/-- Every next state of an outcome is framed. -/
def Frames (e : Env) (s : State) (r : Out) : Prop := ∀ t, r = .next t → FramedBy e s t

section
variable {e : Env} {s t : State} {k : Out}

theorem frames_retired (h : Retired s t) : Frames e s (.next t) := by
  rintro _ ⟨⟩
  exact ⟨h.memory.butA, fun _ => h.memory, h.fibre⟩

theorem frames_steady (h : Steady s t) : Frames e s (.next t) := frames_retired h.retired

theorem frames_ite {c : Prop} [Decidable c] {k' : Out} (hk : Frames e s k) (hk' : Frames e s k') : Frames e s (if c then k else k') := by
  split
  · exact hk
  · exact hk'

theorem frames_issue {h : Hdr} {sc : Env → Handler → Out} {body : Env → List Nat → State → Out} (hi : Issues false s e)
    (hb : Frames e s (body e (executing h e) s)) : Frames e s (issue h false s sc body) := by
  rw [issue_runs hi]
  exact hb

/-- A trap outside a transaction is taken, waits for the open windows, or is none. -/
theorem steady_takeTrap (ho : Ordinary e) {r : Raised} (h : takeTrap e r s = .next t) : Steady s t := by
  unfold takeTrap at h
  rw [ho.handler, ho.txn] at h
  split at h
  · cases h
    exact .refl s
  · split at h
    next h' => cases h'
    split at h
    · cases h
      exact .refl s
    · cases h
      exact steady_enterHandler ..

theorem frames_orTrap (ho : Ordinary e) (r : Raised) (hk : Frames e s k) : Frames e s (orTrap e r s k) := by
  cases r with
  | nil => exact hk
  | cons x r => exact fun t h => frames_steady (steady_takeTrap ho h) t rfl

/-- Lanes that meet poison trap after their translations (R122). -/
theorem frames_orPoison (ho : Ordinary e) {p : Nat → Bool} {write : Bool} {accs : List (Nat × W64 × Nat)}
    (hp : NoPoisonSeen s e → ∀ ia, p ia = false) (hk : Frames e s k) : Frames e s (orPoison e p write accs s k) := by
  unfold orPoison
  cases poisonAt p accs with
  | nil => exact hk
  | cons x r =>
    intro t h
    have hs := steady_takeTrap ho h
    refine ⟨(butA_touched ..).trans hs.memory.butA, fun hclean => ?_, fun g k y hy => ?_⟩
    · exact touched_clean e p write accs s (hp hclean) ▸ hs.memory
    · have hgang : getGang (touched e p write accs s) g = getGang s g := by rw [getGang, gangs_touched]; rfl
      exact hgang ▸ hs.retired.fibre g k y hy

end

/-! ### Global accesses (R314, R315, R321 to R327) -/

section
variable {e : Env} {s : State}

theorem steady_openEntry {act sectors : List Nat} {o : Nat × State} (h : openEntry e act sectors s = o) : Steady s o.2 := by
  cases h
  exact .of_gangs rfl

/-- Accesses leave the core after the retirement. -/
theorem retired_accesses {s1 : State} (h : Steady s s1) (u : Nat) (win : Nat → Option Window) (pc : Nat → W64) {α : Type} (l : List α)
    {send : State → α → State} (hsend : ∀ s a, Steady s (send s a)) :
    Retired s (l.foldl send (retire e u (fun _ => Wr.none) win pc s1)) :=
  .before h (.after (retired_retire ..) (.foldl hsend l _))

theorem frames_loadGlobal (ho : Ordinary e) (f : F2) (act : List Nat) : Frames e s (loadGlobal f e act s) := by
  unfold loadGlobal
  dsimp only
  refine frames_ite (frames_steady (steady_logStall ..)) ?_
  refine frames_ite (frames_steady (.refl s)) ?_
  refine frames_orPoison ho (fun h ia => by rw [(h ia).2, Bool.and_false]) (frames_retired ?_)
  generalize hopen : openEntry e act _ s = o
  refine .after ?_ (steady_closeEntry _ _ _)
  refine retired_accesses ((steady_openEntry hopen).trans ?_) 1 _ _ _ fun s _ => steady_startLoad _ s
  exact .of_gangs rfl

theorem frames_storeGlobal (ho : Ordinary e) (f : F2) (act : List Nat) : Frames e s (storeGlobal f e act s) := by
  unfold storeGlobal
  dsimp only
  refine frames_ite (frames_steady (steady_logStall ..)) ?_
  refine frames_orPoison ho (fun h ia => by rw [(h ia).2, Bool.and_false]) ?_
  have hr : Steady s (if f.ord = 0 then (true, s) else release e act f.sc s).2 := .ite_snd (.refl s) (steady_release ..)
  refine frames_ite (frames_steady hr) ?_
  generalize hopen : openEntry e act _ _ = o
  refine frames_retired (.after ?_ ((steady_of_cacheBlind fun _ hp => layerStores_part hp o.1 _).trans (steady_closeEntry _ _ _)))
  exact retired_accesses (hr.trans (steady_openEntry hopen)) 1 _ _ _ fun s _ => steady_startStore _ s

theorem frames_ld (hi : Issues false s e) (ho : Ordinary e) (f : F2) : Frames e s (execLd f s) := by
  refine frames_issue hi (frames_orTrap ho _ (frames_orTrap ho _ ?_))
  rw [ho.txn]
  exact frames_loadGlobal ho f _

theorem frames_st (hi : Issues false s e) (ho : Ordinary e) (f : F2) : Frames e s (execSt f s) := by
  refine frames_issue hi (frames_orTrap ho _ (frames_orTrap ho _ ?_))
  rw [ho.txn]
  exact frames_storeGlobal ho f _

theorem frames_pref (hi : Issues false s e) (ho : Ordinary e) (f : F2) : Frames e s (execPref f s) := by
  refine frames_issue hi (frames_orTrap ho _ ?_)
  dsimp only
  refine frames_ite (frames_retired (retired_retirePlain ..)) ?_
  refine frames_ite (frames_steady (steady_logStall ..)) ?_
  generalize hopen : openEntry e (executing f.h e) _ s = o
  refine frames_retired (.after ?_ (steady_closeEntry _ _ _))
  exact retired_accesses (steady_openEntry hopen) 1 _ _ _ fun s _ => steady_startLoad _ s

theorem frames_regionOp (hi : Issues false s e) (ho : Ordinary e) (f : F2) (drop : Bool) : Frames e s (regionOp f drop s) := by
  refine frames_issue hi (frames_orTrap ho _ ?_)
  dsimp only
  refine frames_ite (frames_retired (retired_retirePlain ..)) ?_
  refine frames_ite (frames_steady (steady_splitParked ..)) ?_
  refine frames_retired (.after (.before ?_ (retired_retirePlain ..)) (steady_setGang (fun k x => by split <;> rfl) rfl))
  refine steady_of_cacheBlind fun p hp => ?_
  cases drop with
  | false => rw [if_neg Bool.false_ne_true, wcFlush_part hp, maintain_part hp, if_neg Bool.false_ne_true]
  | true => rw [if_pos rfl, maintain_part hp, if_pos rfl, blockIf_part hp]

theorem frames_atomic (hi : Issues false s e) (ho : Ordinary e) (op : Nat) (f : F2) : Frames e s (execAtomic op f s) := by
  refine frames_issue hi ?_
  rw [forbidInTxn_none ho.txn]
  refine frames_orTrap ho _ (frames_orTrap ho _ ?_)
  dsimp only
  refine frames_ite (frames_steady (steady_logStall ..)) ?_
  refine frames_orPoison ho (fun h ia => (h ia).1 true) ?_
  have hr : Steady s (if f.ord.getLsbD 1 = true then release e (executing f.h e) f.sc s else (true, s)).2 :=
    .ite_snd (steady_release ..) (.refl s)
  refine frames_ite (frames_steady (.refl s)) ?_
  refine frames_ite (frames_steady hr) ?_
  generalize hopen : openEntry e (executing f.h e) _ _ = o
  refine frames_retired (.after ?_ (steady_closeEntry _ _ _))
  refine retired_accesses ((hr.trans (steady_openEntry hopen)).trans ?_) 1 _ _ _ fun _ _ => steady_of_cacheBlind fun _ hp => startAtomic_part hp ..
  exact .of_gangs rfl

/-! ### Fences (R328, R329) -/

theorem frames_fenceParts (act : List Nat) (rel acq : Bool) (sc : BitVec 2) {after : State → State} (hafter : ∀ s, Steady s (after s)) :
    Frames e s (fenceParts e act rel acq sc after s) := by
  have hr : Steady s (if rel = true then release e act sc s else
      (flushDone s e.g (slabOf e.core) act, wcFlush e.core (fun _ => true) s)).2 := .ite_snd (steady_release ..) (steady_wcFlush ..)
  unfold fenceParts
  dsimp only
  refine frames_ite (frames_steady (steady_splitParked ..)) ?_
  refine frames_ite (frames_steady hr) ?_
  exact frames_retired (.before ((hr.trans (.ite (steady_acquireEffect ..) (.refl _))).trans (hafter _)) (retired_retirePlain ..))

theorem frames_fence (hi : Issues false s e) (ho : Ordinary e) (f : F2) : Frames e s (execFence f s) := by
  refine frames_issue hi ?_
  rw [forbidInTxn_none ho.txn]
  refine frames_ite (frames_retired (retired_retirePlain ..)) ?_
  exact frames_fenceParts _ _ _ _ Steady.refl

theorem frames_fencex (hi : Issues false s e) (ho : Ordinary e) (f : F2) : Frames e s (execFencex f s) := by
  refine frames_issue hi ?_
  rw [forbidInTxn_none ho.txn]
  dsimp only
  refine frames_ite (frames_retired (retired_retirePlain ..)) ?_
  refine frames_ite (frames_fenceParts _ _ _ _ Steady.refl) ?_
  refine frames_ite (frames_fenceParts _ _ _ _ Steady.refl) ?_
  refine frames_ite (frames_fenceParts _ _ _ _ fun _ => steady_setGang_beside rfl) ?_
  refine frames_ite (frames_steady (.refl s)) ?_
  exact frames_fenceParts _ _ _ _ Steady.refl

/-! ### Scratchpad, planes and exchange (R316 to R320) -/

theorem frames_lds (hi : Issues false s e) (ho : Ordinary e) (f : F2) : Frames e s (execLds f s) := by
  refine frames_issue hi (frames_orTrap ho _ (frames_orTrap ho _ ?_))
  unfold loadScratch
  dsimp only
  refine frames_ite (frames_steady (steady_splitParked ..)) ?_
  rw [ho.txn]
  exact frames_retired (retired_scratchReply ..)

theorem frames_sts (hi : Issues false s e) (ho : Ordinary e) (f : F2) : Frames e s (execSts f s) := by
  refine frames_issue hi (frames_orTrap ho _ (frames_orTrap ho _ ?_))
  unfold storeScratch
  rw [ho.txn]
  dsimp only
  have hr : Steady s (if f.ord = 0 then (true, s) else scratchRelease e (executing f.h e) f.sc s).2 := .ite_snd (.refl s) (steady_release ..)
  refine frames_ite (frames_steady (steady_splitParked ..)) ?_
  refine frames_ite (frames_steady hr) ?_
  exact frames_retired (.before hr (.after (retired_retirePlain ..) (.foldl (fun s _ => steady_scratchStore _ _ _ _ _ s) _ _)))

theorem frames_ldpl (hi : Issues false s e) (ho : Ordinary e) (f : F2) : Frames e s (execLdpl f s) := by
  refine frames_issue hi (frames_orTrap ho _ (frames_orTrap ho _ ?_))
  refine frames_ite (frames_steady (steady_splitParked ..)) ?_
  rw [ho.txn]
  exact frames_retired (retired_scratchReply ..)

theorem frames_stpl (hi : Issues false s e) (ho : Ordinary e) (f : F2) : Frames e s (execStpl f s) := by
  refine frames_issue hi (frames_orTrap ho _ (frames_orTrap ho _ ?_))
  rw [ho.txn]
  dsimp only
  refine frames_ite (frames_steady (steady_splitParked ..)) ?_
  exact frames_retired (.after (retired_retirePlain ..) (.foldl (fun s _ => steady_scratchStore _ _ _ _ _ s) _ _))

theorem frames_exchangeStore (hi : Issues false s e) (ho : Ordinary e) (f : F2) (counted : Bool) : Frames e s (exchangeStore f counted s) := by
  refine frames_issue hi ?_
  rw [forbidInTxn_none ho.txn]
  refine frames_orTrap ho _ (frames_orTrap ho _ ?_)
  refine frames_ite (frames_steady (steady_splitParked ..)) ?_
  refine frames_retired (.after (retired_retirePlain ..) (.foldl (fun s fid => ?_) _ _))
  dsimp only
  split
  · exact .refl s
  · exact steady_shadowWrite ..

/-! ### Sync words, task queues and SBSET (R336 to R342) -/

theorem frames_sync (hi : Issues false s e) (ho : Ordinary e) (f : F5) (uses : List RegUse) (srcs : List Src) {go : Env → List Nat → State → Out}
    (hgo : ∀ act, Frames e s (go e act s)) : Frames e s (execSync f uses srcs go s) := by
  refine frames_issue hi ?_
  rw [forbidInTxn_none ho.txn]
  refine frames_orTrap ho _ (frames_orTrap ho _ ?_)
  refine frames_ite (frames_steady (steady_splitParked ..)) ?_
  exact hgo _

/-- Words that are updated after the retirement. -/
theorem retired_syncWrites {s1 : State} (h : Steady s s1) {α : Type} (l : List α) (off : α → Nat) (w : State → α → Quad) :
    Retired s (l.foldl (fun s a => syncWrite e.gid (off a) (w s a) s) (retirePlain e 5 s1)) :=
  .before h (.after (retired_retirePlain ..) (.foldl (fun _ _ => (calm_scratchWrite ..).steady) _ _))

theorem frames_swinit (hi : Issues false s e) (ho : Ordinary e) (f : F5) : Frames e s (execSwinit f s) :=
  frames_sync hi ho f _ _ fun act => frames_retired (retired_syncWrites (.refl s) act _ _)

theorem frames_swexpect (hi : Issues false s e) (ho : Ordinary e) (f : F5) : Frames e s (execSwexpect f s) :=
  frames_sync hi ho f _ _ fun act => frames_retired (retired_syncWrites (.refl s) act _ _)

theorem frames_swarrive (hi : Issues false s e) (ho : Ordinary e) (f : F5) : Frames e s (execSwarrive f s) := by
  refine frames_sync hi ho f _ _ fun act => ?_
  have hr : Steady s (if f.ord.getLsbD 1 = true then scratchRelease e act f.sc s else (true, s)).2 := .ite_snd (steady_release ..) (.refl s)
  dsimp only
  refine frames_ite (frames_steady hr) ?_
  exact frames_retired (.after (retired_syncWrites hr _ id _) (.ite (steady_acquireEffect ..) (.refl _)))

theorem frames_queue (hi : Issues false s e) (ho : Ordinary e) (kind : ReqKind) (f : F5) (image result : Bool) :
    Frames e s (execQueue kind f image result s) := by
  refine frames_issue hi ?_
  rw [forbidInTxn_none ho.txn]
  refine frames_orTrap ho _ (frames_orTrap ho _ ?_)
  dsimp only
  refine frames_ite (frames_steady (steady_logStall ..)) ?_
  refine frames_orPoison ho (fun h ia => (h ia).1 true) ?_
  have hr : Steady s (if f.ord.getLsbD 1 = true then release e (executing f.h e) f.sc s else (true, s)).2 :=
    .ite_snd (steady_release ..) (.refl s)
  refine frames_ite (frames_steady (.refl s)) ?_
  refine frames_ite (frames_steady (steady_splitParked ..)) ?_
  refine frames_ite (frames_steady hr) ?_
  generalize hopen : openEntry e (executing f.h e) _ _ = o
  refine frames_retired (.after ?_ (steady_closeEntry _ _ _))
  refine retired_accesses ((hr.trans (steady_openEntry hopen)).trans ?_) 5 _ _ _ fun s a => ?_
  · exact .of_gangs rfl
  split
  · split
    · exact steady_addReq ..
    · exact steady_of_cacheBlind fun _ hp => (sendOp_part hp ..).trans (entryMaintain_part hp ..)
  · exact steady_of_cacheBlind fun _ hp => sendOp_part hp ..

theorem frames_sbset (hi : Issues false s e) (ho : Ordinary e) (f : F5) : Frames e s (execSbset f s) := by
  refine frames_issue hi ?_
  rw [forbidInTxn_none ho.txn]
  refine frames_orTrap ho _ (frames_ite (frames_retired (retired_retirePlain ..)) ?_)
  refine frames_ite (frames_steady (steady_release ..)) (frames_retired ?_)
  dsimp only
  refine .after ?_ (calm_checkReleased _ _).steady
  refine .after ?_ (steady_setGang (fun k x => by split <;> rfl) rfl)
  exact .after (.before (steady_release ..) (retired_retirePlain ..)) (steady_setTask ..)

end

/-! ### O59 -/

theorem frames_memoryForm {i : Instr} {s : State} {e : Env} (hm : memoryForm i = true) (hi : Issues false s e) (ho : Ordinary e) :
    Frames e s (exec i s) := by
  cases i with
  | ld f => exact frames_ld hi ho f
  | st f => exact frames_st hi ho f
  | lds f => exact frames_lds hi ho f
  | sts f => exact frames_sts hi ho f
  | xst f => exact frames_exchangeStore hi ho f false
  | xstCount f => exact frames_exchangeStore hi ho f true
  | ldpl f => exact frames_ldpl hi ho f
  | stpl f => exact frames_stpl hi ho f
  | pref f => exact frames_pref hi ho f
  | flushr f => exact frames_regionOp hi ho f false
  | invr f => exact frames_regionOp hi ho f true
  | aadd f => exact frames_atomic hi ho 0 f
  | amin f => exact frames_atomic hi ho 1 f
  | amax f => exact frames_atomic hi ho 2 f
  | aand f => exact frames_atomic hi ho 3 f
  | aor f => exact frames_atomic hi ho 4 f
  | axor f => exact frames_atomic hi ho 5 f
  | axchg f => exact frames_atomic hi ho 6 f
  | acas f => exact frames_atomic hi ho 7 f
  | ainc f => exact frames_atomic hi ho 8 f
  | fence f => exact frames_fence hi ho f
  | fencex f => exact frames_fencex hi ho f
  | swinit f => exact frames_swinit hi ho f
  | swexpect f => exact frames_swexpect hi ho f
  | swarrive f => exact frames_swarrive hi ho f
  | taskpost f => exact frames_queue hi ho .post f true true
  | tasktake f => exact frames_queue hi ho .take f true true
  | taskdone f => exact frames_queue hi ho .done f false false
  | sbset f => exact frames_sbset hi ho f
  | _ => cases hm

/-- Settles O59: whether it retires, waits or traps, the step of a memory instruction is framed, and the fibres of a gang are seen in it. -/
theorem memoryFrame : Obligations.MemoryFrame := by
  unfold Obligations.MemoryFrame
  intro i s e t hm hi ht hexec
  obtain ⟨hbutA, hclean, hfibre⟩ := frames_memoryForm hm hi ⟨hi.user, ht⟩ t hexec
  refine ⟨hbutA, hclean, fun gid fid hsome => ?_⟩
  obtain ⟨y, hy⟩ := Option.isSome_iff_exists.mp hsome
  obtain ⟨x, hx, hkept⟩ := hfibre gid fid y hy
  rwa [fibreAt, getFibre, kget, hx, fibreAt, getFibre, kget, hy]

end Sys2Proof.Machine
end
section
/-! PROOF. A write at its home (R108, R121): the sector that it changes, byte for byte, and what its line's new version leaves alone (O41). -/
namespace Sys2Proof.Machine

/-! ### The bits of a sector -/

theorem getLsbD_byteOnes (i j : Nat) : ((0xFF : BitVec 1024) <<< (8 * i)).getLsbD j = (decide (j < 1024) && decide (j / 8 = i)) := by
  have hones : ∀ k, (0xFF : BitVec 1024).getLsbD k = decide (k < 8) := fun k => by
    rw [show (0xFF : BitVec 1024) = BitVec.ofNat 1024 (2 ^ 8 - 1) from rfl, BitVec.getLsbD_ofNat, Nat.testBit_two_pow_sub_one]
    by_cases hk : k < 8
    · simp [hk, show k < 1024 by omega]
    · simp [hk]
  rw [BitVec.getLsbD_shiftLeft, hones, ← decide_not, ← Bool.decide_and, ← Bool.decide_and, ← Bool.decide_and, decide_eq_decide]
  omega

/-- The bits of a byte mask, after the bytes below `n`. -/
theorem getLsbD_bitMask_upto (m : BitVec 128) (n j : Nat) :
    ((List.range n).foldl (fun acc i => if m.getLsbD i then acc ||| ((0xFF : BitVec 1024) <<< (8 * i)) else acc) 0).getLsbD j =
      (decide (j < 1024) && decide (j / 8 < n) && m.getLsbD (j / 8)) := by
  induction n with
  | zero => simp
  | succ n ih =>
    rw [List.range_succ, List.foldl_append, List.foldl_cons, List.foldl_nil]
    have hlt : j / 8 < n + 1 ↔ j / 8 < n ∨ j / 8 = n := by omega
    by_cases hj : j / 8 = n
    · subst hj
      split
      next hm => rw [BitVec.getLsbD_or, ih, getLsbD_byteOnes, hm]; simp
      next hm => rw [ih, Bool.not_eq_true _ |>.mp hm]; simp
    · split
      · rw [BitVec.getLsbD_or, ih, getLsbD_byteOnes]; simp [hj, hlt]
      · rw [ih]; simp [hj, hlt]

theorem getLsbD_bitMask (m : BitVec 128) (j : Nat) : (bitMask m).getLsbD j = (decide (j < 1024) && m.getLsbD (j / 8)) := by
  rw [bitMask, getLsbD_bitMask_upto]
  by_cases hj : j < 1024
  · simp [hj, show j / 8 < 128 by omega]
  · simp [hj]

/-- A merge takes the named bytes of the new sector and the others of the old one. -/
theorem sectorByte_sectorMerge (old new : BitVec 1024) (mask : BitVec 128) {i : Nat} (hi : i < 128) :
    sectorByte (sectorMerge old new mask) i = if mask.getLsbD i then sectorByte new i else sectorByte old i := by
  apply BitVec.eq_of_getLsbD_eq
  intro j hj
  have hlt : 8 * i + j < 1024 := by omega
  have hdiv : (8 * i + j) / 8 = i := by omega
  have hbit : ∀ v : BitVec 1024, (sectorByte v i).getLsbD j = v.getLsbD (8 * i + j) := fun v => by
    rw [sectorByte, BitVec.getLsbD_extractLsb', decide_eq_true hj, Bool.true_and]
  rw [apply_ite (BitVec.getLsbD · j), hbit, hbit, hbit, sectorMerge, BitVec.getLsbD_or, BitVec.getLsbD_and, BitVec.getLsbD_and,
    BitVec.getLsbD_not, getLsbD_bitMask, hdiv]
  by_cases hm : mask.getLsbD i = true <;> simp [hm, hlt]

/-- A byte of a sector that was read from memory. -/
theorem sectorByte_ofNat (v : Nat) {i : Nat} (hi : i < 128) : sectorByte (BitVec.ofNat 1024 v) i = BitVec.ofNat 8 (v / 2 ^ (8 * i)) := by
  apply BitVec.eq_of_getLsbD_eq
  intro j hj
  rw [sectorByte, BitVec.getLsbD_extractLsb', BitVec.getLsbD_ofNat, BitVec.getLsbD_ofNat, Nat.testBit_div_two_pow, Nat.add_comm j,
    decide_eq_true hj, decide_eq_true (show 8 * i + j < 1024 by omega), Bool.true_and]

theorem natOfBytes_byte (bs : List Byte) {i : Nat} (hi : i < bs.length) : BitVec.ofNat 8 (natOfBytes bs / 2 ^ (8 * i)) = bs[i] := by
  induction bs generalizing i with
  | nil => simp at hi
  | cons b bs ih =>
    cases i with
    | zero => simp [natOfBytes, BitVec.ofNat_add, BitVec.ofNat_mul, show BitVec.ofNat 8 256 = 0 from rfl]
    | succ i =>
      have hb : b.toNat < 256 := b.isLt
      have hdiv : (b.toNat + 256 * natOfBytes bs) / 2 ^ (8 * (i + 1)) = natOfBytes bs / 2 ^ (8 * i) := by
        rw [show 8 * (i + 1) = 8 + 8 * i by omega, Nat.pow_add, ← Nat.div_div_eq_div_mul]
        congr 1
        omega
      simpa [natOfBytes, hdiv] using ih (by simpa using hi)

@[simp] theorem length_readBytes (m : Mem) (a n : Nat) : (readBytes m a n).length = n := by
  induction n generalizing a with
  | zero => rfl
  | succ n ih => simp [readBytes, ih]

theorem getElem_readBytes (m : Mem) (a n i : Nat) (h : i < (readBytes m a n).length) : (readBytes m a n)[i] = readByte m (a + i) := by
  induction n generalizing a i with
  | zero => simp at h
  | succ n ih =>
    cases i with
    | zero => rfl
    | succ i =>
      have := ih (a + 1) i (by simpa using h)
      simpa [readBytes, Nat.add_assoc, Nat.add_comm 1 i] using this

theorem sectorByte_readSector (m : Mem) (a : Nat) {i : Nat} (hi : i < 128) : sectorByte (readSector m a) i = readByte m (a + i) := by
  have hlen : i < (readBytes m a 128).length := by simpa using hi
  rw [readSector, sectorByte_ofNat _ hi, readLE, natOfBytes_byte _ hlen, getElem_readBytes]

/-! ### A sector written into memory -/

/-- What the bytes below `n` of a sector's write do. -/
theorem readByte_writeSector_upto {m : Mem} (hm : Memory.wf m = true) (base : Nat) (mask : BitVec 128) (d : BitVec 1024) (n a : Nat) :
    readByte ((List.range n).foldl (fun acc i => if mask.getLsbD i then writeByte acc (base + i) (sectorByte d i) else acc) m) a =
      if base ≤ a ∧ a < base + n ∧ mask.getLsbD (a - base) = true then sectorByte d (a - base) else readByte m a := by
  induction n with
  | zero => rw [if_neg (by omega)]; rfl
  | succ n ih =>
    rw [List.range_succ, List.foldl_append, List.foldl_cons, List.foldl_nil]
    by_cases ha : a = base + n
    · subst ha
      rw [show base + n - base = n by omega] at ih ⊢
      split
      next hb =>
        rw [if_pos ⟨by omega, by omega, hb⟩]
        exact readByte_writeByte_same _ _ (foldl_wf _ _ (fun m i h => by split <;> [exact writeByte_wf _ _ h; exact h]) hm)
      next hb =>
        rw [ih, if_neg (by omega), if_neg (fun h => hb h.2.2)]
    · have hrange : (base ≤ a ∧ a < base + (n + 1) ∧ mask.getLsbD (a - base) = true) ↔
          (base ≤ a ∧ a < base + n ∧ mask.getLsbD (a - base) = true) := by
        constructor <;> rintro ⟨h1, h2, h3⟩ <;> exact ⟨h1, by omega, h3⟩
      simp only [hrange, ← ih]
      split
      · exact readByte_writeByte_ne _ _ ha
      · rfl

theorem readByte_writeSector_in {m : Mem} (hm : Memory.wf m = true) (base : Nat) (mask : BitVec 128) (d : BitVec 1024) {i : Nat}
    (hi : i < 128) : readByte (writeSector m base mask d) (base + i) =
      if mask.getLsbD i then sectorByte d i else readByte m (base + i) := by
  rw [writeSector, readByte_writeSector_upto hm, Nat.add_sub_cancel_left]
  simp [hi]

theorem readByte_writeSector_out {m : Mem} (hm : Memory.wf m = true) (base : Nat) (mask : BitVec 128) (d : BitVec 1024) {a : Nat}
    (ha : a < base ∨ base + 128 ≤ a) : readByte (writeSector m base mask d) a = readByte m a := by
  rw [writeSector, readByte_writeSector_upto hm, if_neg (by omega)]

/-! ### The new version of a line -/

/-- A part of the machine that does not see wake-ups, versions and slices. -/
def WakeBlind {α : Type} (p : State → α) : Prop := ∀ s g c sl w q ls rf sb,
  p { s with gangs := g, cores := c, sleepers := sl, wakes := w, queues := q, lines := ls, refill := rf, slabs := sb } = p s

section
variable {α : Type} {p : State → α} (hp : WakeBlind p)
include hp

theorem wakeSleeper_part (sid : Nat) (s : State) : p (wakeSleeper sid s) = p s := by
  unfold wakeSleeper
  split
  · rfl
  · dsimp only
    split
    · exact hp s _ _ _ _ s.queues s.lines s.refill s.slabs
    · exact hp s s.gangs _ _ _ s.queues s.lines s.refill s.slabs

theorem wakeAll_part (ws : List WakeReg) (s : State) : p (wakeAll ws s) = p s := by
  refine foldl_part p (fun s w => ?_) ws s
  split
  · exact wakeSleeper_part hp ..
  · exact hp s s.gangs s.cores s.sleepers s.wakes _ s.lines s.refill s.slabs

theorem wakeLine_part (home line : Nat) (s : State) : p (wakeLine home line s) = p s := wakeAll_part hp ..

theorem evictLine_part (line : Nat) (s : State) : p (evictLine line s) = p s := by
  unfold evictLine
  split
  · rfl
  · split
    · rfl
    · refine (hp _ _ _ _ _ _ _ _ _).trans ((wakeAll_part hp ..).trans ?_)
      exact hp s s.gangs s.cores s.sleepers s.wakes s.queues _ _ s.slabs

theorem makeRoom_part (line : Nat) (s : State) : p (makeRoom line s) = p s := by
  unfold makeRoom
  dsimp only
  split
  · rfl
  · split
    · exact evictLine_part hp ..
    · rfl

theorem touchLine_part (line : Nat) (s : State) : p (touchLine line s) = p s :=
  (hp (makeRoom line s) _ _ _ _ _ _ _ _).trans (makeRoom_part hp line s)

theorem bumpLine_part (line : Nat) (s : State) : p (bumpLine line s) = p s :=
  (wakeLine_part hp ..).trans ((hp (makeRoom line s) _ _ _ _ _ _ _ _).trans (makeRoom_part hp line s))

theorem dropCopies_part (slab pas : Nat) (s : State) : p (dropCopies slab pas s) = p s :=
  hp s s.gangs s.cores s.sleepers s.wakes s.queues s.lines s.refill _

end

/-! ### The sector at its home -/

theorem mem_insertNat {n x : Nat} {l : List Nat} : x ∈ insertNat n l ↔ x = n ∨ x ∈ l := by
  unfold insertNat
  split
  next h =>
    have hn : n ∈ l := by simpa using h
    exact ⟨.inr, fun hx => hx.elim (fun he => he ▸ hn) id⟩
  next => simp [or_comm]

/-- A home's memory once the bytes of a write stand in it. -/
def sectorStored (keys : BitVec 512) (pas : Nat) (mask : BitVec 128) (d : BitVec 1024) (poison : Bool) (agent : Nat) (stamp : List Nat)
    (s : State) : State := { s with
  mem := writeSector s.mem (pas * 128) (if sectorTag s pas == some keys then mask else fullMask) (sectorMerge (sectorUnder s keys pas) d mask)
  sectorKeys := kset s.sectorKeys pas keys
  poison := if poison then insertNat pas s.poison else if mask = fullMask then without s.poison [pas] else s.poison
  stamps := kset s.stamps pas (agent, vmax (kget s.stamps pas (0, [])).2 stamp) }

theorem storeSector_part {α : Type} {p : State → α} (hp : WakeBlind p) (keys : BitVec 512) (pas : Nat) (mask : BitVec 128) (d : BitVec 1024)
    (poison : Bool) (agent : Nat) (stamp : List Nat) (s : State) (hf : homeFenced s pas = false) :
    p (storeSector keys pas mask d poison agent stamp s) = p (sectorStored keys pas mask d poison agent stamp s) := by
  unfold storeSector
  dsimp only
  rw [if_neg (by simp [hf]), bumpLine_part hp]
  split
  · rfl
  · exact dropCopies_part hp ..

/-- A sector that no other keys wrote reads as memory holds it. -/
theorem sectorUnder_own {s : State} {keys : BitVec 512} {pas : Nat} (h : sectorTag s pas = none ∨ sectorTag s pas = some keys) :
    sectorUnder s keys pas = readSector s.mem (pas * 128) := by
  unfold sectorUnder
  rcases h with h | h <;> simp [h]

/-- The bytes of the sector in memory, by the bytes that the write names. -/
theorem readByte_sectorStored {s : State} (hwf : Memory.wf s.mem = true) {keys : BitVec 512} {pas : Nat}
    (htag : sectorTag s pas = none ∨ sectorTag s pas = some keys) (mask : BitVec 128) (d : BitVec 1024) (poison : Bool) (agent : Nat)
    (stamp : List Nat) {i : Nat} (hi : i < 128) : readByte (sectorStored keys pas mask d poison agent stamp s).mem (pas * 128 + i) =
      if mask.getLsbD i then sectorByte d i else readByte s.mem (pas * 128 + i) := by
  have hmerged := sectorByte_sectorMerge (readSector s.mem (pas * 128)) d mask hi
  rw [sectorByte_readSector _ _ hi] at hmerged
  rw [sectorStored, readByte_writeSector_in hwf _ _ _ hi, sectorUnder_own htag, hmerged]
  rcases htag with htag | htag
  · have hfull : fullMask.getLsbD i = true := by rw [fullMask, BitVec.getLsbD_allOnes, decide_eq_true hi]
    simp [htag, hfull]
  · simp only [htag, beq_self_eq_true, if_true]
    split <;> rfl

/-- Settles O41: the bytes of the mask are those of the write, all others stand, and the poison mark follows R121. -/
theorem storeWritesItsBytes : Obligations.StoreWritesItsBytes := by
  unfold Obligations.StoreWritesItsBytes
  intro s keys pas mask d poison agent stamp hwf htag hf
  have hmem := storeSector_part (p := fun s => s.mem) (fun _ _ _ _ _ _ _ _ _ => rfl) keys pas mask d poison agent stamp s hf
  have hpoison := storeSector_part (p := fun s => s.poison) (fun _ _ _ _ _ _ _ _ _ => rfl) keys pas mask d poison agent stamp s hf
  have hhost := storeSector_part (p := fun s => s.hostMem) (fun _ _ _ _ _ _ _ _ _ => rfl) keys pas mask d poison agent stamp s hf
  have hpeer := storeSector_part (p := fun s => s.peerMem) (fun _ _ _ _ _ _ _ _ _ => rfl) keys pas mask d poison agent stamp s hf
  dsimp only [sectorStored] at hpoison
  refine ⟨fun i hi => ?_, fun a ha => ?_, hhost, hpeer, fun hp => ?_, fun hp hm => ?_, fun q hq => ?_⟩
  · rw [hmem, readByte_sectorStored hwf htag mask d poison agent stamp hi]
  · rw [hmem, sectorStored, readByte_writeSector_out hwf _ _ _ (by omega)]
  · rw [hpoison, if_pos hp]
    exact mem_insertNat.mpr (.inl rfl)
  · rw [hpoison, hp, if_neg Bool.false_ne_true, if_pos hm]
    simp [mem_without]
  · rw [hpoison]
    split
    · simp [mem_insertNat, hq]
    · split
      · simp [mem_without, hq]
      · exact Iff.rfl

end Sys2Proof.Machine
end
section
/-! PROOF. Errors, patrol scrub, ageing and links (R121, R421, R422, R434, R436, R437): what a fence and the end of the gangs on a fenced unit
leave of memory and of the management state, and O50. -/
namespace Sys2Proof.Machine

/-! ### What the end of a gang leaves alone -/

/-- Every memory, and the management state. -/
def bytesAndMgmt (s : State) : Mem × Mem × Mem × Mgmt := (s.mem, s.hostMem, s.peerMem, s.mgmt)

theorem memoryKept_of_bytes {s t : State} (h : bytesAndMgmt t = bytesAndMgmt s) : MemoryKept s t := by
  simp only [bytesAndMgmt, Prod.mk.injEq] at h
  exact ⟨h.1, h.2.1, h.2.2.1⟩

theorem mgmt_of_bytes {s t : State} (h : bytesAndMgmt t = bytesAndMgmt s) : t.mgmt = s.mgmt :=
  congrArg (fun b : Mem × Mem × Mem × Mgmt => b.2.2.2) h

theorem bytes_wakeAll (ws : List WakeReg) (s : State) : bytesAndMgmt (wakeAll ws s) = bytesAndMgmt s :=
  wakeAll_part (fun _ _ _ _ _ _ _ _ _ => rfl) ws s

theorem bytes_releaseCaches (core : Nat) (s : State) : bytesAndMgmt (releaseCaches core s) = bytesAndMgmt s :=
  releaseCaches_part (fun _ _ _ _ _ _ => rfl) core s

theorem bytes_scratchWrite (gid off : Nat) (bs : List Byte) (s : State) : bytesAndMgmt (scratchWrite gid off bs s) = bytesAndMgmt s :=
  foldl_part bytesAndMgmt (fun s _ => bytes_wakeAll _ s) _ _

theorem bytes_syncBytes (gid : Nat) (sync : Option Nat) (n : Nat) (s : State) : bytesAndMgmt (syncBytes gid sync n s) = bytesAndMgmt s := by
  unfold syncBytes
  split
  · exact bytes_scratchWrite ..
  · rfl

theorem bytes_swapGang (gid : Nat) (s : State) : bytesAndMgmt (swapGang gid s) = bytesAndMgmt s :=
  (foldl_part bytesAndMgmt (fun s _ => bytes_syncBytes gid _ _ s) _ _).trans (foldl_part bytesAndMgmt (fun s _ => bytes_wakeAll _ s) _ _)

theorem bytes_passGang (gid : Nat) (w : Wait) (s : State) : bytesAndMgmt (passGang gid w s) = bytesAndMgmt s := rfl

theorem bytes_checkBarx (crew : Nat) (s : State) : bytesAndMgmt (checkBarx crew s) = bytesAndMgmt s := by
  unfold checkBarx
  dsimp only
  split
  · have hacq : ∀ (s : State) (gid : Nat), bytesAndMgmt (acquireEffect (getGang s gid).core 1 (releaseCaches (getGang s gid).core s)) =
        bytesAndMgmt s := fun s gid => (acquireEffect_part (fun _ _ _ _ _ _ => rfl) ..).trans (bytes_releaseCaches ..)
    rw [foldl_part bytesAndMgmt (fun s gid => bytes_passGang gid .barx s), foldl_part bytesAndMgmt hacq, swapCrew,
      foldl_part bytesAndMgmt (fun s gid => bytes_swapGang gid s)]
  · rfl

theorem bytes_pushQOp (q : Nat) (op : QOp) (s : State) : bytesAndMgmt (pushQOp q op s) = bytesAndMgmt s := by
  unfold pushQOp
  split
  · rfl
  · split <;> rfl

theorem bytes_pushQOpIf (c : Prop) [Decidable c] (q : Nat) (op : QOp) (s : State) :
    bytesAndMgmt (if c then pushQOp q op s else s) = bytesAndMgmt s := by
  split
  · exact bytes_pushQOp ..
  · rfl

theorem bytes_retireTask (tid : Nat) (fail : Option Nat) (s : State) : bytesAndMgmt (retireTask tid fail s) = bytesAndMgmt s := by
  unfold retireTask
  dsimp only
  split
  · exact (bytes_pushQOpIf ..).trans (bytes_pushQOpIf ..)
  · exact bytes_pushQOpIf ..

theorem bytes_endGang (gid : Nat) (s : State) : bytesAndMgmt (endGang gid s) = bytesAndMgmt s := by
  unfold endGang
  dsimp only
  split
  · exact (bytes_retireTask ..).trans (bytes_checkBarx ..)
  · exact bytes_checkBarx ..

theorem bytes_execGangEnd {gid : Nat} {s t : State} (h : execGangEnd gid s = .next t) : bytesAndMgmt t = bytesAndMgmt s := by
  unfold execGangEnd at h
  split at h
  · cases h
  · split at h
    · cases h
    · split at h
      · cases h
        exact bytes_releaseCaches ..
      · split at h <;> cases h
        exact bytes_endGang ..

theorem bytes_refreshAlloc (core : Nat) (s : State) : bytesAndMgmt (refreshAlloc core s) = bytesAndMgmt s := by
  refine foldl_part bytesAndMgmt (fun s gid => ?_) _ s
  split
  · rfl
  · dsimp only
    split
    · rfl
    · exact bytes_wakeAll ..

theorem bytes_endGangsForced (gs : List Nat) (s : State) : bytesAndMgmt (endGangsForced gs s).1 = bytesAndMgmt s := by
  induction gs generalizing s with
  | nil => rfl
  | cons g gs ih => exact (ih _).trans (bytes_refreshAlloc ..)

theorem bytes_failTask (tid cause : Nat) (s : State) : bytesAndMgmt (failTask tid cause s) = bytesAndMgmt s := by
  unfold failTask
  dsimp only
  refine (bytes_retireTask ..).trans ((bytes_endGangsForced _ _).trans ?_)
  split <;> rfl

/-! ### Fences (R434) -/

theorem bytes_retireFirst (gid : Nat) (s : State) : bytesAndMgmt (retireFirst gid s) = bytesAndMgmt s := by
  unfold retireFirst
  split
  next t h =>
    split
    · exact bytes_execGangEnd h
    · rfl
  · rfl

theorem bytes_failCore (core : Nat) (s : State) : bytesAndMgmt (failCore core s) = bytesAndMgmt s := by
  refine foldl_part bytesAndMgmt (fun s g => ?_) _ s
  dsimp only
  split
  · exact (bytes_failTask ..).trans (bytes_retireFirst ..)
  · exact bytes_retireFirst ..

/-- A fence changes no byte of memory, and the unit is in the map afterwards. -/
theorem fenceUnit_fences (kind : UnitKind) (i : Nat) (s : State) :
    MemoryKept s (fenceUnit kind i s) ∧ (kind, i) ∈ (fenceUnit kind i s).mgmt.fenced := by
  have hfenced : ∀ {t : State}, bytesAndMgmt t = bytesAndMgmt (logError kind i 4 0 { s with mgmt :=
      { s.mgmt with fenced := s.mgmt.fenced ++ [(kind, i)] } }) → MemoryKept s t ∧ (kind, i) ∈ t.mgmt.fenced := fun {t} ht =>
    ⟨.trans (t := logError kind i 4 0 { s with mgmt := { s.mgmt with fenced := s.mgmt.fenced ++ [(kind, i)] } }) ⟨rfl, rfl, rfl⟩
      (memoryKept_of_bytes ht), by rw [mgmt_of_bytes ht]; simp [logError]⟩
  unfold fenceUnit
  split
  next h => exact ⟨.refl s, by simpa using h⟩
  next =>
    cases kind with
    | core => exact hfenced (bytes_failCore ..)
    | cluster => exact hfenced (foldl_part bytesAndMgmt (fun s k => bytes_failCore _ s) _ _)
    | home => exact hfenced (bytes_wakeAll ..)
    | loop => exact hfenced rfl
    | derrick => exact hfenced rfl

/-! ### The error log (R436) -/

/-- A new entry changes the management state alone. -/
theorem logError_mgmt (kind : UnitKind) (unit event pa : Nat) (s : State) : ∃ m, logError kind unit event pa s = { s with mgmt := m } :=
  ⟨_, rfl⟩

/-- The entry stands at the end of the log, which drops the oldest ones. -/
theorem logError_logs (kind : UnitKind) (unit event pa : Nat) (s : State) :
    ∃ e ∈ (logError kind unit event pa s).mgmt.errlog, e.event = event ∧ e.pa = pa ∧ e.unit = unit := by
  have hlast : ∀ (l : List ErrEntry) (e : ErrEntry) (n : Nat), 0 < n → e ∈ (l ++ [e]).drop ((l ++ [e]).length - n) := fun l e n hn =>
    List.mem_of_getLast? (by rw [List.getLast?_drop, if_neg (by simp; omega), List.getLast?_concat])
  simp only [logError]
  exact ⟨_, hlast _ _ _ (by decide), rfl, rfl, rfl⟩

theorem memoryKept_logError {kind : UnitKind} {unit event pa : Nat} {s t : State} (h : MemoryKept s t) :
    MemoryKept s (logError kind unit event pa t) := by
  obtain ⟨m, hm⟩ := logError_mgmt kind unit event pa t
  rwa [hm]

theorem getGang_logError (kind : UnitKind) (unit event pa : Nat) (s : State) (gid : Nat) :
    getGang (logError kind unit event pa s) gid = getGang s gid := by
  obtain ⟨m, hm⟩ := logError_mgmt kind unit event pa s
  rw [hm]
  rfl

/-- A corrected error is in the log: as an entry of its own, or merged into one of the last hour. -/
theorem mergeError_logs (kind : UnitKind) (i pa : Nat) (s : State) :
    MemoryKept s (mergeError kind i pa s) ∧ ∃ e ∈ (mergeError kind i pa s).mgmt.errlog, e.event = 1 ∧ e.pa = pa ∧ e.unit = i := by
  unfold mergeError
  dsimp only
  split
  next h =>
    obtain ⟨e, he, hsame⟩ := List.any_eq_true.mp h
    refine ⟨⟨rfl, rfl, rfl⟩, _, List.mem_map_of_mem he, ?_⟩
    rw [if_pos hsame]
    simp only [Bool.and_eq_true, beq_iff_eq] at hsame
    obtain ⟨⟨⟨⟨⟨hevent, hpa⟩, -⟩, hunit⟩, -⟩, -⟩ := hsame
    exact ⟨hevent, hpa, hunit⟩
  next => exact ⟨memoryKept_logError (.refl s), logError_logs ..⟩

theorem correctedError_logs {kind : UnitKind} {i : Nat} (pa : Nat) (s : State) (hi : i < unitCount kind) :
    ∃ t, execCorrectedError kind i pa s = .next t ∧ MemoryKept s t ∧
      ((countError kind i (mergeError kind i (errorPa kind pa) s)).1 ≤ 1024 →
        ∃ e ∈ t.mgmt.errlog, e.event = 1 ∧ e.pa = errorPa kind pa ∧ e.unit = i) ∧
      (1024 < (countError kind i (mergeError kind i (errorPa kind pa) s)).1 → (kind, i) ∈ t.mgmt.fenced) := by
  obtain ⟨hmem, hlog⟩ := mergeError_logs kind i (errorPa kind pa) s
  refine ⟨_, if_neg (by omega), ?_⟩
  by_cases hc : 1024 < (countError kind i (mergeError kind i (errorPa kind pa) s)).1
  · obtain ⟨hkept, hfenced⟩ := fenceUnit_fences kind i (countError kind i (mergeError kind i (errorPa kind pa) s)).2
    rw [if_pos hc]
    exact ⟨hmem.trans hkept, fun h => absurd h (by omega), fun _ => hfenced⟩
  · rw [if_neg hc]
    exact ⟨hmem, fun _ => hlog, fun h => absurd h hc⟩

/-! ### Double-bit errors (R121) -/

theorem getGang_of_kget? {s : State} {gid : Nat} {g : Gang} (h : kget? s.gangs gid = some g) : getGang s gid = g := by
  rw [getGang, kget, h]
  rfl

theorem setFibre_eq {gid : Nat} {s : State} (hg : (kget? s.gangs gid).isSome = true) (fid : Nat) (fn : Fibre → Fibre) :
    setFibre gid fid fn s = setGang s gid (mapFibres (getGang s gid) (fun i x => if i = fid then fn x else x)) := by
  obtain ⟨g, h⟩ := Option.isSome_iff_exists.mp hg
  rw [setFibre, h, getGang_of_kget? h]

/-- A fibre that lives is what a write of it says. -/
theorem fibreAt_setFibre {gid fid : Nat} {s : State} (hg : (kget? s.gangs gid).isSome = true)
    (hf : (kget? (getGang s gid).fibres fid).isSome = true) (fn : Fibre → Fibre) :
    fibreAt (setFibre gid fid fn s) gid fid = fn (fibreAt s gid fid) := by
  rw [setFibre_eq hg, fibreAt, getGang_setGang, getFibre_mapFibres _ _ _ hf, if_pos rfl, fibreAt]

theorem isSome_ne_none {α : Type} {o : Option α} (h : o.isSome = true) : ¬ o.isNone = true := by
  cases o <;> simp_all

theorem memoryError_poisons {pa : Nat} (s : State) (h : pa < 2 ^ 48) : ∃ t, execUncorrectableDataError (.memory pa) s = .next t ∧
    MemoryKept s t ∧ poisonedAt t (pa / 128) = true ∧ ∃ e ∈ t.mgmt.errlog, e.event = 2 ∧ e.pa = pa := by
  obtain ⟨e, he, hevent, hpa, -⟩ := logError_logs .home (homeOf pa) 2 pa { s with poison := insertNat (pa / 128) s.poison }
  refine ⟨_, if_neg (by omega), memoryKept_logError ⟨rfl, rfl, rfl⟩, ?_, e, he, hevent, hpa⟩
  obtain ⟨m, hm⟩ := logError_mgmt .home (homeOf pa) 2 pa { s with poison := insertNat (pa / 128) s.poison }
  have hpoison : pa / 128 ∈ insertNat (pa / 128) s.poison := mem_insertNat.mpr (.inl rfl)
  simp [hm, poisonedAt, hpoison]

theorem scratchError_poisons {gid : Nat} (off : Nat) {s : State} (hg : (kget? s.gangs gid).isSome = true) :
    ∃ t, execUncorrectableDataError (.scratch gid off) s = .next t ∧ MemoryKept s t ∧ scratchPoisonAt (getGang t gid) off = true ∧
      (getGang t gid).scratch = (getGang s gid).scratch ∧ ∃ e ∈ t.mgmt.errlog, e.event = 2 := by
  obtain ⟨e, he, hevent, -⟩ := logError_logs .cluster (clusterOf (getGang s gid).core) 2 0 (scratchMark gid off 1 true s)
  have hgang : getGang (logError .cluster (clusterOf (getGang s gid).core) 2 0 (scratchMark gid off 1 true s)) gid =
      { getGang s gid with scratchPoison := insertNat (off / 128) (getGang s gid).scratchPoison } :=
    (getGang_logError ..).trans (getGang_setGang ..)
  refine ⟨_, if_neg (isSome_ne_none hg), memoryKept_logError ⟨rfl, rfl, rfl⟩, ?_, by rw [hgang], e, he, hevent⟩
  rw [hgang]
  simp [scratchPoisonAt, mem_insertNat]

theorem registerError_poisons {gid fid n : Nat} {s : State} (hg : (kget? s.gangs gid).isSome = true)
    (hf : (kget? (getGang s gid).fibres fid).isSome = true) (hn : n < 256) :
    ∃ t, execUncorrectableDataError (.register gid fid n) s = .next t ∧ MemoryKept s t ∧
      readReg (fibreAt t gid fid) n = ((readReg (fibreAt s gid fid) n).1, true) ∧ ∃ e ∈ t.mgmt.errlog, e.event = 2 := by
  obtain ⟨e, he, hevent, -⟩ := logError_logs .core (getGang s gid).core 2 0
    (setFibre gid fid (fun f => { f with regPoison := setBit f.regPoison n true }) s)
  have hfibre := fibreAt_setFibre hg hf (fun f => { f with regPoison := setBit f.regPoison n true })
  refine ⟨_, if_neg (isSome_ne_none hg), memoryKept_logError ?_, ?_, e, he, hevent⟩
  · rw [setFibre_eq hg]
    exact ⟨rfl, rfl, rfl⟩
  · rw [fibreAt, getGang_logError, ← fibreAt, hfibre]
    simp only [readReg, getLsbD_setBit_same _ _ hn]

/-! ### Ageing and links (R421, R437) -/

theorem ageingUpdate_reports {slab : Nat} (s : State) (h : slab < 4) : ∃ a, execAgeingUpdate slab s = .next { s with
    mgmt := { s.mgmt with ageing := kset s.mgmt.ageing slab a } } ∧ 1 ≤ a.refresh ∧ a.refresh ≤ 8 := by
  refine ⟨_, if_neg (by omega), ?_⟩
  dsimp only
  omega

theorem linkStateChange_links (kind : LinkKind) (port : Nat) (up : Bool) (s : State)
    (h : port < (match kind with | LinkKind.peer => 18 | .cxl => 4)) :
    ∃ t, execLinkStateChange kind port up s = .next t ∧ MemoryKept s t ∧ ((kind, port) ∈ t.links ↔ up = true) := by
  refine ⟨_, if_neg (by cases kind <;> simp_all), ⟨rfl, rfl, rfl⟩, ?_⟩
  dsimp only
  cases up with
  | false => simp
  | true =>
    rw [if_pos rfl]
    split <;> simp_all

/-- Settles O50: each error event by what it logs, poisons and fences. -/
theorem errorEventsComplete : Obligations.ErrorEventsComplete := by
  unfold Obligations.ErrorEventsComplete
  refine ⟨fun s k i pa hi => correctedError_logs pa s hi, fun s pa h => memoryError_poisons s h, fun s gid off hg => scratchError_poisons off hg,
    fun s gid fid n hg hf hn => registerError_poisons hg hf hn, fun s k i hi => ?_, fun s home h => if_neg (by omega),
    fun s slab h => ageingUpdate_reports s h, fun s k port up h => linkStateChange_links k port up s h⟩
  exact ⟨_, if_neg (by omega), fenceUnit_fences k i s⟩

end Sys2Proof.Machine
end
section
/-! PROOF. The invariant (R104): a change of the machine keeps it when it leaves memory, gangs and contexts alone, when it writes bytes one by
one, and when a gang it puts back has canonical banks; and the machine after reset meets it (O56). -/
namespace Sys2Proof.Machine

/-! ### Tables -/

theorem mem_kset {α : Type} {m : KMap α} {n : Nat} {v : α} {x : Nat × α} (h : x ∈ kset m n v) : x = (n, v) ∨ x ∈ m := by
  induction m with
  | nil => exact .inl (List.mem_singleton.mp h)
  | cons e m ih =>
    simp only [kset] at h
    split at h
    · exact (List.mem_cons.mp h)
    · split at h
      · exact (List.mem_cons.mp h).imp_right (List.mem_cons_of_mem _)
      · rcases List.mem_cons.mp h with rfl | h
        · exact .inr List.mem_cons_self
        · exact (ih h).imp_right (List.mem_cons_of_mem _)

theorem mem_kdel {α : Type} {m : KMap α} {n : Nat} {x : Nat × α} (h : x ∈ kdel m n) : x ∈ m := List.mem_of_mem_filter h

/-! ### States -/

/-- The saved gangs of a context have canonical banks. -/
def SavedWf (x : Ctx) : Prop := ∀ v ∈ x.saved, BanksWf v.gang

/-- What an outcome goes on with meets the invariant. -/
def OutInv : Out → Prop
  | .next t => StateInv t
  | _ => True

section
variable {s t u : State}

/-- A change of other parts of the machine. -/
theorem StateInv.same (h : StateInv s) (hm : t.mem = s.mem := by rfl) (hh : t.hostMem = s.hostMem := by rfl)
    (hp : t.peerMem = s.peerMem := by rfl) (hph : t.phase = s.phase := by rfl) (hg : t.gangs = s.gangs := by rfl)
    (hc : t.ctxs = s.ctxs := by rfl) (hs : t.saves = s.saves := by rfl) : StateInv t where
  mem := hm ▸ h.mem
  host := hh ▸ h.host
  peer := hp ▸ h.peer
  phase := hph ▸ h.phase
  gangs := hg ▸ h.gangs
  saved := hc ▸ h.saved
  saves := hs ▸ h.saves

/-- Some gangs go, none is written. -/
theorem StateInv.fewer (h : StateInv s) (hg : ∀ x ∈ t.gangs, x ∈ s.gangs) (hm : t.mem = s.mem := by rfl)
    (hh : t.hostMem = s.hostMem := by rfl) (hp : t.peerMem = s.peerMem := by rfl) (hph : t.phase = s.phase := by rfl)
    (hc : t.ctxs = s.ctxs := by rfl) (hs : t.saves = s.saves := by rfl) : StateInv t where
  mem := hm ▸ h.mem
  host := hh ▸ h.host
  peer := hp ▸ h.peer
  phase := hph ▸ h.phase
  gangs x hx := h.gangs x (hg x hx)
  saved := hc ▸ h.saved
  saves := hs ▸ h.saves

theorem BanksWf.init : BanksWf Gang.init := ⟨rfl, rfl⟩

theorem StateInv.banks_of (h : StateInv s) {gid : Nat} {g : Gang} (hg : kget? s.gangs gid = some g) : BanksWf g := h.gangs _ (kget?_mem hg)

theorem StateInv.banks (h : StateInv s) (gid : Nat) : BanksWf (getGang s gid) := by
  rw [getGang, kget]
  cases hg : kget? s.gangs gid with
  | none => exact .init
  | some g => exact h.banks_of hg

theorem StateInv.savedWf (h : StateInv s) (c : Nat) : SavedWf (getCtx s c) := by
  rw [getCtx, kget]
  cases hc : kget? s.ctxs c with
  | none => exact fun v hv => nomatch hv
  | some x => exact h.saved _ (kget?_mem hc)

theorem inv_setGang {gid : Nat} {g : Gang} (h : StateInv s) (hg : BanksWf g) : StateInv (setGang s gid g) :=
  { h with gangs := fun x hx => (mem_kset hx).elim (fun he => he ▸ hg) (h.gangs x) }

theorem inv_setCtx {c : Nat} {x : Ctx} (h : StateInv s) (hx : SavedWf x) : StateInv (setCtx s c x) :=
  { h with saved := fun y hy => (mem_kset hy).elim (fun he => he ▸ hx) (h.saved y) }

theorem inv_foldl {α : Type} {f : State → α → State} {l : List α} (hf : ∀ s a, StateInv s → StateInv (f s a)) (h : StateInv s) :
    StateInv (l.foldl f s) := List.foldlRecOn (motive := StateInv) l f h fun s hs a _ => hf s a hs

theorem inv_ite {c : Prop} [Decidable c] (ht : StateInv t) (hu : StateInv u) : StateInv (if c then t else u) := by
  split
  · exact ht
  · exact hu

end

/-- Settles O56: after reset every memory is empty, no gang and no context exists, and the tick is at its first cycle. -/
theorem resetMeetsInvariant : Obligations.ResetMeetsInvariant where
  mem := rfl
  host := rfl
  peer := rfl
  phase := by decide
  gangs _ h := nomatch h
  saved _ h := nomatch h
  saves _ h := nomatch h

end Sys2Proof.Machine
end
section
/-! PROOF. The invariant (R104) and what a function can answer: a machine or none, a machine beside other results, and a step that may be
blocked. One rule for each way of putting such functions together. -/
namespace Sys2Proof.Machine

/-- The machine that a function may answer meets the invariant. -/
def OptInv : Option State → Prop
  | some t => StateInv t
  | none => True

/-- A step that is performed keeps the invariant. -/
structure KeepsInv {α : Type} (m : QM α) : Prop where
  kept : ∀ s x t, StateInv s → m s = .ok (x, t) → StateInv t

section
variable {α β : Type} {s t : State}

theorem OptInv.of_eq {o : Option State} (h : OptInv o) (he : o = some t) : StateInv t := by
  rw [he] at h
  exact h

theorem OutInv.of_eq {o : Out} (h : OutInv o) (he : o = .next t) : StateInv t := by
  rw [he] at h
  exact h

theorem inv_fst_ite {c : Prop} [Decidable c] {p q : State × α} (hp : StateInv p.1) (hq : StateInv q.1) : StateInv (if c then p else q).1 := by
  split
  · exact hp
  · exact hq

theorem inv_snd_ite {c : Prop} [Decidable c] {p q : α × State} (hp : StateInv p.2) (hq : StateInv q.2) : StateInv (if c then p else q).2 := by
  split
  · exact hp
  · exact hq

theorem savedWf_init : SavedWf Ctx.init := fun _ hv => nomatch hv

/-- The saves are rewritten, their contexts left as they were. -/
theorem StateInv.mapSaves {f : Nat × Save → Nat × Save} (h : StateInv s) (hf : ∀ e, (f e).2.ctx = e.2.ctx) :
    StateInv { s with saves := s.saves.map f } := by
  refine { h with saves := fun c hc => ?_ }
  obtain ⟨e, he, rfl⟩ := List.mem_map.mp hc
  rw [hf]
  exact h.saves e he

theorem StateInv.writeHost (h : StateInv s) (a : Nat) (bs : List Byte) : StateInv { s with hostMem := writeBytes s.hostMem a bs } :=
  { h with host := writeBytes_wf _ _ h.host }

theorem StateInv.writePeer (h : StateInv s) (a : Nat) (bs : List Byte) : StateInv { s with peerMem := writeBytes s.peerMem a bs } :=
  { h with peer := writeBytes_wf _ _ h.peer }

theorem StateInv.writePeerSector (h : StateInv s) (a : Nat) (mask : BitVec 128) (d : BitVec 1024) :
    StateInv { s with peerMem := writeSector s.peerMem a mask d } :=
  { h with peer := (writeSector_wf a mask d h.peer :) }

theorem StateInv.writeSector (h : StateInv s) (a : Nat) (mask : BitVec 128) (d : BitVec 1024) :
    StateInv { s with mem := writeSector s.mem a mask d } :=
  { h with mem := (writeSector_wf a mask d h.mem :) }

theorem inv_getD {o : Option State} (h : StateInv s) (ho : OptInv o) : StateInv (o.getD s) := by
  cases o with
  | none => exact h
  | some t => exact ho

/-- A step that begins by looking at the machine is blocked as what it goes on with. -/
theorem look_error {f : State → QM α} {b : Blocked} (h : (MonadState.get >>= f) s = .error b) : f s s = .error b := h

theorem bind_error {m : QM α} {f : α → QM β} {b : Blocked} (h : (m >>= f) s = .error b) :
    m s = .error b ∨ ∃ x u, m s = .ok (x, u) ∧ f x u = .error b := by
  change Except.bind (m s) (fun p => f p.1 p.2) = _ at h
  cases hm : m s with
  | error b' =>
    rw [hm] at h
    cases h
    exact .inl rfl
  | ok p =>
    rw [hm] at h
    exact .inr ⟨p.1, p.2, rfl, h⟩

namespace KeepsInv

theorem pure (x : α) : KeepsInv (Pure.pure x : QM α) := ⟨fun s y t h ht => by cases ht; exact h⟩

theorem throw (b : Blocked) : KeepsInv (MonadExcept.throw b : QM α) := ⟨fun s y t h ht => by cases ht⟩

theorem bind {m : QM α} {f : α → QM β} (hm : KeepsInv m) (hf : ∀ x, KeepsInv (f x)) : KeepsInv (m >>= f) where
  kept s y t h ht := by
    obtain ⟨x, u, hx, hy⟩ := bind_ok ht
    exact (hf x).kept u y t (hm.kept s x u h hx) hy

/-- A step that begins by looking at the machine: what it sees meets the invariant. -/
theorem look {f : State → QM α} (hf : ∀ s, StateInv s → KeepsInv (f s)) : KeepsInv (MonadState.get >>= f) :=
  ⟨fun s x t h ht => (hf s h).kept s x t h ht⟩

theorem get : KeepsInv (MonadState.get : QM State) := ⟨fun s y t h ht => by cases ht; exact h⟩

theorem modify {f : State → State} (hf : ∀ s, StateInv s → StateInv (f s)) : KeepsInv (modify f : QM PUnit) :=
  ⟨fun s y t h ht => by cases ht; exact hf s h⟩

theorem set {u : State} (hu : StateInv u) : KeepsInv (MonadStateOf.set u : QM PUnit) := ⟨fun s y t _ ht => by cases ht; exact hu⟩

theorem ite {c : Prop} [Decidable c] {m n : QM α} (hm : KeepsInv m) (hn : KeepsInv n) : KeepsInv (if c then m else n) := by
  split
  · exact hm
  · exact hn

theorem of_never {m : QM α} (hm : NeverOk m) : KeepsInv m := ⟨fun s x t _ ht => absurd ht (hm s x t)⟩

end KeepsInv

end

end Sys2Proof.Machine
end
section
/-! PROOF. The invariant (R104) and the named operations that the meanings share (Ops.lean): each keeps it.
`Elab.async` is off in these sections: so many short proofs at once take more threads than the check has memory for. -/
namespace Sys2Proof.Machine

set_option Elab.async false

theorem inv_setCore {s : State} {c : Nat} {v : Core} (h : StateInv s) : StateInv (setCore s c v) := h.same

theorem inv_setSlot {s : State} {k : Nat} {v : Slot} (h : StateInv s) : StateInv (setSlot s k v) := h.same

theorem inv_setCrew {s : State} {c : Nat} {v : Crew} (h : StateInv s) : StateInv (setCrew s c v) := h.same

theorem inv_setTask {s : State} {t : Nat} {v : Task} (h : StateInv s) : StateInv (setTask s t v) := h.same

theorem inv_setCluster {s : State} {c : Nat} {v : Cluster} (h : StateInv s) : StateInv (setCluster s c v) := h.same

theorem inv_setSlab {s : State} {b : Nat} {v : Slab} (h : StateInv s) : StateInv (setSlab s b v) := h.same

theorem inv_setQuarry {s : State} {q : Nat} {v : Quarry} (h : StateInv s) : StateInv (setQuarry s q v) := h.same

theorem inv_perfEvent {core ev n : Nat} {s : State} (h : StateInv s) : StateInv (perfEvent core ev n s) := inv_setCore h

theorem inv_noteIssue {e : Env} {u : Nat} {s : State} (h : StateInv s) : StateInv (noteIssue e u s) := inv_setCore (inv_setSlot h)

theorem inv_retire {e : Env} {u : Nat} {wr : Nat → Wr} {win : Nat → Option Window} {pc : Nat → W64} {s : State} (h : StateInv s) :
    StateInv (retire e u wr win pc s) := inv_noteIssue (inv_setGang h (h.banks _))

theorem inv_retirePlain {e : Env} {u : Nat} {s : State} (h : StateInv s) : StateInv (retirePlain e u s) := inv_retire h

theorem inv_toTable {core gid : Nat} {fids : List Nat} {w : Wait} {s : State} (h : StateInv s) : StateInv
    (toTable core gid fids w s) := by
  unfold toTable
  split
  · exact h
  · exact inv_setCore h

theorem inv_leaveSlot {key : Nat} {fids : List Nat} {s : State} (h : StateInv s) : StateInv (leaveSlot key fids s) := inv_setSlot h

theorem inv_regroup {core key gid : Nat} {s : State} (h : StateInv s) : StateInv (regroup core key gid s) := by
  unfold regroup
  dsimp only
  split
  · exact h
  · exact inv_foldl (fun _ _ => inv_toTable) (inv_setSlot h)

theorem inv_report {r : FaultRec} {s : State} (h : StateInv s) : StateInv (report r s) := h.same

theorem inv_closeSet {gid set : Nat} {s : State} (h : StateInv s) : StateInv (closeSet gid set s) :=
  inv_foldl (fun _ _ => inv_toTable) (inv_setCore (inv_setGang h (h.banks _)))

theorem inv_recount {gid set : Nat} {s : State} (h : StateInv s) : StateInv (recount gid set s) := by
  unfold recount
  dsimp only
  split
  · exact h
  · split
    · exact inv_setGang h (h.banks _)
    · split
      · exact inv_closeSet h
      · exact h

theorem inv_leaveJoins {gid fid : Nat} {s : State} (h : StateInv s) : StateInv (leaveJoins gid fid s) :=
  inv_foldl (fun _ _ => inv_recount) (inv_setGang h (h.banks _))

theorem inv_wakeSleeper {sid : Nat} {s : State} (h : StateInv s) : StateInv (wakeSleeper sid s) := by
  unfold wakeSleeper
  split
  · exact h
  next p _ =>
    have hg : StateInv (match kget? s.gangs p.gang with
        | some g => setGang s p.gang (mapFibres g fun fid f => if p.fids.contains fid then
            { f with pc := p.beginPc, txstatus := txWord 0 p.coarse 0 12 } else f)
        | none => s) := by
      split
      next hk => exact inv_setGang h (h.banks_of hk :)
      · exact h
    exact hg.same

theorem inv_wakeAll {ws : List WakeReg} {s : State} (h : StateInv s) : StateInv (wakeAll ws s) := by
  unfold wakeAll
  refine inv_foldl (fun _ _ h1 => ?_) h
  split
  · exact inv_wakeSleeper h1
  · exact h1.same

theorem inv_wakeScratch {gid off : Nat} {s : State} (h : StateInv s) : StateInv (wakeScratch gid off s) := inv_wakeAll h

theorem inv_refreshAlloc {core : Nat} {s : State} (h : StateInv s) : StateInv (refreshAlloc core s) := by
  unfold refreshAlloc
  refine inv_foldl (fun _ _ h1 => ?_) h
  split
  · exact h1
  next hc =>
    dsimp only
    split
    · exact h1
    · exact inv_wakeScratch (inv_setGang h1 (h1.banks_of hc :))

theorem inv_endGangForced {gid : Nat} {s : State} (h : StateInv s) : StateInv (endGangForced gid s).1 :=
  inv_refreshAlloc (h.fewer fun _ => mem_kdel)

theorem inv_endGangsForced {gs : List Nat} {s : State} (h : StateInv s) : StateInv (endGangsForced gs s).1 := by
  induction gs generalizing s with
  | nil => exact h
  | cons g gs ih => exact ih (inv_endGangForced h)

theorem inv_dropSweeps {gid : Nat} {fids : List Nat} {s : State} (h : StateInv s) : StateInv (dropSweeps gid fids s) := by
  unfold dropSweeps
  dsimp only
  split
  · exact h.same
  · exact h

theorem inv_pushQOp {q : Nat} {op : QOp} {s : State} (h : StateInv s) : StateInv (pushQOp q op s) := by
  unfold pushQOp
  split
  · exact h
  · split
    · exact h
    · exact inv_setQuarry h

theorem inv_retireTask {tid : Nat} {fail : Option Nat} {s : State} (h : StateInv s) : StateInv (retireTask tid fail s) := by
  unfold retireTask
  dsimp only
  split
  · split
    · exact inv_pushQOp (inv_ite (inv_pushQOp h.same) h.same)
    · split
      · exact inv_pushQOp h.same
      · exact h.same
  · split
    · exact inv_pushQOp h.same
    · exact h.same

/-- Some saved gangs go. -/
theorem SavedWf.filter {x : Ctx} (hx : SavedWf x) (q : SavedGang → Bool) : SavedWf { x with saved := x.saved.filter q } :=
  fun v hv => hx v (List.mem_of_mem_filter hv)

theorem inv_failTask {tid : Nat} {cause : Nat} {s : State} (h : StateInv s) : StateInv (failTask tid cause s) := by
  unfold failTask
  dsimp only
  refine inv_retireTask (inv_setTask (inv_endGangsForced ?_))
  split
  · exact h
  · exact inv_setCtx h ((h.savedWf _).filter _)

theorem inv_trapFailure {e : Env} {cause : Nat} {s : State} (h : StateInv s) : StateInv (trapFailure e cause s) :=
  inv_failTask (inv_report h)

theorem inv_handlerError {e : Env} {s : State} (h : StateInv s) : OutInv (handlerError e s) := inv_trapFailure h

theorem inv_closeTxn {core key gid : Nat} {pc : Option W64} {st : Option (Word → Word)} {s : State} (h : StateInv s) :
    StateInv (closeTxn core key gid pc st s) := by
  unfold closeTxn
  split
  · split
    · split
      · dsimp only
        split
        · exact h
        · exact inv_toTable (inv_setGang (inv_setSlot h) (h.banks _))
      · dsimp only
        split
        · exact h
        · exact inv_toTable (inv_setGang (inv_setSlot h) (h.banks _))
    · split
      · dsimp only
        split
        · exact h
        · exact inv_toTable (inv_setGang (inv_setSlot h) (h.banks _))
      · dsimp only
        split
        · exact h
        · exact inv_toTable (inv_setGang (inv_setSlot h) (h.banks _))
  · split
    · split
      · dsimp only
        split
        · exact h
        · exact inv_toTable (inv_setGang (inv_setSlot h) (h.banks _))
      · dsimp only
        split
        · exact h
        · exact inv_toTable (inv_setGang (inv_setSlot h) (h.banks _))
    · split
      · dsimp only
        split
        · exact h
        · exact inv_toTable (inv_setGang (inv_setSlot h) (h.banks _))
      · dsimp only
        split
        · exact h
        · exact inv_toTable (inv_setGang (inv_setSlot h) (h.banks _))

theorem inv_abortTxn {core key gid cause code : Nat} {s : State} (h : StateInv s) : StateInv (abortTxn core key gid cause code s) := by
  unfold abortTxn
  split
  · exact h
  · exact inv_closeTxn h

theorem inv_logError {kind : UnitKind} {unit event pa : Nat} {s : State} (h : StateInv s) : StateInv (logError kind unit event pa s) := by
  unfold logError
  exact h.same

theorem inv_enterHandler {e : Env} {cause : Nat} {async : Bool} {lanes : Word} {val pc : W64} {s0 : State} (h : StateInv s0) :
    StateInv (enterHandler e cause async lanes val pc s0) := by
  unfold enterHandler
  split
  · split
    · dsimp only
      split
      · exact inv_trapFailure (inv_setSlot (inv_setGang (inv_dropSweeps (inv_logError h)) ((inv_dropSweeps (inv_logError h)).banks _)))
      · exact inv_setSlot (inv_setGang (inv_dropSweeps (inv_logError h)) ((inv_dropSweeps (inv_logError h)).banks _))
    · dsimp only
      split
      · exact inv_trapFailure (inv_setSlot (inv_setGang (inv_dropSweeps (inv_logError h)) ((inv_dropSweeps (inv_logError h)).banks _)))
      · exact inv_setSlot (inv_setGang (inv_dropSweeps (inv_logError h)) ((inv_dropSweeps (inv_logError h)).banks _))
  · split
    · dsimp only
      split
      · exact inv_trapFailure (inv_setSlot (inv_setGang (inv_dropSweeps h) ((inv_dropSweeps h).banks _)))
      · exact inv_setSlot (inv_setGang (inv_dropSweeps h) ((inv_dropSweeps h).banks _))
    · dsimp only
      split
      · exact inv_trapFailure (inv_setSlot (inv_setGang (inv_dropSweeps h) ((inv_dropSweeps h).banks _)))
      · exact inv_setSlot (inv_setGang (inv_dropSweeps h) ((inv_dropSweeps h).banks _))

theorem inv_poisonError {e : Env} {s : State} (h : StateInv s) : OutInv (poisonError e s) := inv_handlerError (inv_logError h)

theorem inv_takeTrap {e : Env} {r : Raised} {s : State} (h : StateInv s) : OutInv (takeTrap e r s) := by
  unfold takeTrap
  split
  · exact h
  · split
    · split
      · exact inv_poisonError h
      · exact inv_handlerError h
    · split
      · exact h
      · split
        · exact inv_enterHandler h
        · exact inv_enterHandler (inv_abortTxn h)

theorem inv_returnFromHandler {core key : Nat} {h : Handler} {s : State} (hs : StateInv s) : StateInv (returnFromHandler core key h s) :=
  inv_toTable (inv_foldl (fun _ _ h1 => inv_toTable (inv_leaveJoins h1)) (inv_setGang (inv_setSlot hs) (hs.banks _)))

theorem inv_splitParked {e : Env} {stuck : List Nat} {s : State} (h : StateInv s) : StateInv (splitParked e stuck s) := by
  unfold splitParked
  dsimp only
  split
  · exact h
  · exact inv_toTable (inv_leaveSlot h)

theorem banks_envOf {s : State} {e : Env} (h : StateInv s) (he : envOf s = some e) : BanksWf e.g := gang_of_envOf he ▸ h.banks e.gid

/-- An issue keeps the invariant when the two meanings of the form do. -/
theorem inv_issue {h : Hdr} {waits : Bool} {s : State} {scalar : Env → Handler → Out} {body : Env → List Nat → State → Out}
    (hs : StateInv s)
    (hscalar : ∀ e hd, BanksWf e.g → OutInv (scalar e hd)) (hbody : ∀ e act s, BanksWf e.g → StateInv s → OutInv (body e act s)) :
    OutInv (issue h waits s scalar body) := by
  unfold issue
  split
  · trivial
  next e he =>
    have hg : BanksWf e.g := banks_envOf hs he
    split
    · split
      · exact hs
      · exact hscalar _ _ hg
    · split
      · split
        · exact hbody _ _ _ hg (inv_setGang hs hg)
        · exact hbody _ _ _ hg hs
      · exact inv_splitParked hs

theorem inv_noScalar {s : State} {e : Env} {x : Handler} (h : StateInv s) : OutInv (noScalar s e x) := inv_handlerError h

theorem inv_forbidInTxn {e : Env} {act : List Nat} {s : State} {k : Out} (h : StateInv s) (hk : OutInv k) :
    OutInv (forbidInTxn e act s k) := by
  unfold forbidInTxn
  split
  · exact inv_abortTxn h
  · exact hk

theorem inv_orTrap {e : Env} {r : Raised} {s : State} {k : Out} (h : StateInv s) (hk : OutInv k) : OutInv (orTrap e r s k) := by
  unfold orTrap
  split
  · exact hk
  · exact inv_takeTrap h

end Sys2Proof.Machine
end

section
/-! PROOF. The invariant (R104) and operands and guards (Operands.lean): the forms of an issue keep it when their meanings do. -/
namespace Sys2Proof.Machine

set_option Elab.async false

theorem inv_retireWr {h : Hdr} {ll : Bool} {e : Env} {u : Nat} {act : List Nat} {wr : Nat → Wr} {s : State} (hs : StateInv s) :
    StateInv (retireWr h ll e u act wr s) := by
  unfold retireWr
  split
  · exact inv_retire hs.same
  · exact inv_retire hs

theorem inv_handlerAt {e : Env} {h : Handler} {pc : W64} {s : State} (hs : StateInv s) : StateInv (handlerAt e h pc s) :=
  inv_setSlot hs

theorem inv_handlerNext {e : Env} {h : Handler} {s : State} (hs : StateInv s) : StateInv (handlerNext e h s) := inv_handlerAt hs

theorem inv_aluScalar {sp : AluSpec} {s : State} {e : Env} {h : Handler} (hs : StateInv s) : OutInv (aluScalar sp s e h) := by
  unfold aluScalar
  split
  · exact inv_handlerError hs
  · split
    · exact inv_handlerError hs
    · dsimp only
      split
      · exact inv_handlerNext hs
      · exact inv_handlerNext hs

theorem inv_execAlu {sp : AluSpec} {s : State} (h : StateInv s) : OutInv (execAlu sp s) :=
  inv_issue h (fun _ _ _ => inv_aluScalar h) (fun _ _ _ _ h2 => inv_orTrap h2 (inv_retireWr h2))

end Sys2Proof.Machine
end

section
/-! PROOF. The invariant (R104) and the integer instructions (Int.lean): each keeps it. -/
namespace Sys2Proof.Machine

set_option Elab.async false

theorem inv_quadMoveIssue {f : F0} {s : State} (h : StateInv s) : OutInv (quadMoveIssue f s) :=
  inv_issue h (fun _ _ _ => inv_noScalar h) (fun _ _ _ _ h2 => inv_orTrap h2 (inv_retireWr h2))

theorem inv_execIadd {f : F0} {s : State} (h : StateInv s) : OutInv (execIadd f s) := inv_execAlu h

theorem inv_execIaddImm {f : F1} {s : State} (h : StateInv s) : OutInv (execIaddImm f s) := inv_execAlu h

theorem inv_execIsub {f : F0} {s : State} (h : StateInv s) : OutInv (execIsub f s) := inv_execAlu h

theorem inv_execIsubImm {f : F1} {s : State} (h : StateInv s) : OutInv (execIsubImm f s) := inv_execAlu h

theorem inv_execImul {f : F0} {s : State} (h : StateInv s) : OutInv (execImul f s) := inv_execAlu h

theorem inv_execImulImm {f : F1} {s : State} (h : StateInv s) : OutInv (execImulImm f s) := inv_execAlu h

theorem inv_execImulh {f : F0} {s : State} (h : StateInv s) : OutInv (execImulh f s) := inv_execAlu h

theorem inv_execImulhImm {f : F1} {s : State} (h : StateInv s) : OutInv (execImulhImm f s) := inv_execAlu h

theorem inv_execImad {f : F0} {s : State} (h : StateInv s) : OutInv (execImad f s) := inv_execAlu h

theorem inv_execImadImm {f : F1} {s : State} (h : StateInv s) : OutInv (execImadImm f s) := inv_execAlu h

theorem inv_execIdiv {f : F0} {s : State} (h : StateInv s) : OutInv (execIdiv f s) := inv_execAlu h

theorem inv_execIrem {f : F0} {s : State} (h : StateInv s) : OutInv (execIrem f s) := inv_execAlu h

theorem inv_execImin {f : F0} {s : State} (h : StateInv s) : OutInv (execImin f s) := inv_execAlu h

theorem inv_execIminImm {f : F1} {s : State} (h : StateInv s) : OutInv (execIminImm f s) := inv_execAlu h

theorem inv_execImax {f : F0} {s : State} (h : StateInv s) : OutInv (execImax f s) := inv_execAlu h

theorem inv_execImaxImm {f : F1} {s : State} (h : StateInv s) : OutInv (execImaxImm f s) := inv_execAlu h

theorem inv_execIabs {f : F0} {s : State} (h : StateInv s) : OutInv (execIabs f s) := inv_execAlu h

theorem inv_execIneg {f : F0} {s : State} (h : StateInv s) : OutInv (execIneg f s) := inv_execAlu h

theorem inv_execAnd {f : F0} {s : State} (h : StateInv s) : OutInv (execAnd f s) := inv_execAlu h

theorem inv_execAndImm {f : F1} {s : State} (h : StateInv s) : OutInv (execAndImm f s) := inv_execAlu h

theorem inv_execOr {f : F0} {s : State} (h : StateInv s) : OutInv (execOr f s) := inv_execAlu h

theorem inv_execOrImm {f : F1} {s : State} (h : StateInv s) : OutInv (execOrImm f s) := inv_execAlu h

theorem inv_execXor {f : F0} {s : State} (h : StateInv s) : OutInv (execXor f s) := inv_execAlu h

theorem inv_execXorImm {f : F1} {s : State} (h : StateInv s) : OutInv (execXorImm f s) := inv_execAlu h

theorem inv_execAndn {f : F0} {s : State} (h : StateInv s) : OutInv (execAndn f s) := inv_execAlu h

theorem inv_execAndnImm {f : F1} {s : State} (h : StateInv s) : OutInv (execAndnImm f s) := inv_execAlu h

theorem inv_execNot {f : F0} {s : State} (h : StateInv s) : OutInv (execNot f s) := inv_execAlu h

theorem inv_execShl {f : F0} {s : State} (h : StateInv s) : OutInv (execShl f s) := inv_execAlu h

theorem inv_execShlImm {f : F1} {s : State} (h : StateInv s) : OutInv (execShlImm f s) := inv_execAlu h

theorem inv_execShr {f : F0} {s : State} (h : StateInv s) : OutInv (execShr f s) := inv_execAlu h

theorem inv_execShrImm {f : F1} {s : State} (h : StateInv s) : OutInv (execShrImm f s) := inv_execAlu h

theorem inv_execSar {f : F0} {s : State} (h : StateInv s) : OutInv (execSar f s) := inv_execAlu h

theorem inv_execSarImm {f : F1} {s : State} (h : StateInv s) : OutInv (execSarImm f s) := inv_execAlu h

theorem inv_execRol {f : F0} {s : State} (h : StateInv s) : OutInv (execRol f s) := inv_execAlu h

theorem inv_execRolImm {f : F1} {s : State} (h : StateInv s) : OutInv (execRolImm f s) := inv_execAlu h

theorem inv_execRor {f : F0} {s : State} (h : StateInv s) : OutInv (execRor f s) := inv_execAlu h

theorem inv_execRorImm {f : F1} {s : State} (h : StateInv s) : OutInv (execRorImm f s) := inv_execAlu h

theorem inv_execBfe {f : F0} {s : State} (h : StateInv s) : OutInv (execBfe f s) := inv_execAlu h

theorem inv_execBfeImm {f : F1} {s : State} (h : StateInv s) : OutInv (execBfeImm f s) := inv_execAlu h

theorem inv_execBfi {f : F0} {s : State} (h : StateInv s) : OutInv (execBfi f s) := inv_execAlu h

theorem inv_execBfiImm {f : F1} {s : State} (h : StateInv s) : OutInv (execBfiImm f s) := inv_execAlu h

theorem inv_execPopc {f : F0} {s : State} (h : StateInv s) : OutInv (execPopc f s) := inv_execAlu h

theorem inv_execClz {f : F0} {s : State} (h : StateInv s) : OutInv (execClz f s) := inv_execAlu h

theorem inv_execCtz {f : F0} {s : State} (h : StateInv s) : OutInv (execCtz f s) := inv_execAlu h

theorem inv_execBrev {f : F0} {s : State} (h : StateInv s) : OutInv (execBrev f s) := inv_execAlu h

theorem inv_execLea {f : F0} {s : State} (h : StateInv s) : OutInv (execLea f s) := inv_execAlu h

theorem inv_execMov {f : F0} {s : State} (h : StateInv s) : OutInv (execMov f s) := by
  unfold execMov
  split
  · exact inv_quadMoveIssue h
  · exact inv_execAlu h

theorem inv_execMovi {f : F1} {s : State} (h : StateInv s) : OutInv (execMovi f s) := inv_execAlu h

theorem inv_execSel {f : F0} {s : State} (h : StateInv s) : OutInv (execSel f s) := inv_execAlu h

theorem inv_execSelImm {f : F1} {s : State} (h : StateInv s) : OutInv (execSelImm f s) := inv_execAlu h

theorem inv_execIcmp {f : F0} {s : State} (h : StateInv s) : OutInv (execIcmp f s) := inv_execAlu h

theorem inv_execIcmpImm {f : F1} {s : State} (h : StateInv s) : OutInv (execIcmpImm f s) := inv_execAlu h

theorem inv_execIset {f : F0} {s : State} (h : StateInv s) : OutInv (execIset f s) := inv_execAlu h

theorem inv_execIsetImm {f : F1} {s : State} (h : StateInv s) : OutInv (execIsetImm f s) := inv_execAlu h

theorem inv_execPand {f : F0} {s : State} (h : StateInv s) : OutInv (execPand f s) := inv_execAlu h

theorem inv_execPor {f : F0} {s : State} (h : StateInv s) : OutInv (execPor f s) := inv_execAlu h

theorem inv_execPxor {f : F0} {s : State} (h : StateInv s) : OutInv (execPxor f s) := inv_execAlu h

theorem inv_execPnot {f : F0} {s : State} (h : StateInv s) : OutInv (execPnot f s) := inv_execAlu h

theorem inv_execPmov {f : F0} {s : State} (h : StateInv s) : OutInv (execPmov f s) := inv_execAlu h

theorem inv_execPmovToRegister {f : F0} {s : State} (h : StateInv s) : OutInv (execPmovToRegister f s) := inv_execAlu h

theorem inv_execPmovFromRegister {f : F0} {s : State} (h : StateInv s) : OutInv (execPmovFromRegister f s) := inv_execAlu h

theorem inv_execIdot4 {f : F0} {s : State} (h : StateInv s) : OutInv (execIdot4 f s) := inv_execAlu h

theorem inv_execIdot4Imm {f : F1} {s : State} (h : StateInv s) : OutInv (execIdot4Imm f s) := inv_execAlu h

end Sys2Proof.Machine
end

section
/-! PROOF. The invariant (R104) and the cross-lane instructions and lane access (Lane.lean): each keeps it. -/
namespace Sys2Proof.Machine

set_option Elab.async false

theorem inv_execCross {h : Hdr} {ll : Bool} {uses : List RegUse} {fn : Env → List Nat → Nat → Wr} {s : State} (hs : StateInv s) :
    OutInv (execCross h ll uses fn s) :=
  inv_issue hs (fun _ _ _ => inv_noScalar hs) (fun _ _ _ _ h2 => inv_orTrap h2 (inv_retireWr h2))

theorem inv_shuf {f : F0} {imm : Bool} {n : Env → List Nat → Nat → Nat × Bool} {src : ℤ → ℤ → ℤ} {s : State} (h : StateInv s) :
    OutInv (shuf f imm n src s) := inv_execCross h

theorem inv_illegalAll {i : Instr} {e : Env} {s : State} (h : StateInv s) : OutInv (illegalAll i e s) := inv_takeTrap h

theorem inv_lgetScalar {f : F0} {s : State} {e : Env} {h : Handler} (hs : StateInv s) : OutInv (lgetScalar f s e h) := by
  unfold lgetScalar
  split
  · exact inv_handlerError hs
  · split
    · exact inv_handlerNext hs
    · split
      · exact inv_handlerError hs
      · exact inv_handlerNext hs

theorem inv_lputScalar {f : F0} {s : State} {e : Env} {h : Handler} (hs : StateInv s) (hg : BanksWf e.g) : OutInv
    (lputScalar f s e h) := by
  unfold lputScalar
  split
  · exact inv_handlerError hs
  · split
    · exact inv_handlerNext hs
    · split
      · exact inv_handlerError hs
      · split
        · exact inv_handlerNext (inv_setGang hs hg)
        · exact inv_handlerNext (inv_setGang hs hg)
        · dsimp only
          split
          · exact inv_handlerError hs
          · exact inv_handlerNext hs

theorem inv_execLshfl {f : F0} {s : State} (h : StateInv s) : OutInv (execLshfl f s) := inv_shuf h

theorem inv_execLshflImm {f : F0} {s : State} (h : StateInv s) : OutInv (execLshflImm f s) := inv_shuf h

theorem inv_execLshfu {f : F0} {s : State} (h : StateInv s) : OutInv (execLshfu f s) := inv_shuf h

theorem inv_execLshfuImm {f : F0} {s : State} (h : StateInv s) : OutInv (execLshfuImm f s) := inv_shuf h

theorem inv_execLshfd {f : F0} {s : State} (h : StateInv s) : OutInv (execLshfd f s) := inv_shuf h

theorem inv_execLshfdImm {f : F0} {s : State} (h : StateInv s) : OutInv (execLshfdImm f s) := inv_shuf h

theorem inv_execLxor {f : F0} {s : State} (h : StateInv s) : OutInv (execLxor f s) := inv_shuf h

theorem inv_execLxorImm {f : F0} {s : State} (h : StateInv s) : OutInv (execLxorImm f s) := inv_shuf h

theorem inv_execLbcast {f : F0} {s : State} (h : StateInv s) : OutInv (execLbcast f s) := inv_shuf h

theorem inv_execLbcastImm {f : F0} {s : State} (h : StateInv s) : OutInv (execLbcastImm f s) := inv_shuf h

theorem inv_execLpfx {f : F0} {s : State} (h : StateInv s) : OutInv (execLpfx f s) := inv_execCross h

theorem inv_execLred {f : F0} {s : State} (h : StateInv s) : OutInv (execLred f s) := inv_execCross h

theorem inv_execVote {f : F0} {s : State} (h : StateInv s) : OutInv (execVote f s) := inv_execCross h

theorem inv_execBallot {f : F0} {s : State} (h : StateInv s) : OutInv (execBallot f s) := inv_execCross h

theorem inv_execMatch {f : F0} {s : State} (h : StateInv s) : OutInv (execMatch f s) := inv_execCross h

theorem inv_execElect {f : F0} {s : State} (h : StateInv s) : OutInv (execElect f s) := inv_execCross h

theorem inv_execLget {f : F0} {s : State} (h : StateInv s) : OutInv (execLget f s) :=
  inv_issue h (fun _ _ _ => inv_lgetScalar h) (fun _ _ _ _ => inv_illegalAll)

theorem inv_execLput {f : F0} {s : State} (h : StateInv s) : OutInv (execLput f s) :=
  inv_issue h (fun _ _ h1 => inv_lputScalar h h1) (fun _ _ _ _ => inv_illegalAll)

end Sys2Proof.Machine
end

section
/-! PROOF. The invariant (R104) and global memory (Mem.lean): each operation keeps it, for a byte is written by `writeByte` and a sector
by `writeSector`. -/
namespace Sys2Proof.Machine

set_option Elab.async false

theorem inv_setAccessed {l : Leaf} {s : State} (h : StateInv s) : StateInv (setAccessed l s) := by
  unfold setAccessed
  split
  · exact h
  · refine { h with mem := ?_ }
    split
    · exact h.mem
    · exact writeByte_wf _ _ h.mem

theorem inv_dropLeaves {p : Leaf → Bool} {s : State} (h : StateInv s) : StateInv (dropLeaves p s) := h.same

theorem inv_wakeLine {home line : Nat} {s : State} (h : StateInv s) : StateInv (wakeLine home line s) := inv_wakeAll h

theorem inv_evictLine {line : Nat} {s : State} (h : StateInv s) : StateInv (evictLine line s) := by
  unfold evictLine
  split
  · exact h
  next v _ =>
    refine inv_ite h ?_
    have hw := inv_wakeAll (ws := s.wakes.filter fun w => w.place == .home (homeOf (line * 256)) && w.line == some line) (s := { s with
      lines := kdel s.lines line
      refill := kset s.refill (homeOf (line * 256)) (let f := kget s.refill (homeOf (line * 256)) 0
        if (v + 1 - f).toNat < 2 ^ 31 then v + 1 else f) }) h.same
    exact hw.same

theorem inv_makeRoom {line : Nat} {s : State} (h : StateInv s) : StateInv (makeRoom line s) := by
  unfold makeRoom
  dsimp only
  split
  · exact h
  · split
    · exact inv_evictLine h
    · exact h

theorem inv_touchLine {line : Nat} {s0 : State} (h : StateInv s0) : StateInv (touchLine line s0) := (inv_makeRoom h).same

theorem inv_bumpLine {line : Nat} {s0 : State} (h : StateInv s0) : StateInv (bumpLine line s0) := inv_wakeLine ((inv_makeRoom h).same)

theorem inv_dropCopies {slab pas : Nat} {s : State} (h : StateInv s) : StateInv (dropCopies slab pas s) := h.same

theorem inv_storeSector {keys : BitVec 512} {pas : Nat} {mask : BitVec 128} {d : BitVec 1024} {poison : Bool} {agent : Nat}
    {stamp : List Nat}
    {s : State} (h : StateInv s) : StateInv (storeSector keys pas mask d poison agent stamp s) :=
  inv_ite h (inv_bumpLine (inv_ite (h.writeSector _ _ _).same (inv_dropCopies (h.writeSector _ _ _).same)))

theorem inv_pushWrite {slab : Nat} {m : WriteMsg} {s : State} (h : StateInv s) : StateInv (pushWrite slab m s) := h.same

theorem inv_mergeStamp {slab : Nat} {w : List Nat} {s : State} (h : StateInv s) : StateInv (mergeStamp slab w s) := inv_setSlab h

theorem inv_peerMark {sec : Nat} {mask : BitVec 128} {poison : Bool} {s : State} (h : StateInv s) :
    StateInv (peerMark sec mask poison s) := h.same

theorem inv_applyMsg {m : WriteMsg} {s t : State} (h : StateInv s) (ht : applyMsg m s = .ok t) : StateInv t := by
  unfold applyMsg at ht
  dsimp only at ht
  split at ht
  · cases ht
    exact inv_storeSector h
  · split at ht
    · cases ht
      exact inv_peerMark (h.writePeerSector _ _ _)
    · split at ht
      · cases ht
      · cases ht
        split
        · exact inv_storeSector h
        · exact inv_setAccessed (inv_storeSector h)

theorem inv_l1Put {core ia : Nat} {l : L1Line} {s : State} (h : StateInv s) : StateInv (l1Put core ia l s) := h.same

theorem inv_l1Remove {core ctx ia : Nat} {s : State} (h : StateInv s) : StateInv (l1Remove core ctx ia s) := h.same

theorem inv_sendDirty {core ctx sector : Nat} {v : L1Sector} {s : State} (h : StateInv s) : StateInv (sendDirty core ctx sector v s) := by
  unfold sendDirty
  split
  · exact h
  · exact inv_pushWrite h

theorem inv_handOver {k ctx sector : Nat} {v : L1Sector} {s : State} (h : StateInv s) : StateInv (handOver k ctx sector v s) := by
  unfold handOver
  split
  · exact h
  · exact h.same

theorem inv_sendLine {core : Nat} {l : L1Line} {s : State} (h : StateInv s) : StateInv (sendLine core l s) :=
  inv_sendDirty (inv_sendDirty h)

theorem inv_loseLine {k : Nat} {l : L1Line} {s : State} (h : StateInv s) : StateInv (loseLine k l s) :=
  inv_sendLine (inv_handOver (inv_handOver h))

theorem inv_evictBuffered {core ctx line : Nat} {s : State} (h : StateInv s) : StateInv (evictBuffered core ctx line s) := by
  unfold evictBuffered
  refine inv_foldl (fun _ _ h1 => ?_) h
  refine inv_foldl (fun _ _ h2 => ?_) h1
  dsimp only
  split
  · split
    · exact inv_abortTxn h2
    · exact h2
  · exact h2

theorem inv_l1Alloc {core ctx ia rr : Nat} {s : State} (h : StateInv s) : StateInv (l1Alloc core ctx ia rr s) := by
  unfold l1Alloc
  split
  · exact h
  · dsimp only
    split
    · exact h.same
    · split
      · exact h
      · exact inv_loseLine (inv_evictBuffered h.same)

theorem inv_l1Hit {core ctx ia : Nat} {s : State} (h : StateInv s) : StateInv (l1Hit core ctx ia s) := by
  unfold l1Hit
  split
  · exact inv_l1Put h
  · exact h

theorem inv_l1Reserve {core ctx ia rr : Nat} {s : State} (h : StateInv s) : StateInv (l1Reserve core ctx ia rr s) := by
  unfold l1Reserve
  split
  · exact inv_l1Hit h
  · exact inv_l1Alloc h

theorem inv_l1Fill {core ctx ia rr : Nat} {d : BitVec 1024} {poison confirmed : Bool} {s : State} (h : StateInv s) :
    StateInv (l1Fill core ctx ia rr d poison confirmed s) := by
  unfold l1Fill
  dsimp only
  split
  · exact inv_l1Alloc h
  · exact inv_l1Put (inv_l1Alloc h)

theorem inv_l1Merge {core ctx ia : Nat} {mask : BitVec 128} {d : BitVec 1024} {poison dirty : Bool} {s : State} (h : StateInv s) :
    StateInv (l1Merge core ctx ia mask d poison dirty s) := by
  unfold l1Merge
  split
  · exact h
  · exact inv_l1Put h

theorem inv_l1Write {core ctx ia n d : Nat} {poison dirty : Bool} {s : State} (h : StateInv s) :
    StateInv (l1Write core ctx ia n d poison dirty s) := inv_l1Merge h

theorem inv_l1Forget {core ctx ia : Nat} {mask : BitVec 128} {s : State} (h : StateInv s) : StateInv (l1Forget core ctx ia mask s) := by
  unfold l1Forget
  split
  · exact h
  · exact inv_l1Put h

theorem inv_l1Confirm {core ctx ia : Nat} {s : State} (h : StateInv s) : StateInv (l1Confirm core ctx ia s) := by
  unfold l1Confirm
  split
  · exact h
  · exact inv_l1Put h

theorem inv_cleanSector {core ctx ia : Nat} {drop : Bool} {s : State} (h : StateInv s) : StateInv (cleanSector core ctx ia drop s) := by
  unfold cleanSector
  split
  · exact h
  · split
    · dsimp only
      split
      · exact inv_l1Remove (inv_sendDirty (inv_handOver h))
      · exact inv_l1Put (inv_sendDirty (inv_handOver h))
    · dsimp only
      split
      · exact inv_l1Remove (inv_sendDirty (inv_handOver h))
      · exact inv_l1Put (inv_sendDirty (inv_handOver h))

theorem inv_dropClean {core ctx ia : Nat} {s : State} (h : StateInv s) : StateInv (dropClean core ctx ia s) := by
  unfold dropClean
  split
  · exact h
  · dsimp only
    split
    · split
      · exact inv_l1Remove (inv_handOver h)
      · exact inv_l1Put (inv_handOver h)
    · split
      · exact inv_l1Remove (inv_handOver h)
      · exact inv_l1Put (inv_handOver h)

theorem inv_blockIf {core : Nat} {p : Req → Bool} {s : State} (h : StateInv s) : StateInv (blockIf core p s) := h.same

theorem inv_blockFills {core : Nat} {sector : Option (Nat × Nat)} {s : State} (h : StateInv s) : StateInv (blockFills core sector s) :=
  inv_blockIf h

theorem inv_cleanAll {core : Nat} {drop : Bool} {s : State} (h : StateInv s) : StateInv (cleanAll core drop s) := by
  unfold cleanAll
  split
  · exact inv_blockFills (inv_foldl (fun _ _ h1 => (inv_foldl (fun _ _ => inv_loseLine) h1).same) h)
  · exact inv_foldl (fun _ _ h1 => (inv_foldl (fun _ _ => inv_loseLine) h1).same) h

theorem inv_wcSend {core : Nat} {w : WcEntry} {s : State} (h : StateInv s) : StateInv (wcSend core w s) := inv_pushWrite h

theorem inv_wcFlush {core : Nat} {p : WcEntry → Bool} {s : State} (h : StateInv s) : StateInv (wcFlush core p s) :=
  (inv_foldl (fun _ _ => inv_wcSend) h).same

theorem inv_wcStore {core ctx ia n d : Nat} {poison : Bool} {s : State} (h : StateInv s) : StateInv
    (wcStore core ctx ia n d poison s) := by
  unfold wcStore
  dsimp only
  split
  · exact h.same
  · split
    · split
      · exact h.same
      · exact inv_wcFlush h.same
    · split
      · split
        · exact h.same
        · exact inv_wcFlush h.same
      · split
        · exact h.same
        · exact inv_wcFlush h.same

theorem inv_releaseCaches {core : Nat} {s : State} (h : StateInv s) : StateInv (releaseCaches core s) := inv_wcFlush (inv_cleanAll h)

theorem inv_release {e : Env} {fids : List Nat} {sc : BitVec 2} {s : State} (h : StateInv s) : StateInv (release e fids sc s).2 := by
  unfold release
  split
  · exact h
  · split
    · exact inv_splitParked h
    · split
      · dsimp only
        split
        · exact h
        · exact inv_wcFlush h
      · split
        · dsimp only
          split
          · exact h
          · exact inv_snd_ite (inv_snd_ite (inv_setGang h (h.banks _)) h) (inv_releaseCaches h)
        · dsimp only
          split
          · exact h
          · exact inv_snd_ite (inv_snd_ite (inv_setGang h (h.banks _)) h) (inv_setGang (inv_releaseCaches h)
              ((inv_releaseCaches h).banks _))

theorem inv_acquireEffect {core : Nat} {sc : BitVec 2} {s : State} (h : StateInv s) : StateInv (acquireEffect core sc s) := by
  unfold acquireEffect
  split
  · exact h
  · split
    · exact inv_cleanAll h
    · exact inv_mergeStamp (inv_cleanAll h)

theorem inv_sliceTouch {slab ctx sector : Nat} {s : State} (h : StateInv s) : StateInv (sliceTouch slab ctx sector s) := inv_setSlab h

theorem inv_slicePut {slab : Nat} {c : SliceCopy} {s : State} (h : StateInv s) : StateInv (slicePut slab c s) := by
  unfold slicePut
  split
  · exact h
  · exact inv_setSlab h

theorem inv_sliceFill {slab ctx sector : Nat} {d : BitVec 1024} {poison : Bool} {stamp : List Nat} {writer rr : Nat} {s : State}
    (h : StateInv s) : StateInv (sliceFill slab ctx sector d poison stamp writer rr s) := by
  unfold sliceFill
  dsimp only
  split
  · exact h
  · exact inv_slicePut h

theorem inv_sliceStore {slab ctx sector : Nat} {mask : BitVec 128} {d : BitVec 1024} {poison : Bool} {rr : Nat} {s : State}
    (h : StateInv s) : StateInv (sliceStore slab ctx sector mask d poison rr s) := by
  unfold sliceStore
  split
  · exact inv_sliceTouch h
  · exact inv_slicePut h

theorem inv_drainSlice {slab : Nat} {s : State} (h : StateInv s) : StateInv (drainSlice slab s) := by
  unfold drainSlice
  dsimp only
  split
  · exact h
  · exact h.same

theorem inv_scratchWrite {gid off : Nat} {bs : List Byte} {s : State} (h : StateInv s) : StateInv (scratchWrite gid off bs s) :=
  inv_foldl (fun _ _ => inv_wakeScratch) (inv_setGang h ⟨writeBytes_wf _ _ (h.banks _).1, (h.banks _).2⟩)

theorem inv_noteEngine {cls gid off n : Nat} {before : Gang} {s : State} (h : StateInv s) :
    StateInv (noteEngine cls gid off n before s) := inv_setGang h (h.banks _)

theorem inv_engineWrite {cls gid off : Nat} {bs : List Byte} {s : State} (h : StateInv s) : StateInv (engineWrite cls gid off bs s) :=
  inv_noteEngine (inv_scratchWrite h)

theorem inv_seeEngine {cls gid : Nat} {s : State} (h : StateInv s) : StateInv (seeEngine cls gid s) := inv_setGang h (h.banks _)

theorem inv_scratchMark {gid off n : Nat} {poison : Bool} {s : State} (h : StateInv s) : StateInv (scratchMark gid off n poison s) :=
  inv_setGang h (h.banks _)

theorem inv_syncWrite {gid off : Nat} {w : Quad} {s : State} (h : StateInv s) : StateInv (syncWrite gid off w s) := inv_scratchWrite h

theorem inv_syncBytes {gid : Nat} {sync : Option Nat} {n : Nat} {s : State} (h : StateInv s) : StateInv (syncBytes gid sync n s) := by
  unfold syncBytes
  split
  · exact inv_syncWrite h
  · exact h

end Sys2Proof.Machine
end

section
/-! PROOF. The invariant (R104) and fetch targets and transactions (Txn.lean): each instruction keeps it, a commit too, which writes the
scratchpad byte by byte. -/
namespace Sys2Proof.Machine

set_option Elab.async false

theorem inv_touchFetchAt {ctx : Nat} {pc : W64} {s : State} (h : StateInv s) : StateInv (touchFetchAt ctx pc s) := by
  unfold touchFetchAt
  split
  · exact h
  · split
    · exact h
    · split
      · exact inv_setAccessed h
      · exact h

theorem inv_touchTarget {e : Env} {t : W64} {s : State} (h : StateInv s) : StateInv (touchTarget e t s) := by
  unfold touchTarget
  split
  · exact h
  · exact inv_touchFetchAt h

theorem inv_touchTargets {e : Env} {ts : List W64} {s : State} (h : StateInv s) : StateInv (touchTargets e ts s) :=
  inv_foldl (fun _ _ => inv_touchTarget) h

theorem inv_txnFault {core key gid : Nat} {lanes : List Nat} {pc va : W64} {why acc : Nat} {s : State} (h : StateInv s) :
    StateInv (txnFault core key gid lanes pc va why acc s) :=
  inv_toTable (inv_leaveSlot (inv_setGang (inv_report (inv_abortTxn h)) ((inv_report (inv_abortTxn h)).banks _)))

theorem inv_parkFetch {e : Env} {fids : List Nat} {va : W64} {why : Nat} {s : State} (h : StateInv s) :
    OutInv (parkFetch e fids va why s) := by
  unfold parkFetch
  split
  · exact inv_trapFailure h
  · split
    · exact inv_txnFault h
    · exact inv_toTable (inv_leaveSlot (inv_setGang (inv_report h) ((inv_report h).banks _)))

theorem inv_needTargets {e : Env} {act : List Nat} {t : Nat → W64} {s : State} {k : State → Out} (h : StateInv s)
    (hk : ∀ x0, StateInv x0 → OutInv (k x0)) : OutInv (needTargets e act t s k) := by
  unfold needTargets
  split
  · exact hk _ (inv_foldl (fun _ _ => inv_touchFetchAt) h)
  · exact inv_parkFetch h

theorem inv_setTxn {key : Nat} {t : Txn} {s : State} (h : StateInv s) : StateInv (setTxn key t s) := inv_setSlot h

theorem inv_pickPath {core key gid : Nat} {s : State} (h : StateInv s) : StateInv (pickPath core key gid s) := by
  unfold pickPath
  dsimp only
  split
  · exact h
  · split
    · exact inv_setTxn h
    · split
      · split
        · split
          · exact inv_setTxn h
          · exact inv_abortTxn h
        · exact h
      · exact inv_setTxn h

theorem inv_arriveTxn {e : Env} {t : Txn} {s : State} (h : StateInv s) : StateInv (arriveTxn e t s) := inv_pickPath (inv_setTxn h)

theorem inv_illegalHere {i : Instr} {e : Env} {act : List Nat} {s : State} (h : StateInv s) : OutInv (illegalHere i e act s) :=
  inv_takeTrap h

theorem inv_openLevel {e : Env} {t : Txn} {alt : Option W64} {s : State} (h : StateInv s) : OutInv (openLevel e t alt s) := by
  unfold openLevel
  split
  · exact inv_abortTxn h
  · exact inv_setTxn (inv_retirePlain h)

theorem inv_startTxn {e : Env} {act : List Nat} {target : W64} {s : State} (h : StateInv s) : OutInv (startTxn e act target s) :=
  inv_setTxn (inv_retirePlain h)

theorem inv_commitScratch {gid : Nat} {w : TxnWrites} {s : State} (h : StateInv s) : StateInv (commitScratch gid w s) :=
  inv_foldl (fun _ _ hs => inv_wakeScratch (inv_setGang hs
    ⟨foldl_wf _ _ (fun _ _ => writeByte_wf _ _) (hs.banks _).1, (hs.banks _).2⟩)) h

theorem inv_walkLooks {looks : List (WriteMsg × Except Nat Leaf)} {s : State} (h : StateInv s) : StateInv (walkLooks looks s) := by
  unfold walkLooks
  refine inv_foldl (fun _ _ h1 => ?_) h
  split
  · exact inv_setAccessed h1
  · exact h1

theorem inv_commit {e : Env} {t : Txn} {s : State} (h : StateInv s) : OutInv (commit e t s) := by
  unfold commit
  split
  · dsimp only
    split
    · exact inv_release h
    · exact inv_takeTrap (inv_release h)
  · dsimp only
    split
    · exact inv_release h
    · split
      · exact inv_release h
      · split
        · exact inv_release h
        · split
          · exact inv_txnFault (inv_walkLooks (inv_release h))
          · split
            · exact inv_abortTxn (inv_walkLooks (inv_release h))
            · exact inv_closeTxn (inv_retirePlain (inv_acquireEffect (inv_commitScratch (inv_foldl (fun _ _ => inv_pushWrite)
                ((inv_walkLooks (inv_release h)).same)))))

theorem inv_registerReads {cluster gid sid : Nat} {l : List TxnRead} {s : State} {co : Bool} (h : StateInv s) :
    StateInv (registerReads cluster gid sid l s co).1 := by
  induction l generalizing s co with
  | nil => exact h
  | cons r l ih => exact ih (inv_ite (inv_perfEvent h.same) h.same)

theorem inv_finalRetry {e : Env} {t : Txn} {limit : Option Nat} {s : State} (h : StateInv s) : OutInv (finalRetry e t limit s) := by
  have hn := inv_noteIssue (e := e) (u := 5) h
  unfold finalRetry
  dsimp only
  split
  · exact inv_abortTxn hn
  · split
    · exact h
    · split
      · exact inv_closeTxn hn
      · have hr := inv_registerReads (cluster := clusterOf e.core) (gid := e.gid) (sid := (noteIssue e 5 s).ids) (l := t.reads)
          (co := false)
          (s := { noteIssue e 5 s with ids := (noteIssue e 5 s).ids + 1 }) hn.same
        have ht := inv_toTable (core := e.core) (gid := e.gid) (fids := pinned e.sl t) (w := .asleep (noteIssue e 5 s).ids)
          (inv_leaveSlot (key := e.key) (fids := pinned e.sl t)
            (inv_closeTxn (core := e.core) (key := e.key) (gid := e.gid) (pc := some t.beginPc) (st := none) hr))
        exact ht.same

theorem inv_retry {e : Env} {t : Txn} {limit : Option Nat} {s : State} (h : StateInv s) : OutInv (retry e t limit s) := by
  unfold retry
  split
  · exact inv_setTxn (inv_setGang (inv_noteIssue h) (h.banks _))
  · exact inv_finalRetry h

theorem inv_execTbegin {f : F5} {s : State} (h : StateInv s) : OutInv (execTbegin f s) := by
  unfold execTbegin
  refine inv_issue h (fun _ _ _ => inv_noScalar h) fun _ _ _ _ h2 => ?_
  refine inv_orTrap (inv_touchTargets h2) ?_
  split
  · exact inv_retirePlain h2
  · refine inv_needTargets h2 fun _ h3 => ?_
    split
    · exact inv_startTxn h3
    · exact inv_openLevel h3

theorem inv_execTend {f : F5} {s : State} (h : StateInv s) : OutInv (execTend f s) := by
  unfold execTend
  refine inv_issue h (fun _ _ _ => inv_noScalar h) fun _ _ _ _ h2 => ?_
  split
  · exact inv_illegalHere h2
  · split
    · exact inv_arriveTxn h2
    · split
      · exact inv_setTxn (inv_retirePlain h2)
      · exact inv_commit h2

theorem inv_execTabort {f : F5} {s : State} (h : StateInv s) : OutInv (execTabort f s) := by
  unfold execTabort
  refine inv_issue h (fun _ _ _ => inv_noScalar h) fun _ _ _ _ h2 => ?_
  refine inv_orTrap h2 ?_
  split
  · exact inv_retirePlain h2
  · split
    · exact h2
    · exact inv_abortTxn (inv_noteIssue h2)

theorem inv_execTretry {f : F5} {s : State} (h : StateInv s) : OutInv (execTretry f s) := by
  unfold execTretry
  refine inv_issue h (fun _ _ _ => inv_noScalar h) fun _ _ _ _ h2 => ?_
  refine inv_orTrap h2 ?_
  split
  · exact inv_retirePlain h2
  · split
    · exact h2
    · exact inv_retry h2

theorem inv_execTretryt {f : F5} {s : State} (h : StateInv s) : OutInv (execTretryt f s) := by
  unfold execTretryt
  refine inv_issue h (fun _ _ _ => inv_noScalar h) fun _ _ _ _ h2 => ?_
  refine inv_orTrap h2 ?_
  split
  · exact inv_retirePlain h2
  · split
    · exact h2
    · exact inv_retry h2

theorem inv_execTorelse {f : F5} {s : State} (h : StateInv s) : OutInv (execTorelse f s) := by
  unfold execTorelse
  refine inv_issue h (fun _ _ _ => inv_noScalar h) fun _ _ _ _ h2 => ?_
  split
  · exact inv_illegalHere h2
  · split
    · exact inv_arriveTxn h2
    · split
      · exact inv_takeTrap (inv_touchTarget h2)
      · exact inv_needTargets h2 (fun _ => inv_openLevel)

theorem inv_execTretrytExpiry {sid : Nat} {s : State} (h : StateInv s) : OutInv (execTretrytExpiry sid s) := by
  unfold execTretrytExpiry
  split
  · trivial
  · split
    · trivial
    · split
      · trivial
      · split
        · exact inv_setGang (inv_wakeSleeper h) ((inv_wakeSleeper h).banks _)
        · exact inv_wakeSleeper h

theorem inv_execTransactionRevalidate {core w : Nat} {s : State} (h : StateInv s) : OutInv (execTransactionRevalidate core w s) := by
  unfold execTransactionRevalidate
  dsimp only
  split
  · trivial
  · split
    · trivial
    · split
      · trivial
      · split
        · exact inv_setTxn h
        · exact inv_abortTxn h

end Sys2Proof.Machine
end

section
/-! PROOF. The invariant (R104) and loads, stores, atomics and fences (Memory.lean): each keeps it. -/
namespace Sys2Proof.Machine

set_option Elab.async false

theorem inv_logStall {s : State} {e : Env} {act : List Nat} (h : StateInv s) : StateInv (logStall s e act) :=
  inv_splitParked (inv_ite h (inv_perfEvent h))

theorem inv_openEntry {e : Env} {act sectors : List Nat} {s : State} (h : StateInv s) : StateInv (openEntry e act sectors s).2 :=
  inv_setSlot h.same

theorem inv_closeEntry {key entry : Nat} {s : State} (h : StateInv s) : StateInv (closeEntry key entry s) := by
  unfold closeEntry
  split
  · exact h
  · exact inv_setSlot h

theorem inv_addReq {r : Req} {s : State} (h : StateInv s) : StateInv (addReq r s) := h.same

theorem inv_startLoad {r : Req} {s : State} (h : StateInv s) : StateInv (startLoad r s) := by
  unfold startLoad
  split
  · split
    · split
      · dsimp only
        split
        · exact inv_addReq (inv_l1Hit h)
        · exact inv_addReq (inv_sliceTouch (inv_perfEvent h))
      · dsimp only
        split
        · exact inv_addReq (inv_l1Hit h)
        · exact inv_addReq (inv_perfEvent h)
    · dsimp only
      split
      · exact inv_addReq (inv_l1Hit h)
      · split
        · exact inv_addReq (inv_sliceTouch (inv_perfEvent h))
        · exact inv_addReq (inv_perfEvent h)
  · split
    · split
      · dsimp only
        split
        · exact inv_addReq (inv_l1Hit h)
        · exact inv_addReq (inv_sliceTouch (inv_perfEvent (inv_wcFlush h)))
      · dsimp only
        split
        · exact inv_addReq (inv_l1Hit h)
        · exact inv_addReq (inv_perfEvent (inv_wcFlush h))
    · dsimp only
      split
      · exact inv_addReq (inv_l1Hit h)
      · split
        · exact inv_addReq (inv_sliceTouch (inv_perfEvent (inv_wcFlush h)))
        · exact inv_addReq (inv_perfEvent (inv_wcFlush h))

theorem inv_touchPage {ctx ia : Nat} {write : Bool} {s : State} (h : StateInv s) : StateInv (touchPage ctx ia write s) := by
  unfold touchPage
  split
  · exact h
  · split
    · exact inv_setAccessed h
    · exact h

theorem inv_touched {e : Env} {p : Nat → Bool} {write : Bool} {accs : List (Nat × W64 × Nat)} {s : State} (h : StateInv s) :
    StateInv (touched e p write accs s) := inv_foldl (fun _ _ => inv_touchPage) h

theorem inv_orPoison {e : Env} {p : Nat → Bool} {write : Bool} {accs : List (Nat × W64 × Nat)} {s : State} {k : Out} (h : StateInv s)
    (hk : OutInv k) : OutInv (orPoison e p write accs s k) := inv_orTrap (inv_touched h) hk

theorem inv_loadGlobal {f : F2} {e : Env} {act : List Nat} {s : State} (h : StateInv s) : OutInv (loadGlobal f e act s) := by
  unfold loadGlobal
  split
  · dsimp only
    split
    · exact inv_logStall h
    · exact h
  · dsimp only
    split
    · exact inv_logStall h
    · exact inv_orPoison h (inv_closeEntry (inv_foldl (fun _ _ => inv_startLoad) (inv_retire h.same)))

theorem inv_loadTxn {f : F2} {e : Env} {t : Txn} {act : List Nat} {s : State} (h : StateInv s) : OutInv (loadTxn f e t act s) := by
  unfold loadTxn
  dsimp only
  split
  · exact h
  · split
    · exact inv_abortTxn h
    · exact inv_orPoison h (inv_foldl (fun _ _ h1 => inv_addReq (inv_cleanSector h1)) (inv_retire h.same))

theorem inv_storeTxn {f : F2} {e : Env} {t : Txn} {act : List Nat} {s : State} (h : StateInv s) : OutInv (storeTxn f e t act s) := by
  unfold storeTxn
  dsimp only
  split
  · exact h
  · split
    · refine inv_txnFault ?_
      refine inv_foldl (fun _ _ h1 => ?_) h
      split
      · split
        · exact h1
        · exact inv_setAccessed h1
      · exact h1
    · split
      · refine inv_abortTxn ?_
        refine inv_foldl (fun _ _ h1 => ?_) h
        split
        · split
          · exact h1
          · exact inv_setAccessed h1
        · exact h1
      · split
        · refine inv_abortTxn ?_
          refine inv_foldl (fun _ _ h1 => ?_) h
          split
          · split
            · exact h1
            · exact inv_setAccessed h1
          · exact h1
        · refine inv_foldl (fun _ _ => inv_l1Reserve) ?_
          refine inv_retirePlain ?_
          refine inv_setTxn ?_
          refine inv_foldl (fun _ _ h1 => ?_) h
          split
          · split
            · exact h1
            · exact inv_setAccessed h1
          · exact h1

theorem inv_layerStores {entry : Nat} {s : State} (h : StateInv s) : StateInv (layerStores entry s) := h.same

theorem inv_storeClean {r : Req} {s : State} (h : StateInv s) : StateInv (storeClean r s) := by
  unfold storeClean
  dsimp only
  split
  · exact inv_blockFills h
  · exact inv_l1Hit (inv_l1Merge (inv_blockFills h))

theorem inv_keepCopy {r : Req} {s : State} (h : StateInv s) : StateInv (keepCopy r s) := inv_sliceStore h

theorem inv_sendStore {r : Req} {s : State} (h : StateInv s) : StateInv (sendStore r s) :=
  inv_pushWrite (inv_ite (inv_sliceTouch (inv_ite (inv_ite (inv_keepCopy (inv_storeClean h)) (inv_storeClean h)) (inv_blockFills
    (inv_cleanSector h)))) (inv_ite (inv_ite (inv_keepCopy (inv_storeClean h)) (inv_storeClean h)) (inv_blockFills (inv_cleanSector h))))

theorem inv_startStore {r : Req} {s0 : State} (h : StateInv s0) : StateInv (startStore r s0) := by
  unfold startStore
  dsimp only
  split
  · exact inv_sendStore (inv_addReq (inv_ite (inv_perfEvent h) h))
  · split
    · exact inv_l1Hit (inv_l1Write (inv_ite (inv_perfEvent h) h))
    · exact inv_addReq (inv_ite (inv_perfEvent h) h)

theorem inv_storeGlobal {f : F2} {e : Env} {act : List Nat} {s : State} (h : StateInv s) : OutInv (storeGlobal f e act s) := by
  unfold storeGlobal
  split
  · dsimp only
    split
    · exact inv_logStall h
    · refine inv_orPoison h ?_
      split
      · exact h
      · exact inv_closeEntry (inv_layerStores (inv_foldl (fun _ _ => inv_startStore) (inv_retirePlain (inv_openEntry h))))
  · dsimp only
    split
    · exact inv_logStall h
    · refine inv_orPoison h ?_
      split
      · exact inv_release h
      · exact inv_closeEntry (inv_layerStores (inv_foldl (fun _ _ => inv_startStore) (inv_retirePlain (inv_openEntry (inv_release h)))))

theorem inv_scratchReply {e : Env} {f : F2} {d : Ty × Nat} {vals : List (Nat × Quad × Bool)} {wr : Nat → Wr} {act : List Nat} {s : State}
    (h : StateInv s) : StateInv (scratchReply e f d vals wr act s) := inv_foldl (fun _ _ => inv_addReq) (inv_retire h.same)

theorem inv_loadScratch {f : F2} {e : Env} {act : List Nat} {s : State} (h : StateInv s) : OutInv (loadScratch f e act s) := by
  unfold loadScratch
  split
  · exact inv_splitParked h
  · split
    · exact inv_scratchReply h
    · dsimp only
      split
      · exact inv_abortTxn h
      · exact inv_scratchReply (inv_setTxn h)

theorem inv_scratchRelease {e : Env} {act : List Nat} {sc : BitVec 2} {s : State} (h : StateInv s) :
    StateInv (scratchRelease e act sc s).2 := inv_release h

theorem inv_storeScratch {f : F2} {e : Env} {act : List Nat} {s : State} (h : StateInv s) : OutInv (storeScratch f e act s) := by
  unfold storeScratch
  split
  · dsimp only
    split
    · exact inv_abortTxn h
    · exact inv_retirePlain (inv_setTxn h)
  · split
    · exact inv_splitParked h
    · split
      · dsimp only
        split
        · exact h
        · exact inv_foldl (fun _ _ h1 => inv_scratchMark (inv_scratchWrite h1)) (inv_retirePlain h)
      · dsimp only
        split
        · exact inv_scratchRelease h
        · exact inv_foldl (fun _ _ h1 => inv_scratchMark (inv_scratchWrite h1)) (inv_retirePlain (inv_scratchRelease h))

theorem inv_handlerMem {f : F2} {isLoad : Bool} {faults : List (Nat × W64)} {go : State → Out} {s : State} {e : Env} {h : Handler}
    (hgo : ∀ x0, StateInv x0 → OutInv (go x0)) (hs : StateInv s) : OutInv (handlerMem f isLoad faults go s e h) := by
  unfold handlerMem
  split
  · exact inv_handlerError hs
  · split
    · exact inv_handlerNext hs
    · split
      · split
        · exact inv_poisonError hs
        · exact inv_handlerError hs
      · exact hgo _ hs

theorem inv_ldScalar {f : F2} {s : State} {e : Env} {h : Handler} (hs : StateInv s) : OutInv (ldScalar f s e h) := by
  unfold ldScalar
  refine inv_handlerMem (fun _ h1 => ?_) hs
  split
  · exact h1
  · exact inv_startLoad (inv_handlerNext h1)

theorem inv_stScalar {f : F2} {s : State} {e : Env} {h : Handler} (hs : StateInv s) : OutInv (stScalar f s e h) := by
  unfold stScalar
  refine inv_handlerMem (fun _ h1 => ?_) hs
  split
  · split
    · exact h1
    · dsimp only
      split
      · exact h1
      · exact inv_startStore (inv_handlerNext h1)
  · split
    · exact h1
    · dsimp only
      split
      · exact inv_release h1
      · exact inv_startStore (inv_handlerNext (inv_release h1))

theorem inv_ldsScalar {f : F2} {s : State} {e : Env} {h : Handler} (hs : StateInv s) : OutInv (ldsScalar f s e h) := by
  unfold ldsScalar
  refine inv_handlerMem (fun _ h1 => ?_) hs
  split
  · exact h1
  · split
    · exact inv_acquireEffect (inv_handlerNext h1)
    · exact inv_handlerNext h1

theorem inv_stsScalar {f : F2} {s : State} {e : Env} {h : Handler} (hs : StateInv s) : OutInv (stsScalar f s e h) := by
  unfold stsScalar
  refine inv_handlerMem (fun _ h1 => ?_) hs
  split
  · split
    · exact h1
    · dsimp only
      split
      · exact h1
      · exact inv_scratchMark (inv_scratchWrite (inv_handlerNext h1))
  · split
    · exact h1
    · dsimp only
      split
      · exact inv_scratchRelease h1
      · exact inv_scratchMark (inv_scratchWrite (inv_handlerNext (inv_scratchRelease h1)))

theorem inv_maintain {core : Nat} {p : Nat → Nat → Bool} {drop : Bool} {s : State} (h : StateInv s) :
    StateInv (maintain core p drop s) := by
  unfold maintain
  refine inv_foldl (fun _ _ h1 => ?_) h
  refine inv_foldl (fun _ _ h2 => ?_) h1
  refine inv_foldl (fun _ _ h3 => ?_) h2
  split
  · exact inv_cleanSector h3
  · exact h3

theorem inv_regionOp {f : F2} {drop : Bool} {s : State} (h : StateInv s) : OutInv (regionOp f drop s) := by
  unfold regionOp
  refine inv_issue h (fun _ _ _ => inv_noScalar h) fun _ _ _ _ h2 => ?_
  refine inv_orTrap h2 ?_
  split
  · exact inv_retirePlain h2
  · split
    · dsimp only
      split
      · exact inv_splitParked h2
      · exact inv_setGang (inv_retirePlain (inv_maintain (inv_blockIf h2))) ((inv_retirePlain (inv_maintain (inv_blockIf h2))).banks _)
    · dsimp only
      split
      · exact inv_splitParked h2
      · exact inv_setGang (inv_retirePlain (inv_wcFlush (inv_maintain h2))) ((inv_retirePlain (inv_wcFlush (inv_maintain h2))).banks _)

theorem inv_pushOp {r : Req} {s : State} (h : StateInv s) : StateInv (pushOp r s) := inv_pushWrite h

theorem inv_sendOp {r : Req} {s : State} (h : StateInv s) : StateInv (sendOp r s) := inv_pushOp (inv_addReq h)

theorem inv_clearWay {r : Req} {s : State} (h : StateInv s) : StateInv (clearWay r s) :=
  inv_wcFlush (inv_blockFills (inv_cleanSector h))

theorem inv_startAtomic {r : Req} {s : State} (h : StateInv s) : StateInv (startAtomic r s) := inv_sendOp (inv_clearWay h)

theorem inv_execAtomic {op : Nat} {f : F2} {s : State} (h : StateInv s) : OutInv (execAtomic op f s) := by
  unfold execAtomic
  refine inv_issue h (fun _ _ _ => inv_noScalar h) fun _ _ _ _ h2 => ?_
  refine inv_forbidInTxn h2 ?_
  refine inv_orTrap h2 ?_
  refine inv_orTrap h2 ?_
  split
  · split
    · split
      · dsimp only
        split
        · exact inv_logStall h2
        · exact inv_orPoison h2 h2
      · split
        · dsimp only
          split
          · exact inv_logStall h2
          · refine inv_orPoison h2 ?_
            split
            · exact inv_release h2
            · exact inv_closeEntry (inv_foldl (fun _ _ => inv_startAtomic) (inv_retire ((inv_release h2).same)))
        · dsimp only
          split
          · exact inv_logStall h2
          · refine inv_orPoison h2 ?_
            split
            · exact h2
            · exact inv_closeEntry (inv_foldl (fun _ _ => inv_startAtomic) (inv_retire h2.same))
    · split
      · dsimp only
        split
        · exact inv_logStall h2
        · exact inv_orPoison h2 h2
      · split
        · dsimp only
          split
          · exact inv_logStall h2
          · refine inv_orPoison h2 ?_
            split
            · exact inv_release h2
            · exact inv_closeEntry (inv_foldl (fun _ _ => inv_startAtomic) (inv_retire ((inv_release h2).same)))
        · dsimp only
          split
          · exact inv_logStall h2
          · refine inv_orPoison h2 ?_
            split
            · exact h2
            · exact inv_closeEntry (inv_foldl (fun _ _ => inv_startAtomic) (inv_retire h2.same))
  · split
    · split
      · dsimp only
        split
        · exact inv_logStall h2
        · exact inv_orPoison h2 h2
      · split
        · dsimp only
          split
          · exact inv_logStall h2
          · refine inv_orPoison h2 ?_
            split
            · exact inv_release h2
            · exact inv_closeEntry (inv_foldl (fun _ _ => inv_startAtomic) (inv_retire ((inv_release h2).same)))
        · dsimp only
          split
          · exact inv_logStall h2
          · refine inv_orPoison h2 ?_
            split
            · exact h2
            · exact inv_closeEntry (inv_foldl (fun _ _ => inv_startAtomic) (inv_retire h2.same))
    · split
      · dsimp only
        split
        · exact inv_logStall h2
        · exact inv_orPoison h2 h2
      · split
        · dsimp only
          split
          · exact inv_logStall h2
          · refine inv_orPoison h2 ?_
            split
            · exact inv_release h2
            · exact inv_closeEntry (inv_foldl (fun _ _ => inv_startAtomic) (inv_retire ((inv_release h2).same)))
        · dsimp only
          split
          · exact inv_logStall h2
          · refine inv_orPoison h2 ?_
            split
            · exact h2
            · exact inv_closeEntry (inv_foldl (fun _ _ => inv_startAtomic) (inv_retire h2.same))

theorem inv_fenceParts {e : Env} {act : List Nat} {rel acq : Bool} {sc : BitVec 2} {after : State → State} {s : State}
    (hafter : ∀ x0, StateInv x0 → StateInv (after x0)) (h : StateInv s) : OutInv (fenceParts e act rel acq sc after s) := by
  unfold fenceParts
  split
  · exact inv_splitParked h
  · split
    · split
      · dsimp only
        split
        · exact inv_release h
        · exact inv_retirePlain (hafter _ (inv_acquireEffect (inv_release h)))
      · dsimp only
        split
        · exact inv_release h
        · exact inv_retirePlain (hafter _ (inv_release h))
    · split
      · dsimp only
        split
        · exact inv_wcFlush h
        · exact inv_retirePlain (hafter _ (inv_acquireEffect (inv_wcFlush h)))
      · dsimp only
        split
        · exact inv_wcFlush h
        · exact inv_retirePlain (hafter _ (inv_wcFlush h))

theorem inv_execLd {f : F2} {s : State} (h : StateInv s) : OutInv (execLd f s) := by
  unfold execLd
  refine inv_issue h (fun _ _ _ => inv_ldScalar h) fun _ _ _ _ h2 => ?_
  refine inv_orTrap h2 ?_
  refine inv_orTrap h2 ?_
  split
  · exact inv_loadTxn h2
  · exact inv_loadGlobal h2

theorem inv_execSt {f : F2} {s : State} (h : StateInv s) : OutInv (execSt f s) := by
  unfold execSt
  refine inv_issue h (fun _ _ _ => inv_stScalar h) fun _ _ _ _ h2 => ?_
  refine inv_orTrap h2 ?_
  refine inv_orTrap h2 ?_
  split
  · exact inv_storeTxn h2
  · exact inv_storeGlobal h2

theorem inv_execLds {f : F2} {s : State} (h : StateInv s) : OutInv (execLds f s) :=
  inv_issue h (fun _ _ _ => inv_ldsScalar h) (fun _ _ _ _ h2 => inv_orTrap h2 (inv_orTrap h2 (inv_loadScratch h2)))

theorem inv_execSts {f : F2} {s : State} (h : StateInv s) : OutInv (execSts f s) :=
  inv_issue h (fun _ _ _ => inv_stsScalar h) (fun _ _ _ _ h2 => inv_orTrap h2 (inv_orTrap h2 (inv_storeScratch h2)))

theorem inv_execLdpl {f : F2} {s : State} (h : StateInv s) : OutInv (execLdpl f s) := by
  unfold execLdpl
  refine inv_issue h (fun _ _ _ => inv_noScalar h) fun _ _ _ _ h2 => ?_
  refine inv_orTrap h2 ?_
  refine inv_orTrap h2 ?_
  split
  · exact inv_splitParked h2
  · split
    · exact inv_scratchReply h2
    · dsimp only
      split
      · exact inv_abortTxn h2
      · exact inv_scratchReply (inv_setTxn h2)

theorem inv_execStpl {f : F2} {s : State} (h : StateInv s) : OutInv (execStpl f s) := by
  unfold execStpl
  refine inv_issue h (fun _ _ _ => inv_noScalar h) fun _ _ _ _ h2 => ?_
  refine inv_orTrap h2 ?_
  refine inv_orTrap h2 ?_
  split
  · dsimp only
    split
    · exact inv_abortTxn h2
    · exact inv_retirePlain (inv_setTxn h2)
  · split
    · exact inv_splitParked h2
    · exact inv_foldl (fun _ _ h3 => inv_scratchMark (inv_scratchWrite h3)) (inv_retirePlain h2)

theorem inv_execPref {f : F2} {s : State} (h : StateInv s) : OutInv (execPref f s) := by
  unfold execPref
  refine inv_issue h (fun _ _ _ => inv_noScalar h) fun _ _ _ _ h2 => ?_
  refine inv_orTrap h2 ?_
  split
  · exact inv_retirePlain h2
  · dsimp only
    split
    · exact inv_logStall h2
    · exact inv_closeEntry (inv_foldl (fun _ _ => inv_startLoad) (inv_retirePlain (inv_openEntry h2)))

theorem inv_execFlushr {f : F2} {s : State} (h : StateInv s) : OutInv (execFlushr f s) := inv_regionOp h

theorem inv_execInvr {f : F2} {s : State} (h : StateInv s) : OutInv (execInvr f s) := inv_regionOp h

theorem inv_execAadd {f : F2} {s : State} (h : StateInv s) : OutInv (execAadd f s) := inv_execAtomic h

theorem inv_execAmin {f : F2} {s : State} (h : StateInv s) : OutInv (execAmin f s) := inv_execAtomic h

theorem inv_execAmax {f : F2} {s : State} (h : StateInv s) : OutInv (execAmax f s) := inv_execAtomic h

theorem inv_execAand {f : F2} {s : State} (h : StateInv s) : OutInv (execAand f s) := inv_execAtomic h

theorem inv_execAor {f : F2} {s : State} (h : StateInv s) : OutInv (execAor f s) := inv_execAtomic h

theorem inv_execAxor {f : F2} {s : State} (h : StateInv s) : OutInv (execAxor f s) := inv_execAtomic h

theorem inv_execAxchg {f : F2} {s : State} (h : StateInv s) : OutInv (execAxchg f s) := inv_execAtomic h

theorem inv_execAcas {f : F2} {s : State} (h : StateInv s) : OutInv (execAcas f s) := inv_execAtomic h

theorem inv_execAinc {f : F2} {s : State} (h : StateInv s) : OutInv (execAinc f s) := inv_execAtomic h

theorem inv_execFence {f : F2} {s : State} (h : StateInv s) : OutInv (execFence f s) := by
  unfold execFence
  refine inv_issue h (fun _ _ _ => inv_noScalar h) fun _ _ _ _ h2 => ?_
  refine inv_forbidInTxn h2 ?_
  split
  · exact inv_retirePlain h2
  · exact inv_fenceParts (fun _ h3 => h3) h2

theorem inv_execFencex {f : F2} {s : State} (h : StateInv s) : OutInv (execFencex f s) := by
  unfold execFencex
  refine inv_issue h (fun _ _ _ => inv_noScalar h) fun _ _ _ _ h2 => ?_
  refine inv_forbidInTxn h2 ?_
  split
  · split
    · exact inv_retirePlain h2
    · dsimp only
      split
      · exact inv_fenceParts (fun _ h3 => h3) h2
      · split
        · exact inv_fenceParts (fun _ h3 => h3) h2
        · split
          · exact inv_fenceParts (fun _ => inv_seeEngine) h2
          · split
            · exact h2
            · exact inv_fenceParts (fun _ h3 => h3) h2
  · split
    · exact inv_retirePlain h2
    · dsimp only
      split
      · exact inv_fenceParts (fun _ h3 => h3) h2
      · split
        · exact inv_fenceParts (fun _ h3 => h3) h2
        · split
          · exact inv_fenceParts (fun _ => inv_seeEngine) h2
          · split
            · exact h2
            · exact inv_fenceParts (fun _ h3 => h3) h2

end Sys2Proof.Machine
end

section
/-! PROOF. The invariant (R104) and sync words, task queues and SBSET (Tasks.lean): each keeps it. -/
namespace Sys2Proof.Machine

set_option Elab.async false

theorem inv_execSync {f : F5} {uses : List RegUse} {srcs : List Src} {go : Env → List Nat → State → Out} {s : State}
    (hgo : ∀ x0 x1 x2, BanksWf x0.g → StateInv x2 → OutInv (go x0 x1 x2)) (h : StateInv s) : OutInv (execSync f uses srcs go s) := by
  unfold execSync
  refine inv_issue h (fun _ _ _ => inv_noScalar h) fun _ _ _ h1 h2 => ?_
  refine inv_forbidInTxn h2 ?_
  refine inv_orTrap h2 ?_
  refine inv_orTrap h2 ?_
  split
  · exact inv_splitParked h2
  · exact hgo _ _ _ h1 h2

theorem inv_execSwinit {f : F5} {s : State} (h : StateInv s) : OutInv (execSwinit f s) :=
  inv_execSync (fun _ _ _ _ h2 => inv_foldl (fun _ _ => inv_syncWrite) (inv_retirePlain h2)) h

theorem inv_execSwexpect {f : F5} {s : State} (h : StateInv s) : OutInv (execSwexpect f s) :=
  inv_execSync (fun _ _ _ _ h2 => inv_foldl (fun _ _ => inv_syncWrite) (inv_retirePlain h2)) h

theorem inv_execSwarrive {f : F5} {s : State} (h : StateInv s) : OutInv (execSwarrive f s) := by
  unfold execSwarrive
  refine inv_execSync (fun _ _ _ _ h2 => ?_) h
  split
  · split
    · dsimp only
      split
      · exact inv_scratchRelease h2
      · exact inv_acquireEffect (inv_foldl (fun _ _ => inv_syncWrite) (inv_retirePlain (inv_scratchRelease h2)))
    · dsimp only
      split
      · exact inv_scratchRelease h2
      · exact inv_foldl (fun _ _ => inv_syncWrite) (inv_retirePlain (inv_scratchRelease h2))
  · split
    · dsimp only
      split
      · exact h2
      · exact inv_acquireEffect (inv_foldl (fun _ _ => inv_syncWrite) (inv_retirePlain h2))
    · dsimp only
      split
      · exact h2
      · exact inv_foldl (fun _ _ => inv_syncWrite) (inv_retirePlain h2)

theorem inv_entryMaintain {core ctx : Nat} {bs : List Byte} {drop : Bool} {s : State} (h : StateInv s) :
    StateInv (entryMaintain core ctx bs drop s) := by
  unfold entryMaintain
  exact inv_maintain h

theorem inv_homeWrite {l : Leaf} {mask : BitVec 128} {d : BitVec 1024} {poison : Bool} {agent : Nat} {stamp : List Nat} {s : State}
    (h : StateInv s) : StateInv (homeWrite l mask d poison agent stamp s) := inv_dropCopies (inv_dropCopies (inv_storeSector h))

theorem inv_leafWrite {l : Leaf} {bs : List Byte} {poison : Bool} {agent : Nat} {stamp : List Nat} {s : State} (h : StateInv s) :
    StateInv (leafWrite l bs poison agent stamp s) := inv_homeWrite h

theorem inv_spotSeen {p : Spot} {s : State} (h : StateInv s) : StateInv (spotSeen p s) := by
  unfold spotSeen
  split
  · exact inv_setAccessed h
  · exact h

theorem inv_spotTouch {p : Spot} {s : State} (h : StateInv s) : StateInv (spotTouch p s) := by
  unfold spotTouch
  split
  · exact inv_touchLine (inv_setAccessed h)
  · exact h

theorem inv_spotWrite {p : Spot} {bs : List Byte} {poison : Bool} {agent : Nat} {stamp : List Nat} {s : State} (h : StateInv s) :
    StateInv (spotWrite p bs poison agent stamp s) := by
  cases p with
  | page l => exact inv_setAccessed (inv_leafWrite h)
  | peer k => exact inv_peerMark (h.writePeer _ _)

theorem inv_queueServe {r : Req} {header : Spot} {stamp : List Nat} {s : State} (h : StateInv s) :
    StateInv (queueServe r header stamp s).1 := by
  unfold queueServe
  split
  · exact h
  · split
    · exact inv_spotWrite h
    · split
      · dsimp only
        split
        · exact h
        · split
          · exact h
          · exact h
          · exact inv_fst_ite (inv_spotTouch h) (inv_spotWrite (inv_spotWrite (inv_spotTouch h)))
      · dsimp only
        split
        · exact h
        · split
          · exact h
          · exact h
          · exact inv_fst_ite (inv_spotTouch h) (inv_spotWrite (inv_spotTouch h))

theorem inv_execQueue {kind : ReqKind} {f : F5} {image result : Bool} {s : State} (h : StateInv s) :
    OutInv (execQueue kind f image result s) := by
  unfold execQueue
  refine inv_issue h (fun _ _ _ => inv_noScalar h) fun _ _ _ _ h2 => ?_
  refine inv_forbidInTxn h2 ?_
  refine inv_orTrap h2 ?_
  refine inv_orTrap h2 ?_
  split
  · dsimp only
    split
    · exact inv_logStall h2
    · exact inv_orPoison h2 h2
  · split
    · dsimp only
      split
      · exact inv_logStall h2
      · exact inv_orPoison h2 (inv_splitParked h2)
    · split
      · split
        · dsimp only
          split
          · exact inv_logStall h2
          · refine inv_orPoison h2 ?_
            split
            · exact inv_release h2
            · refine inv_closeEntry ?_
              refine inv_foldl (fun _ _ h3 => ?_) (inv_retire ((inv_release h2).same))
              split
              · exact inv_addReq h3
              · exact inv_sendOp (inv_entryMaintain h3)
        · dsimp only
          split
          · exact inv_logStall h2
          · refine inv_orPoison h2 ?_
            split
            · exact inv_release h2
            · exact inv_closeEntry (inv_foldl (fun _ _ => inv_sendOp) (inv_retire ((inv_release h2).same)))
      · split
        · dsimp only
          split
          · exact inv_logStall h2
          · refine inv_orPoison h2 ?_
            split
            · exact h2
            · refine inv_closeEntry ?_
              refine inv_foldl (fun _ _ h3 => ?_) (inv_retire h2.same)
              split
              · exact inv_addReq h3
              · exact inv_sendOp (inv_entryMaintain h3)
        · dsimp only
          split
          · exact inv_logStall h2
          · refine inv_orPoison h2 ?_
            split
            · exact h2
            · exact inv_closeEntry (inv_foldl (fun _ _ => inv_sendOp) (inv_retire h2.same))

theorem inv_execTaskpost {f : F5} {s : State} (h : StateInv s) : OutInv (execTaskpost f s) := inv_execQueue h

theorem inv_execTasktake {f : F5} {s : State} (h : StateInv s) : OutInv (execTasktake f s) := inv_execQueue h

theorem inv_execTaskdone {f : F5} {s : State} (h : StateInv s) : OutInv (execTaskdone f s) := inv_execQueue h

theorem inv_checkReleased {tid : Nat} {s : State} (h : StateInv s) : StateInv (checkReleased tid s) := by
  unfold checkReleased
  dsimp only
  split
  · exact inv_setTask h
  · exact h

theorem inv_execSbset {f : F5} {s : State} (h : StateInv s) : OutInv (execSbset f s) := by
  unfold execSbset
  refine inv_issue h (fun _ _ _ => inv_noScalar h) fun _ _ _ _ h2 => ?_
  refine inv_forbidInTxn h2 ?_
  refine inv_orTrap h2 ?_
  split
  · exact inv_retirePlain h2
  · dsimp only
    split
    · exact inv_release h2
    · exact inv_checkReleased (inv_setGang (inv_setTask (inv_retirePlain (inv_release h2))) ((inv_setTask (inv_retirePlain
        (inv_release h2))).banks _))

end Sys2Proof.Machine
end

section
/-! PROOF. The invariant (R104) and the device's own steps of the memory system (MemEvents.lean): each keeps it, a tick too, which begins
at its first cycle. -/
namespace Sys2Proof.Machine

set_option Elab.async false

theorem inv_execTick {s : State} (h : StateInv s) : OutInv (execTick s) := by
  unfold execTick
  split
  · trivial
  · exact { h with phase := (by decide : 0 < 128) }

theorem inv_reportAt {agent home : Nat} {s : State} (h : StateInv s) : StateInv (reportAt agent home s) := h.same

theorem inv_execDeliveryReport {d : Delivery} {s : State} (h : StateInv s) : OutInv (execDeliveryReport d s) := by
  unfold execDeliveryReport
  dsimp only
  split
  · split
    · trivial
    · exact inv_foldl (fun _ _ => inv_reportAt) h
  · split
    · trivial
    · exact inv_foldl (fun _ _ => inv_reportAt) h

theorem inv_execCoreSideForward {slab : Nat} {s : State} (h : StateInv s) : OutInv (execCoreSideForward slab s) := by
  unfold execCoreSideForward
  dsimp only
  split
  · trivial
  · exact h.same

theorem inv_dropOwn {m : WriteMsg} {s : State} (h : StateInv s) : StateInv (dropOwn m s) := by
  unfold dropOwn
  split
  · exact h
  · exact inv_setSlab h

theorem inv_forgetStore {m : WriteMsg} {r : Req} {s : State} (h : StateInv s) : StateInv (forgetStore m r s) :=
  inv_dropClean (inv_l1Forget h)

theorem inv_storeFaulted {m : WriteMsg} {why : Nat} {s0 : State} (h : StateInv s0) : StateInv (storeFaulted m why s0) := by
  unfold storeFaulted
  split
  · exact (inv_foldl (fun _ _ => inv_forgetStore) (inv_dropOwn h)).same
  · exact (inv_dropOwn h).same
  · exact (inv_dropOwn h).same
  · exact inv_dropOwn h

theorem inv_putReq {r : Req} {s : State} (h : StateInv s) : StateInv (putReq r s) := h.same

theorem inv_dropReq {r : Req} {s : State} (h : StateInv s) : StateInv (dropReq r s) := h.same

theorem inv_countDrop {r : Req} {p : Spot} {s : State} (h : StateInv s) : StateInv (countDrop r p s) := by
  unfold countDrop
  split
  · split
    · exact inv_perfEvent h
    · exact h
  · exact h

theorem inv_keepLate {r : Req} {s : State} (h : StateInv s) : StateInv (keepLate r s) := by
  unfold keepLate
  split
  · exact inv_keepCopy h
  · exact h

/-- A message that has been applied, or the store whose fault it found, and the answer to it where one is due. -/
theorem inv_applied {m : WriteMsg} {s : State} (h : StateInv s) :
    StateInv (match applyMsg m s with
      | .ok t => if wantsAck s m then { t with applied := t.applied ++ [m] } else t
      | .error y => storeFaulted m y s) := by
  split
  next ht => exact inv_ite (inv_applyMsg h ht).same (inv_applyMsg h ht)
  · exact inv_storeFaulted h

theorem inv_applyOne {m : WriteMsg} {s : State} (h : StateInv s) : StateInv (applyOne m s) := by
  unfold applyOne
  dsimp only
  split
  · exact inv_applied h.same
  · split
    · exact inv_putReq (inv_spotSeen h.same)
    · exact inv_keepLate (inv_applied (inv_countDrop h.same))

theorem inv_dropGroup {group : List WriteMsg} {s0 : State} (h : StateInv s0) : StateInv (dropGroup group s0) :=
  inv_foldl (fun _ _ h1 => inv_storeFaulted (inv_touchPage h1.same)) h

theorem inv_execHomeApplyWrite {home agent : Nat} {s : State} (h : StateInv s) : OutInv (execHomeApplyWrite home agent s) := by
  unfold execHomeApplyWrite
  split
  · trivial
  · split
    · dsimp only
      split
      · trivial
      · split
        · exact inv_dropGroup h
        · exact inv_foldl (fun _ _ => inv_applyOne) h
    · dsimp only
      split
      · trivial
      · split
        · exact inv_dropGroup h
        · exact inv_foldl (fun _ _ => inv_applyOne) h

theorem inv_reissue {r0 : Req} {s : State} (h : StateInv s) : StateInv (reissue r0 s) := by
  unfold reissue
  dsimp only
  split
  · exact inv_sendStore (inv_putReq h)
  · exact inv_pushOp (inv_putReq (inv_clearWay h))
  · exact inv_pushOp (inv_putReq h)
  · exact inv_pushOp (inv_putReq h)
  · exact inv_pushOp (inv_putReq h)
  · exact inv_putReq h

theorem inv_atomicServe {op : Nat} {r : Req} {p : Spot} {stamp : List Nat} {s : State} (h : StateInv s) :
    StateInv (atomicServe op r p stamp s).1 := by
  unfold atomicServe
  dsimp only
  split
  · exact h
  · split
    · exact h
    · exact inv_spotWrite h

/-- What a home answers to an atomic or a queue's request. -/
theorem inv_serveKind {r : Req} {p : Spot} {stamp : List Nat} {s : State} (h : StateInv s) :
    StateInv (match r.kind with
      | .atomic op => atomicServe op r p stamp s
      | _ => queueServe r p stamp s).1 := by
  split
  · exact inv_atomicServe h
  · exact inv_queueServe h

theorem inv_serveOp {r : Req} {s : State} (h : StateInv s) : OutInv (serveOp r s) := by
  unfold serveOp
  split
  · trivial
  · split
    · trivial
    next m _ _ =>
      dsimp only
      split
      · exact inv_putReq h.same
      next p _ =>
        have ht := inv_spotTouch (p := p) (s := { s with held := s.held.filter (fun x => x.id != m.id) }) h.same
        have ha := inv_serveKind (r := r) (p := p) (stamp := m.stamp) ht
        exact inv_putReq (inv_ite ha.same ha)

theorem inv_serveRead {r : Req} {s : State} (h : StateInv s) : OutInv (serveRead r s) := by
  unfold serveRead
  split
  · split
    · exact inv_closeEntry (inv_dropReq h)
    · exact inv_putReq h
  · exact inv_putReq h
  · split
    · exact inv_closeEntry (inv_dropReq h)
    · exact inv_putReq (inv_ite (inv_sliceFill (inv_touchLine (inv_setAccessed h))) (inv_touchLine (inv_setAccessed h)))

theorem inv_execHomeServe {rid : Nat} {evict : Option Nat} {s0 : State} (h : StateInv s0) : OutInv (execHomeServe rid evict s0) := by
  unfold execHomeServe
  split
  · dsimp only
    split
    · trivial
    · split
      · trivial
      · split
        · exact inv_serveOp (inv_evictLine h)
        · split
          · exact inv_serveRead (inv_evictLine h)
          · trivial
  · dsimp only
    split
    · trivial
    · split
      · trivial
      · split
        · exact inv_serveOp h
        · split
          · exact inv_serveRead h
          · trivial

theorem inv_execCoreSideCopyExpiry {slab ctx line : Nat} {s : State} (h : StateInv s) :
    OutInv (execCoreSideCopyExpiry slab ctx line s) := by
  unfold execCoreSideCopyExpiry
  dsimp only
  split
  · exact inv_setSlab h
  · trivial

theorem inv_setFibre {gid fid : Nat} {fn : Fibre → Fibre} {s : State} (h : StateInv s) : StateInv (setFibre gid fid fn s) := by
  unfold setFibre
  split
  · exact h
  next hc =>
    exact inv_setGang h (h.banks_of hc :)

theorem inv_addAsync {gid fid cause : Nat} {val : W64} {s : State} (h : StateInv s) : StateInv (addAsync gid fid cause val s) := by
  unfold addAsync
  split
  · exact h
  next hc =>
    exact inv_setGang h (h.banks_of hc :)

theorem inv_deliver {r : Req} {raw : Quad} {p : Bool} {s : State} (h : StateInv s) : StateInv (deliver r raw p s) := by
  unfold deliver
  split
  · dsimp only
    split
    · exact h
    · exact inv_setSlot h
  · exact inv_setFibre h

theorem inv_poisonReply {r : Req} {s : State} (h : StateInv s) : StateInv (poisonReply r s) := by
  unfold poisonReply
  split
  · split
    · exact inv_trapFailure (inv_logError h)
    · exact h
  · exact inv_addAsync (inv_setFibre h)

theorem inv_replyFill {r : Req} {s : State} (h : StateInv s) : StateInv (replyFill r s) := by
  unfold replyFill
  split
  · exact h
  · split
    · exact inv_l1Fill h
    · split
      · exact inv_dropClean (inv_blockIf h)
      · exact inv_blockIf h

theorem inv_txnReply {r : Req} {s0 : State} (h : StateInv s0) : StateInv (txnReply r s0) := by
  unfold txnReply
  split
  · split
    · dsimp only
      split
      · exact inv_deliver h
      · split
        · exact inv_deliver h
        · exact inv_poisonReply (inv_abortTxn h)
    · split
      · dsimp only
        split
        · exact inv_deliver h
        · split
          · exact inv_deliver h
          · exact inv_deliver (inv_abortTxn h)
      · dsimp only
        split
        · exact inv_deliver h
        · split
          · exact inv_deliver h
          · split
            · exact inv_deliver (inv_abortTxn h)
            · exact inv_deliver (inv_setTxn h)
  · split
    · dsimp only
      split
      · exact inv_deliver (inv_dropClean (inv_blockIf h))
      · split
        · exact inv_deliver (inv_dropClean (inv_blockIf h))
        · exact inv_poisonReply (inv_abortTxn (inv_dropClean (inv_blockIf h)))
    · split
      · dsimp only
        split
        · exact inv_deliver (inv_dropClean (inv_blockIf h))
        · split
          · exact inv_deliver (inv_dropClean (inv_blockIf h))
          · exact inv_deliver (inv_abortTxn (inv_dropClean (inv_blockIf h)))
      · dsimp only
        split
        · exact inv_deliver (inv_dropClean (inv_blockIf h))
        · split
          · exact inv_deliver (inv_dropClean (inv_blockIf h))
          · split
            · exact inv_deliver (inv_abortTxn (inv_dropClean (inv_blockIf h)))
            · exact inv_deliver (inv_setTxn (inv_dropClean (inv_blockIf h)))

theorem inv_queueReply {r : Req} {s : State} (h : StateInv s) : StateInv (queueReply r s) := by
  unfold queueReply
  split
  · exact inv_addAsync (inv_ite h (inv_setFibre h))
  · split
    · split
      · exact inv_blockFills (inv_entryMaintain (inv_scratchMark (inv_scratchWrite h)))
      · exact inv_setFibre (inv_blockFills (inv_entryMaintain (inv_scratchMark (inv_scratchWrite h))))
    · split
      · exact h
      · exact inv_setFibre h

theorem inv_policyDrop {r : Req} {s : State} (h : StateInv s) : StateInv (policyDrop r s) := by
  unfold policyDrop
  split
  · exact inv_perfEvent h
  · exact h

theorem inv_execMemoryReply {rid : Nat} {s : State} (h : StateInv s) : OutInv (execMemoryReply rid s) := by
  unfold execMemoryReply
  split
  · trivial
  · refine inv_policyDrop ?_
    refine inv_ite ?_ ?_
    · refine inv_closeEntry ?_
      refine inv_dropReq ?_
      split
      · split
        · refine inv_poisonReply ?_
          split
          · exact inv_replyFill (inv_mergeStamp h)
          · exact inv_replyFill (inv_mergeStamp h)
          · exact inv_mergeStamp h
        · refine inv_deliver ?_
          split
          · exact inv_replyFill (inv_mergeStamp h)
          · exact inv_replyFill (inv_mergeStamp h)
          · exact inv_mergeStamp h
      · split
        · refine inv_poisonReply ?_
          split
          · exact inv_replyFill (inv_mergeStamp h)
          · exact inv_replyFill (inv_mergeStamp h)
          · exact inv_mergeStamp h
        · refine inv_deliver ?_
          split
          · exact inv_replyFill (inv_mergeStamp h)
          · exact inv_replyFill (inv_mergeStamp h)
          · exact inv_mergeStamp h
      · refine inv_deliver ?_
        split
        · exact inv_replyFill (inv_mergeStamp h)
        · exact inv_replyFill (inv_mergeStamp h)
        · exact inv_mergeStamp h
      · refine inv_txnReply ?_
        split
        · exact inv_replyFill (inv_mergeStamp h)
        · exact inv_replyFill (inv_mergeStamp h)
        · exact inv_mergeStamp h
      · split
        · exact inv_replyFill (inv_mergeStamp h)
        · exact inv_replyFill (inv_mergeStamp h)
        · exact inv_mergeStamp h
      · refine inv_queueReply ?_
        split
        · exact inv_replyFill (inv_mergeStamp h)
        · exact inv_replyFill (inv_mergeStamp h)
        · exact inv_mergeStamp h
    · split
      · split
        · refine inv_closeEntry ?_
          refine inv_dropReq ?_
          split
          · split
            · refine inv_poisonReply ?_
              split
              · exact inv_replyFill (inv_mergeStamp h)
              · exact inv_replyFill (inv_mergeStamp h)
              · exact inv_mergeStamp h
            · refine inv_deliver ?_
              split
              · exact inv_replyFill (inv_mergeStamp h)
              · exact inv_replyFill (inv_mergeStamp h)
              · exact inv_mergeStamp h
          · split
            · refine inv_poisonReply ?_
              split
              · exact inv_replyFill (inv_mergeStamp h)
              · exact inv_replyFill (inv_mergeStamp h)
              · exact inv_mergeStamp h
            · refine inv_deliver ?_
              split
              · exact inv_replyFill (inv_mergeStamp h)
              · exact inv_replyFill (inv_mergeStamp h)
              · exact inv_mergeStamp h
          · refine inv_deliver ?_
            split
            · exact inv_replyFill (inv_mergeStamp h)
            · exact inv_replyFill (inv_mergeStamp h)
            · exact inv_mergeStamp h
          · refine inv_txnReply ?_
            split
            · exact inv_replyFill (inv_mergeStamp h)
            · exact inv_replyFill (inv_mergeStamp h)
            · exact inv_mergeStamp h
          · split
            · exact inv_replyFill (inv_mergeStamp h)
            · exact inv_replyFill (inv_mergeStamp h)
            · exact inv_mergeStamp h
          · refine inv_queueReply ?_
            split
            · exact inv_replyFill (inv_mergeStamp h)
            · exact inv_replyFill (inv_mergeStamp h)
            · exact inv_mergeStamp h
        · refine inv_acquireEffect ?_
          refine inv_closeEntry ?_
          refine inv_dropReq ?_
          split
          · split
            · refine inv_poisonReply ?_
              split
              · exact inv_replyFill (inv_mergeStamp h)
              · exact inv_replyFill (inv_mergeStamp h)
              · exact inv_mergeStamp h
            · refine inv_deliver ?_
              split
              · exact inv_replyFill (inv_mergeStamp h)
              · exact inv_replyFill (inv_mergeStamp h)
              · exact inv_mergeStamp h
          · split
            · refine inv_poisonReply ?_
              split
              · exact inv_replyFill (inv_mergeStamp h)
              · exact inv_replyFill (inv_mergeStamp h)
              · exact inv_mergeStamp h
            · refine inv_deliver ?_
              split
              · exact inv_replyFill (inv_mergeStamp h)
              · exact inv_replyFill (inv_mergeStamp h)
              · exact inv_mergeStamp h
          · refine inv_deliver ?_
            split
            · exact inv_replyFill (inv_mergeStamp h)
            · exact inv_replyFill (inv_mergeStamp h)
            · exact inv_mergeStamp h
          · refine inv_txnReply ?_
            split
            · exact inv_replyFill (inv_mergeStamp h)
            · exact inv_replyFill (inv_mergeStamp h)
            · exact inv_mergeStamp h
          · split
            · exact inv_replyFill (inv_mergeStamp h)
            · exact inv_replyFill (inv_mergeStamp h)
            · exact inv_mergeStamp h
          · refine inv_queueReply ?_
            split
            · exact inv_replyFill (inv_mergeStamp h)
            · exact inv_replyFill (inv_mergeStamp h)
            · exact inv_mergeStamp h
      · refine inv_acquireEffect ?_
        refine inv_closeEntry ?_
        refine inv_dropReq ?_
        split
        · split
          · refine inv_poisonReply ?_
            split
            · exact inv_replyFill (inv_mergeStamp h)
            · exact inv_replyFill (inv_mergeStamp h)
            · exact inv_mergeStamp h
          · refine inv_deliver ?_
            split
            · exact inv_replyFill (inv_mergeStamp h)
            · exact inv_replyFill (inv_mergeStamp h)
            · exact inv_mergeStamp h
        · split
          · refine inv_poisonReply ?_
            split
            · exact inv_replyFill (inv_mergeStamp h)
            · exact inv_replyFill (inv_mergeStamp h)
            · exact inv_mergeStamp h
          · refine inv_deliver ?_
            split
            · exact inv_replyFill (inv_mergeStamp h)
            · exact inv_replyFill (inv_mergeStamp h)
            · exact inv_mergeStamp h
        · refine inv_deliver ?_
          split
          · exact inv_replyFill (inv_mergeStamp h)
          · exact inv_replyFill (inv_mergeStamp h)
          · exact inv_mergeStamp h
        · refine inv_txnReply ?_
          split
          · exact inv_replyFill (inv_mergeStamp h)
          · exact inv_replyFill (inv_mergeStamp h)
          · exact inv_mergeStamp h
        · split
          · exact inv_replyFill (inv_mergeStamp h)
          · exact inv_replyFill (inv_mergeStamp h)
          · exact inv_mergeStamp h
        · refine inv_queueReply ?_
          split
          · exact inv_replyFill (inv_mergeStamp h)
          · exact inv_replyFill (inv_mergeStamp h)
          · exact inv_mergeStamp h

theorem inv_execWriteProbeReply {rid : Nat} {s : State} (h : StateInv s) : OutInv (execWriteProbeReply rid s) := by
  unfold execWriteProbeReply
  split
  · trivial
  · split
    · trivial
    · split
      · exact inv_closeEntry (inv_dropReq (inv_poisonReply (inv_dropClean h)))
      · split
        · dsimp only
          split
          · exact inv_sendStore (inv_putReq (inv_policyDrop h))
          · exact inv_closeEntry (inv_dropReq (inv_ite (inv_l1Hit (inv_l1Confirm (inv_l1Write (inv_l1Alloc (inv_policyDrop h)))))
              (inv_l1Confirm (inv_l1Write (inv_l1Alloc (inv_policyDrop h))))))
        · exact inv_closeEntry (inv_dropReq (inv_wcStore (inv_policyDrop h)))
        · exact inv_sendStore (inv_putReq (inv_policyDrop h))

theorem inv_execLoggedAccessFault {rid : Nat} {s : State} (h : StateInv s) : OutInv (execLoggedAccessFault rid s) := by
  unfold execLoggedAccessFault
  split
  · trivial
  · split
    · split
      · split
        · split
          · exact inv_handlerError (inv_dropReq h)
          · exact inv_dropReq h
        · split
          · dsimp only
            split
            · exact inv_txnFault (inv_foldl (fun _ _ => inv_setFibre) h.same)
            · exact inv_foldl (fun _ _ => inv_setFibre) h.same
          · exact inv_setGang h.same (h.banks _)
      · split
        · split
          · exact inv_handlerError (inv_dropReq h)
          · exact inv_dropReq h
        · dsimp only
          split
          · exact inv_txnFault (inv_foldl (fun _ _ => inv_setFibre) h.same)
          · exact inv_foldl (fun _ _ => inv_setFibre) h.same
      · split
        · split
          · exact inv_handlerError (inv_dropReq h)
          · exact inv_dropReq h
        · split
          · dsimp only
            split
            · exact inv_txnFault (inv_foldl (fun _ _ => inv_setFibre) h.same)
            · exact inv_foldl (fun _ _ => inv_setFibre) h.same
          · exact inv_setGang h.same (h.banks _)
      · split
        · split
          · exact inv_handlerError (inv_dropReq h)
          · exact inv_dropReq h
        · split
          · dsimp only
            split
            · exact inv_txnFault (inv_foldl (fun _ _ => inv_setFibre) h.same)
            · exact inv_foldl (fun _ _ => inv_setFibre) h.same
          · exact inv_setGang h.same (h.banks _)
      · split
        · split
          · exact inv_handlerError (inv_dropReq h)
          · exact inv_dropReq h
        · split
          · dsimp only
            split
            · exact inv_txnFault (inv_foldl (fun _ _ => inv_setFibre) h.same)
            · exact inv_foldl (fun _ _ => inv_setFibre) h.same
          · exact inv_setGang h.same (h.banks _)
      · split
        · split
          · exact inv_handlerError (inv_dropReq h)
          · exact inv_dropReq h
        · split
          · dsimp only
            split
            · exact inv_txnFault (inv_foldl (fun _ _ => inv_setFibre) h.same)
            · exact inv_foldl (fun _ _ => inv_setFibre) h.same
          · exact inv_setGang h.same (h.banks _)
      · split
        · split
          · exact inv_handlerError (inv_dropReq h)
          · exact inv_dropReq h
        · exact inv_setGang h.same (h.banks _)
    · split
      · split
        · split
          · exact inv_handlerError (inv_dropReq h)
          · exact inv_dropReq h
        · split
          · dsimp only
            split
            · exact inv_txnFault (inv_foldl (fun _ _ => inv_setFibre) h.same)
            · exact inv_foldl (fun _ _ => inv_setFibre) h.same
          · exact inv_setGang h.same (h.banks _)
      · split
        · split
          · exact inv_handlerError (inv_dropReq h)
          · exact inv_dropReq h
        · dsimp only
          split
          · exact inv_txnFault (inv_foldl (fun _ _ => inv_setFibre) h.same)
          · exact inv_foldl (fun _ _ => inv_setFibre) h.same
      · split
        · split
          · exact inv_handlerError (inv_dropReq h)
          · exact inv_dropReq h
        · split
          · dsimp only
            split
            · exact inv_txnFault (inv_foldl (fun _ _ => inv_setFibre) h.same)
            · exact inv_foldl (fun _ _ => inv_setFibre) h.same
          · exact inv_setGang h.same (h.banks _)
      · split
        · split
          · exact inv_handlerError (inv_dropReq h)
          · exact inv_dropReq h
        · split
          · dsimp only
            split
            · exact inv_txnFault (inv_foldl (fun _ _ => inv_setFibre) h.same)
            · exact inv_foldl (fun _ _ => inv_setFibre) h.same
          · exact inv_setGang h.same (h.banks _)
      · split
        · split
          · exact inv_handlerError (inv_dropReq h)
          · exact inv_dropReq h
        · split
          · dsimp only
            split
            · exact inv_txnFault (inv_foldl (fun _ _ => inv_setFibre) h.same)
            · exact inv_foldl (fun _ _ => inv_setFibre) h.same
          · exact inv_setGang h.same (h.banks _)
      · split
        · split
          · exact inv_handlerError (inv_dropReq h)
          · exact inv_dropReq h
        · split
          · dsimp only
            split
            · exact inv_txnFault (inv_foldl (fun _ _ => inv_setFibre) h.same)
            · exact inv_foldl (fun _ _ => inv_setFibre) h.same
          · exact inv_setGang h.same (h.banks _)
      · split
        · split
          · exact inv_handlerError (inv_dropReq h)
          · exact inv_dropReq h
        · exact inv_setGang h.same (h.banks _)

theorem inv_execWriteAcknowledgement {wid : Nat} {s : State} (h : StateInv s) : OutInv (execWriteAcknowledgement wid s) := by
  unfold execWriteAcknowledgement
  split
  · trivial
  · split
    · dsimp only
      split
      · exact h.same
      · exact inv_closeEntry (inv_dropReq h.same)
    · exact h.same

theorem inv_execHostMemoryWrite {pa : Nat} {data : List Byte} {s : State} (h : StateInv s) : OutInv (execHostMemoryWrite pa data s) := by
  unfold execHostMemoryWrite
  split
  · trivial
  · exact h.same

theorem inv_execLongLatencyCompletion {gid fid wid : Nat} {s : State} (h : StateInv s) :
    OutInv (execLongLatencyCompletion gid fid wid s) := by
  unfold execLongLatencyCompletion
  split
  · trivial
  next hc =>
    split
    · trivial
    · split
      · exact inv_setGang h (h.banks_of hc :)
      · trivial

end Sys2Proof.Machine
end

section
/-! PROOF. The invariant (R104) and what the engine instructions share (Engine.lean): each operation keeps it. -/
namespace Sys2Proof.Machine

set_option Elab.async false

theorem inv_execOnce {f : F4} {u : Nat} {dst : Bool} {srcs : List Src} {ready : Env → State → Bool} {checks : Env → Nat → State → Raised}
    {go : Env → List Nat → Nat → State → Out} {s : State} (hgo : ∀ x0 x1 x2 x3, BanksWf x0.g → StateInv x3 → OutInv (go x0 x1 x2 x3))
    (h : StateInv s) : OutInv (execOnce f u dst srcs ready checks go s) := by
  unfold execOnce
  refine inv_issue h (fun _ _ _ => inv_noScalar h) fun _ _ _ h1 h2 => ?_
  refine inv_forbidInTxn h2 ?_
  split
  · exact inv_retirePlain h2
  · refine inv_orTrap h2 ?_
    split
    · exact h2
    · refine inv_orTrap h2 ?_
      split
      · exact inv_splitParked h2
      · exact hgo _ _ _ _ h1 h2

theorem inv_retireStatus {f : F4} {e : Env} {u : Nat} {act : List Nat} {v : Word} {s : State} (h : StateInv s) :
    StateInv (retireStatus f e u act v s) := inv_retireWr h

theorem inv_retireQueued {f : F4} {e : Env} {u : Nat} {act : List Nat} {s : State} (h : StateInv s) :
    StateInv (retireQueued f e u act s) := inv_retireWr h

theorem inv_execBlock {f : F4} {u : Nat} {dst : Bool} {ready : Env → State → Bool} {checks : Env → Nat → List Byte → State → List Check}
    {go : Env → List Nat → Nat → List Byte → State → Out} {s : State}
    (hgo : ∀ x0 x1 x2 x3 x4, BanksWf x0.g → StateInv x4 → OutInv (go x0 x1 x2 x3 x4)) (h : StateInv s) :
    OutInv (execBlock f u dst ready checks go s) := by
  unfold execBlock
  exact inv_execOnce (fun _ _ _ _ h1 h2 => hgo _ _ _ _ _ h1 h2) h

theorem inv_raiseWave {gid : Nat} {fids : List Nat} {cause : Nat} {val : W64} {s : State} (h : StateInv s) :
    OptInv (raiseWave gid fids cause val s) := by
  unfold raiseWave
  split
  · trivial
  next hc =>
    split
    · trivial
    · exact inv_setGang h (h.banks_of hc :)

theorem inv_scratchClear {gid off n : Nat} {s : State} (h : StateInv s) : StateInv (scratchClear gid off n s) :=
  inv_noteEngine (inv_foldl (fun _ _ => inv_wakeScratch) (inv_setGang h ⟨filter_wf _ (h.banks _).1, (h.banks _).2⟩))

theorem inv_sendPiece {d : Drain} {kind : WKind} {p : W64 × List Byte} {s : State} (h : StateInv s) : StateInv
    (sendPiece d kind p s) := by
  unfold sendPiece
  split
  · exact h
  · exact inv_pushWrite h

theorem inv_sendDrain {op : Nat} {s : State} (h : StateInv s) : StateInv (sendDrain op s) := by
  unfold sendDrain
  split
  · exact h
  · exact (inv_foldl (fun _ _ => inv_sendPiece) h).same

theorem inv_resumeDrain {op : Nat} {s : State} (h : StateInv s) : StateInv (resumeDrain op s) := by
  unfold resumeDrain
  split
  · exact h
  · exact inv_foldl (fun _ _ => inv_pushWrite) h.same

theorem inv_endDrain {d : Drain} {status : Word} {bytes : Nat} {s : State} (h : StateInv s) : StateInv (endDrain d status bytes s) := by
  unfold endDrain
  split
  · exact inv_engineWrite h.same
  · exact inv_syncBytes (inv_engineWrite h.same)

theorem inv_landDrain {d : Drain} {s : State} (h : StateInv s) : StateInv (landDrain d s) :=
  inv_endDrain (inv_ite (inv_foldl (fun _ _ h1 => inv_scratchMark (inv_engineWrite h1)) h) h)

theorem inv_completeDrain {haulPath : Bool} {op : Nat} {s0 : State} (h : StateInv s0) : OutInv (completeDrain haulPath op s0) := by
  unfold completeDrain
  dsimp only
  split
  · trivial
  · split
    · trivial
    · split
      · exact inv_landDrain (inv_sendDrain h)
      · split
        · trivial
        · exact inv_sendDrain h

theorem inv_execDrainWriteFault {op : Nat} {s0 : State} (h : StateInv s0) : OutInv (execDrainWriteFault op s0) := by
  unfold execDrainWriteFault
  dsimp only
  split
  · trivial
  · split
    · trivial
    · exact (inv_sendDrain h).same

end Sys2Proof.Machine
end

section
/-! PROOF. The invariant (R104) and the copy engine (Copy.lean): its instructions and steps keep it. -/
namespace Sys2Proof.Machine

set_option Elab.async false

theorem inv_execCopy {k : CopyKind} {f : F4} {s : State} (h : StateInv s) : OutInv (execCopy k f s) :=
  inv_execBlock (fun _ _ _ _ _ _ h2 => inv_setCore (inv_retireStatus h2.same)) h

theorem inv_execCpy {f : F4} {s : State} (h : StateInv s) : OutInv (execCpy f s) := inv_execCopy h

theorem inv_execCpyp {f : F4} {s : State} (h : StateInv s) : OutInv (execCpyp f s) := inv_execCopy h

theorem inv_execCpyg {f : F4} {s : State} (h : StateInv s) : OutInv (execCpyg f s) := inv_execCopy h

theorem inv_execCpys {f : F4} {s : State} (h : StateInv s) : OutInv (execCpys f s) := inv_execCopy h

theorem inv_mergeSources {core : Nat} {c : CopyCmd} {piece : Nat} {s : State} (h : StateInv s) :
    StateInv (mergeSources core c piece s) := by
  unfold mergeSources
  split
  · exact h
  · refine inv_foldl (fun _ _ h1 => ?_) h
    dsimp only
    split
    · exact h1
    · split
      · exact h1
      · split
        · exact h1
        · exact inv_mergeStamp (inv_setAccessed h1)

theorem inv_putCopy {core : Nat} {c : CopyCmd} {s : State} (h : StateInv s) : StateInv (putCopy core c s) := inv_setCore h

theorem inv_endCopy {core : Nat} {c : CopyCmd} {bit : Nat} {s : State} (h : StateInv s) : StateInv (endCopy core c bit s) :=
  inv_setCore (inv_ite (inv_engineWrite h) (inv_syncBytes (inv_engineWrite h)))

theorem inv_settleCopy {core : Nat} {c : CopyCmd} {s : State} (h : StateInv s) : StateInv (settleCopy core c s) := by
  unfold settleCopy
  split
  · split
    · exact inv_endCopy h
    · exact h
  · exact h

theorem inv_stopCopy {core : Nat} {c : CopyCmd} {bit : Nat} {s : State} (h : StateInv s) : StateInv (stopCopy core c bit s) := by
  unfold stopCopy
  exact inv_settleCopy (inv_putCopy h)

theorem inv_landPiece {core : Nat} {c : CopyCmd} {piece count : Nat} {s : State} (h : StateInv s) :
    StateInv (landPiece core c piece count s) := by
  unfold landPiece
  dsimp only
  split
  · exact inv_endCopy (inv_putCopy h)
  · exact inv_settleCopy (inv_syncBytes (inv_putCopy h))

theorem inv_execCpycan {f : F4} {s : State} (h : StateInv s) : OutInv (execCpycan f s) := by
  unfold execCpycan
  refine inv_execOnce (fun _ _ _ _ _ h2 => ?_) h
  dsimp only
  split
  · exact inv_stopCopy (inv_retireStatus h2)
  · exact inv_retireStatus h2

theorem inv_execCopyCommandStart {core : Nat} {s : State} (h : StateInv s) : OutInv (execCopyCommandStart core s) := by
  unfold execCopyCommandStart
  split
  · trivial
  · split
    · trivial
    · exact inv_putCopy h

theorem inv_scratchPiece {gid piece : Nat} {p : Piece} {s : State} (h : StateInv s) : StateInv (scratchPiece gid piece p s) := by
  unfold scratchPiece
  split
  · exact inv_scratchMark (inv_engineWrite h)
  · split
    · refine inv_scratchMark ?_
      refine inv_foldl (fun _ _ h1 => ?_) h
      split
      · exact inv_engineWrite h1
      · exact h1
    · refine inv_foldl (fun _ _ h1 => ?_) h
      split
      · exact inv_engineWrite h1
      · exact h1

theorem inv_copyServed {core : Nat} {s : State} (h : StateInv s) : StateInv (copyServed core s) := inv_setCluster h

theorem inv_execCopySectorLand {core piece : Nat} {s : State} (h : StateInv s) : OutInv (execCopySectorLand core piece s) := by
  unfold execCopySectorLand
  split
  · trivial
  · split
    · trivial
    · split
      · split
        · exact inv_settleCopy h
        · trivial
      · split
        · split
          · trivial
          · exact inv_landPiece h
        · split
          · trivial
          · split
            · split
              · exact inv_landPiece (inv_scratchPiece (inv_copyServed (inv_mergeSources h)))
              · exact inv_pushWrite (inv_putCopy (inv_copyServed (inv_mergeSources h)))
            · trivial

theorem inv_touchSources {c : CopyCmd} {piece : Nat} {s : State} (h : StateInv s) : StateInv (touchSources c piece s) := by
  unfold touchSources
  split
  · exact h
  · refine inv_foldl (fun _ _ h1 => ?_) h
    split
    · exact h1
    · exact inv_touchPage h1

theorem inv_execCopyFault {core piece : Nat} {s : State} (h : StateInv s) : OutInv (execCopyFault core piece s) := by
  unfold execCopyFault
  split
  · trivial
  · split
    · trivial
    · split
      · exact inv_putCopy (inv_report h)
      · split
        · trivial
        · split
          · exact inv_putCopy (inv_report (inv_touchSources h))
          · split
            · exact inv_putCopy (inv_report (inv_touchSources h))
            · trivial

end Sys2Proof.Machine
end

section
/-! PROOF. The invariant (R104) and SPXI and SPXG (Intersect.lean): both keep it. -/
namespace Sys2Proof.Machine

set_option Elab.async false

theorem inv_execSpxi {f : F4} {s : State} (h : StateInv s) : OutInv (execSpxi f s) :=
  inv_issue h (fun _ _ _ => inv_noScalar h) (fun _ _ _ _ h2 => inv_orTrap h2 (inv_execAlu h2))

theorem inv_execSpxg {f : F4} {s : State} (h : StateInv s) : OutInv (execSpxg f s) := by
  unfold execSpxg
  refine inv_issue h (fun _ _ _ => inv_noScalar h) fun _ _ _ _ h2 => ?_
  refine inv_orTrap h2 ?_
  refine inv_orTrap h2 ?_
  split
  · exact inv_splitParked h2
  · split
    · exact inv_scratchReply h2
    · dsimp only
      split
      · exact inv_abortTxn h2
      · exact inv_scratchReply (inv_setTxn h2)

end Sys2Proof.Machine
end

section
/-! PROOF. The invariant (R104) and exchange stores and the swap of shadow banks (Exchange.lean): both keep it. -/
namespace Sys2Proof.Machine

set_option Elab.async false

theorem inv_shadowWrite {target off : Nat} {bs : List Byte} {poison : Bool} {count : Option Word} {s : State} (h : StateInv s) :
    StateInv (shadowWrite target off bs poison count s) :=
  inv_setGang h ⟨(h.banks _).1, writeBytes_wf _ _ (h.banks _).2⟩

theorem inv_exchangeStore {f : F2} {counted : Bool} {s : State} (h : StateInv s) : OutInv (exchangeStore f counted s) := by
  unfold exchangeStore
  refine inv_issue h (fun _ _ _ => inv_noScalar h) fun _ _ _ _ h2 => ?_
  refine inv_forbidInTxn h2 ?_
  refine inv_orTrap h2 ?_
  refine inv_orTrap h2 ?_
  split
  · exact inv_splitParked h2
  · refine inv_foldl (fun _ _ h3 => ?_) (inv_retirePlain h2)
    split
    · dsimp only
      split
      · exact h3
      · exact inv_shadowWrite h3
    · dsimp only
      split
      · exact h3
      · exact inv_shadowWrite h3

theorem inv_execXst {f : F2} {s : State} (h : StateInv s) : OutInv (execXst f s) := inv_exchangeStore h

theorem inv_execXstCount {f : F2} {s : State} (h : StateInv s) : OutInv (execXstCount f s) := inv_exchangeStore h

theorem inv_swapGang {gid : Nat} {s : State} (h : StateInv s) : StateInv (swapGang gid s) :=
  inv_foldl (fun _ _ => inv_syncBytes) (inv_foldl (fun _ _ => inv_wakeScratch) (inv_setGang h
    ⟨foldl_wf _ _ (fun _ _ => writeByte_wf _ _) (h.banks _).1, (h.banks _).2⟩))

theorem inv_swapCrew {crew : Nat} {s : State} (h : StateInv s) : StateInv (swapCrew crew s) :=
  inv_foldl (fun _ _ => inv_swapGang) h

end Sys2Proof.Machine
end

section
/-! PROOF. The invariant (R104) and transfers, fibres and barriers (Control.lean): each instruction keeps it. -/
namespace Sys2Proof.Machine

set_option Elab.async false

theorem inv_openSet {gid : Nat} {fids : List Nat} {s : State} (h : StateInv s) : StateInv (openSet gid fids s) :=
  inv_setGang h.same (h.banks _)

theorem inv_afterTransfer {e : Env} {s : State} (h : StateInv s) : StateInv (afterTransfer e s) := by
  unfold afterTransfer
  split
  · split
    · exact inv_pickPath (inv_setTxn (inv_openSet h))
    · exact inv_regroup (inv_openSet h)
  · exact h

theorem inv_transfer {e : Env} {act : List Nat} {wr : Wr} {target : Nat → W64} {s : State} (h : StateInv s) :
    OutInv (transfer e act wr target s) := inv_afterTransfer (inv_retire h)

theorem inv_handlerTransfer {e : Env} {h : Handler} {t : W64} {s : State} (hs : StateInv s) : OutInv (handlerTransfer e h t s) := by
  unfold handlerTransfer
  split
  · exact inv_needTargets hs (fun _ => inv_handlerAt)
  · exact inv_handlerError (inv_ite (inv_touchTarget hs) hs)

theorem inv_scalarTransfer {f : F3} {uses : List RegUse} {poison : Handler → Bool} {t : Handler → W64} {wr : Handler → Handler}
    {s : State} {e : Env} {h : Handler} (hs : StateInv s) : OutInv (scalarTransfer f uses poison t wr s e h) := by
  unfold scalarTransfer
  split
  · exact inv_handlerError hs
  · split
    · exact inv_poisonError hs
    · split
      · exact inv_handlerNext hs
      · split
        · exact inv_poisonError hs
        · exact inv_handlerTransfer hs

theorem inv_directTransfer {f : F3} {uses : List RegUse} {wr : Env → Wr} {scalar : State → Env → Handler → Out} {s : State}
    (hscalar : ∀ x0 x1 x2, StateInv x0 → BanksWf x1.g → OutInv (scalar x0 x1 x2)) (h : StateInv s) :
    OutInv (directTransfer f uses wr scalar s) :=
  inv_issue h (fun _ _ h1 => hscalar _ _ _ h h1) (fun _ _ _ _ h2 => inv_orTrap (inv_touchTargets h2) (inv_needTargets h2
    (fun _ => inv_transfer)))

theorem inv_pairTransfer {f : F3} {s : State} (h : StateInv s) : OutInv (pairTransfer f s) :=
  inv_issue h (fun _ _ _ => inv_scalarTransfer h) (fun _ _ _ _ h2 => inv_orTrap (inv_touchTargets h2) (inv_needTargets h2
    (fun _ => inv_transfer)))

theorem inv_execBra {f : F3} {s : State} (h : StateInv s) : OutInv (execBra f s) :=
  inv_directTransfer (fun _ _ _ h1 _ => inv_scalarTransfer h1) h

theorem inv_execCall {f : F3} {s : State} (h : StateInv s) : OutInv (execCall f s) :=
  inv_directTransfer (fun _ _ _ h1 _ => inv_scalarTransfer h1) h

theorem inv_execBrx {f : F3} {s : State} (h : StateInv s) : OutInv (execBrx f s) := inv_pairTransfer h

theorem inv_execRet {f : F3} {s : State} (h : StateInv s) : OutInv (execRet f s) := inv_pairTransfer h

theorem inv_arriveJoin {gid fid : Nat} {s : State} (h : StateInv s) : StateInv (arriveJoin gid fid s) := by
  unfold arriveJoin
  dsimp only
  split
  · exact h
  · exact inv_setGang h (h.banks _)

theorem inv_joinWave {e : Env} {act : List Nat} {s : State} (h : StateInv s) : StateInv (joinWave e act s) :=
  inv_foldl (fun _ _ => inv_recount) (inv_foldl (fun _ _ => inv_toTable) (inv_leaveSlot (inv_foldl (fun _ _ => inv_arriveJoin)
    (inv_retirePlain h))))

theorem inv_joinTxn {e : Env} {s : State} (h : StateInv s) : StateInv (joinTxn e s) :=
  inv_pickPath (inv_foldl (fun _ _ => inv_recount) (inv_foldl (fun _ _ => inv_arriveJoin) (inv_retirePlain h)))

theorem inv_execJoin {f : F3} {s : State} (h : StateInv s) : OutInv (execJoin f s) := by
  unfold execJoin
  refine inv_issue h (fun _ _ _ => inv_noScalar h) fun _ _ _ _ h2 => ?_
  refine inv_orTrap h2 ?_
  split
  · exact inv_joinTxn h2
  · exact inv_joinWave h2

theorem inv_passGang {gid : Nat} {w : Wait} {s : State} (h : StateInv s) : StateInv (passGang gid w s) :=
  inv_setGang (inv_setCore h) (h.banks _)

theorem inv_checkBar {gid : Nat} {s : State} (h : StateInv s) : StateInv (checkBar gid s) := by
  unfold checkBar
  split
  · exact inv_passGang h
  · exact h

theorem inv_checkBarx {crew : Nat} {s : State} (h : StateInv s) : StateInv (checkBarx crew s) := by
  unfold checkBarx
  dsimp only
  split
  · exact inv_foldl (fun _ _ => inv_passGang) (inv_foldl (fun _ _ h1 => inv_acquireEffect (inv_releaseCaches h1)) (inv_swapCrew h))
  · exact h

theorem inv_arrive {e : Env} {act : List Nat} {w : Wait} {s : State} (h : StateInv s) : StateInv (arrive e act w s) :=
  inv_toTable (inv_leaveSlot (inv_retirePlain h))

theorem inv_execBar {f : F3} {s : State} (h : StateInv s) : OutInv (execBar f s) := by
  unfold execBar
  refine inv_issue h (fun _ _ _ => inv_noScalar h) fun _ _ _ _ h2 => ?_
  refine inv_forbidInTxn h2 ?_
  refine inv_orTrap h2 ?_
  dsimp only
  split
  · exact inv_release h2
  · exact inv_checkBar (inv_arrive (inv_release h2))

theorem inv_execBarx {f : F3} {s : State} (h : StateInv s) : OutInv (execBarx f s) := by
  unfold execBarx
  refine inv_issue h (fun _ _ _ => inv_noScalar h) fun _ _ _ _ h2 => ?_
  refine inv_forbidInTxn h2 ?_
  refine inv_orTrap h2 ?_
  split
  · exact inv_retirePlain h2
  · split
    · exact h2
    · dsimp only
      split
      · exact inv_release h2
      · exact inv_checkBarx (inv_arrive (inv_release h2))

theorem inv_spawnOne {e : Env} {win : Nat} {pc : W64} {parent : Nat} {s : State} (h : StateInv s) : StateInv
    (spawnOne e win pc parent s).2 := by
  unfold spawnOne
  refine inv_snd_ite (inv_setGang h (h.banks _)) ?_
  split
  · exact inv_setCore (inv_setGang h (h.banks _))
  · exact inv_setGang h (h.banks _)

theorem inv_spawnAll {e : Env} {win : Nat} {pc : W64} {l : List Nat} {s : State} (h : StateInv s) : StateInv
    (spawnAll e win pc l s).2 := by
  induction l generalizing s with
  | nil => exact h
  | cons fid l ih => exact ih (inv_spawnOne h)

theorem inv_execSpawn {f : F3} {s : State} (h : StateInv s) : OutInv (execSpawn f s) := by
  unfold execSpawn
  refine inv_issue h (fun _ _ _ => inv_noScalar h) fun _ _ _ _ h2 => ?_
  refine inv_forbidInTxn h2 ?_
  refine inv_orTrap (inv_touchTargets h2) ?_
  refine inv_needTargets h2 fun _ h3 => ?_
  dsimp only
  split
  · exact inv_release h3
  · exact inv_refreshAlloc (inv_foldl (fun _ _ => inv_toTable) (inv_retire (inv_spawnAll (inv_release h3))))

theorem inv_outlive {gid fid : Nat} {s : State} (h : StateInv s) : StateInv (outlive gid fid s) := h.same

theorem inv_endFibre {gid fid : Nat} {s : State} (h : StateInv s) : StateInv (endFibre gid fid s) :=
  inv_outlive (inv_setCore (inv_setGang (inv_leaveJoins h) ((inv_leaveJoins h).banks _)))

theorem inv_execQuit {f : F3} {s : State} (h : StateInv s) : OutInv (execQuit f s) := by
  unfold execQuit
  refine inv_issue h (fun _ _ _ => inv_noScalar h) fun _ _ _ _ h2 => ?_
  refine inv_forbidInTxn h2 ?_
  refine inv_orTrap h2 ?_
  split
  · exact inv_retirePlain h2
  · exact inv_checkBarx (inv_checkBar (inv_checkReleased (inv_refreshAlloc (inv_foldl (fun _ _ => inv_endFibre) (inv_leaveSlot
      (inv_retirePlain h2))))))

theorem inv_execYield {f : F3} {s : State} (h : StateInv s) : OutInv (execYield f s) :=
  inv_issue h (fun _ _ _ => inv_noScalar h) (fun _ _ _ _ h2 => inv_forbidInTxn h2 (inv_orTrap h2 (inv_toTable (inv_leaveSlot
    (inv_setGang (inv_retirePlain h2) ((inv_retirePlain h2).banks _))))))

end Sys2Proof.Machine
end

section
/-! PROOF. The invariant (R104) and CSRs, traps and special registers (System.lean): each instruction keeps it. -/
namespace Sys2Proof.Machine

set_option Elab.async false

theorem inv_csrWrite {key gid fid sel : Nat} {v : W64} {s : State} (h : StateInv s) : StateInv (csrWrite key gid fid sel v s) := by
  unfold csrWrite
  split
  · exact inv_setGang h (h.banks _)
  · split
    · exact inv_setGang h (h.banks _)
    · split
      · exact inv_setSlot h
      · split
        · exact inv_setSlot h
        · split
          · exact inv_setSlot h
          · split
            · exact inv_setSlot h
            · split
              · exact inv_setGang h (h.banks _)
              · exact inv_setCore h

theorem inv_handlerCsr {e : Env} {h : Handler} {sel : Nat} {new : W64 → W64} {h' : Handler} {s : State} (hs : StateInv s) :
    OutInv (handlerCsr e h sel new h' s) := by
  unfold handlerCsr
  split
  · exact inv_handlerError hs
  · split
    · dsimp only
      split
      · exact inv_handlerError hs
      · exact inv_handlerNext (inv_foldl (fun _ _ => inv_csrWrite) hs)
    · dsimp only
      split
      · exact inv_handlerError hs
      · exact inv_handlerNext (inv_foldl (fun _ _ => inv_csrWrite) hs)

theorem inv_execCsrr {f : F6} {s : State} (h : StateInv s) : OutInv (execCsrr f s) := by
  unfold execCsrr
  refine inv_issue h (fun _ _ _ => ?_) (fun _ _ _ _ h2 => inv_orTrap h2 (inv_retire h2))
  split
  · exact inv_handlerError h
  · split
    · exact inv_poisonError h
    · split
      · exact inv_handlerNext h
      · exact inv_handlerNext h

theorem inv_execCsrw {f : F6} {s : State} (h : StateInv s) : OutInv (execCsrw f s) := by
  unfold execCsrw
  refine inv_issue h (fun _ _ _ => ?_) (fun _ _ _ _ h2 => inv_orTrap h2 (inv_retirePlain (inv_foldl (fun _ _ => inv_csrWrite) h2)))
  split
  · exact inv_handlerError h
  · split
    · exact inv_poisonError h
    · split
      · exact inv_handlerNext h
      · split
        · exact inv_poisonError h
        · exact inv_handlerCsr h

theorem inv_csrxAll {f : F6} {e : Env} {l : List Nat} {s : State} (h : StateInv s) : StateInv (csrxAll f e l s).2 := by
  induction l generalizing s with
  | nil => exact h
  | cons fid l ih => exact ih (inv_csrWrite h)

theorem inv_execCsrx {f : F6} {s : State} (h : StateInv s) : OutInv (execCsrx f s) := by
  unfold execCsrx
  refine inv_issue h (fun _ _ _ => ?_) (fun _ _ _ _ h2 => inv_orTrap h2 (inv_retire (inv_csrxAll h2)))
  split
  · exact inv_handlerError h
  · split
    · exact inv_poisonError h
    · split
      · exact inv_handlerNext h
      · split
        · exact inv_poisonError h
        · exact inv_handlerCsr h

theorem inv_execSread {f : F6} {s : State} (h : StateInv s) : OutInv (execSread f s) := by
  unfold execSread
  refine inv_issue h (fun _ _ _ => ?_) (fun _ _ _ _ h2 => inv_orTrap h2 (inv_retire h2))
  split
  · exact inv_handlerError h
  · split
    · exact inv_poisonError h
    · split
      · exact inv_handlerNext h
      · exact inv_handlerNext h

theorem inv_execTrap {f : F6} {s : State} (h : StateInv s) : OutInv (execTrap f s) :=
  inv_issue h (fun _ _ _ => inv_noScalar h) (fun _ _ _ _ h2 => inv_orTrap h2 (inv_retirePlain h2))

theorem inv_execRett {f : F6} {s : State} (h : StateInv s) : OutInv (execRett f s) := by
  unfold execRett
  refine inv_issue h (fun _ _ _ => ?_) (fun _ _ _ _ => inv_illegalAll)
  split
  · exact inv_poisonError h
  · split
    · exact inv_handlerNext h
    · split
      · exact inv_handlerError h
      · exact inv_returnFromHandler h

theorem inv_execNop {f : F6} {s : State} (h : StateInv s) : OutInv (execNop f s) :=
  inv_issue h (fun _ _ _ => inv_noScalar h) (fun _ _ _ _ h2 => inv_orTrap h2 (inv_retirePlain h2))

theorem inv_haltCore {core : Nat} {s : State} (h : StateInv s) : StateInv (haltCore core s) := inv_setCore h

theorem inv_execBrk {f : F6} {s : State} (h : StateInv s) : OutInv (execBrk f s) := by
  unfold execBrk
  refine inv_issue h (fun _ _ _ => inv_noScalar h) fun _ _ _ _ h2 => ?_
  refine inv_orTrap h2 ?_
  split
  · exact inv_retirePlain h2
  · split
    · exact inv_takeTrap h2
    · split
      · exact inv_haltCore (inv_setSlot (inv_abortTxn h2))
      · exact inv_haltCore (inv_setSlot h2)

theorem inv_resumeCore {core : Nat} {s : State} (h : StateInv s) : StateInv (resumeCore core s) := by
  unfold resumeCore
  refine inv_foldl (fun _ _ h1 => ?_) (inv_setCore h)
  dsimp only
  split
  · exact h1
  · split
    · split
      · exact inv_perfEvent (inv_retirePlain (inv_setSlot h1))
      · exact inv_retirePlain (inv_setSlot h1)
    · exact inv_setSlot h1

theorem inv_execPerfr {f : F6} {s : State} (h : StateInv s) : OutInv (execPerfr f s) :=
  inv_issue h (fun _ _ _ => inv_noScalar h) (fun _ _ _ _ h2 => inv_orTrap h2 (inv_retire h2))

end Sys2Proof.Machine
end

section
/-! PROOF. The invariant (R104) and the units' own accesses to memory (Header.lean): what is performed keeps it, and so does what a
poisoned read has seen. -/
namespace Sys2Proof.Machine

set_option Elab.async false

theorem inv_agentMerge {a : Nat} {w : List Nat} {s : State} (h : StateInv s) : StateInv (agentMerge a w s) := by
  unfold agentMerge
  split
  · exact h.same
  · exact inv_mergeStamp h

theorem inv_freezeUnit {u : UnitEnv} {s : State} (h : StateInv s) : StateInv (freezeUnit u s) := by
  unfold freezeUnit
  split
  · exact h.same
  · exact inv_setSlab h

theorem inv_thawUnit {u : UnitEnv} {s t : State} (h1 : StateInv t) : StateInv (thawUnit u s t) := by
  unfold thawUnit
  split
  · dsimp only
    split
    · exact h1.same
    · exact h1.same
  · exact inv_setSlab h1

theorem inv_unitRun {α : Type} {u : UnitEnv} {m : QM α} (hm : KeepsInv m) : KeepsInv (unitRun u m) where
  kept s x t h ht := by
    unfold unitRun at ht
    split at ht
    next y v hv =>
      cases ht
      exact inv_thawUnit (hm.kept _ _ _ (inv_freezeUnit h) hv)
    · cases ht

theorem inv_unitSaw {u : UnitEnv} {p : Spot} {s : State} (h : StateInv s) : StateInv (unitSaw u p s) := inv_agentMerge (inv_spotSeen h)

theorem inv_unitGet {u : UnitEnv} {kernel : Bool} {va : W64} {n : Nat} : KeepsInv (unitGet u kernel va n) := by
  unfold unitGet
  refine .look fun s h => ?_
  split
  · exact .throw _
  · exact .ite (.throw _) (.ite (.throw _) (.bind (.set (inv_unitSaw h)) fun _ => .pure _))

theorem inv_unitSectors {u : UnitEnv} {kernel : Bool} {va : W64} {n : Nat} : KeepsInv (unitSectors u kernel va n) := by
  induction n generalizing va with
  | zero => exact .pure _
  | succ n ih => exact .bind inv_unitGet fun _ => .bind ih fun _ => .pure _

theorem inv_unitSend {u : UnitEnv} {kind : WKind} {ia : Nat} {p : Spot} {mask : BitVec 128} {d : BitVec 1024} {poison : Bool} {s : State}
    (h : StateInv s) : StateInv (unitSend u kind ia p mask d poison s) := inv_pushWrite (inv_spotSeen h)

theorem inv_unitMake {u : UnitEnv} {kind : WKind} {kernel : Bool} {va : W64} {bs : List Byte} : KeepsInv
    (unitMake u kind kernel va bs) := by
  unfold unitMake
  refine .look fun s h => ?_
  split
  · exact .throw _
  · exact .set (inv_unitSend h)

theorem inv_unitPut {u : UnitEnv} {kernel : Bool} {va : W64} {bs : List Byte} : KeepsInv (unitPut u kernel va bs) := inv_unitMake

/-- What a blocked step has read enters its agent's clock and the A bits, whatever machine it was read of. -/
theorem inv_keepReads {a : Nat} {seen s : State} (h : StateInv s) : StateInv (keepReads a seen s) :=
  inv_agentMerge (inv_foldl (fun _ _ => inv_setAccessed) h)

end Sys2Proof.Machine
end

section
/-! PROOF. The invariant (R104) and the quarry's steps (Quarry.lean): each step that is performed keeps it. -/
namespace Sys2Proof.Machine

set_option Elab.async false

theorem inv_readDesc {u : UnitEnv} {va : W64} : KeepsInv (readDesc u va) := by
  unfold readDesc
  refine .bind inv_unitSectors fun _ => ?_
  split
  · exact .look fun _ _ => .throw _
  · exact .pure _

theorem inv_qenv {q : Nat} {u : UnitEnv} : KeepsInv (qenv q u) := .look fun _ _ => .bind inv_readDesc fun _ => .pure _

theorem inv_readEntry {e : QEnv} {i : Nat} : KeepsInv (readEntry e i) :=
  .bind inv_unitGet fun _ => .ite (.look fun _ _ => .throw _) (.pure _)

theorem inv_writeEntry {e : QEnv} {i : Nat} {x : QEntry} : KeepsInv (writeEntry e i x) := inv_unitPut

theorem inv_writeDesc {e : QEnv} {off n v : Nat} : KeepsInv (writeDesc e off n v) := .look fun _ _ => inv_unitPut

theorem inv_probe {e : QEnv} {k : W64} {h n : Nat} : KeepsInv (probe e k h n) := by
  induction n generalizing h with
  | zero => exact .pure _
  | succ n ih => exact .bind inv_readEntry fun _ => .ite (.pure _) (.ite (.pure _) ih)

theorem inv_lookup {e : QEnv} {k : W64} : KeepsInv (lookup e k) := inv_probe

theorem inv_firstEmpty {e : QEnv} {h n : Nat} : KeepsInv (firstEmpty e h n) := by
  induction n generalizing h with
  | zero => exact .pure _
  | succ n ih => exact .bind inv_readEntry fun _ => .ite (.pure _) ih

theorem inv_insertEntry {e : QEnv} {x : QEntry} : KeepsInv (insertEntry e x) := by
  unfold insertEntry
  refine .bind inv_firstEmpty fun _ => ?_
  split
  · exact .pure _
  · exact inv_writeEntry

theorem inv_shiftBack {e : QEnv} {hole i n : Nat} : KeepsInv (shiftBack e hole i n) := by
  induction n generalizing hole i with
  | zero => exact .pure _
  | succ n ih =>
    exact .bind inv_readEntry fun _ => .ite (.pure _) (.ite ih (.bind inv_writeEntry fun _ =>
      .bind inv_writeEntry fun _ => ih))

theorem inv_removeEntry {e : QEnv} {i : Nat} : KeepsInv (removeEntry e i) := .bind inv_writeEntry fun _ => inv_shiftBack

theorem inv_allEntries {e : QEnv} {n : Nat} : KeepsInv (allEntries e n) := by
  induction n with
  | zero => exact .pure _
  | succ n ih => exact .bind ih fun _ => .bind inv_readEntry fun _ => .pure _

theorem inv_topSlot {e : QEnv} {n : Nat} : KeepsInv (topSlot e n) :=
  .bind inv_unitGet fun _ => .ite (.look fun _ _ => .throw _) (.pure _)

theorem inv_pushSlots {e : QEnv} {n : Nat} {l : List Nat} : KeepsInv (pushSlots e n l) := by
  induction l generalizing n with
  | nil => exact .pure _
  | cons x l ih => exact .bind inv_unitPut fun _ => ih

theorem inv_firstFound {e : QEnv} {ks : List W64} : KeepsInv (firstFound e ks) := by
  induction ks with
  | nil => exact .pure _
  | cons k ks ih =>
    exact .bind inv_lookup fun
      | none => ih
      | some _ => .pure _

theorem inv_qFind {e : QEnv} {k : W64} {g : Word} : KeepsInv (qFind e k g) :=
  .bind .get fun _ => .ite (.pure _) (.ite (.pure _) (.bind inv_firstFound fun
    | some _ => .pure _
    | none => .bind inv_firstFound fun
      | some _ => .pure _
      | none => .bind inv_firstFound fun
        | some _ => .pure _
        | none => .pure _))

theorem inv_coarserNeighbour {e : QEnv} {k : W64} {ds : List Nat} : KeepsInv (coarserNeighbour e k ds) := by
  induction ds with
  | nil => exact .pure _
  | cons d ds ih =>
    unfold coarserNeighbour
    split
    · exact ih
    · exact .ite ih (.bind inv_lookup fun
        | none => ih
        | some _ => .pure _)

theorem inv_insertChildren {e : QEnv} {k : W64} {cost : Nat} {v : Quarry} {is : List Nat} {n : Nat} : KeepsInv
    (insertChildren e k cost v is n) := by
  induction is generalizing n with
  | nil => exact .pure _
  | cons i is ih => exact .bind inv_topSlot fun _ => .bind .get fun _ => .bind inv_insertEntry fun _ => ih

theorem inv_qFail {st : Nat} : KeepsInv (qFail st) := .pure _

theorem inv_releaseSlots {q : Nat} {slots : List Nat} : KeepsInv (releaseSlots q slots) := .look fun _ h => .set (inv_setQuarry h)

theorem inv_qRefine {e : QEnv} {k : W64} : KeepsInv (qRefine e k) := by
  unfold qRefine
  refine .look fun _ _ => ?_
  refine .ite inv_qFail ?_
  refine .bind inv_lookup fun _ => ?_
  split
  · exact inv_qFail
  · refine .ite inv_qFail ?_
    refine .ite inv_qFail ?_
    refine .bind inv_coarserNeighbour fun _ => ?_
    split
    · exact .pure _
    · refine .ite inv_qFail ?_
      refine .ite inv_qFail ?_
      refine .bind inv_insertChildren fun _ => ?_
      refine .bind inv_lookup fun _ => ?_
      split
      · exact inv_qFail
      · exact .bind inv_removeEntry fun _ => .bind inv_writeDesc fun _ => .bind inv_writeDesc fun _ => .bind inv_writeDesc fun _ => .bind
          inv_releaseSlots fun _ => .pure _

theorem inv_childEntries {e : QEnv} {k : W64} {is : List Nat} : KeepsInv (childEntries e k is) := by
  induction is with
  | nil => exact .pure _
  | cons i is ih =>
    exact .bind inv_lookup fun
      | none => .pure _
      | some _ => .bind ih fun _ => .pure _

theorem inv_finerNeighbour {e : QEnv} {k : W64} {ds : List Nat} : KeepsInv (finerNeighbour e k ds) := by
  induction ds with
  | nil => exact .pure _
  | cons d ds ih =>
    exact .ite (.pure _) (.bind inv_firstFound fun
      | none => ih
      | some _ => .pure _)

theorem inv_removeKeys {e : QEnv} {ks : List W64} : KeepsInv (removeKeys e ks) := by
  induction ks with
  | nil => exact .pure _
  | cons k ks ih =>
    exact .bind inv_lookup fun
      | none => ih
      | some _ => .bind inv_removeEntry fun _ => ih

theorem inv_qCoarsen {e : QEnv} {k : W64} : KeepsInv (qCoarsen e k) := by
  unfold qCoarsen
  refine .look fun _ _ => ?_
  refine .ite inv_qFail ?_
  refine .ite inv_qFail ?_
  refine .bind inv_childEntries fun _ => ?_
  split
  · exact inv_qFail
  · refine .ite inv_qFail ?_
    refine .ite inv_qFail ?_
    refine .bind inv_finerNeighbour fun _ => ?_
    split
    · exact .pure _
    · exact .ite inv_qFail (.bind inv_topSlot fun _ => .bind inv_removeKeys fun _ => .look fun _ _ => .bind inv_insertEntry fun _ =>
        .bind inv_writeDesc fun _ => .bind inv_writeDesc fun _ => .bind inv_writeDesc fun _ => .bind inv_releaseSlots fun _ => .pure _)

theorem inv_addCost {e : QEnv} {k : W64} {n : Nat} : KeepsInv (addCost e k n) := by
  unfold addCost
  refine .bind inv_lookup fun _ => ?_
  split
  · exact .pure _
  · exact .bind inv_writeEntry fun _ => .pure _

theorem inv_qCost {e : QEnv} {k amount : W64} : KeepsInv (qCost e k amount) := .ite inv_qFail (.bind inv_addCost fun _ => inv_qFail)

theorem inv_rebalBlocks {e : QEnv} {oldK newK : List Nat} {g1 : Word} {moving : Bool} {l : List (Nat × QEntry)} {n : Nat} :
    KeepsInv (rebalBlocks e oldK newK g1 moving l n) := by
  induction l generalizing n with
  | nil => exact .pure _
  | cons a l ih =>
    exact .bind .get fun _ => .bind .get fun _ => .ite
      (.bind inv_topSlot fun _ => .bind inv_writeEntry fun _ => .bind (.modify fun _ h => h.same) fun _ => ih)
      (.bind inv_writeEntry fun _ => ih)

theorem inv_writeKerfs {e : QEnv} {ks : List Nat} {j : Nat} : KeepsInv (writeKerfs e ks j) := by
  induction ks generalizing j with
  | nil => exact .pure _
  | cons k ks ih => exact .bind inv_unitPut fun _ => ih

theorem inv_qRebal {e : QEnv} {gang task : Nat} : KeepsInv (qRebal e gang task) :=
  .bind .get fun _ => .ite (.pure _) (.bind inv_allEntries fun _ => .ite (.pure _) (.ite (.pure _)
    (.bind inv_rebalBlocks fun _ => .ite (.pure _) (.bind inv_writeDesc fun _ => .bind inv_writeDesc fun _ =>
      .bind inv_writeKerfs fun _ => .bind (.modify fun _ h => h.same) fun _ => .pure _))))

theorem inv_qInstr {e : QEnv} {kind : QKind} {gang : Nat} {k arg : W64} : KeepsInv (qInstr e kind gang k arg) := by
  unfold qInstr
  refine .look fun _ _ => ?_
  split
  · exact inv_qFind
  · exact .pure _
  · exact inv_qRefine
  · exact inv_qCoarsen
  · exact inv_qCost
  · exact inv_qRebal
  · exact .pure _

theorem inv_fillResult {gang fid window : Nat} {regs : List (Nat × Word × Bool)} {s : State} (h : StateInv s) :
    StateInv (fillResult gang fid window regs s) := by
  unfold fillResult
  split
  · exact h
  next hc =>
    exact inv_setGang h (h.banks_of hc :)

theorem inv_dropResult {gang fid window : Nat} {s : State} (h : StateInv s) : StateInv (dropResult gang fid window s) := by
  unfold dropResult
  split
  · exact h
  next hc =>
    exact inv_setGang h (h.banks_of hc :)

theorem inv_sweepBlocks {e : QEnv} : KeepsInv (sweepBlocks e) := .bind inv_allEntries fun _ => .pure _

theorem inv_heard {q : Nat} {op : QOp} {s : State} (h : StateInv s) : StateInv (heard q op s) := by
  unfold heard
  split
  · exact h
  · split
    · exact inv_agentMerge h
    · exact inv_agentMerge h
    · exact h

theorem inv_quarryAcquire {q gang : Nat} {s : State} (h : StateInv s) : StateInv (quarryAcquire q gang s) := by
  unfold quarryAcquire
  split
  · exact h
  · exact inv_acquireEffect (inv_mergeStamp h)

theorem banks_arriveGang {off : Nat} {g : Gang} (hg : BanksWf g) : BanksWf (arriveGang off g) := by
  unfold arriveGang
  exact ⟨writeBytes_wf _ _ hg.1, hg.2⟩

/-- Saved gangs are written one by one. -/
theorem SavedWf.map {x : Ctx} (hx : SavedWf x) {fn : SavedGang → SavedGang} (hf : ∀ v, BanksWf v.gang → BanksWf (fn v).gang) :
    SavedWf { x with saved := x.saved.map fn } := fun v hv => by
  obtain ⟨w, hw, rfl⟩ := List.mem_map.mp hv
  exact hf w (hx w hw)

theorem inv_migArrive {ctx gid off : Nat} {s : State} (h : StateInv s) : StateInv (migArrive ctx gid off s) := by
  unfold migArrive
  split
  · exact inv_ite (inv_syncWrite h) h
  · refine inv_ite (inv_setCtx h ((h.savedWf _).map fun v hv => ?_)) h
    split
    · exact banks_arriveGang hv
    · exact hv

theorem inv_pushFront {q : Nat} {op : QOp} {s : State} (h : StateInv s) : StateInv (pushFront q op s) := inv_setQuarry h

theorem inv_qBody {q : Nat} {op : QOp} {u : UnitEnv} : KeepsInv (qBody q op u) :=
  .bind .get fun _ => by
    cases op with
    | instr => exact .bind inv_qenv fun _ => .bind inv_qInstr fun _ => .modify fun _ => inv_pushFront
    | reply => exact .ite (.throw _) (.modify fun _ h => inv_quarryAcquire (inv_fillResult h))
    | arrive => exact .ite (.throw _) (.modify fun _ => inv_migArrive)
    | charge => exact .bind inv_qenv fun _ => .bind inv_addCost fun _ => .pure _
    | place l =>
      refine .bind .get fun t => ?_
      split
      · exact .pure _
      · exact .bind inv_qenv fun _ => .bind inv_sweepBlocks fun _ => .modify fun _ h => h.same
    | done => exact inv_unitMake
    | sweep =>
      exact .bind .get fun _ => .ite (.pure _) (.of_never (neverOk_bind fun _ => neverOk_bind fun _ => neverOk_bind fun _ =>
        neverOk_throw _))
    | copy => exact .pure _
    | complete => exact .pure _
    | dispatch => exact .pure _

theorem inv_qStep {q : Nat} {op : QOp} : KeepsInv (qStep q op) :=
  .bind (.modify fun _ => inv_heard) fun _ => .look fun _ _ => inv_unitRun inv_qBody

theorem inv_beginStep {q : Nat} {op : QOp} {s0 : State} (h : StateInv s0) : StateInv (beginStep q op s0) := by
  unfold beginStep
  split
  · exact h
  · exact inv_setQuarry (inv_heard h)

theorem inv_endStep {q : Nat} {s : State} (h : StateInv s) : StateInv (endStep q s) := inv_drainSlice (inv_setQuarry h)

theorem inv_runQuarry {q n : Nat} {s : State} (h : StateInv s) : StateInv (runQuarry q n s) := by
  induction n generalizing s with
  | zero => exact h
  | succ n ih =>
    unfold runQuarry
    dsimp only
    split
    · exact h
    · split
      · exact h
      · split
        next hstep => exact ih (inv_endStep (inv_qStep.kept _ _ _ (h.same) hstep))
        next => exact inv_beginStep h
        next => exact h

theorem inv_serveQuarry {q : Nat} {s : State} (h : StateInv s) : StateInv (serveQuarry q s) := by
  unfold serveQuarry
  split
  · exact h
  · exact inv_runQuarry h

theorem inv_serveQuarries {s : State} (h : StateInv s) : StateInv (serveQuarries s) := inv_foldl (fun _ _ => inv_serveQuarry) h

end Sys2Proof.Machine
end

section
/-! PROOF. The invariant (R104) and the quarry instructions and migration (QuarryInstr.lean): each keeps it. -/
namespace Sys2Proof.Machine

set_option Elab.async false

theorem inv_execQuarryMore {f : F5} {uses : List RegUse} {srcs : List Src} {more : Env → List Nat → Raised}
    {go : Nat → Env → List Nat → State → Out} {s : State} (hgo : ∀ x0 x1 x2 x3, BanksWf x1.g → StateInv x3 → OutInv (go x0 x1 x2 x3))
    (h : StateInv s) : OutInv (execQuarryMore f uses srcs more go s) := by
  unfold execQuarryMore
  refine inv_issue h (fun _ _ _ => inv_noScalar h) fun _ _ _ h1 h2 => ?_
  refine inv_forbidInTxn h2 ?_
  refine inv_orTrap h2 ?_
  refine inv_orTrap h2 ?_
  split
  · exact hgo _ _ _ _ h1 h2
  · exact inv_retirePlain h2

theorem inv_execQuarry {f : F5} {uses : List RegUse} {srcs : List Src} {go : Nat → Env → List Nat → State → Out} {s : State}
    (hgo : ∀ x0 x1 x2 x3, BanksWf x1.g → StateInv x3 → OutInv (go x0 x1 x2 x3)) (h : StateInv s) :
    OutInv (execQuarry f uses srcs go s) := inv_execQuarryMore (fun _ _ _ _ h1 h2 => hgo _ _ _ _ h1 h2) h

theorem inv_execQkey {form : Nat} {f : F5} {s : State} (h : StateInv s) : OutInv (execQkey form f s) :=
  inv_execQuarry (fun _ _ _ _ _ => inv_retire) h

theorem inv_execQkeyParent {f : F5} {s : State} (h : StateInv s) : OutInv (execQkeyParent f s) := inv_execQkey h

theorem inv_execQkeyChild {f : F5} {s : State} (h : StateInv s) : OutInv (execQkeyChild f s) := inv_execQkey h

theorem inv_execQkeyNbr {f : F5} {s : State} (h : StateInv s) : OutInv (execQkeyNbr f s) := inv_execQkey h

theorem inv_execQStep {kind : QKind} {f : F5} {uses : List RegUse} {srcs : List Src} {s : State} (h : StateInv s) :
    OutInv (execQStep kind f uses srcs s) := by
  unfold execQStep
  refine inv_execQuarry (fun _ _ _ _ _ h2 => ?_) h
  split
  · dsimp only
    split
    · exact inv_release h2
    · exact inv_serveQuarry (inv_foldl (fun _ _ => inv_pushQOp) (inv_retire ((inv_drainSlice (inv_release h2)).same)))
  · dsimp only
    split
    · exact inv_release h2
    · exact inv_serveQuarry (inv_foldl (fun _ _ => inv_pushQOp) (inv_retire ((inv_drainSlice (inv_release h2)).same)))

theorem inv_execQfind {f : F5} {s : State} (h : StateInv s) : OutInv (execQfind f s) := inv_execQStep h

theorem inv_execQowner {f : F5} {s : State} (h : StateInv s) : OutInv (execQowner f s) := inv_execQStep h

theorem inv_execQrefine {f : F5} {s : State} (h : StateInv s) : OutInv (execQrefine f s) := inv_execQStep h

theorem inv_execQcoarsen {f : F5} {s : State} (h : StateInv s) : OutInv (execQcoarsen f s) := inv_execQStep h

theorem inv_execQcost {f : F5} {s : State} (h : StateInv s) : OutInv (execQcost f s) := inv_execQStep h

theorem inv_execQrebal {f : F5} {s : State} (h : StateInv s) : OutInv (execQrebal f s) := inv_execQStep h

theorem inv_execQgen {f : F5} {s : State} (h : StateInv s) : OutInv (execQgen f s) := inv_execQStep h

theorem unitSpot_ne_poison {s t : State} {ctx path : Nat} {va p : W64} {kernel write : Bool} {bad : Nat → Blocked}
    (hbad : ∀ y, bad y ≠ .poison p t) : unitSpot s ctx va path kernel write bad ≠ .error (.poison p t) := by
  unfold unitSpot
  split
  · exact fun hb => hbad _ (Except.error.inj hb)
  · split
    · exact fun hb => hbad _ (Except.error.inj hb)
    · exact nofun

/-- A read of the unit that meets a poisoned sector has seen a machine that meets the invariant. -/
theorem inv_unitGet_poison {u : UnitEnv} {kernel : Bool} {va p : W64} {n : Nat} {s t : State} (h : StateInv s)
    (ht : unitGet u kernel va n s = .error (.poison p t)) : StateInv t := by
  have ht := look_error ht
  cases hspot : unitSpot s u.ctx va pathVec kernel false (vecFault s va false) with
  | error b =>
    rw [hspot] at ht
    cases ht
    exact absurd hspot (unitSpot_ne_poison fun _ => nofun)
  | ok r =>
    rw [hspot] at ht
    dsimp only at ht
    split at ht
    · cases ht
    · split at ht
      · cases ht
        exact inv_unitSaw h
      · cases ht

theorem inv_unitSectors_poison {u : UnitEnv} {kernel : Bool} {va p : W64} {n : Nat} {s t : State} (h : StateInv s)
    (ht : unitSectors u kernel va n s = .error (.poison p t)) : StateInv t := by
  induction n generalizing va s with
  | zero => cases ht
  | succ n ih =>
    rcases bind_error ht with ht | ⟨x, v, hv, ht⟩
    · exact inv_unitGet_poison h ht
    · rcases bind_error ht with ht | ⟨y, w, hw, ht⟩
      · exact ih (inv_unitGet.kept _ _ _ h hv) ht
      · cases ht

theorem inv_sweepCheck {u : UnitEnv} {g : Gang} {va : W64} : KeepsInv (sweepCheck u g va) where
  kept s x t h ht := by
    unfold sweepCheck at ht
    split at ht
    · cases ht
      exact h
    · split at ht
      next hp =>
        cases ht
        exact inv_unitSectors_poison h hp
      · cases ht
      next hr =>
        cases ht
        exact inv_unitSectors.kept _ _ _ h hr

theorem KeepsInv.mapM {α β : Type} {f : α → QM β} {l : List α} (hf : ∀ x, KeepsInv (f x)) : KeepsInv (l.mapM f) := by
  induction l with
  | nil => exact .pure _
  | cons x l ih =>
    rw [List.mapM_cons]
    exact .bind (hf x) fun _ => .bind ih fun _ => .pure _

theorem inv_sweepRead {q : Nat} {op : QOp} {g : Gang} {hs : List (Nat × W64)} : KeepsInv (sweepRead q op g hs) :=
  .bind (.modify fun _ => inv_heard) fun _ => .bind .get fun _ => inv_unitRun (.bind
    (.mapM fun _ => .bind inv_sweepCheck fun _ => .pure _)
    fun _ => .ite (.bind inv_qenv fun _ => .bind inv_sweepBlocks fun _ => .pure _) (.pure _))

theorem inv_placeSweep {q ctx : Nat} {k : Kernel} {completion : W64} {blocks : List SweepBlock} {s : State} (h : StateInv s) :
    StateInv (placeSweep q ctx k completion blocks s) := by
  unfold placeSweep
  split
  · split
    · exact inv_report h
    · split
      · exact h
      · exact h.same
  · split
    · exact inv_pushQOp (inv_report h)
    · split
      · exact inv_pushQOp h
      · exact h.same

theorem inv_pendLanes {gid : Nat} {fids : List Nat} {cause : Nat} {va : W64} {s : State} (h : StateInv s) :
    StateInv (pendLanes gid fids cause va s) := by
  unfold pendLanes
  split
  · exact h
  next hc =>
    exact inv_setGang h (h.banks_of hc :)

theorem inv_sweepStep {q : Nat} {op : QOp} {e : Env} {act : List Nat} {hva cva : Nat → W64} {s : State} (h : StateInv s) :
    OutInv (sweepStep q op e act hva cva s) := by
  unfold sweepStep
  have hs0 : StateInv (endStep q (setQuarry s q { getQuarry s q with ops := (getQuarry s q).ops.drop 1 })) := inv_endStep
    (inv_setQuarry h)
  dsimp only
  split
  · exact inv_beginStep h
  · exact h
  · exact h
  · exact inv_serveQuarry (inv_quarryAcquire (inv_pendLanes (inv_retirePlain (inv_keepReads hs0))))
  · exact inv_takeTrap (inv_keepReads hs0)
  next hr =>
    have ht := inv_sweepRead.kept _ _ _ h hr
    refine inv_orTrap (inv_endStep (inv_setQuarry ht)) (inv_serveQuarry (inv_quarryAcquire (inv_foldl (fun t c ht => ?_)
      (inv_retirePlain (inv_endStep (inv_setQuarry ht))))))
    split
    · exact inv_placeSweep ht
    · exact ht

theorem inv_execQsweep {f : F5} {s : State} (h : StateInv s) : OutInv (execQsweep f s) := by
  unfold execQsweep
  refine inv_execQuarryMore (fun _ _ _ _ h1 h2 => ?_) h
  dsimp only
  split
  · split
    · exact inv_serveQuarry (inv_pushQOp (inv_dropSweeps (inv_release h2)))
    · exact inv_release h2
  · split
    · exact inv_serveQuarry h2
    · exact inv_sweepStep h2

theorem inv_flushPayload {ctx : Nat} {va : W64} {len : Nat} {s : State} (h : StateInv s) : StateInv (flushPayload ctx va len s) :=
  inv_foldl (fun _ _ => inv_wcFlush) (inv_foldl (fun _ _ => inv_maintain) h)

theorem inv_migStart {q : Nat} {k : W64} : KeepsInv (migStart q k) := by
  unfold migStart
  dsimp only
  refine .look fun _ _ => ?_
  split
  · exact .pure _
  · refine inv_unitRun ?_
    refine .bind inv_qenv fun _ => ?_
    refine .bind inv_lookup fun _ => ?_
    split
    · exact .pure _
    · exact .ite (.pure _) (.bind (.modify fun _ h1 => inv_flushPayload (inv_setQuarry h1)) fun _ => .pure _)

theorem inv_copySector {u : UnitEnv} {key src dst : W64} : KeepsInv (copySector u key src dst) := by
  unfold copySector
  refine .look fun _ h => ?_
  split
  · exact .throw _
  · exact .throw _
  · exact .ite (.throw _) (.set (inv_unitSend (inv_unitSaw h)))

theorem inv_migLand {q : Nat} {k : W64} : KeepsInv (migLand q k) := by
  unfold migLand
  refine .look fun _ _ => ?_
  split
  · exact .pure _
  · split
    · exact .pure _
    · refine inv_unitRun ?_
      refine .bind inv_qenv fun _ => ?_
      refine .bind inv_lookup fun _ => ?_
      split
      · exact .bind (.modify fun _ => inv_setQuarry) fun _ => .pure _
      · exact .ite (.bind inv_copySector fun _ => .bind (.modify fun _ => inv_setQuarry) fun _ => .pure _) (.ite (.throw _)
          (.bind inv_writeEntry fun _ => .bind (.modify fun _ => inv_setQuarry) fun _ => .pure _))

theorem inv_liveEntries {e : QEnv} {l : List (Nat × QEntry)} : KeepsInv (liveEntries e l) := by
  induction l with
  | nil => exact .pure _
  | cons x l ih => exact .bind inv_writeEntry fun _ => ih

theorem inv_migComplete {q : Nat} : KeepsInv (migComplete q) := by
  unfold migComplete
  dsimp only
  refine .look fun _ _ => ?_
  split
  · exact .pure _
  · exact inv_unitRun (.bind inv_qenv fun _ => .bind inv_allEntries fun _ => .ite (.pure _)
      (.bind inv_liveEntries fun _ => .bind inv_pushSlots fun _ => .bind inv_writeDesc fun _ => .bind inv_writeDesc fun _ => .bind
        (.modify fun _ h1 => inv_pushFront (inv_setQuarry h1)) fun _ => .pure _))

theorem inv_quarryStep {α : Type} {q : Nat} {op : QOp} {a : QM α} {fin : α → State → Option State} {s : State} (h : StateInv s)
    (ha : KeepsInv a) (hfin : ∀ x t, StateInv t → OptInv (fin x t)) : OutInv (quarryStep q op a fin s) := by
  unfold quarryStep
  dsimp only
  split
  · trivial
  · split
    next ht =>
      split
      next hu => exact (hfin _ _ (inv_endStep (ha.kept _ _ _ (inv_serveQuarry h) ht))).of_eq hu
      · trivial
    · split
      · trivial
      · exact inv_beginStep (inv_serveQuarry h)
    · trivial

theorem inv_performed {b : Bool} {s : State} (h : StateInv s) : OptInv (performed b s) := by
  unfold performed
  split
  · exact h
  · trivial

theorem inv_execMigrationCopyStart {q : Nat} {k : W64} {s : State} (h : StateInv s) : OutInv (execMigrationCopyStart q k s) :=
  inv_quarryStep h inv_migStart (fun _ _ => inv_performed)

theorem inv_execMigrationCopyLand {q : Nat} {k : W64} {s : State} (h : StateInv s) : OutInv (execMigrationCopyLand q k s) :=
  inv_quarryStep h inv_migLand (fun _ _ => inv_performed)

theorem inv_execMigrationComplete {q : Nat} {s : State} (h : StateInv s) : OutInv (execMigrationComplete q s) :=
  inv_quarryStep h inv_migComplete (fun _ _ => inv_performed)

theorem inv_sweepReady {q : Nat} {op : QOp} {b : SweepBlock} : KeepsInv (sweepReady q op b) :=
  .look fun _ _ => inv_unitRun (.bind inv_qenv fun _ => .bind inv_lookup fun _ => .pure _)

theorem inv_quarryStall {q : Nat} {va : W64} {why acc : Nat} {s : State} (h : StateInv s) : StateInv (quarryStall q va why acc s) :=
  inv_setQuarry (inv_report h)

theorem inv_copyStall {q : Nat} {key va : W64} {why acc : Nat} {s : State} (h : StateInv s) : StateInv (copyStall q key va why acc s) :=
  inv_setQuarry (inv_report h)

theorem inv_unstall {q : Nat} {seq : W64} {s : State} (h : StateInv s) : StateInv (unstall q seq s) :=
  inv_serveQuarry (inv_setQuarry h)

theorem inv_execQuarryAccessFault {q : Nat} {s : State} (h : StateInv s) : OutInv (execQuarryAccessFault q s) := by
  unfold execQuarryAccessFault
  dsimp only
  split
  · exact inv_quarryStall (inv_keepReads (inv_serveQuarry h))
  · exact inv_copyStall (inv_serveQuarry h)
  · trivial

/-- The unit's answer to a sector that it could not read: the lane's trap, or a stall. -/
theorem inv_quarryCorrupted {q cause : Nat} {va : W64} {seen s : State} (h : StateInv s) :
    OutInv (match (getQuarry s q).ops with
      | .instr _ gang fid w _ _ _ _ _ :: rest => .next (serveQuarry q (quarryAcquire q gang (pendLanes gang [fid] cause va
          (dropResult gang fid w (endStep q (keepReads (quarrySlab s q) seen (setQuarry s q { getQuarry s q with ops := rest })))))))
      | .sweep _ _ _ :: _ => .fault .notEnabled
      | _ => .next (quarryStall q va 0 0 (keepReads (quarrySlab s q) seen s))) := by
  split
  · exact inv_serveQuarry (inv_quarryAcquire (inv_pendLanes (inv_dropResult (inv_endStep (inv_keepReads (inv_setQuarry h))))))
  · trivial
  · exact inv_quarryStall (inv_keepReads h)

theorem inv_execQuarryCorruption {q : Nat} {s : State} (h : StateInv s) : OutInv (execQuarryCorruption q s) := by
  unfold execQuarryCorruption
  dsimp only
  split
  · exact inv_quarryCorrupted (inv_serveQuarry h)
  · exact inv_quarryCorrupted (inv_serveQuarry h)
  · trivial

end Sys2Proof.Machine
end

section
/-! PROOF. The invariant (R104) and fetch, asynchronous traps and the batcher (Waves.lean): each keeps it. -/
namespace Sys2Proof.Machine

set_option Elab.async false

theorem inv_unlessStuck {e : Env} {s : State} {k : Out} (h : StateInv s) (hk : OutInv k) : OutInv (unlessStuck e s k) := by
  unfold unlessStuck
  split
  · exact hk
  · split
    · exact hk
    · exact inv_splitParked h

theorem inv_fetchTrap {e : Env} {cause : Nat} {val : W64} {s : State} (h : StateInv s) : OutInv (fetchTrap e cause val s) := by
  unfold fetchTrap
  split
  · exact inv_trapFailure h
  · exact inv_unlessStuck h (inv_takeTrap h)

theorem inv_fetchWindow {e : Env} {cause : Nat} {s : State} (h : StateInv s) : OutInv (fetchWindow e cause s) := inv_fetchTrap h

theorem inv_execIllegalInstruction {w : BitVec 96} {s : State} (h : StateInv s) : OutInv (execIllegalInstruction w s) := by
  unfold execIllegalInstruction
  split
  · trivial
  · exact inv_unlessStuck h (inv_takeTrap h)

theorem inv_execFetchParityMismatch {s : State} (h : StateInv s) : OutInv (execFetchParityMismatch s) := by
  unfold execFetchParityMismatch
  split
  · trivial
  · exact inv_fetchTrap h

theorem inv_execFetchPageFault {s : State} (h : StateInv s) : OutInv (execFetchPageFault s) := by
  unfold execFetchPageFault
  split
  · trivial
  · split
    · exact inv_parkFetch h
    · trivial

theorem inv_execAsyncTrap {s : State} (h : StateInv s) : OutInv (execAsyncTrap s) := by
  unfold execAsyncTrap
  split
  · trivial
  next hc =>
    split
    · trivial
    · refine inv_unlessStuck h ?_
      split
      · exact h
      · split
        · exact inv_enterHandler (inv_setGang h (banks_envOf h hc :))
        · exact inv_enterHandler (inv_abortTxn (inv_setGang h (banks_envOf h hc :)))

theorem inv_execWaveFill {core w : Nat} {s : State} (h : StateInv s) : OutInv (execWaveFill core w s) := by
  unfold execWaveFill
  dsimp only
  split
  · trivial
  · split
    · trivial
    · exact inv_setSlot (inv_setCore h)

theorem inv_execWaveMerge {core a b : Nat} {s : State} (h : StateInv s) : OutInv (execWaveMerge core a b s) := by
  unfold execWaveMerge
  dsimp only
  split
  · trivial
  · exact inv_setSlot (inv_setSlot h)

theorem inv_execWaveSlotTimeout {core w : Nat} {s : State} (h : StateInv s) : OutInv (execWaveSlotTimeout core w s) := by
  unfold execWaveSlotTimeout
  split
  · trivial
  · exact inv_toTable (inv_leaveSlot h)

theorem inv_execRegisterCompaction {gid fid base : Nat} {s : State} (h : StateInv s) : OutInv
    (execRegisterCompaction gid fid base s) := by
  unfold execRegisterCompaction
  split
  · trivial
  next hc =>
    split
    · trivial
    · split
      · trivial
      · exact inv_refreshAlloc (inv_setCore (inv_setGang h (h.banks_of hc :)))

theorem inv_execFusedModeChange {cluster : Nat} {s : State} (h : StateInv s) : OutInv (execFusedModeChange cluster s) := by
  unfold execFusedModeChange
  dsimp only
  split
  · trivial
  · exact inv_setCluster (inv_foldl (fun _ _ => inv_cleanAll) h)

end Sys2Proof.Machine
end

section
/-! PROOF. The invariant (R104) and dispatch, admission and the end of gangs (Launch.lean): each keeps it, for a new gang has empty banks
and a saved one its own. -/
namespace Sys2Proof.Machine

set_option Elab.async false

theorem inv_trimWays {cluster : Nat} {s : State} (h : StateInv s) : StateInv (trimWays cluster s) :=
  inv_foldl (fun _ _ h1 => inv_foldl (fun _ _ h2 => inv_cleanSector (inv_cleanSector (inv_evictBuffered h2))) h1) h

theorem inv_admitGang {tid crew gidx core : Nat} {s : State} (h : StateInv s) : OptInv (admitGang tid crew gidx core s) := by
  unfold admitGang
  dsimp only
  split
  · trivial
  · exact inv_acquireEffect (inv_foldl (fun _ _ => inv_toTable) (inv_refreshAlloc (inv_setGang (inv_trimWays (inv_setGang
      (inv_setCore h.same)
      .init)) .init)))

theorem inv_admitAll {tid crew : Nat} {l : List (Nat × Nat)} {gs : List Nat} {s : State} (h : StateInv s) :
    OptInv ((admitAll tid crew l gs s).map Prod.snd) := by
  induction l generalizing gs s with
  | nil => exact h
  | cons x l ih =>
    unfold admitAll
    split
    · trivial
    next ht => exact ih ((inv_admitGang h).of_eq ht)

theorem inv_admitTask {tid : Nat} {cores : List Nat} {s : State} (h : StateInv s) : OutInv (admitTask tid cores s) := by
  unfold admitTask
  split
  · trivial
  · dsimp only
    split
    · trivial
    · split
      · trivial
      next ht => exact inv_setTask (inv_setCrew ((inv_admitAll h.same).of_eq (congrArg (Option.map Prod.snd) ht)))

theorem inv_unpark {core gid : Nat} {seq : W64} {s : State} (h : StateInv s) : StateInv (unpark core gid seq s) := by
  unfold unpark
  split
  · exact h
  next hc =>
    exact inv_foldl (fun _ _ => inv_toTable) (inv_setCore (inv_setGang h (h.banks_of hc :)))

theorem inv_replayLanes {core gid : Nat} {seq : W64} {s : State} (h : StateInv s) : StateInv (replayLanes core gid seq s) :=
  inv_unpark (inv_foldl (fun _ _ => inv_reissue) h)

theorem inv_reflectLanes {core gid : Nat} {fids : List Nat} {seq va : W64} {s : State} (h : StateInv s) :
    StateInv (reflectLanes core gid fids seq va s) := by
  unfold reflectLanes
  dsimp only
  split
  next hc =>
    exact inv_setGang (inv_unpark (inv_foldl (fun _ _ h1 => inv_closeEntry (inv_dropReq (inv_setFibre h1))) h.same)) (((inv_unpark
      (inv_foldl (fun _ _ h1 => inv_closeEntry (inv_dropReq (inv_setFibre h1))) h.same)).banks_of hc :))
  · exact inv_unpark (inv_foldl (fun _ _ h1 => inv_closeEntry (inv_dropReq (inv_setFibre h1))) h.same)

theorem inv_killGang {gid slot : Nat} {lanes : Word} {pc : W64} {s : State} (h : StateInv s) : StateInv
    (killGang gid slot lanes pc s) := by
  unfold killGang
  split
  · exact h
  · exact inv_failTask (inv_report h)

theorem inv_answerLanes {core gid : Nat} {f : FaultRec} {ans : Nat} {s : State} (h : StateInv s) :
    StateInv (answerLanes core gid f ans s) := by
  unfold answerLanes
  split
  · split
    · exact inv_replayLanes h
    · split
      · exact inv_reflectLanes h
      · exact inv_killGang h
  · exact h

theorem inv_reinstate {v : SavedGang} {core : Nat} {s : State} (h : StateInv s) (hv : BanksWf v.gang) : OptInv (reinstate v core s) := by
  unfold reinstate
  dsimp only
  split
  · trivial
  · split
    next c1 bank shadow _ _ =>
      have hg := inv_setGang (s := setCore s core { c1 with
        gangs := c1.gangs ++ [v.id], table := c1.table ++ v.batches.map (fun b => { b with since := now s }) }) (gid := v.id)
          (g := { mapFibres v.gang (fun fid f =>
        { f with block := match c1.blocks.find? (fun b => b.gang == v.id && b.fid == fid) with | some b => b.base | none => 0 }) with
        core := core, granule := bank, shadowGranule := shadow, frees0 := (getCore s core).frees })
        (inv_setCore h) hv
      exact inv_foldl (fun _ _ => inv_answerLanes) (inv_refreshAlloc (inv_acquireEffect (inv_trimWays hg.same)))
    · trivial

theorem inv_reinstateAll {l : List (SavedGang × Nat)} {s : State} (h : StateInv s) (hl : ∀ v ∈ l, BanksWf v.1.gang) :
    OptInv (reinstateAll l s) := by
  induction l generalizing s with
  | nil => exact h
  | cons x l ih =>
    unfold reinstateAll
    split
    · trivial
    next ht =>
      exact ih ((inv_reinstate h (hl x List.mem_cons_self)).of_eq ht) fun v hv => hl v (List.mem_cons_of_mem _ hv)

/-- Some of a context's saved gangs are taken out. -/
theorem StateInv.unsave {ctx : Nat} {s : State} (h : StateInv s) (q : SavedGang → Bool) :
    StateInv (setCtx s ctx { getCtx s ctx with saved := (getCtx s ctx).saved.filter q }) := inv_setCtx h ((h.savedWf _).filter q)

/-- The saved gangs of a task have canonical banks. -/
theorem banks_savedGangs {tid : Nat} {s : State} (h : StateInv s) : ∀ v ∈ savedGangs s tid, BanksWf v.gang :=
  fun v hv => h.savedWf _ v (List.mem_of_mem_filter hv)

theorem inv_placeTask {tid : Nat} {cores : List Nat} {s : State} (h : StateInv s) : OutInv (placeTask tid cores s) := by
  unfold placeTask
  split
  · exact inv_admitTask h
  · dsimp only
    split
    · trivial
    · split
      · trivial
      next ht =>
        exact inv_checkBarx ((inv_reinstateAll (h.unsave _) fun v hv => banks_savedGangs h v.1 (List.of_mem_zip hv).1).of_eq ht)

theorem inv_execGangAdmit {task core : Nat} {s : State} (h : StateInv s) : OutInv (execGangAdmit task core s) := by
  unfold execGangAdmit
  split
  · trivial
  · exact inv_placeTask h

theorem inv_execCrewAdmit {task : Nat} {cores : List Nat} {s : State} (h : StateInv s) : OutInv (execCrewAdmit task cores s) := by
  unfold execCrewAdmit
  split
  · trivial
  · exact inv_placeTask h

theorem inv_execTaskDispatch {lid : Nat} {s : State} (h : StateInv s) : OutInv (execTaskDispatch lid s) := by
  unfold execTaskDispatch
  split
  · trivial
  · split
    · trivial
    · exact inv_setTask h.same

theorem inv_execSweepTaskDispatch {lid index : Nat} {s : State} (h : StateInv s) : OutInv (execSweepTaskDispatch lid index s) := by
  unfold execSweepTaskDispatch
  split
  · trivial
  · dsimp only
    split
    · trivial
    · split
      · trivial
      · refine inv_quarryStep h inv_sweepReady fun r t ht => ?_
        cases r with
        | none => trivial
        | some x => exact inv_setTask ht.same

theorem inv_endGang {gid : Nat} {s : State} (h : StateInv s) : StateInv (endGang gid s) := by
  unfold endGang
  exact inv_ite (inv_retireTask (inv_checkBarx (h.fewer fun _ => mem_kdel))) (inv_setTask (inv_checkBarx (h.fewer fun _ => mem_kdel)))

theorem inv_settleFlush {tid : Nat} {s : State} (h : StateInv s) : StateInv (settleFlush tid s) :=
  inv_setTask (inv_foldl (fun _ _ => inv_releaseCaches) h)

theorem inv_settleFlushes {s : State} (h : StateInv s) : StateInv (settleFlushes s) := inv_foldl (fun _ _ => inv_settleFlush) h

theorem inv_execGangEnd {gid : Nat} {s : State} (h : StateInv s) : OutInv (execGangEnd gid s) := by
  unfold execGangEnd
  split
  · trivial
  · split
    · trivial
    · split
      · exact inv_setGang (inv_releaseCaches h) ((inv_releaseCaches h).banks _)
      · split
        · exact inv_endGang h
        · trivial

end Sys2Proof.Machine
end

section
/-! PROOF. The invariant (R104) and the Derrick's accesses, records and rings (Derrick.lean): each step that is performed keeps it. -/
namespace Sys2Proof.Machine

set_option Elab.async false

theorem inv_dRead {u : UnitEnv} {a : Access} {va : W64} {n : Nat} : KeepsInv (dRead u a va n) := by
  unfold dRead
  refine .look fun _ h => ?_
  split
  · exact .throw _
  · exact .ite (.throw _) (.bind (.set (inv_agentMerge (inv_spotSeen h))) fun _ => .pure _)

theorem inv_dReadFrom {u : UnitEnv} {a : Access} {va : W64} {fuel n : Nat} : KeepsInv (dReadFrom u a va fuel n) := by
  induction fuel generalizing va n with
  | zero => cases n <;> exact .pure _
  | succ fuel ih =>
    cases n with
    | zero => exact .pure _
    | succ n => exact .bind inv_dRead fun _ => .bind ih fun _ => .pure _

theorem inv_dGet {u : UnitEnv} {a : Access} {va : W64} {n : Nat} : KeepsInv (dGet u a va n) := .bind inv_dReadFrom fun _ => .pure _

theorem inv_dMake {u : UnitEnv} {kind : WKind} {a : Access} {va : W64} {bs : List Byte} {poison : Bool} :
    KeepsInv (dMake u kind a va bs poison) := by
  unfold dMake
  refine .look fun _ h => ?_
  split
  · exact .throw _
  · exact .set (inv_spotSeen h.same)

theorem inv_dPut {u : UnitEnv} {a : Access} {va : W64} {bs : List Byte} {poison : Bool} : KeepsInv (dPut u a va bs poison) := inv_dMake

theorem inv_derrickAcquire {s : State} (h : StateInv s) : StateInv (derrickAcquire s) := h.same

theorem inv_setRing {r : Nat} {v : EventRing} {s : State} (h : StateInv s) : StateInv (setRing r v s) := h.same

theorem inv_setQueue {q : Nat} {v : Queue} {s : State} (h : StateInv s) : StateInv (setQueue q v s) := h.same

theorem inv_pushRecord {ring ctx status type queue : Nat} {tag : Word} {summary : W64} {urgent : Bool} {s : State} (h : StateInv s) :
    StateInv (pushRecord ring ctx status type queue tag summary urgent s) := inv_setRing h.same

theorem inv_pushSaved {id ring : Nat} {r : Record} {s : State} (h : StateInv s) : StateInv (pushSaved id ring r s) :=
  (h.mapSaves (f := fun e => if e.1 = id then
      (e.1, { e.2 with records := kset e.2.records ring (kget e.2.records ring [] ++ [r]) }) else e) fun _ => by split <;> rfl).same

theorem inv_readyRecord {ring : Nat} {seq summary : W64} {s : State} (h : StateInv s) : StateInv (readyRecord ring seq summary s) :=
  inv_setRing h

theorem inv_interrupt {v : Nat} {s : State} (h : StateInv s) : StateInv (interrupt v s) := h.same

theorem inv_replyCmd {i : W64} {status detail : Nat} {s : State} (h : StateInv s) : StateInv (replyCmd i status detail s) :=
  inv_interrupt { h with host := writeBytes_wf _ _ (writeBytes_wf _ _ h.host) }

theorem inv_dropCaches {ctx : Nat} {s : State} (h : StateInv s) : StateInv (dropCaches ctx s) := h.same

theorem inv_freeCtx {ctx : Nat} {s : State} (h : StateInv s) : StateInv (freeCtx ctx s) := inv_dropCaches (inv_setCtx h savedWf_init)

theorem inv_recordDone {seq : W64} {s : State} (h : StateInv s) : StateInv (recordDone seq s) := h.same

theorem inv_dPuts {u : UnitEnv} {l : List (W64 × List Byte)} : KeepsInv (dPuts u l) := by
  induction l with
  | nil => exact .pure _
  | cons x l ih => exact .bind inv_dPut fun _ => ih

theorem inv_putRecord {r : EventRing} {rec : Record} : KeepsInv (putRecord r rec) := .look fun _ _ => inv_unitRun inv_dPuts

theorem inv_landRecord {ring : Nat} {rec : Record} {rest : List Record} {s : State} (h : StateInv s) :
    StateInv (landRecord ring rec rest s) := by
  unfold landRecord
  dsimp only
  split
  · exact inv_interrupt (inv_recordDone (inv_setRing h))
  · exact inv_recordDone (inv_setRing h)

theorem inv_execCompletionRecordWrite {ring : Nat} {s : State} (h : StateInv s) : OutInv (execCompletionRecordWrite ring s) := by
  unfold execCompletionRecordWrite
  dsimp only
  split
  · trivial
  · split
    · trivial
    next hc1 =>
      split
      · split
        · exact inv_landRecord h
        · trivial
      next hc1 =>
        split
        · trivial
        next hc1 =>
          split
          next hc1 =>
            exact inv_setRing (inv_putRecord.kept _ _ _ h hc1)
          · trivial

theorem inv_execEventRingTimeExpiry {ring : Nat} {s : State} (h : StateInv s) : OutInv (execEventRingTimeExpiry ring s) := by
  unfold execEventRingTimeExpiry
  dsimp only
  split
  · trivial
  · exact inv_interrupt (inv_setRing h)

theorem inv_execEventRingHeadWrite {ring : Nat} {head : W64} {s : State} (h : StateInv s) :
    OutInv (execEventRingHeadWrite ring head s) := inv_setRing h

theorem inv_execFaultRecordWrite {s : State} (h : StateInv s) : OutInv (execFaultRecordWrite s) := by
  unfold execFaultRecordWrite
  split
  · trivial
  next f rest _ =>
    dsimp only
    split
    · trivial
    · exact inv_ite (inv_interrupt (h.writeHost _ _).same) (h.writeHost _ _).same

end Sys2Proof.Machine
end

section
/-! PROOF. The invariant (R104) and queues, packets, graphs and streams (Queues.lean): each keeps it. -/
namespace Sys2Proof.Machine

set_option Elab.async false

theorem inv_mapRun {q : Nat} {i : W64} {fn : PacketRun → PacketRun} {s : State} (h : StateInv s) : StateInv (mapRun q i fn s) :=
  inv_setQueue h

theorem inv_mapNode {q : Nat} {i : W64} {n : Nat} {fn : Node → Node} {s : State} (h : StateInv s) : StateInv (mapNode q i n fn s) :=
  inv_mapRun h

theorem inv_putJob {r : JobRef} {j : Job} {s : State} (h : StateInv s) : StateInv (putJob r j s) := by
  unfold putJob
  split
  · exact inv_mapRun h
  · exact inv_mapNode h

theorem inv_beginJob {r : JobRef} {j : Job} {s : State} (h : StateInv s) : StateInv (beginJob r j s) := inv_putJob h

theorem inv_endJob {r : JobRef} {j : Job} {status : Nat} {summary : W64} {s : State} (h : StateInv s) :
    StateInv (endJob r j status summary s) := inv_putJob h

theorem inv_actLaunch {u : UnitEnv} {r : JobRef} {j : Job} : KeepsInv (actLaunch u r j) := by
  unfold actLaunch
  refine .ite (.modify fun _ => inv_endJob) ?_
  refine .bind inv_dGet fun _ => ?_
  refine .look fun _ _ => ?_
  split
  · exact .modify fun _ h1 => inv_endJob h1
  · exact .modify fun _ h1 => inv_endJob h1
  · exact .ite (.modify fun _ => inv_endJob) (.ite (.modify fun _ => inv_endJob) (.ite (.modify fun _ => inv_endJob) (.bind
      (.modify fun _ h1 => inv_putJob h1.same) fun _ => .ite (.modify fun _ => inv_pushQOp) (.pure _))))

theorem inv_actCopy {u : UnitEnv} {r : JobRef} {j : Job} : KeepsInv (actCopy u r j) := by
  unfold actCopy
  refine .ite (.modify fun _ => inv_endJob) ?_
  refine .bind inv_dReadFrom fun _ => ?_
  refine .bind inv_dPut fun _ => ?_
  refine .modify fun _ h => ?_
  split
  · exact inv_endJob h
  · exact inv_putJob h

theorem inv_streamRelease {u : UnitEnv} : KeepsInv (streamRelease u) := .look fun _ _ => .ite (.pure _) (.throw _)

theorem inv_streamOver {r : JobRef} {t : StreamRun} {s : State} (h : StateInv s) : StateInv (streamOver r t s) := by
  unfold streamOver
  split
  · exact inv_readyRecord h
  · exact h

theorem inv_stopStream {u : UnitEnv} {r : JobRef} {j : Job} {t : StreamRun} {va : W64} {status : Nat} :
    KeepsInv (stopStream u r j t va status) :=
  .bind inv_streamRelease fun _ => .bind inv_dPut fun _ => .modify fun _ h => inv_endJob (inv_streamOver h)

theorem inv_markEnd {u : UnitEnv} {r : JobRef} {j : Job} {t : StreamRun} {s0 : State} (h : StateInv s0) :
    StateInv (markEnd u r j t s0) := inv_putJob (inv_setRing h.same)

theorem inv_closeStream {u : UnitEnv} {r : JobRef} {j : Job} {t : StreamRun} {va : W64} : KeepsInv (closeStream u r j t va) :=
  .bind inv_dPuts fun _ => .modify fun _ h => inv_putJob h

theorem inv_endStream {u : UnitEnv} {r : JobRef} {j : Job} {t : StreamRun} {va : W64} : KeepsInv (endStream u r j t va) :=
  .bind inv_streamRelease fun _ => .bind inv_dPut fun _ => .modify fun _ h => inv_putJob (inv_streamOver h)

theorem inv_moveEntry {u : UnitEnv} {r : JobRef} {j : Job} {t : StreamRun} {va hhead : W64} {en : List Byte} :
    KeepsInv (moveEntry u r j t va hhead en) := by
  unfold moveEntry
  refine .bind inv_dPuts fun _ => ?_
  refine .modify fun _ h => ?_
  split
  · split
    · exact inv_markEnd h
    · exact inv_putJob h
  · split
    · exact inv_markEnd h
    · exact inv_putJob h

theorem inv_stepStream {u : UnitEnv} {r : JobRef} {j : Job} {t : StreamRun} : KeepsInv (stepStream u r j t) :=
  .ite inv_stopStream (.ite inv_endStream (.ite inv_closeStream (.bind inv_dGet fun _ => .bind inv_dGet fun _ => .ite inv_stopStream
    (.ite (.modify fun _ => inv_markEnd) (.ite inv_stopStream (.ite inv_stopStream inv_moveEntry))))))

theorem inv_actStream {u : UnitEnv} {r : JobRef} {j : Job} : KeepsInv (actStream u r j) := by
  unfold actStream
  split
  · exact inv_stepStream
  · exact .bind inv_dGet fun _ => .ite (.modify fun _ => inv_endJob) (.modify fun _ => inv_putJob)

theorem inv_jobWord {u : UnitEnv} {j : Job} : KeepsInv (jobWord u j) := .bind inv_dGet fun _ => .pure _

theorem inv_withdraw {q : Nat} {s : State} (h : StateInv s) : StateInv (withdraw q s) := by
  unfold withdraw
  split
  · exact h
  · exact h.same

theorem inv_signalQueue {q : Nat} {s : State} (h : StateInv s) : StateInv (signalQueue q s) := h.same

theorem inv_registerWord {u : UnitEnv} {q : Nat} {va : W64} {s : State} (h : StateInv s) : StateInv (registerWord u q va s) := by
  unfold registerWord
  split
  · split
    · dsimp only
      split
      · exact h
      · exact inv_signalQueue (inv_touchLine h.same)
    · dsimp only
      split
      · exact h
      · exact inv_touchLine h.same
  · exact h

theorem inv_actWait {u : UnitEnv} {r : JobRef} {j : Job} : KeepsInv (actWait u r j) :=
  .bind inv_jobWord fun _ => .ite (.modify fun _ => inv_endJob) (.modify fun _ h => inv_registerWord (inv_putJob h))

theorem inv_actSignal {u : UnitEnv} {r : JobRef} {j : Job} : KeepsInv (actSignal u r j) :=
  .bind inv_dMake fun _ => .modify fun _ h => inv_endJob h

theorem inv_actCond {u : UnitEnv} {r : JobRef} {j : Job} : KeepsInv (actCond u r j) := by
  unfold actCond
  refine .bind inv_jobWord fun _ => ?_
  refine .look fun _ h => ?_
  split
  · refine .ite (.set (inv_mapNode (inv_endJob h))) ?_
    refine .set ?_
    split
    · exact inv_mapRun (inv_mapNode (inv_endJob h))
    · exact inv_mapNode (inv_endJob h)
  · exact .pure _

theorem inv_actGraph {u : UnitEnv} {r : JobRef} {j : Job} : KeepsInv (actGraph u r j) := by
  unfold actGraph
  dsimp only
  refine .bind inv_dGet fun _ => ?_
  refine .ite (.modify fun _ => inv_endJob) ?_
  refine .bind inv_dGet fun _ => ?_
  split
  · exact .modify fun _ h => inv_endJob h
  · exact .modify fun _ h => inv_mapRun h

theorem inv_actRecord {r : JobRef} {j : Job} {s : State} (h : StateInv s) : StateInv (actRecord r j s) := inv_putJob (inv_pushRecord h)

theorem inv_actJob {r : JobRef} {j0 : Job} : KeepsInv (actJob r j0) := by
  unfold actJob
  refine .look fun _ _ => ?_
  refine inv_unitRun ?_
  split
  · exact inv_actLaunch
  · exact .ite inv_actStream inv_actCopy
  · exact inv_actWait
  · exact inv_actSignal
  · exact inv_actGraph
  · exact inv_actCond
  · refine .modify fun _ h1 => ?_
    split
    · exact inv_actRecord h1
    · exact inv_endJob h1

theorem inv_stepJob {r : JobRef} {j : Job} {s : State} (h : StateInv s) : OutInv (stepJob r j s) := by
  unfold stepJob
  split
  next hc =>
    exact inv_actJob.kept _ _ _ h hc
  · split
    · trivial
    · exact inv_beginJob h
  · trivial

theorem inv_readPacket {q : Nat} {r : W64} {b : Option Begun} : KeepsInv (readPacket q r b) := by
  unfold readPacket
  refine .look fun _ _ => ?_
  split
  · exact .pure _
  · exact inv_unitRun inv_dGet

theorem inv_stepOr {r : JobRef} {j : Job} {s : State} (h : StateInv s) : StateInv (stepOr r j s) := by
  unfold stepOr
  split
  next hc =>
    exact inv_actJob.kept _ _ _ h hc
  · exact inv_beginJob h
  · exact h

theorem inv_beginPacket {r : JobRef} {bs : List Byte} {s : State} (h : StateInv s) : StateInv (beginPacket r bs s) := by
  unfold beginPacket
  split
  · exact inv_endJob h
  · exact inv_stepOr (inv_putJob h)

theorem inv_startRun {q : Nat} {s : State} (h : StateInv s) : StateInv (startRun q s) := inv_derrickAcquire (inv_setQueue h)

theorem inv_readRun {ks : List Nat} {q : Nat} {run : PacketRun} {s : State} (h : StateInv s) : OutInv (readRun ks q run s) := by
  unfold readRun
  split
  next hc =>
    split
    · exact inv_beginPacket (inv_readPacket.kept _ _ _ h hc)
    · trivial
  · split
    · trivial
    · exact inv_beginJob h
  · trivial

theorem inv_execPacket {ks : List Nat} {q : Nat} {s : State} (h : StateInv s) : OutInv (execPacket ks q s) := by
  unfold execPacket
  split
  · trivial
  · split
    · exact inv_stepJob h
    · split
      · exact inv_readRun h
      · split
        · trivial
        · exact inv_readRun (inv_startRun h)

theorem inv_execLaunchPacket {q : Nat} {s : State} (h : StateInv s) : OutInv (execLaunchPacket q s) := inv_execPacket h

theorem inv_execCopyPacket {q : Nat} {s : State} (h : StateInv s) : OutInv (execCopyPacket q s) := inv_execPacket h

theorem inv_execWaitPacket {q : Nat} {s : State} (h : StateInv s) : OutInv (execWaitPacket q s) := inv_execPacket h

theorem inv_execSignalPacket {q : Nat} {s : State} (h : StateInv s) : OutInv (execSignalPacket q s) := inv_execPacket h

theorem inv_execGraphPacket {q : Nat} {s : State} (h : StateInv s) : OutInv (execGraphPacket q s) := inv_execPacket h

theorem inv_execRecordPacket {q : Nat} {s : State} (h : StateInv s) : OutInv (execRecordPacket q s) := inv_execPacket h

theorem inv_checkWait {x : JobRef × Job} : KeepsInv (checkWait x) := by
  unfold checkWait
  refine .look fun _ _ => ?_
  refine .bind (inv_unitRun inv_jobWord) fun _ => ?_
  refine .modify fun _ h1 => ?_
  split
  · exact inv_endJob h1
  · exact inv_registerWord (inv_putJob h1)

theorem inv_checkWaits {l : List (JobRef × Job)} : KeepsInv (checkWaits l) := by
  induction l with
  | nil => exact .pure _
  | cons x l ih => exact .bind inv_checkWait fun _ => ih

theorem inv_beginWaits {xs : List (JobRef × Job)} {s : State} (h : StateInv s) : OutInv (beginWaits xs s) := by
  unfold beginWaits
  split
  · trivial
  · exact inv_foldl (fun _ _ => inv_beginJob) h

theorem inv_execWaitPacketWake {q : Nat} {s : State} (h : StateInv s) : OutInv (execWaitPacketWake q s) := by
  unfold execWaitPacketWake
  split
  · trivial
  · split
    next hc1 =>
      exact inv_withdraw (inv_checkWaits.kept _ _ _ (inv_setQueue h) hc1)
    · exact inv_beginWaits h
    · trivial

theorem inv_execWaitPacketTimeout {q : Nat} {s : State} (h : StateInv s) : OutInv (execWaitPacketTimeout q s) := by
  unfold execWaitPacketTimeout
  split
  · trivial
  · split
    · trivial
    next hc1 =>
      dsimp only
      split
      next hc1 =>
        exact inv_withdraw (inv_endJob ((inv_unitRun inv_jobWord).kept _ _ _ h hc1))
      · exact inv_beginWaits h
      · trivial

theorem inv_dropLaunch {j : Job} {s : State} (h : StateInv s) : StateInv (dropLaunch j s) := by
  unfold dropLaunch
  split
  · exact h.same
  · exact h

theorem inv_execPacketComplete {q : Nat} {i : W64} {s : State} (h : StateInv s) : OutInv (execPacketComplete q i s) := by
  unfold execPacketComplete
  dsimp only
  split
  · trivial
  · split
    · trivial
    · split
      · trivial
      · split
        · exact inv_mapRun (inv_pushRecord (inv_dropLaunch h))
        · exact inv_setQueue (inv_dropLaunch h)

theorem inv_execNodeStart {q n : Nat} {s : State} (h : StateInv s) : OutInv (execNodeStart q n s) := by
  unfold execNodeStart
  split
  · trivial
  · split
    · exact inv_stepJob h
    · split
      · trivial
      · exact inv_stepOr (inv_derrickAcquire (inv_mapNode h))

theorem inv_execNodeComplete {q n : Nat} {s : State} (h : StateInv s) : OutInv (execNodeComplete q n s) := by
  unfold execNodeComplete
  split
  · trivial
  · split
    · split
      · trivial
      · exact inv_mapRun (inv_dropLaunch h)
    · trivial

theorem inv_execQueueDoorbell {q : Nat} {w : W64} {s : State} (h : StateInv s) : OutInv (execQueueDoorbell q w s) := by
  unfold execQueueDoorbell
  split
  · exact h
  · split
    · dsimp only
      split
      · exact h
      · split
        · exact h
        · split
          · split
            · exact inv_pushSaved h
            · exact inv_pushRecord h
          · split
            · exact inv_setQueue h
            · split
              · exact inv_setQueue h.same
              · split
                · exact inv_setQueue (inv_setQueue h.same)
                · exact inv_setQueue (inv_setQueue (inv_setQueue h.same))
                · exact inv_setQueue (inv_setQueue h.same)
    · dsimp only
      split
      · exact h
      · split
        · exact h
        · split
          · split
            · exact inv_pushSaved h
            · exact inv_pushRecord h
          · split
            · exact inv_setQueue h
            · split
              · exact inv_setQueue h.same
              · split
                · exact inv_setQueue (inv_setQueue h.same)
                · exact inv_setQueue (inv_setQueue (inv_setQueue h.same))
                · exact inv_setQueue (inv_setQueue h.same)

theorem inv_execQueueMap {q : Nat} {s : State} (h : StateInv s) : OutInv (execQueueMap q s) := by
  unfold execQueueMap
  dsimp only
  split
  · split
    · exact inv_setQueue h
    · trivial
  · trivial

theorem inv_execQueueIdleUnmap {q : Nat} {s : State} (h : StateInv s) : OutInv (execQueueIdleUnmap q s) := by
  unfold execQueueIdleUnmap
  dsimp only
  split
  · trivial
  · split
    · trivial
    · exact inv_setQueue h

theorem inv_queueFault {q ctx : Nat} {e : Stall} {ref : FaultRef} {s : State} (h : StateInv s) : StateInv (queueFault q ctx e ref s) :=
  inv_report (inv_keepReads h)

theorem inv_readStall {s t : State} {q : Nat} {run : PacketRun} {e : Stall} (h : StateInv s) (ht : readStall s q = some (run, t, e)) :
    StateInv t := by
  unfold readStall at ht
  split at ht
  · obtain ⟨_, _, he⟩ := Option.map_eq_some_iff.mp ht
    cases he
    exact h
  · split at ht
    · obtain ⟨_, _, he⟩ := Option.map_eq_some_iff.mp ht
      cases he
      exact inv_startRun h
    · cases ht

theorem inv_execDerrickAccessFault {q : Nat} {s : State} (h : StateInv s) : OutInv (execDerrickAccessFault q s) := by
  unfold execDerrickAccessFault
  dsimp only
  split
  · exact inv_putJob (inv_queueFault h)
  · split
    next hr => exact inv_putJob (inv_queueFault (inv_readStall h hr))
    · split
      · exact inv_setRing (inv_queueFault h)
      · trivial

end Sys2Proof.Machine
end

section
/-! PROOF. The invariant (R104) and the host port and its commands (Commands.lean): each keeps it, for a saved gang keeps its banks. -/
namespace Sys2Proof.Machine

set_option Elab.async false

theorem inv_execDcrdb {w : W64} {s : State} (h : StateInv s) : OutInv (execDcrdb w s) := by
  unfold execDcrdb
  split
  · exact h
  · dsimp only
    split
    · exact h.same
    · exact h.same

theorem inv_execDcrerrRead {s : State} (h : StateInv s) : OutInv (execDcrerrRead s) := h.same

theorem inv_execHostRegisterWrite {reg : HostReg} {v : W64} {s : State} (h : StateInv s) : OutInv (execHostRegisterWrite reg v s) := by
  unfold execHostRegisterWrite
  dsimp only
  split
  · split
    · exact h.same
    · exact h
  · split
    · exact h.same
    · exact h
  · split
    · exact h.same
    · exact h
  · split
    · exact h.same
    · exact h
  · exact h.same
  · exact h.same

theorem inv_execCommandStart {s : State} (h : StateInv s) : OutInv (execCommandStart s) := by
  unfold execCommandStart
  split
  · trivial
  · dsimp only
    split
    · exact h.same
    · split
      · trivial
      · exact inv_replyCmd h.same

theorem inv_putCmd {c : CmdRun} {s : State} (h : StateInv s) : StateInv (putCmd c s) := h.same

theorem inv_finishCmd {c : CmdRun} {status detail : Nat} {s : State} (h : StateInv s) : StateInv (finishCmd c status detail s) := by
  unfold finishCmd
  split
  · exact inv_replyCmd h
  · exact inv_putCmd h

/-- What a command's row goes on with meets the invariant. -/
def VerdictInv : Verdict → Prop
  | .reply _ _ t => StateInv t
  | .running _ t => StateInv t
  | .waits _ => True

theorem inv_runCmd {op : Nat} {mine : List Byte → Bool} {body : CmdRun → State → Verdict} {s : State} (h : StateInv s)
    (hbody : ∀ c, VerdictInv (body c s)) : OutInv (runCmd op mine body s) := by
  unfold runCmd
  split
  · trivial
  next c _ =>
    split
    · trivial
    · split
      · split
        · exact inv_replyCmd h
        · trivial
      · split
        · exact inv_finishCmd h
        · have hb := hbody c
          split
          next hv => rw [hv] at hb; exact inv_finishCmd hb
          next hv => rw [hv] at hb; exact inv_putCmd hb
          · split
            · trivial
            · exact inv_putCmd h

theorem inv_runOp {op : Nat} {body : CmdRun → State → Verdict} {s : State} (h : StateInv s) (hbody : ∀ c, VerdictInv (body c s)) :
    OutInv (runOp op body s) := inv_runCmd h hbody

theorem inv_execCtxcreate {s : State} (h : StateInv s) : OutInv (execCtxcreate s) := by
  refine inv_runOp h fun c => ?_
  have hc : StateInv (setCtx s c.ctx { Ctx.init with
      st := .live, pasid := BitVec.ofNat 20 (field c.bytes 8 4), root := field c.bytes 16 8, deadlog := byteAt c.bytes 24 }) :=
    inv_setCtx h fun _ hv => nomatch hv
  exact inv_ite hc.same hc

theorem inv_execWinload {s : State} (h : StateInv s) : OutInv (execWinload s) := inv_runOp h (fun _ => inv_setCtx h (h.savedWf _))

theorem inv_execResume {s : State} (h : StateInv s) : OutInv (execResume s) := inv_runOp h (fun _ => inv_setCtx h (h.savedWf _))

theorem inv_execPeerset {s : State} (h : StateInv s) : OutInv (execPeerset s) := inv_runOp h (fun _ => inv_setCtx h (h.savedWf _))

theorem inv_readKerfs {e : QEnv} {n j : Nat} : KeepsInv (readKerfs e n j) := by
  induction n generalizing j with
  | zero => exact .pure _
  | succ n ih => exact .bind inv_unitGet fun _ => .bind ih fun _ => .pure _

theorem inv_freeListOk {e : QEnv} {n : Nat} : KeepsInv (freeListOk e n) := by
  induction n with
  | zero => exact .pure _
  | succ n ih => exact .bind ih fun _ => .bind inv_unitGet fun _ => .pure _

theorem inv_settleEntries {e : QEnv} {l : List (Nat × QEntry)} {n : Nat} : KeepsInv (settleEntries e l n) := by
  induction l generalizing n with
  | nil => exact .pure _
  | cons x l ih => exact .bind inv_writeEntry fun _ => .bind inv_pushSlots fun _ => ih

theorem inv_bindQuarry {ctx slot : Nat} {va : W64} {b : Option Begun} : KeepsInv (bindQuarry ctx slot va b) :=
  .bind (.modify fun _ => inv_setQuarry) fun _ => .look fun _ _ => inv_unitRun
    (.bind inv_qenv fun _ => .bind inv_readKerfs fun _ => .bind inv_allEntries fun _ => .bind inv_freeListOk fun _ => .ite (.pure _)
      (.bind inv_settleEntries fun _ => .ite (.bind inv_writeDesc fun _ => .ite (.bind inv_writeDesc fun _ => .bind
        (.modify fun _ => inv_setQuarry) fun _ => .pure _) (.bind (.modify fun _ => inv_setQuarry) fun _ => .pure _)) (.ite
          (.bind inv_writeDesc fun _ => .bind (.modify fun _ => inv_setQuarry) fun _ => .pure _) (.bind
            (.modify fun _ => inv_setQuarry) fun _ => .pure _))))

theorem inv_setQslot {ctx slot : Nat} {va : W64} {s : State} (h : StateInv s) : StateInv (setQslot ctx slot va s) :=
  inv_setCtx h (h.savedWf _)

theorem inv_dropFaults {p : FaultRec → Bool} {s : State} (h : StateInv s) : StateInv (dropFaults p s) := h.same

theorem inv_endSteps {q : Nat} {s : State} (h : StateInv s) : StateInv (endSteps q s) := by
  unfold endSteps
  refine inv_foldl (fun _ _ h1 => ?_) h.same
  split
  · exact inv_dropResult h1
  · exact inv_fillResult h1
  · exact inv_migArrive h1
  · exact h1

theorem inv_execQbind {s : State} (h : StateInv s) : OutInv (execQbind s) := by
  unfold execQbind
  refine inv_runCmd h fun _ => ?_
  dsimp only
  split
  · exact h
  · split
    · exact h
    next hc1 =>
      split
      next hc1 =>
        exact inv_setQslot (inv_drainSlice (inv_bindQuarry.kept _ _ _ (inv_endSteps h) hc1))
      · trivial
      · exact inv_keepReads h
      · exact inv_keepReads h

theorem inv_execQbindUnbind {s : State} (h : StateInv s) : OutInv (execQbindUnbind s) := by
  unfold execQbindUnbind
  refine inv_runCmd h fun _ => ?_
  dsimp only
  split
  · exact h
  · exact inv_setQslot (inv_endSteps h)

theorem inv_execQueueset {s : State} (h : StateInv s) : OutInv (execQueueset s) := by
  refine inv_runOp h fun c => ?_
  dsimp only
  split
  · exact h
  · split
    · exact h
    · exact inv_ite h (inv_setQueue h)

theorem inv_execEvrset {s : State} (h : StateInv s) : OutInv (execEvrset s) := by
  refine inv_runOp h fun c => ?_
  dsimp only
  split
  · exact h
  · split
    · exact h
    · exact inv_setRing h

theorem inv_forceReset {ctx : Nat} {s : State} (h : StateInv s) : StateInv (forceReset ctx s).1 :=
  inv_dropFaults (inv_setCtx (inv_endGangsForced h).same fun _ hv => nomatch hv)

theorem inv_unstallQueues {seqs : List W64} {s : State} (h : StateInv s) : StateInv (unstallQueues seqs s) := h.same

theorem inv_dropQueueFaults {ctx : Nat} {s : State} (h : StateInv s) : StateInv (dropQueueFaults ctx s) :=
  inv_dropFaults (inv_unstallQueues h)

theorem inv_expireDrain {ctx : Nat} {d : DrainReq} {s : State} (h : StateInv s) : StateInv (expireDrain ctx d s) := by
  unfold expireDrain
  dsimp only
  split
  · exact inv_finishCmd (inv_setCtx (inv_dropQueueFaults (inv_forceReset h)) ((inv_dropQueueFaults (inv_forceReset h)).savedWf _))
  · exact inv_setCtx (inv_dropQueueFaults (inv_forceReset h)) ((inv_dropQueueFaults (inv_forceReset h)).savedWf _)

theorem inv_execDeadlineExpiry {ctx : Nat} {s : State} (h : StateInv s) : OutInv (execDeadlineExpiry ctx s) := by
  unfold execDeadlineExpiry
  split
  · split
    · dsimp only
      split
      · trivial
      · split
        · trivial
        · exact inv_expireDrain h
    · dsimp only
      split
      · exact inv_replyCmd h
      · split
        · trivial
        · exact inv_expireDrain h
  · dsimp only
    split
    · trivial
    · split
      · trivial
      · exact inv_expireDrain h

theorem inv_execDeadline {s : State} (h : StateInv s) : OutInv (execDeadline s) := by
  unfold execDeadline
  dsimp only
  refine inv_runOp h fun _ => ?_
  split
  · split
    · exact inv_setCtx h (h.savedWf _)
    · exact inv_expireDrain (inv_setCtx h (h.savedWf _))
  · exact inv_setCtx h (h.savedWf _)

theorem inv_endDestroy {c : CmdRun} {s : State} (h : StateInv s) : StateInv (endDestroy c s) := inv_replyCmd (inv_freeCtx h.same)

theorem inv_beginDestroy {c : CmdRun} {s : State} (h : StateInv s) : StateInv (beginDestroy c s) := by
  have h1 := inv_dropCaches (ctx := c.ctx) (inv_dropQueueFaults (ctx := c.ctx) (inv_forceReset (ctx := c.ctx)
    (inv_endGangsForced (gs := ctxGangs s c.ctx) h)))
  exact h1.same

theorem inv_issueGone {c : CmdRun} {s : State} (h : StateInv s) : StateInv (issueGone c s) := by
  unfold issueGone
  dsimp only
  split
  · exact inv_putCmd h.same
  · exact inv_pushRecord (inv_putCmd h.same)

theorem inv_execCtxdestroy {s : State} (h : StateInv s) : OutInv (execCtxdestroy s) := by
  unfold execCtxdestroy
  split
  · trivial
  · dsimp only
    split
    · exact inv_endDestroy h
    · split
      · exact inv_issueGone h
      · exact inv_runOp h (fun _ => inv_beginDestroy h)

theorem inv_execDrain {s : State} (h : StateInv s) : OutInv (execDrain s) := inv_runOp h (fun _ => inv_setCtx h (h.savedWf _))

/-- A transaction that is open when its gang is preempted closes. -/
theorem inv_preemptTxns {gid : Nat} {l : List (Nat × Slot)} {s : State} (h : StateInv s) :
    StateInv (l.foldl (fun s k =>
      match k.2.txn with
      | none => s
      | some t =>
        let core := k.1 / 32
        let s1 := closeTxn core k.1 gid (some t.beginPc) (some (fun w => txWord 0 (w.getLsbD 7) t.levels.length 9)) s
        let fids := (getSlot s1 k.1).fids
        toTable core gid fids .ready (leaveSlot k.1 fids s1)) s) :=
  inv_foldl (fun _ k hs => by
    dsimp only
    split
    · exact hs
    · exact inv_toTable (inv_leaveSlot (inv_closeTxn hs))) h

/-- A sleeper of a gang that is preempted is made ready. -/
theorem inv_preemptSleepers {gid : Nat} {l : List (Nat × Sleeper)} {s : State} (h : StateInv s) :
    StateInv (l.foldl (fun s e =>
      let g := getGang s gid
      let c := getCore s g.core
      setCore (setGang s gid (mapFibres g (fun fid f => if e.2.fids.contains fid then preempt e.2 f else f))) g.core
        { c with table := c.table.map (fun b => if b.gang = gid ∧ b.wait = .asleep e.1 then { b with wait := .ready } else b) }) s) :=
  inv_foldl (fun _ _ hs => inv_setCore (inv_setGang hs (hs.banks _))) h

theorem inv_preemptGang {gid : Nat} {s : State} (h : StateInv s) : StateInv (preemptGang gid s) :=
  inv_preemptTxns (StateInv.same (inv_preemptSleepers (gid := gid) (l := s.sleepers.filter fun e => e.2.gang == gid) h))

theorem inv_saveGang {gid : Nat} {s : State} (h : StateInv s) : StateInv (saveGang gid s) := by
  have hp := inv_preemptGang (gid := gid) h
  refine inv_refreshAlloc (inv_setCtx (hp.fewer fun _ => mem_kdel) fun v hv => ?_)
  rcases List.mem_append.mp hv with hv | hv
  · exact hp.savedWf _ v hv
  · cases List.mem_singleton.mp hv
    exact hp.banks _

theorem inv_execGangSave {gid : Nat} {s : State} (h : StateInv s) : OutInv (execGangSave gid s) := by
  unfold execGangSave
  split
  · trivial
  · split
    · trivial
    · split
      · trivial
      · split
        · exact inv_releaseCaches h
        · split
          · trivial
          · exact inv_saveGang h

theorem inv_writeArea {pa n : Nat} {s : State} (h : StateInv s) : StateInv (writeArea pa n s) :=
  inv_foldl (fun _ _ => inv_storeSector) h.same

theorem inv_saveCtx {ctx pa bytes : Nat} {s : State} (h : StateInv s) : StateInv (saveCtx ctx pa bytes s) := by
  have hm := inv_writeArea (pa := pa) (n := bytes) h
  refine inv_freeCtx (inv_dropFaults { hm with saves := fun c hc v hv => ?_ })
  rcases mem_kset hc with rfl | hc
  · obtain ⟨w, hw, rfl⟩ := List.mem_map.mp hv
    exact h.savedWf ctx w hw
  · exact h.saves c hc v hv

theorem inv_putBack {ctx : Nat} {s : State} (h : StateInv s) : StateInv (putBack ctx s) := by
  unfold putBack
  refine inv_foldl (fun _ _ => inv_checkBarx) (List.foldlRecOn (motive := StateInv) _ _ h fun t ht v hv => ?_)
  dsimp only
  split
  next hr => exact (inv_reinstate (ht.unsave _) (h.savedWf _ v hv)).of_eq hr
  · exact ht

theorem inv_execDrainComplete {ctx : Nat} {s : State} (h : StateInv s) : OutInv (execDrainComplete ctx s) := by
  unfold execDrainComplete
  split
  · split
    · dsimp only
      split
      · trivial
      · split
        · trivial
        · split
          · trivial
          · trivial
    · dsimp only
      split
      · trivial
      · split
        · trivial
        · split
          · trivial
          · exact inv_replyCmd (inv_saveCtx h)
  · split
    · dsimp only
      split
      · trivial
      · split
        · trivial
        · split
          · exact inv_replyCmd (inv_putBack (inv_setCtx h (h.savedWf _)))
          · trivial
    · dsimp only
      split
      · trivial
      · split
        · trivial
        · split
          · exact inv_replyCmd (inv_putBack (inv_setCtx h (h.savedWf _)))
          · exact inv_replyCmd (inv_saveCtx h)

theorem inv_reportAgain {ctx unit : Nat} {f : FaultRec} {s : State} (h : StateInv s) : StateInv (reportAgain ctx unit f s) := h.same

theorem inv_renewFault {g : SavedGang} {f : FaultRec} {s : State} (h : StateInv s) : StateInv (renewFault g f s).2 := inv_report h

theorem banks_renewFault {g : SavedGang} {f : FaultRec} {s : State} (hg : BanksWf g.gang) : BanksWf (renewFault g f s).1.gang := hg

theorem inv_renewGang {g : SavedGang} {s : State} (h : StateInv s) (hg : BanksWf g.gang) :
    StateInv (renewGang g s).2 ∧ BanksWf (renewGang g s).1.gang :=
  List.foldlRecOn (motive := fun r : SavedGang × State => StateInv r.2 ∧ BanksWf r.1.gang) g.faults _ ⟨h, hg⟩
    fun _ hr _ _ => ⟨inv_renewFault hr.1, banks_renewFault hr.2⟩

theorem inv_renewGangs {l : List SavedGang} {s : State} (h : StateInv s) (hl : ∀ v ∈ l, BanksWf v.gang) :
    StateInv (renewGangs l s).2 ∧ ∀ v ∈ (renewGangs l s).1, BanksWf v.gang := by
  induction l generalizing s with
  | nil => exact ⟨h, fun _ hv => nomatch hv⟩
  | cons g l ih =>
    obtain ⟨hs, hg⟩ := inv_renewGang h (hl g List.mem_cons_self)
    obtain ⟨ht, hm⟩ := ih hs fun v hv => hl v (List.mem_cons_of_mem _ hv)
    exact ⟨ht, fun v hv => (List.mem_cons.mp hv).elim (fun he => he ▸ hg) (hm v)⟩

/-- The saved gangs of a context come back under its number, with their faults reported again. -/
theorem inv_restoreGangs {ctx : Nat} {x : Ctx} {l : List SavedGang} {s : State} (h : StateInv s) (hl : ∀ v ∈ l, BanksWf v.gang) :
    StateInv (setCtx (renewGangs l s).2 ctx { x with st := .live, saved := (renewGangs l s).1 }) := by
  obtain ⟨hs, hm⟩ := inv_renewGangs h hl
  exact inv_setCtx hs hm

theorem inv_restoreCtx {ctx id : Nat} {v : Save} {s : State} (h : StateInv s) (hv : SavedWf v.ctx) : StateInv
    (restoreCtx ctx id v s) := by
  unfold restoreCtx
  refine inv_foldl (fun _ _ => inv_reportAgain) (inv_restoreGangs ?_ fun w hw => ?_)
  · exact (h.mapSaves (f := fun e => if e.1 = id then (e.1, { e.2 with records := [] }) else e) fun _ => by split <;> rfl).same
  · obtain ⟨u, hu, rfl⟩ := List.mem_map.mp hw
    exact hv u hu

theorem inv_execRestore {s : State} (h : StateInv s) : OutInv (execRestore s) := by
  refine inv_runOp h fun c => ?_
  dsimp only
  split
  · exact h
  next v hv =>
    split
    · exact h
    · exact inv_restoreCtx h (h.saves v (List.mem_reverse.mp (List.mem_of_find?_eq_some hv)))

theorem inv_tlbSweep {c : CmdRun} {s : State} (h : StateInv s) : StateInv (tlbSweep c s) :=
  (inv_foldl (fun _ _ h1 => inv_maintain (inv_wcFlush h1)) h).same

theorem inv_execTlbinv {s : State} (h : StateInv s) : OutInv (execTlbinv s) := inv_runOp h (fun _ => inv_tlbSweep h)

theorem inv_execTlbinvCompletion {i : W64} {s : State} (h : StateInv s) : OutInv (execTlbinvCompletion i s) := by
  unfold execTlbinvCompletion
  split
  · trivial
  · split
    · trivial
    · split
      · exact inv_putCmd (inv_tlbSweep h)
      · split
        · trivial
        · exact inv_replyCmd (inv_dropLeaves h)

theorem inv_answerGang {gid : Nat} {f : FaultRec} {ans : Nat} {s : State} (h : StateInv s) : StateInv (answerGang gid f ans s) := by
  unfold answerGang
  refine inv_ite (inv_answerLanes h) (inv_setCtx h ((h.savedWf _).map fun v hv => ?_))
  split
  · exact hv
  · exact hv

theorem inv_answerReplay {f : FaultRec} {s : State} (h : StateInv s) : StateInv (answerReplay f s) := by
  unfold answerReplay
  split
  · exact inv_answerGang h
  · split
    · exact inv_putCopy h
    · exact h
  · exact inv_unstall h
  · exact inv_resumeDrain h
  · exact inv_unstallQueues h
  · exact inv_unstallQueues h
  · exact h
  · exact h

theorem inv_endStalled {q : Nat} {seq : W64} {s : State} (h : StateInv s) : StateInv (endStalled q seq s) := by
  unfold endStalled
  split
  · exact h
  · dsimp only
    split
    · split
      · exact inv_endJob (inv_streamOver h)
      · exact inv_putJob h
    · exact inv_withdraw (inv_endJob h)

theorem inv_answerEnd {f : FaultRec} {s : State} (h : StateInv s) : StateInv (answerEnd f s) := by
  unfold answerEnd
  split
  · split
    · exact inv_stopCopy h
    · exact h
  · exact inv_endStalled h
  · dsimp only
    split
    · exact inv_recordDone (inv_setRing h)
    · exact h
  · exact h

theorem inv_answerReflect {f : FaultRec} {s : State} (h : StateInv s) : StateInv (answerReflect f s) := by
  unfold answerReflect
  split
  · exact inv_answerGang h
  · exact h

theorem inv_answerKill {f : FaultRec} {s : State} (h : StateInv s) : StateInv (answerKill f s) := by
  unfold answerKill
  split
  · exact inv_answerGang h
  · split
    · exact inv_killGang h
    · exact h
  · exact h

theorem inv_answerFault {ans : Nat} {go : FaultRec → State → State} {s : State} (hgo : ∀ x0 x1, StateInv x1 → StateInv (go x0 x1))
    (h : StateInv s) : OutInv (answerFault ans go s) := by
  unfold answerFault
  refine inv_runCmd h fun _ => ?_
  split
  · exact h
  · split
    · exact hgo _ _ h.same
    · exact h

theorem inv_execFaultansReplay {s : State} (h : StateInv s) : OutInv (execFaultansReplay s) :=
  inv_answerFault (fun _ _ => inv_answerReplay) h

theorem inv_execFaultansReflect {s : State} (h : StateInv s) : OutInv (execFaultansReflect s) :=
  inv_answerFault (fun _ _ => inv_answerReflect) h

theorem inv_execFaultansKill {s : State} (h : StateInv s) : OutInv (execFaultansKill s) :=
  inv_answerFault (fun _ _ => inv_answerKill) h

theorem inv_execFaultansEnd {s : State} (h : StateInv s) : OutInv (execFaultansEnd s) :=
  inv_answerFault (fun _ _ => inv_answerEnd) h

theorem inv_execTierset {s : State} (h : StateInv s) : OutInv (execTierset s) := inv_runOp h (fun _ => h.same)

theorem inv_execKeyload {s : State} (h : StateInv s) : OutInv (execKeyload s) := inv_runOp h (fun _ => h.same)

theorem inv_debugCore {action : Nat} {claim : Bool} {go : Nat → State → State} {s : State}
    (hgo : ∀ x0 x1, StateInv x1 → StateInv (go x0 x1)) (h : StateInv s) : OutInv (debugCore action claim go s) := by
  unfold debugCore
  refine inv_runCmd h fun _ => ?_
  dsimp only
  split
  · exact h
  · exact hgo _ _ h

theorem inv_execDebugRelease {s : State} (h : StateInv s) : OutInv (execDebugRelease s) :=
  inv_debugCore (fun _ _ => inv_setCore) h

theorem inv_execDebugClaim {s : State} (h : StateInv s) : OutInv (execDebugClaim s) := inv_debugCore (fun _ _ => inv_setCore) h

theorem inv_execDebugHalt {s : State} (h : StateInv s) : OutInv (execDebugHalt s) := inv_debugCore (fun _ _ => inv_setCore) h

theorem inv_execDebugResume {s : State} (h : StateInv s) : OutInv (execDebugResume s) :=
  inv_debugCore (fun _ _ => inv_resumeCore) h

theorem inv_resumeParked {core : Nat} {s : State} (h : StateInv s) : StateInv (resumeParked core s) :=
  inv_foldl (fun _ _ h1 => inv_foldl (fun _ _ => inv_toTable) (inv_setCore (inv_setGang h1 (h1.banks _)))) h

theorem inv_execDebugResumeParked {s : State} (h : StateInv s) : OutInv (execDebugResumeParked s) :=
  inv_debugCore (fun _ _ => inv_resumeParked) h

theorem inv_execPerfsel {s : State} (h : StateInv s) : OutInv (execPerfsel s) := inv_runOp h (fun _ => inv_setCore h)

theorem inv_execLinkStateChange {kind : LinkKind} {port : Nat} {up : Bool} {s : State} (h : StateInv s) :
    OutInv (execLinkStateChange kind port up s) := by
  unfold execLinkStateChange
  split
  · split
    · split
      · dsimp only
        split
        · trivial
        · exact h
      · dsimp only
        split
        · trivial
        · exact h.same
    · dsimp only
      split
      · trivial
      · exact h.same
  · split
    · split
      · dsimp only
        split
        · trivial
        · exact h
      · dsimp only
        split
        · trivial
        · exact h.same
    · dsimp only
      split
      · trivial
      · exact h.same

end Sys2Proof.Machine
end

section
/-! PROOF. The invariant (R104) and the floating-point instructions (Float.lean): each keeps it. -/
namespace Sys2Proof.Machine

set_option Elab.async false

theorem inv_execFadd {f : F0} {s : State} (h : StateInv s) : OutInv (execFadd f s) := inv_execAlu h

theorem inv_execFaddImm {f : F1} {s : State} (h : StateInv s) : OutInv (execFaddImm f s) := inv_execAlu h

theorem inv_execFsub {f : F0} {s : State} (h : StateInv s) : OutInv (execFsub f s) := inv_execAlu h

theorem inv_execFsubImm {f : F1} {s : State} (h : StateInv s) : OutInv (execFsubImm f s) := inv_execAlu h

theorem inv_execFmul {f : F0} {s : State} (h : StateInv s) : OutInv (execFmul f s) := inv_execAlu h

theorem inv_execFmulImm {f : F1} {s : State} (h : StateInv s) : OutInv (execFmulImm f s) := inv_execAlu h

theorem inv_execFfma {f : F0} {s : State} (h : StateInv s) : OutInv (execFfma f s) := inv_execAlu h

theorem inv_execFfmaImm {f : F1} {s : State} (h : StateInv s) : OutInv (execFfmaImm f s) := inv_execAlu h

theorem inv_execFmin {f : F0} {s : State} (h : StateInv s) : OutInv (execFmin f s) := inv_execAlu h

theorem inv_execFminImm {f : F1} {s : State} (h : StateInv s) : OutInv (execFminImm f s) := inv_execAlu h

theorem inv_execFmax {f : F0} {s : State} (h : StateInv s) : OutInv (execFmax f s) := inv_execAlu h

theorem inv_execFmaxImm {f : F1} {s : State} (h : StateInv s) : OutInv (execFmaxImm f s) := inv_execAlu h

theorem inv_execFabs {f : F0} {s : State} (h : StateInv s) : OutInv (execFabs f s) := inv_execAlu h

theorem inv_execFneg {f : F0} {s : State} (h : StateInv s) : OutInv (execFneg f s) := inv_execAlu h

theorem inv_execFcmp {f : F0} {s : State} (h : StateInv s) : OutInv (execFcmp f s) := inv_execAlu h

theorem inv_execFcmpImm {f : F1} {s : State} (h : StateInv s) : OutInv (execFcmpImm f s) := inv_execAlu h

theorem inv_execFclass {f : F0} {s : State} (h : StateInv s) : OutInv (execFclass f s) := inv_execAlu h

theorem inv_execFdiv {f : F0} {s : State} (h : StateInv s) : OutInv (execFdiv f s) := inv_execAlu h

theorem inv_execFsqrt {f : F0} {s : State} (h : StateInv s) : OutInv (execFsqrt f s) := inv_execAlu h

theorem inv_execFrsq {f : F0} {s : State} (h : StateInv s) : OutInv (execFrsq f s) := inv_execAlu h

theorem inv_execFrcp {f : F0} {s : State} (h : StateInv s) : OutInv (execFrcp f s) := inv_execAlu h

theorem inv_execFexp2 {f : F0} {s : State} (h : StateInv s) : OutInv (execFexp2 f s) := inv_execAlu h

theorem inv_execFlog2 {f : F0} {s : State} (h : StateInv s) : OutInv (execFlog2 f s) := inv_execAlu h

theorem inv_execFrnd {f : F0} {s : State} (h : StateInv s) : OutInv (execFrnd f s) := inv_execAlu h

theorem inv_execDadd {f : F0} {s : State} (h : StateInv s) : OutInv (execDadd f s) := inv_execAlu h

theorem inv_execDmul {f : F0} {s : State} (h : StateInv s) : OutInv (execDmul f s) := inv_execAlu h

theorem inv_execDfma {f : F0} {s : State} (h : StateInv s) : OutInv (execDfma f s) := inv_execAlu h

theorem inv_execDdiv {f : F0} {s : State} (h : StateInv s) : OutInv (execDdiv f s) := inv_execAlu h

theorem inv_execDmin {f : F0} {s : State} (h : StateInv s) : OutInv (execDmin f s) := inv_execAlu h

theorem inv_execDmax {f : F0} {s : State} (h : StateInv s) : OutInv (execDmax f s) := inv_execAlu h

theorem inv_execDsqrt {f : F0} {s : State} (h : StateInv s) : OutInv (execDsqrt f s) := inv_execAlu h

theorem inv_execDcmp {f : F0} {s : State} (h : StateInv s) : OutInv (execDcmp f s) := inv_execAlu h

theorem inv_execHadd2 {f : F0} {s : State} (h : StateInv s) : OutInv (execHadd2 f s) := inv_execAlu h

theorem inv_execHmul2 {f : F0} {s : State} (h : StateInv s) : OutInv (execHmul2 f s) := inv_execAlu h

theorem inv_execHfma2 {f : F0} {s : State} (h : StateInv s) : OutInv (execHfma2 f s) := inv_execAlu h

theorem inv_execBfma2 {f : F0} {s : State} (h : StateInv s) : OutInv (execBfma2 f s) := inv_execAlu h

theorem inv_execCvt {f : F0} {s : State} (h : StateInv s) : OutInv (execCvt f s) := inv_execAlu h

theorem inv_execQdec {f : F0} {s : State} (h : StateInv s) : OutInv (execQdec f s) := inv_execAlu h

theorem inv_execHwcvt {f : F0} {s : State} (h : StateInv s) : OutInv (execHwcvt f s) := inv_execAlu h

theorem inv_execHwcvtSr {f : F0} {s : State} (h : StateInv s) : OutInv (execHwcvtSr f s) := inv_execAlu h

end Sys2Proof.Machine
end

section
/-! PROOF. The invariant (R104) and the matrix engine (Matrix.lean): its instructions and steps keep it. -/
namespace Sys2Proof.Machine

set_option Elab.async false

theorem inv_settleTiles {c : Nat} {s : State} (h : StateInv s) : StateInv (settleTiles c s) := inv_setCluster h

theorem inv_execMxcfg {f : F4} {s : State} (h : StateInv s) : OutInv (execMxcfg f s) := by
  unfold execMxcfg
  refine inv_execOnce (fun _ _ _ _ h1 h2 => ?_) h
  split
  · dsimp only
    split
    · exact h2
    · exact h2
    · split
      · exact inv_retireStatus (inv_setCluster (inv_setGang h2 h1))
      · split
        · exact h2
        · exact inv_retireStatus (inv_setCluster (inv_setGang (inv_setCluster (inv_setGang h2 h1)) h1))
  · dsimp only
    split
    · exact h2
    · exact h2
    · split
      · exact inv_retireStatus (inv_setCluster (inv_setGang h2 h1))
      · split
        · exact h2
        · exact inv_retireStatus (inv_setCluster (inv_setGang (inv_setCluster (inv_setGang h2 h1)) h1))

theorem inv_enqueueMx {e : Env} {act : List Nat} {kind : MxKind} {t : Nat} {dom : Dom} {s : State} (h : StateInv s) :
    StateInv (enqueueMx e act kind t dom s) := inv_setCluster h.same

theorem inv_execMxop {f : F4} {s : State} (h : StateInv s) : OutInv (execMxop f s) :=
  inv_execBlock (fun _ _ _ _ _ _ h2 => inv_retireQueued (inv_enqueueMx h2)) h

theorem inv_queueDrain {f : F4} {disps : List Nat} {s : State} (h : StateInv s) : OutInv (queueDrain f disps s) :=
  inv_execBlock (fun _ _ _ _ _ _ h2 => inv_retireQueued (inv_enqueueMx h2)) h

theorem inv_execMxdrain {f : F4} {s : State} (h : StateInv s) : OutInv (execMxdrain f s) := inv_queueDrain h

theorem inv_sendTile {elem : Nat → Quad} {op : MxOp} {h bin : Nat} {s : State} (hs : StateInv s) : StateInv (sendTile elem op h bin s) :=
  hs.same

theorem inv_startDrain {c q : Nat} {op : MxOp} {b : DrainBlk} {s : State} (h : StateInv s) : StateInv (startDrain c q op b s) := by
  unfold startDrain
  split
  · split
    · split
      · exact inv_sendDrain h.same
      · split
        · dsimp only
          split
          · exact inv_getD h (inv_raiseWave h)
          · exact inv_getD h (inv_raiseWave h)
        · split
          · dsimp only
            split
            · exact inv_getD h (inv_raiseWave h)
            · exact inv_endDrain h
          · dsimp only
            split
            · exact inv_getD h (inv_raiseWave h)
            · exact inv_foldl (fun _ _ => inv_sendTile) h.same
    · split
      · exact inv_sendDrain h.same
      · split
        · dsimp only
          split
          · exact inv_getD h (inv_raiseWave h)
          · exact inv_getD h (inv_raiseWave h)
        · split
          · dsimp only
            split
            · exact inv_getD h (inv_raiseWave h)
            · exact inv_endDrain h
          · dsimp only
            split
            · exact inv_getD h (inv_raiseWave h)
            · exact inv_foldl (fun _ _ => inv_sendTile) h.same
  · split
    · split
      · exact inv_sendDrain h.same
      · split
        · dsimp only
          split
          · exact inv_getD (inv_setCluster h) (inv_raiseWave (inv_setCluster h))
          · exact inv_getD (inv_setCluster h) (inv_raiseWave (inv_setCluster h))
        · split
          · dsimp only
            split
            · exact inv_getD (inv_setCluster h) (inv_raiseWave (inv_setCluster h))
            · exact inv_endDrain (inv_setCluster h)
          · dsimp only
            split
            · exact inv_getD (inv_setCluster h) (inv_raiseWave (inv_setCluster h))
            · exact inv_foldl (fun _ _ => inv_sendTile) h.same
    · split
      · exact inv_sendDrain h.same
      · split
        · dsimp only
          split
          · exact inv_getD (inv_setCluster h) (inv_raiseWave (inv_setCluster h))
          · exact inv_getD (inv_setCluster h) (inv_raiseWave (inv_setCluster h))
        · split
          · dsimp only
            split
            · exact inv_getD (inv_setCluster h) (inv_raiseWave (inv_setCluster h))
            · exact inv_endDrain (inv_setCluster h)
          · dsimp only
            split
            · exact inv_getD (inv_setCluster h) (inv_raiseWave (inv_setCluster h))
            · exact inv_foldl (fun _ _ => inv_sendTile) h.same

theorem inv_execMatrixOperationStart {c : Nat} {s : State} (h : StateInv s) : OutInv (execMatrixOperationStart c s) := by
  unfold execMatrixOperationStart
  dsimp only
  split
  · split
    · trivial
    · split
      · exact inv_setCluster h
      · exact inv_settleTiles (inv_startDrain (inv_setCluster h))
  · trivial

theorem inv_execMxopComplete {c : Nat} {s : State} (h : StateInv s) : OutInv (execMxopComplete c s) := by
  unfold execMxopComplete
  dsimp only
  split
  · split
    · exact inv_settleTiles (inv_syncBytes (inv_setCluster h))
    · trivial
  · trivial

theorem inv_execMatrixDrainComplete {op : Nat} {s : State} (h : StateInv s) : OutInv (execMatrixDrainComplete op s) := by
  unfold execMatrixDrainComplete
  split
  next hc =>
    split
    · exact inv_settleTiles (OutInv.of_eq (inv_completeDrain h) hc)
    · exact OutInv.of_eq (inv_completeDrain h) hc
  · exact inv_completeDrain h

end Sys2Proof.Machine
end

section
/-! PROOF. The invariant (R104) and haul chains (Haul.lean): each instruction and step keeps it. -/
namespace Sys2Proof.Machine

set_option Elab.async false

theorem inv_setHandle {crew h : Nat} {v : Handle} {s : State} (hs : StateInv s) : StateInv (setHandle crew h v s) := inv_setCrew hs

theorem inv_execHchain {f : F4} {s : State} (h : StateInv s) : OutInv (execHchain f s) := by
  unfold execHchain
  refine inv_execBlock (fun _ _ _ _ _ _ h2 => ?_) h
  dsimp only
  split
  · exact inv_retireStatus h2
  · exact inv_setHandle (inv_scratchClear (inv_retire h2.same))

theorem inv_execHchainPublished {crew h : Nat} {s : State} (hs : StateInv s) : OutInv (execHchainPublished crew h s) := by
  unfold execHchainPublished
  dsimp only
  split
  · trivial
  · exact inv_foldl (fun _ _ => inv_setFibre) (inv_setHandle hs)

theorem inv_execHsend {f : F4} {s : State} (h : StateInv s) : OutInv (execHsend f s) := inv_queueDrain h

theorem inv_execHcast {f : F4} {s : State} (h : StateInv s) : OutInv (execHcast f s) := inv_queueDrain h

theorem inv_sendWords {f : F4} {e : Env} {fids : List Nat} {s : State} (h : StateInv s) : StateInv (sendWords f e fids s) :=
  inv_foldl (fun _ _ h1 => h1.same) h

theorem inv_execHsendv {f : F4} {s : State} (h : StateInv s) : OutInv (execHsendv f s) := by
  unfold execHsendv
  refine inv_issue h (fun _ _ _ => inv_noScalar h) fun _ _ _ _ h2 => ?_
  refine inv_forbidInTxn h2 ?_
  refine inv_orTrap h2 ?_
  split
  · exact inv_splitParked h2
  · split
    · dsimp only
      split
      · exact h2
      · exact inv_takeTrap h2
      · exact inv_getD (inv_sendWords (inv_retireQueued h2)) (inv_raiseWave (inv_sendWords (inv_retireQueued h2)))
    · dsimp only
      split
      · exact inv_takeTrap (inv_sendWords h2)
      · exact inv_takeTrap h2
      · exact inv_getD (inv_sendWords (inv_retireQueued h2)) (inv_raiseWave (inv_sendWords (inv_retireQueued h2)))

theorem inv_addToBin {crew h : Nat} {p : Packet} {words : List Quad} {ovf : Bool} {bytes : Nat} {s : State} (hs : StateInv s) :
    StateInv (addToBin crew h p words ovf bytes s) := inv_syncBytes (inv_setHandle (inv_engineWrite hs))

theorem inv_execHaulPacketArrival {ids : List Nat} {s : State} (h : StateInv s) : OutInv (execHaulPacketArrival ids s) := by
  unfold execHaulPacketArrival
  dsimp only
  split
  · trivial
  · split
    · trivial
    · split
      · exact inv_addToBin h.same
      · exact h.same

theorem inv_settleHandle {crew h : Nat} {s : State} (hs : StateInv s) : StateInv (settleHandle crew h s) := by
  unfold settleHandle
  split
  · exact inv_setHandle hs
  · exact hs

theorem inv_rejectSender {a : HaulAck} {s : State} (h : StateInv s) : StateInv (rejectSender a s) := by
  unfold rejectSender
  split
  next hc =>
    exact OptInv.of_eq (inv_raiseWave h) hc
  · exact inv_report h

theorem inv_answerDrain {a : HaulAck} {s : State} (h : StateInv s) : StateInv (answerDrain a s) := by
  unfold answerDrain
  split
  · exact h
  · dsimp only
    split
    · exact inv_settleTiles (inv_endDrain h)
    · exact h.same

theorem inv_execHaulAcknowledgement {id : Nat} {s : State} (h : StateInv s) : OutInv (execHaulAcknowledgement id s) := by
  unfold execHaulAcknowledgement
  split
  · trivial
  · exact inv_settleHandle (inv_answerDrain (inv_ite h.same (inv_rejectSender h.same)))

theorem inv_execHdrain {f : F4} {s : State} (h : StateInv s) : OutInv (execHdrain f s) :=
  inv_execBlock (fun _ _ _ _ _ _ h2 => inv_sendDrain (inv_ite (inv_retireQueued h2.same) (inv_setHandle (inv_scratchClear
    (inv_retireQueued h2.same))))) h

theorem inv_execHaulDrainComplete {op : Nat} {s : State} (h : StateInv s) : OutInv (execHaulDrainComplete op s) := inv_completeDrain h

theorem inv_execHfree {f : F4} {s : State} (h : StateInv s) : OutInv (execHfree f s) := by
  unfold execHfree
  refine inv_execOnce (fun _ _ _ _ _ h2 => ?_) h
  split
  · exact h2
  · exact inv_settleHandle (inv_setHandle (inv_retireQueued h2))

end Sys2Proof.Machine
end

section
/-! PROOF. The invariant (R104) and resets, leases, scrub and the operator's commands (Management.lean): each keeps it. -/
namespace Sys2Proof.Machine

set_option Elab.async false

theorem inv_setMgmt {m : Mgmt} {s : State} (h : StateInv s) : StateInv (setMgmt m s) := h.same

theorem inv_retireFirst {gid : Nat} {s : State} (h : StateInv s) : StateInv (retireFirst gid s) := by
  unfold retireFirst
  split
  next hc =>
    split
    · exact OutInv.of_eq (inv_execGangEnd h) hc
    · exact h
  · exact h

theorem inv_failCore {core : Nat} {s : State} (h : StateInv s) : StateInv (failCore core s) := by
  unfold failCore
  refine inv_foldl (fun _ _ h1 => ?_) h
  dsimp only
  split
  · exact inv_failTask (inv_retireFirst h1)
  · exact inv_retireFirst h1

theorem inv_unmapDerrick {k : Nat} {s : State} (h : StateInv s) : StateInv (unmapDerrick k s) := h.same

theorem inv_fenceUnit {kind : UnitKind} {i : Nat} {s : State} (h : StateInv s) : StateInv (fenceUnit kind i s) := by
  unfold fenceUnit
  split
  · exact h
  · split
    · exact inv_failCore (inv_logError h.same)
    · exact inv_foldl (fun _ _ => inv_failCore) (inv_logError h.same)
    · exact inv_wakeAll (inv_logError h.same)
    · exact inv_logError h.same
    · exact inv_unmapDerrick (inv_logError h.same)

theorem inv_resetPackage {s : State} (h : StateInv s) : StateInv (resetPackage s) :=
  { resetMeetsInvariant with mem := h.mem, host := h.host, peer := h.peer, saves := h.saves }

theorem inv_execPackageReset {s : State} (h : StateInv s) : OutInv (execPackageReset s) := inv_resetPackage h

theorem inv_writeFlash {slot off : Nat} {bs : List Byte} {s : State} (h : StateInv s) : OutInv (writeFlash slot off bs s) := by
  unfold writeFlash
  split
  · trivial
  · split
    · exact h
    · exact inv_setMgmt h

theorem inv_writeSelector {n : Nat} {s : State} (h : StateInv s) : OutInv (writeSelector n s) := by
  unfold writeSelector
  split
  · trivial
  · exact inv_setMgmt h

theorem inv_bootImage {s : State} (h : StateInv s) : StateInv (bootImage s) := by
  unfold bootImage
  dsimp only
  split
  · split
    · exact inv_setMgmt h
    · exact inv_setMgmt h
  · split
    · exact inv_setMgmt h
    · exact inv_setMgmt h

/-- Only the bytes of some addresses stay. -/
theorem StateInv.keepBytes {s : State} (h : StateInv s) (q : Host.Cell → Bool) : StateInv { s with mem := s.mem.filter q } :=
  { h with mem := filter_wf _ h.mem }

theorem inv_scrubClassState {c : Nat} {s : State} (h : StateInv s) : StateInv (scrubClassState c s) := by
  unfold scrubClassState
  dsimp only
  split
  case h_1 => exact (h.keepBytes _).same
  case h_4 => exact { h with gangs := fun _ hg => nomatch hg }
  case h_14 => exact { h with saved := fun _ hc => nomatch hc }
  case h_15 => exact inv_setMgmt h
  case h_16 => exact (h.keepBytes _).same
  case h_17 => exact (h.keepBytes _).same
  all_goals exact h.same

theorem inv_endScrub {s : State} (h : StateInv s) : StateInv (endScrub s) := inv_setMgmt h.same

theorem inv_scrubStep {s : State} (h : StateInv s) : StateInv (scrubStep s) := by
  unfold scrubStep
  dsimp only
  split
  · exact inv_setMgmt (inv_setMgmt (inv_foldl (fun _ _ => inv_fenceUnit) (inv_scrubClassState h)))
  · exact inv_endScrub (inv_setMgmt (inv_foldl (fun _ _ => inv_fenceUnit) (inv_scrubClassState h)))

theorem inv_romTurn {s : State} (h : StateInv s) : OutInv (romTurn s) := by
  unfold romTurn
  split
  · trivial
  · split
    · split
      · exact inv_setMgmt h
      · split
        · trivial
        · exact inv_bootImage h
    · exact inv_scrubStep h
    · trivial

theorem inv_manage {cmd status : Nat} {data : List Byte} {s : State} (h : StateInv s) : StateInv (manage cmd status data s) := h.same

theorem inv_answerCmd {cmd : Nat} {operands : Bool} {data : List Byte} {go : State → State} {s : State}
    (hgo : ∀ x0, StateInv x0 → StateInv (go x0)) (h : StateInv s) : OutInv (answerCmd cmd operands data go s) := by
  unfold answerCmd
  split
  · exact inv_manage h
  · split
    · exact inv_manage h
    · exact inv_manage (hgo _ h)

theorem inv_execLeasereset {nonce : BitVec 256} {flags : Byte} {s : State} (h : StateInv s) : OutInv (execLeasereset nonce flags s) :=
  inv_answerCmd (fun _ => inv_setMgmt) h

theorem inv_execStatus {s : State} (h : StateInv s) : OutInv (execStatus s) := inv_answerCmd (fun _ h1 => h1) h

theorem inv_execGetrecord {off len : Nat} {s : State} (h : StateInv s) : OutInv (execGetrecord off len s) :=
  inv_answerCmd (fun _ h1 => h1) h

theorem inv_execFencemap {s : State} (h : StateInv s) : OutInv (execFencemap s) := inv_answerCmd (fun _ h1 => h1) h

theorem inv_fenceset {kind i : Nat} {go : UnitKind → State → State} {s : State} (hgo : ∀ x0 x1, StateInv x1 → StateInv (go x0 x1))
    (h : StateInv s) : OutInv (fenceset kind i go s) := by
  unfold fenceset
  split
  · exact inv_answerCmd (fun _ h1 => hgo _ _ h1) h
  · exact inv_answerCmd (fun _ h1 => h1) h

theorem inv_execFencesetPin {kind i : Nat} {s : State} (h : StateInv s) : OutInv (execFencesetPin kind i s) :=
  inv_fenceset (fun _ _ h1 => inv_fenceUnit (inv_setMgmt h1)) h

theorem inv_execFencesetUnpin {kind i : Nat} {s : State} (h : StateInv s) : OutInv (execFencesetUnpin kind i s) :=
  inv_fenceset (fun _ _ => inv_setMgmt) h

theorem inv_execAgeread {slab : Nat} {s : State} (h : StateInv s) : OutInv (execAgeread slab s) := inv_answerCmd (fun _ h1 => h1) h

theorem inv_execErrlog {index : Nat} {s : State} (h : StateInv s) : OutInv (execErrlog index s) := by
  unfold execErrlog
  split
  · exact inv_answerCmd (fun _ h1 => h1) h
  · exact inv_answerCmd (fun _ h1 => h1) h

theorem inv_execIdcert {off len : Nat} {s : State} (h : StateInv s) : OutInv (execIdcert off len s) := inv_answerCmd (fun _ h1 => h1) h

theorem inv_execOpimage {off : Nat} {data : List Byte} {s : State} (h : StateInv s) : OutInv (execOpimage off data s) :=
  inv_answerCmd (fun _ => inv_setMgmt) h

theorem inv_execUnknownManagementCommand {cmd : Byte} {s : State} (h : StateInv s) : OutInv (execUnknownManagementCommand cmd s) := by
  unfold execUnknownManagementCommand
  dsimp only
  split
  · exact inv_manage h
  · exact inv_answerCmd (fun _ h1 => h1) h

theorem inv_framed {code : Nat} {msg body : List Byte} {s : State} (h : StateInv s) : OutInv (framed code msg body s) := h.same

theorem inv_execMctpControlMessage {msg : List Byte} {s : State} (h : StateInv s) : OutInv (execMctpControlMessage msg s) :=
  inv_framed h

theorem inv_execGetVersion {msg : List Byte} {s : State} (h : StateInv s) : OutInv (execGetVersion msg s) := inv_framed h

theorem inv_execGetCapabilities {msg : List Byte} {s : State} (h : StateInv s) : OutInv (execGetCapabilities msg s) := inv_framed h

theorem inv_execNegotiateAlgorithms {msg : List Byte} {s : State} (h : StateInv s) : OutInv (execNegotiateAlgorithms msg s) :=
  inv_framed h

theorem inv_execGetDigests {msg : List Byte} {s : State} (h : StateInv s) : OutInv (execGetDigests msg s) := inv_framed h

theorem inv_execGetCertificate {msg : List Byte} {s : State} (h : StateInv s) : OutInv (execGetCertificate msg s) := inv_framed h

theorem inv_execChallenge {msg : List Byte} {s : State} (h : StateInv s) : OutInv (execChallenge msg s) := inv_framed h

theorem inv_execGetMeasurements {msg : List Byte} {s : State} (h : StateInv s) : OutInv (execGetMeasurements msg s) := inv_framed h

theorem inv_mergeError {kind : UnitKind} {i pa : Nat} {s : State} (h : StateInv s) : StateInv (mergeError kind i pa s) := by
  unfold mergeError
  dsimp only
  split
  · exact inv_setMgmt h
  · exact inv_logError h

theorem inv_countError {kind : UnitKind} {i : Nat} {s : State} (h : StateInv s) : StateInv (countError kind i s).2 := inv_setMgmt h

theorem inv_execCorrectedError {kind : UnitKind} {i pa : Nat} {s : State} (h : StateInv s) : OutInv (execCorrectedError kind i pa s) := by
  unfold execCorrectedError
  dsimp only
  split
  · trivial
  · split
    · exact inv_fenceUnit (inv_countError (inv_mergeError h))
    · exact inv_countError (inv_mergeError h)

theorem inv_poisonL1 {core ctx sector : Nat} {s : State} (h : StateInv s) : StateInv (poisonL1 core ctx sector s) := h.same

theorem inv_execUncorrectableDataError {site : DataSite} {s : State} (h : StateInv s) : OutInv (execUncorrectableDataError site s) := by
  unfold execUncorrectableDataError
  split
  · split
    · trivial
    · exact inv_logError h.same
  · split
    · trivial
    · exact inv_logError (inv_scratchMark h)
  · split
    · trivial
    · exact inv_logError (inv_setGang h (h.banks _))
  · split
    · trivial
    · exact inv_logError (inv_poisonL1 h)
  · split
    · trivial
    · exact inv_logError h.same
  · split
    · trivial
    · exact inv_logError (inv_setSlab h)
  · split
    · trivial
    · exact inv_logError (inv_setFibre h)
  · split
    · trivial
    · exact inv_logError (inv_setCluster h)

theorem inv_execControlStateError {kind : UnitKind} {i : Nat} {s : State} (h : StateInv s) : OutInv (execControlStateError kind i s) := by
  unfold execControlStateError
  split
  · trivial
  · exact inv_fenceUnit h

theorem inv_execPatrolScrub {home : Nat} {s : State} (h : StateInv s) : OutInv (execPatrolScrub home s) := by
  unfold execPatrolScrub
  split
  · trivial
  · exact h

theorem inv_execAgeingUpdate {slab : Nat} {s : State} (h : StateInv s) : OutInv (execAgeingUpdate slab s) := by
  unfold execAgeingUpdate
  split
  · trivial
  · exact inv_setMgmt h

end Sys2Proof.Machine
end

section
/-! PROOF. The invariant (R104) and the match from rows to meanings (Dispatch.lean): every row keeps it. -/
namespace Sys2Proof.Machine

set_option Elab.async false

theorem inv_exec {i : Instr} {s : State} (h : StateInv s) : OutInv (exec i s) := by
  unfold exec
  split
  · exact inv_execIadd h
  · exact inv_execIaddImm h
  · exact inv_execIsub h
  · exact inv_execIsubImm h
  · exact inv_execImul h
  · exact inv_execImulImm h
  · exact inv_execImulh h
  · exact inv_execImulhImm h
  · exact inv_execImad h
  · exact inv_execImadImm h
  · exact inv_execIdiv h
  · exact inv_execIrem h
  · exact inv_execImin h
  · exact inv_execIminImm h
  · exact inv_execImax h
  · exact inv_execImaxImm h
  · exact inv_execIabs h
  · exact inv_execIneg h
  · exact inv_execAnd h
  · exact inv_execAndImm h
  · exact inv_execOr h
  · exact inv_execOrImm h
  · exact inv_execXor h
  · exact inv_execXorImm h
  · exact inv_execAndn h
  · exact inv_execAndnImm h
  · exact inv_execNot h
  · exact inv_execShl h
  · exact inv_execShlImm h
  · exact inv_execShr h
  · exact inv_execShrImm h
  · exact inv_execSar h
  · exact inv_execSarImm h
  · exact inv_execRol h
  · exact inv_execRolImm h
  · exact inv_execRor h
  · exact inv_execRorImm h
  · exact inv_execBfe h
  · exact inv_execBfeImm h
  · exact inv_execBfi h
  · exact inv_execBfiImm h
  · exact inv_execPopc h
  · exact inv_execClz h
  · exact inv_execCtz h
  · exact inv_execBrev h
  · exact inv_execLea h
  · exact inv_execMov h
  · exact inv_execMovi h
  · exact inv_execSel h
  · exact inv_execSelImm h
  · exact inv_execIcmp h
  · exact inv_execIcmpImm h
  · exact inv_execIset h
  · exact inv_execIsetImm h
  · exact inv_execPand h
  · exact inv_execPor h
  · exact inv_execPxor h
  · exact inv_execPnot h
  · exact inv_execPmov h
  · exact inv_execPmovToRegister h
  · exact inv_execPmovFromRegister h
  · exact inv_execIdot4 h
  · exact inv_execIdot4Imm h
  · exact inv_execFadd h
  · exact inv_execFaddImm h
  · exact inv_execFsub h
  · exact inv_execFsubImm h
  · exact inv_execFmul h
  · exact inv_execFmulImm h
  · exact inv_execFfma h
  · exact inv_execFfmaImm h
  · exact inv_execFmin h
  · exact inv_execFminImm h
  · exact inv_execFmax h
  · exact inv_execFmaxImm h
  · exact inv_execFabs h
  · exact inv_execFneg h
  · exact inv_execFcmp h
  · exact inv_execFcmpImm h
  · exact inv_execFclass h
  · exact inv_execFdiv h
  · exact inv_execFsqrt h
  · exact inv_execFrsq h
  · exact inv_execFrcp h
  · exact inv_execFexp2 h
  · exact inv_execFlog2 h
  · exact inv_execFrnd h
  · exact inv_execDadd h
  · exact inv_execDmul h
  · exact inv_execDfma h
  · exact inv_execDdiv h
  · exact inv_execDsqrt h
  · exact inv_execDcmp h
  · exact inv_execDmin h
  · exact inv_execDmax h
  · exact inv_execHadd2 h
  · exact inv_execHmul2 h
  · exact inv_execHfma2 h
  · exact inv_execBfma2 h
  · exact inv_execCvt h
  · exact inv_execQdec h
  · exact inv_execHwcvt h
  · exact inv_execHwcvtSr h
  · exact inv_execLshfl h
  · exact inv_execLshflImm h
  · exact inv_execLshfu h
  · exact inv_execLshfuImm h
  · exact inv_execLshfd h
  · exact inv_execLshfdImm h
  · exact inv_execLxor h
  · exact inv_execLxorImm h
  · exact inv_execLbcast h
  · exact inv_execLbcastImm h
  · exact inv_execLpfx h
  · exact inv_execLred h
  · exact inv_execVote h
  · exact inv_execBallot h
  · exact inv_execMatch h
  · exact inv_execElect h
  · exact inv_execLget h
  · exact inv_execLput h
  · exact inv_execBra h
  · exact inv_execBrx h
  · exact inv_execCall h
  · exact inv_execRet h
  · exact inv_execJoin h
  · exact inv_execSpawn h
  · exact inv_execQuit h
  · exact inv_execYield h
  · exact inv_execBar h
  · exact inv_execBarx h
  · exact inv_execLd h
  · exact inv_execSt h
  · exact inv_execLds h
  · exact inv_execSts h
  · exact inv_execXst h
  · exact inv_execXstCount h
  · exact inv_execLdpl h
  · exact inv_execStpl h
  · exact inv_execPref h
  · exact inv_execFlushr h
  · exact inv_execInvr h
  · exact inv_execAadd h
  · exact inv_execAmin h
  · exact inv_execAmax h
  · exact inv_execAand h
  · exact inv_execAor h
  · exact inv_execAxor h
  · exact inv_execAxchg h
  · exact inv_execAcas h
  · exact inv_execAinc h
  · exact inv_execFence h
  · exact inv_execFencex h
  · exact inv_execTbegin h
  · exact inv_execTend h
  · exact inv_execTabort h
  · exact inv_execTretry h
  · exact inv_execTretryt h
  · exact inv_execTorelse h
  · exact inv_execSwinit h
  · exact inv_execSwexpect h
  · exact inv_execSwarrive h
  · exact inv_execTaskpost h
  · exact inv_execTasktake h
  · exact inv_execTaskdone h
  · exact inv_execSbset h
  · exact inv_execQkeyParent h
  · exact inv_execQkeyChild h
  · exact inv_execQkeyNbr h
  · exact inv_execQfind h
  · exact inv_execQowner h
  · exact inv_execQrefine h
  · exact inv_execQcoarsen h
  · exact inv_execQcost h
  · exact inv_execQrebal h
  · exact inv_execQgen h
  · exact inv_execQsweep h
  · exact inv_execMxcfg h
  · exact inv_execMxop h
  · exact inv_execMxdrain h
  · exact inv_execCpy h
  · exact inv_execCpyp h
  · exact inv_execCpyg h
  · exact inv_execCpys h
  · exact inv_execCpycan h
  · exact inv_execHchain h
  · exact inv_execHsend h
  · exact inv_execHsendv h
  · exact inv_execHcast h
  · exact inv_execHdrain h
  · exact inv_execHfree h
  · exact inv_execSpxi h
  · exact inv_execSpxg h
  · exact inv_execTrap h
  · exact inv_execRett h
  · exact inv_execCsrr h
  · exact inv_execCsrw h
  · exact inv_execCsrx h
  · exact inv_execSread h
  · exact inv_execNop h
  · exact inv_execBrk h
  · exact inv_execPerfr h
  · exact inv_execIllegalInstruction h
  · exact inv_execAsyncTrap h
  · exact inv_execFetchParityMismatch h
  · exact inv_execFetchPageFault h
  · exact inv_execWaveFill h
  · exact inv_execWaveMerge h
  · exact inv_execWaveSlotTimeout h
  · exact inv_execRegisterCompaction h
  · exact inv_execFusedModeChange h
  · exact inv_execGangAdmit h
  · exact inv_execCrewAdmit h
  · exact inv_execTaskDispatch h
  · exact inv_execSweepTaskDispatch h
  · exact inv_execGangEnd h
  · exact inv_execTick h
  · exact inv_execDeliveryReport h
  · exact inv_execCoreSideForward h
  · exact inv_execHomeApplyWrite h
  · exact inv_execHomeServe h
  · exact inv_execCoreSideCopyExpiry h
  · exact inv_execMemoryReply h
  · exact inv_execWriteProbeReply h
  · exact inv_execLoggedAccessFault h
  · exact inv_execTransactionRevalidate h
  · exact inv_execTretrytExpiry h
  · exact inv_execMatrixOperationStart h
  · exact inv_execMxopComplete h
  · exact inv_execMatrixDrainComplete h
  · exact inv_execDrainWriteFault h
  · exact inv_execHchainPublished h
  · exact inv_execHaulPacketArrival h
  · exact inv_execHaulAcknowledgement h
  · exact inv_execHaulDrainComplete h
  · exact inv_execCopyCommandStart h
  · exact inv_execCopySectorLand h
  · exact inv_execCopyFault h
  · exact inv_execMigrationCopyStart h
  · exact inv_execMigrationCopyLand h
  · exact inv_execMigrationComplete h
  · exact inv_execQuarryAccessFault h
  · exact inv_execQuarryCorruption h
  · exact inv_execGangSave h
  · exact inv_execDrainComplete h
  · exact inv_execDeadlineExpiry h
  · exact inv_execQueueDoorbell h
  · exact inv_execQueueMap h
  · exact inv_execQueueIdleUnmap h
  · exact inv_execLaunchPacket h
  · exact inv_execCopyPacket h
  · exact inv_execWaitPacket h
  · exact inv_execWaitPacketWake h
  · exact inv_execWaitPacketTimeout h
  · exact inv_execSignalPacket h
  · exact inv_execGraphPacket h
  · exact inv_execRecordPacket h
  · exact inv_execPacketComplete h
  · exact inv_execNodeStart h
  · exact inv_execNodeComplete h
  · exact inv_execDerrickAccessFault h
  · exact inv_execCompletionRecordWrite h
  · exact inv_execEventRingTimeExpiry h
  · exact inv_execFaultRecordWrite h
  · exact inv_execDcrdb h
  · exact inv_execDcrerrRead h
  · exact inv_execHostRegisterWrite h
  · exact inv_execCommandStart h
  · exact inv_execCtxcreate h
  · exact inv_execCtxdestroy h
  · exact inv_execWinload h
  · exact inv_execQbind h
  · exact inv_execQbindUnbind h
  · exact inv_execQueueset h
  · exact inv_execEvrset h
  · exact inv_execDrain h
  · exact inv_execRestore h
  · exact inv_execResume h
  · exact inv_execDeadline h
  · exact inv_execTlbinv h
  · exact inv_execFaultansReplay h
  · exact inv_execFaultansReflect h
  · exact inv_execFaultansKill h
  · exact inv_execFaultansEnd h
  · exact inv_execPeerset h
  · exact inv_execTierset h
  · exact inv_execKeyload h
  · exact inv_execDebugRelease h
  · exact inv_execDebugClaim h
  · exact inv_execDebugHalt h
  · exact inv_execDebugResume h
  · exact inv_execDebugResumeParked h
  · exact inv_execPerfsel h
  · exact inv_execPackageReset h
  · exact inv_execMctpControlMessage h
  · exact inv_execLeasereset h
  · exact inv_execStatus h
  · exact inv_execGetrecord h
  · exact inv_execFencemap h
  · exact inv_execFencesetPin h
  · exact inv_execFencesetUnpin h
  · exact inv_execAgeread h
  · exact inv_execErrlog h
  · exact inv_execIdcert h
  · exact inv_execOpimage h
  · exact inv_execUnknownManagementCommand h
  · exact inv_execGetVersion h
  · exact inv_execGetCapabilities h
  · exact inv_execNegotiateAlgorithms h
  · exact inv_execGetDigests h
  · exact inv_execGetCertificate h
  · exact inv_execChallenge h
  · exact inv_execGetMeasurements h
  · exact inv_execCorrectedError h
  · exact inv_execUncorrectableDataError h
  · exact inv_execControlStateError h
  · exact inv_execPatrolScrub h
  · exact inv_execAgeingUpdate h
  · exact inv_execLongLatencyCompletion h
  · exact inv_execWriteAcknowledgement h
  · exact inv_execHostMemoryWrite h
  · exact inv_execTlbinvCompletion h
  · exact inv_execEventRingHeadWrite h
  · exact inv_execLinkStateChange h

end Sys2Proof.Machine
end

section
/-! PROOF. The invariant (R104) and turns, chances and the time that passes (Turns.lean): each keeps it, and a tick has at most 128
cycles. -/
namespace Sys2Proof.Machine

set_option Elab.async false

theorem inv_touchFetch {e : Env} {s : State} (h : StateInv s) : StateInv (touchFetch e s) := inv_touchFetchAt h

theorem inv_waveStep {e : Env} {s : State} (h : StateInv s) : OutInv (waveStep e s) := by
  unfold waveStep
  split
  · exact inv_exec h
  · split
    · exact inv_exec (inv_touchFetch h)
    · exact inv_exec (inv_touchFetch h)
    · exact inv_exec (inv_touchFetch h)
    · exact inv_exec h
    · exact inv_fetchWindow h

theorem inv_asWave {core slot : Nat} {s : State} (h : StateInv s) : StateInv (asWave core slot s) := h.same

theorem inv_secondSlot {e : Env} {t : State} (h : StateInv t) : OptInv (secondSlot e t) := by
  unfold secondSlot
  split
  · trivial
  · split
    next hc1 =>
      split
      next hc1 =>
        exact OutInv.of_eq (inv_waveStep h) hc1
      · trivial
    · trivial

theorem inv_pairUp {e : Env} {s : State} {r : Out} (hr : OutInv r) : OutInv (pairUp e s r) := by
  unfold pairUp
  split
  next t =>
    split
    · split
      next hu =>
        split at hu
        · exact (inv_secondSlot hr).of_eq hu
        · cases hu
      · exact inv_perfEvent hr
    · exact hr
  · exact hr

theorem inv_haltedTurn {core slot : Nat} {s : State} (h : StateInv s) : OutInv (haltedTurn core slot s) := by
  unfold haltedTurn
  split
  · trivial
  · dsimp only
    split
    · exact inv_splitParked h
    · trivial

theorem inv_waveTurn {core slot : Nat} {s : State} (h : StateInv s) : OutInv (waveTurn core slot s) := by
  unfold waveTurn
  split
  · trivial
  · split
    · exact inv_haltedTurn h
    · split
      · exact inv_execWaveSlotTimeout h
      · dsimp only
        split
        · split
          · exact inv_pickPath h
          · trivial
        · split
          · exact inv_pairUp (inv_waveStep (inv_asWave h))
          · trivial

theorem inv_runTurn {t : Turn} {s : State} (h : StateInv s) : OutInv (runTurn t s) := by
  unfold runTurn
  split
  · split
    · exact inv_exec h
    · trivial
  · exact inv_waveTurn h
  · exact inv_romTurn h
  · exact inv_writeFlash h
  · exact inv_writeSelector h

theorem inv_firstChance {s : State} {l : List Chance} (hl : ∀ f ∈ l, OutInv (f s)) : OutInv (firstChance s l) := by
  induction l with
  | nil => trivial
  | cons f l ih =>
    have ih := ih fun x hx => hl x (List.mem_cons_of_mem _ hx)
    unfold firstChance
    split
    next ht =>
      split
      · exact ih
      · exact (hl f List.mem_cons_self).of_eq ht
    · exact ih

theorem inv_noteReady {s : State} (h : StateInv s) : StateInv (noteReady s) := h.same

theorem inv_passCycles {s : State} (h : StateInv s) : StateInv (passCycles s) :=
  { h with phase := by have hp := h.phase; simp only [passCycles]; omega }

theorem inv_passTime {s : State} (h : StateInv s) : StateInv (passTime s) :=
  inv_noteReady (inv_passCycles (inv_settleFlushes (inv_serveQuarries h)))

end Sys2Proof.Machine
end

section
/-! PROOF. The invariant (R104) and the step (Step.lean): it keeps it (O55). -/
namespace Sys2Proof.Machine

set_option Elab.async false

theorem inv_afterTurn {o : Out} (h : OutInv o) : OutInv (afterTurn o) := by
  cases o with
  | next s => exact inv_passTime h
  | fault r => trivial
  | refused r => trivial

/-- Each of these keeps the invariant. -/
def AllKeep (l : List Chance) : Prop := ∀ f ∈ l, ∀ s, StateInv s → OutInv (f s)

theorem AllKeep.nil : AllKeep [] := fun _ h => nomatch h

theorem AllKeep.cons {f : Chance} {l : List Chance} (hf : ∀ s, StateInv s → OutInv (f s)) (hl : AllKeep l) : AllKeep (f :: l) :=
  fun _ h => (List.mem_cons.mp h).elim (fun he => he ▸ hf) (hl _)

theorem AllKeep.append {l m : List Chance} (hl : AllKeep l) (hm : AllKeep m) : AllKeep (l ++ m) :=
  fun _ h => (List.mem_append.mp h).elim (hl _) (hm _)

theorem AllKeep.map {α : Type} {l : List α} {f : α → Chance} (hf : ∀ x s, StateInv s → OutInv (f x s)) : AllKeep
    (l.map f) := fun c hc => by
  obtain ⟨x, _, rfl⟩ := List.mem_map.mp hc
  exact hf x

theorem AllKeep.flatten {α : Type} {l : List α} {f : α → List Chance} (hf : ∀ x, AllKeep (f x)) : AllKeep
    (l.map f).flatten := fun c hc => by
  obtain ⟨m, hm, hc⟩ := List.mem_flatten.mp hc
  obtain ⟨x, _, rfl⟩ := List.mem_map.mp hm
  exact hf x c hc

theorem keep_admitChances (s : State) (tid : Nat) (t : Task) : AllKeep (admitChances s tid t) := by
  unfold admitChances
  dsimp only
  split
  · split
    · exact .cons (fun _ => inv_execGangAdmit) .nil
    · exact .nil
  · exact .map fun _ _ => inv_execCrewAdmit

theorem keep_returnChances (s : State) : AllKeep (returnChances s) := .flatten fun _ => .flatten fun _ => .map fun _ _ =>
    inv_execGangAdmit

theorem keep_memoryChances (s : State) : AllKeep (memoryChances s) := by
  refine .append (.append (.append (.append (.map fun r t ht => ?_) (.map fun _ _ => inv_execCoreSideForward))
    (.map fun _ _ => inv_execHomeApplyWrite)) (.map fun _ _ => inv_execWriteAcknowledgement)) (.map fun _ _ => inv_execDeliveryReport)
  cases r.phase with
  | toHome => exact inv_execHomeServe ht
  | faulted y => exact inv_execLoggedAccessFault ht
  | _ =>
    dsimp only
    split
    · exact inv_execWriteProbeReply ht
    · exact inv_execMemoryReply ht

theorem keep_gangChances (s : State) : AllKeep (gangChances s) :=
  .flatten fun _ => .cons (fun _ => inv_execGangEnd) (.flatten fun _ => .map fun _ _ => inv_execLongLatencyCompletion)

theorem keep_engineChances (s : State) : AllKeep (engineChances s) := by
  refine .append (.append (.append (.append
    (.flatten fun _ => .cons (fun _ => inv_execMatrixOperationStart) (.cons (fun _ => inv_execMxopComplete) .nil))
    (.flatten fun _ => .cons (fun _ => inv_execMatrixDrainComplete) (.cons (fun _ => inv_execHaulDrainComplete)
      (.cons (fun _ => inv_execDrainWriteFault) .nil))))
    (.map fun _ _ => inv_execHaulPacketArrival)) (.map fun _ _ => inv_execHaulAcknowledgement)) (.flatten fun c => ?_)
  split
  · exact .nil
  · exact .cons (fun _ => inv_execCopyCommandStart) (.flatten fun _ => .cons (fun _ => inv_execCopySectorLand)
      (.cons (fun _ => inv_execCopyFault) .nil))

theorem keep_coreChances (s : State) : AllKeep (coreChances s) := by
  refine .append (.append (.append
    (.flatten fun _ => .cons (fun _ => inv_execTaskDispatch) (.map fun _ _ => inv_execSweepTaskDispatch))
    (.flatten fun _ => keep_admitChances s _ _)) (.flatten fun c => ?_)) (.map fun _ _ => inv_waveTurn)
  split
  · exact .map fun _ _ => inv_execWaveFill
  · exact .nil

/-- What may happen to a queue. -/
theorem keep_queueRows (q : Nat) : AllKeep ([execQueueMap, execQueueIdleUnmap, execLaunchPacket, execCopyPacket, execWaitPacket,
    execSignalPacket, execGraphPacket, execRecordPacket, execWaitPacketWake, execWaitPacketTimeout, execDerrickAccessFault].map
      (fun f => f q)) :=
  .cons (fun _ => inv_execQueueMap) (.cons (fun _ => inv_execQueueIdleUnmap) (.cons (fun _ => inv_execLaunchPacket)
    (.cons (fun _ => inv_execCopyPacket) (.cons (fun _ => inv_execWaitPacket) (.cons (fun _ => inv_execSignalPacket)
    (.cons (fun _ => inv_execGraphPacket) (.cons (fun _ => inv_execRecordPacket) (.cons (fun _ => inv_execWaitPacketWake)
    (.cons (fun _ => inv_execWaitPacketTimeout) (.cons (fun _ => inv_execDerrickAccessFault) .nil))))))))))

theorem keep_queueChances (s : State) : AllKeep (queueChances s) := by
  refine .append (.append (.flatten fun e => .append (keep_queueRows _) (.flatten fun r => .cons (fun _ => inv_execPacketComplete) ?_))
    (.flatten fun _ => .cons (fun _ => inv_execCompletionRecordWrite) (.cons (fun _ => inv_execEventRingTimeExpiry) .nil)))
    (.cons (fun _ => inv_execFaultRecordWrite) .nil)
  split
  · exact .flatten fun _ => .cons (fun _ => inv_execNodeStart) (.cons (fun _ => inv_execNodeComplete) .nil)
  · exact .nil

/-- What may happen to the command ring's commands. -/
theorem keep_commandRows (i : W64) : AllKeep [execCtxcreate, execCtxdestroy, execWinload, execQbind, execQbindUnbind, execQueueset,
    execEvrset,
    execDrain, execRestore, execResume, execDeadline, execTlbinv, execFaultansReplay, execFaultansReflect, execFaultansKill,
      execFaultansEnd,
    execPeerset, execTierset, execKeyload, execDebugRelease, execDebugClaim, execDebugHalt, execDebugResume, execDebugResumeParked,
    execPerfsel, execTlbinvCompletion i] :=
  .cons (fun _ => inv_execCtxcreate) (.cons (fun _ => inv_execCtxdestroy) (.cons (fun _ => inv_execWinload)
    (.cons (fun _ => inv_execQbind) (.cons (fun _ => inv_execQbindUnbind) (.cons (fun _ => inv_execQueueset)
    (.cons (fun _ => inv_execEvrset) (.cons (fun _ => inv_execDrain) (.cons (fun _ => inv_execRestore)
    (.cons (fun _ => inv_execResume) (.cons (fun _ => inv_execDeadline) (.cons (fun _ => inv_execTlbinv)
    (.cons (fun _ => inv_execFaultansReplay) (.cons (fun _ => inv_execFaultansReflect) (.cons (fun _ => inv_execFaultansKill)
    (.cons (fun _ => inv_execFaultansEnd) (.cons (fun _ => inv_execPeerset) (.cons (fun _ => inv_execTierset)
    (.cons (fun _ => inv_execKeyload) (.cons (fun _ => inv_execDebugRelease) (.cons (fun _ => inv_execDebugClaim)
    (.cons (fun _ => inv_execDebugHalt) (.cons (fun _ => inv_execDebugResume) (.cons (fun _ => inv_execDebugResumeParked)
    (.cons (fun _ => inv_execPerfsel) (.cons (fun _ => inv_execTlbinvCompletion) .nil)))))))))))))))))))))))))

theorem keep_commandChances (s : State) : AllKeep (commandChances s) :=
  .append (.append (.append (.cons (fun _ => inv_execCommandStart) .nil) (.flatten fun _ => keep_commandRows _))
    (.map fun _ _ => inv_execGangSave))
    (.flatten fun _ => .cons (fun _ => inv_execDrainComplete) (.cons (fun _ => inv_execDeadlineExpiry) .nil))

theorem keep_quarryChances (s : State) : AllKeep (quarryChances s) := by
  refine .flatten fun q => .cons (fun _ => inv_execQuarryAccessFault) (.cons (fun _ => inv_execQuarryCorruption) ?_)
  split
  · exact .cons (fun _ => inv_execMigrationComplete) (.append (.map fun _ _ => inv_execMigrationCopyLand)
      (.map fun _ _ => inv_execMigrationCopyStart))
  · exact .nil

/-- Whatever the default scheduler tries keeps the invariant. -/
theorem keep_defaultChances (s : State) : AllKeep (defaultChances s) := by
  unfold defaultChances
  split
  · exact .cons (fun _ => inv_execPackageReset) .nil
  · split
    · exact .cons (fun _ => inv_romTurn) (.cons (fun _ => inv_execTick) .nil)
    · have hl := (((((((keep_memoryChances s).append (keep_gangChances s)).append (keep_engineChances s)).append
        (keep_coreChances s)).append
        (keep_returnChances s)).append (keep_queueChances s)).append (keep_commandChances s)).append (keep_quarryChances s)
      exact .append (.append (fun f hf => hl f (List.mem_of_mem_drop hf)) (fun f hf => hl f (List.mem_of_mem_take hf)))
        (.cons (fun _ => inv_execTick) .nil)

theorem inv_step {s : State} (h : StateInv s) : OutInv (step s) := by
  unfold step
  split
  · exact inv_afterTurn (inv_runTurn h.same)
  · exact inv_afterTurn (inv_firstChance fun f hf => keep_defaultChances s f hf s h)

/-- Settles O55: every function that a step is made of keeps the invariant, so what the step answers meets it. -/
theorem stepKeepsInvariant : Obligations.StepKeepsInvariant := fun _ _ h ht => (inv_step h).of_eq ht

end Sys2Proof.Machine
end

section
/-! PROOF. The requests of a core's accesses (R215, R218): what the caches do to a request on its way leaves what the instruction asked for, and an access
that leaves its core adds one request. -/
namespace Sys2Proof.Machine

/-- What an instruction asks for in a request: everything but its identifier, what it may fill, the bytes that caches hand over to it (R102), and
the stores over its own. -/
def reqPart (r : Req) : Req := { r with id := 0, noFill := false, sector := 0, sectorPoison := false, above := [] }

/-- The requests of the machine, as their instructions asked for them. -/
def reqParts (s : State) : List Req := s.reqs.map reqPart

/-! ### Caches -/

theorem reqs_pushWrite (slab : Nat) (m : WriteMsg) (s : State) : (pushWrite slab m s).reqs = s.reqs := rfl

theorem reqs_wcFlush (core : Nat) (q : WcEntry → Bool) (s : State) : (wcFlush core q s).reqs = s.reqs :=
  foldl_part (fun s : State => s.reqs) (fun s _ => reqs_pushWrite _ _ s) _ s

theorem reqs_sendDirty (core ctx sector : Nat) (v : L1Sector) (s : State) : (sendDirty core ctx sector v s).reqs = s.reqs := by
  unfold sendDirty
  split
  · rfl
  · exact reqs_pushWrite ..

theorem reqs_l1Hit (core ctx ia : Nat) (s : State) : (l1Hit core ctx ia s).reqs = s.reqs := by
  unfold l1Hit
  split <;> rfl

/-- A part of a request that does not see what its reply may fill, nor the bytes that caches hand over to it. -/
def FillBlind {α : Type} (q : Req → α) : Prop := ∀ r n sec p, q { r with noFill := n, sector := sec, sectorPoison := p } = q r

section
variable {α : Type} {q : Req → α} (hq : FillBlind q)
include hq

theorem handOver_reqs (k ctx sector : Nat) (v : L1Sector) (s : State) : (handOver k ctx sector v s).reqs.map q = s.reqs.map q := by
  unfold handOver
  split
  · rfl
  · refine (List.map_map ..).trans (List.map_congr_left fun r _ => ?_)
    dsimp only [Function.comp]
    split
    · exact hq r r.noFill _ _
    · rfl

theorem cleanSector_reqs (core ctx ia : Nat) (drop : Bool) (s : State) : (cleanSector core ctx ia drop s).reqs.map q = s.reqs.map q := by
  unfold cleanSector
  split
  · rfl
  next l _ =>
    have hsent : (sendDirty core ctx (ia / 128) (sectorOfLine l ia) (handOver (l1Key s core ia) ctx (ia / 128) (sectorOfLine l ia) s)).reqs.map q =
        s.reqs.map q := (congrArg (List.map q) (reqs_sendDirty ..)).trans (handOver_reqs hq ..)
    dsimp only
    generalize setSectorOfLine l ia _ = l1
    split
    · exact hsent
    · exact hsent

theorem blockIf_reqs (core : Nat) (p : Req → Bool) (s : State) : (blockIf core p s).reqs.map q = s.reqs.map q := by
  refine (List.map_map ..).trans (List.map_congr_left fun r _ => ?_)
  dsimp only [Function.comp]
  split
  · exact hq r true r.sector r.sectorPoison
  · rfl

theorem clearWay_reqs (r : Req) (s : State) : (clearWay r s).reqs.map q = s.reqs.map q :=
  (congrArg (List.map q) (reqs_wcFlush ..)).trans ((blockIf_reqs hq ..).trans (cleanSector_reqs hq ..))

theorem loseLine_reqs (k : Nat) (l : L1Line) (s : State) : (loseLine k l s).reqs.map q = s.reqs.map q := by
  unfold loseLine sendLine
  rw [reqs_sendDirty, reqs_sendDirty, handOver_reqs hq, handOver_reqs hq]

theorem cleanAll_reqs (core : Nat) (drop : Bool) (s : State) : (cleanAll core drop s).reqs.map q = s.reqs.map q := by
  have hlines : ∀ (k : Nat) (ls : List L1Line) (v : KMap (List L1Line)) (s : State),
      ({ ls.foldl (fun s l => loseLine k l s) s with l1 := v } : State).reqs.map q = s.reqs.map q := fun k ls v s =>
    foldl_part (fun s : State => s.reqs.map q) (fun s l => loseLine_reqs hq k l s) ls s
  unfold cleanAll
  dsimp only
  split
  · exact (blockIf_reqs hq ..).trans (foldl_part (fun s : State => s.reqs.map q) (fun s k => hlines ..) _ s)
  · exact foldl_part (fun s : State => s.reqs.map q) (fun s k => hlines ..) _ s

theorem acquireEffect_reqs (core : Nat) (sc : BitVec 2) (s : State) : (acquireEffect core sc s).reqs.map q = s.reqs.map q := by
  unfold acquireEffect
  dsimp only
  split
  · rfl
  · split
    · exact cleanAll_reqs hq ..
    · exact cleanAll_reqs hq ..

end

theorem fillBlind_reqPart : FillBlind reqPart := fun _ _ _ _ => rfl

/-! ### An access leaves its core -/

theorem reqParts_addReq (r : Req) (s : State) : reqParts (addReq r s) = reqParts s ++ [reqPart r] := List.map_append

theorem reqParts_sendOp (r : Req) (s : State) : reqParts (sendOp r s) = reqParts s ++ [reqPart r] := reqParts_addReq r s

theorem reqParts_startAtomic (r : Req) (s : State) : reqParts (startAtomic r s) = reqParts s ++ [reqPart r] :=
  (reqParts_sendOp r _).trans (congrArg (· ++ [reqPart r]) (clearWay_reqs fillBlind_reqPart r s))

theorem reqs_closeEntry (key entry : Nat) (s : State) : (closeEntry key entry s).reqs = s.reqs := by
  unfold closeEntry
  split <;> rfl

section
variable {e : Env} {act l : List Nat} {is : Nat → Req → Prop} {α : Type} {f : State → α → State} {acc : Nat → α}

/-- Every executing fibre has its request, when each access has added one and the caches have changed no part of those before. -/
theorem requests_of_parts (his : ∀ fid r, is fid (reqPart r) → is fid r)
    (hf : ∀ s fid, ∃ r, reqParts (f s (acc fid)) = reqParts s ++ [reqPart r] ∧ r.gang = e.gid ∧ r.fid = fid ∧ r.pc = e.pc ∧ is fid (reqPart r))
    (hl : ∀ fid ∈ act, fid ∈ l) (s u : State) : Requests e act is { s with reqs := [] } ((l.map acc).foldl f u) := by
  refine ⟨fun _ hr => (nomatch hr), fun fid hfid => ?_⟩
  have hparts : ∃ p ∈ reqParts ((l.map acc).foldl f u), p.gang = e.gid ∧ p.fid = fid ∧ p.pc = e.pc ∧ is fid p := by
    have hold : ∀ (l : List Nat) (u : State) p, p ∈ reqParts u → p ∈ reqParts ((l.map acc).foldl f u) := fun l => by
      induction l with
      | nil => exact fun _ _ hp => hp
      | cons b l ih =>
        intro u p hp
        obtain ⟨r, hr, -⟩ := hf u b
        exact ih _ p (hr ▸ List.mem_append_left _ hp)
    replace hl := hl fid hfid
    induction l generalizing u with
    | nil => cases hl
    | cons b l ih =>
      rcases List.mem_cons.mp hl with rfl | hl
      · obtain ⟨r, hr, hgang, hfid, hpc, hr'⟩ := hf u fid
        exact ⟨reqPart r, hold l _ _ (hr ▸ List.mem_append_right _ (List.mem_singleton_self _)), hgang, hfid, hpc, hr'⟩
      · exact ih _ hl
  obtain ⟨p, hp, hgang, hfid, hpc, hisp⟩ := hparts
  obtain ⟨r, hr, rfl⟩ := List.mem_map.mp hp
  exact ⟨r, hr, hgang, hfid, hpc, his fid r hisp⟩

/-- The same where each access only adds its request: the requests before stand as they are. -/
theorem requests_of_added (hf : ∀ s fid, ∃ r, (f s (acc fid)).reqs = s.reqs ++ [r] ∧ r.gang = e.gid ∧ r.fid = fid ∧ r.pc = e.pc ∧ is fid r)
    {s u : State} (hu : u.reqs = s.reqs) : Requests e l is s ((l.map acc).foldl f u) := by
  have hold : ∀ (l : List Nat) (u : State), ∀ r ∈ u.reqs, r ∈ ((l.map acc).foldl f u).reqs := fun l => by
    induction l with
    | nil => exact fun _ _ hr => hr
    | cons b l ih =>
      intro u r hr
      obtain ⟨x, hx, -⟩ := hf u b
      exact ih _ r (hx ▸ List.mem_append_left _ hr)
  refine ⟨fun r hr => hold l u r (hu ▸ hr), ?_⟩
  clear hu
  induction l generalizing u with
  | nil => exact fun _ h => (nomatch h)
  | cons b l ih =>
    intro fid hfid
    rcases List.mem_cons.mp hfid with rfl | hfid
    · obtain ⟨r, hr, hr'⟩ := hf u fid
      exact ⟨r, hold l _ r (hr ▸ List.mem_append_right _ (List.mem_singleton_self r)), hr'⟩
    · exact ih fid hfid

theorem Requests.closeEntry {s t : State} (h : Requests e act is s t) (key entry : Nat) : Requests e act is s (closeEntry key entry t) := by
  rw [Requests, reqs_closeEntry]
  exact h

end

/-! ### The wave's fibres -/

section
variable {e : Env} {s t : State}

/-- The fibres of the wave are fibres of its gang. -/
def Alive (e : Env) (s : State) : Prop := ∀ fid ∈ e.fids, (kget? (getGang s e.gid).fibres fid).isSome = true

theorem Live.alive (h : Live e) (he : envOf s = some e) : Alive e s := fun fid hf => by
  rw [gang_of_envOf he]
  exact h fid hf

theorem Alive.of_gangs (h : Alive e s) (hg : t.gangs = s.gangs) : Alive e t := fun fid hf => by
  rw [getGang, hg]
  exact h fid hf

theorem Alive.mapFibres (h : Alive e s) (fn : Nat → Fibre → Fibre) : Alive e (setGang s e.gid (mapFibres (getGang s e.gid) fn)) := fun fid hf => by
  rw [getGang_setGang, kget?_mapFibres, Option.isSome_map]
  exact h fid hf

theorem gangs_releaseCaches (core : Nat) (s : State) : (releaseCaches core s).gangs = s.gangs :=
  releaseCaches_part (p := State.gangs) (fun _ _ _ _ _ _ => rfl) core s

theorem gangs_wcFlush (core : Nat) (q : WcEntry → Bool) (s : State) : (wcFlush core q s).gangs = s.gangs :=
  wcFlush_part (p := State.gangs) (fun _ _ _ _ _ _ => rfl) core q s

/-- A release that is performed leaves every fibre in its gang. -/
theorem Alive.release (h : Alive e s) {fids : List Nat} {sc : BitVec 2} (hr : (release e fids sc s).1 = true) : Alive e (release e fids sc s).2 := by
  unfold Machine.release at hr ⊢
  dsimp only at hr ⊢
  split
  · exact h
  rw [if_neg ‹_›] at hr
  split
  · rw [if_pos ‹_›] at hr
    cases hr
  rw [if_neg ‹_›] at hr
  split
  · exact h
  split
  · exact h.of_gangs (gangs_wcFlush ..)
  split
  · split
    · exact h.mapFibres _
    · exact h
  split
  · exact h.of_gangs (gangs_releaseCaches ..)
  · exact (h.of_gangs (gangs_releaseCaches ..)).mapFibres _

theorem standAt_retire_alive (h : Alive e s) (u : Nat) (wr : Nat → Wr) (win : Nat → Option Window) (pc : Nat → W64) :
    StandAt e pc (retire e u wr win pc s) := fun fid hf => by
  rw [fibreAt_retire u wr win pc hf (h fid hf), retireFibre_pc]

theorem StandAt.of_gangs {pc : Nat → W64} (h : StandAt e pc s) (hg : t.gangs = s.gangs) : StandAt e pc t := fun fid hf => by
  rw [fibreAt, getGang, hg]
  exact h fid hf

theorem gangs_closeEntry (key entry : Nat) (s : State) : (closeEntry key entry s).gangs = s.gangs := by
  unfold closeEntry
  split <;> rfl

/-- The instruction has retired: each fibre of the wave stands at the next PC, and no memory has changed. -/
def Completed (e : Env) (s t : State) : Prop := StandAt e (fun _ => nextPc e.pc) t ∧ MemoryKept s t

/-- Accesses that leave after the retirement. -/
theorem completed_accesses {s1 : State} (hm : MemoryKept s s1) (ha : Alive e s1) (u : Nat) (win : Nat → Option Window) {α : Type} (l : List α)
    {send : State → α → State} (hsend : ∀ s a, Steady s (send s a)) (hgangs : ∀ s a, (send s a).gangs = s.gangs) :
    Completed e s (l.foldl send (retire e u (fun _ => Wr.none) win (fun _ => nextPc e.pc) s1)) :=
  ⟨StandAt.of_gangs (standAt_retire_alive ha u _ win _) (foldl_part State.gangs hgangs _ _),
    hm.trans ((retired_retire e u win _ s1).memory.trans (Steady.foldl hsend l _).memory)⟩

theorem Completed.closeEntry (h : Completed e s t) (key entry : Nat) : Completed e s (closeEntry key entry t) :=
  ⟨h.1.of_gangs (gangs_closeEntry ..), h.2.trans (steady_closeEntry ..).memory⟩

end

/-! ### The outcome of an issue -/

/-- The step has a next state, and that state satisfies `P`. -/
def Reaches (r : Out) (P : State → Prop) : Prop := ∃ t, r = .next t ∧ P t

section
variable {e : Env} {s t : State} {k k' : Out} {P : State → Prop}

theorem reaches_next (h : P t) : Reaches (.next t) P := ⟨t, rfl, h⟩

theorem reaches_else {c : Prop} [Decidable c] (hc : ¬ c) (h : Reaches k' P) : Reaches (if c then k else k') P := by
  rw [if_neg hc]
  exact h

theorem reaches_issue {h : Hdr} {sc : Env → Handler → Out} {body : Env → List Nat → State → Out} (hi : Issues false s e)
    (hb : Reaches (body e (executing h e) s) P) : Reaches (issue h false s sc body) P := by
  rw [issue_runs hi]
  exact hb

theorem reaches_forbidInTxn {act : List Nat} (ht : e.sl.txn = none) (h : Reaches k P) : Reaches (forbidInTxn e act s k) P := by
  rw [forbidInTxn_none ht]
  exact h

theorem reaches_orTrap {r : Raised} (hr : r = []) (h : Reaches k P) : Reaches (orTrap e r s k) P := by
  rw [hr]
  exact h

/-- The registers of the executing fibres are in order. -/
theorem reaches_regs {act : List Nat} {uses : List RegUse} (hr : RegsOk e act uses) (h : Reaches k P) : Reaches (orTrap e (regTraps e act uses) s k) P :=
  reaches_orTrap (regTraps_nil hr) h

/-- No lane has a cause. -/
theorem reaches_causes {α : Type} {l : List α} {lane_ : α → Nat} {cs : α → List (Nat × W64)} (hl : ∀ a ∈ l, cs a = []) (h : Reaches k P) :
    Reaches (orTrap e (l.filterMap (fun a => lowest (lane_ a) (cs a))) s k) P :=
  reaches_orTrap (List.filterMap_eq_nil_iff.mpr fun a ha => by rw [hl a ha]; rfl) h

/-- No lane's sector reads as poisoned. -/
theorem reaches_orPoison {p : Nat → Bool} {write : Bool} {accs : List (Nat × W64 × Nat)} (hp : ∀ a ∈ accs, p a.2.2 = false) (h : Reaches k P) :
    Reaches (orPoison e p write accs s k) P := by
  refine reaches_orTrap ?_ h
  rw [poisonAt, List.filter_eq_nil_iff.mpr fun a ha => by rw [hp a ha]; exact Bool.false_ne_true]
  rfl

/-- What must be done before the access is done. -/
theorem reaches_ready {a b : Bool} (ha : a = true) (hb : b = true) (h : Reaches k' P) : Reaches (if (!a || !b) = true then k else k') P :=
  reaches_else (by rw [ha, hb]; exact Bool.false_ne_true) h

/-- An ordered access goes on once the flushes of its fibres are done. -/
theorem reaches_flushed {c : Prop} {a : Bool} [Decidable (c ∧ (!a) = true)] (ha : c → a = true) (h : Reaches k' P) :
    Reaches (if c ∧ (!a) = true then k else k') P :=
  reaches_else (fun hc => by rw [ha hc.1] at hc; exact Bool.false_ne_true hc.2) h

/-- What the release of an instruction answers, where it has one. -/
theorem alive_optRelease {c : Prop} [Decidable c] {act : List Nat} {sc : BitVec 2} (h : Alive e s) (hr : c → (release e act sc s).1 = true) :
    Alive e (if c then release e act sc s else (true, s)).2 := by
  split
  · exact h.release (hr ‹_›)
  · exact h

theorem steady_optRelease {c : Prop} [Decidable c] {act : List Nat} {sc : BitVec 2} :
    Steady s (if c then release e act sc s else (true, s)).2 := .ite_snd (steady_release ..) (.refl s)

/-- The release of the instruction has been performed. -/
theorem reaches_optRelease {c : Prop} [Decidable c] {act : List Nat} {sc : BitVec 2} (hr : c → (release e act sc s).1 = true) (h : Reaches k' P) :
    Reaches (if (!(if c then release e act sc s else (true, s)).1) = true then k else k') P := by
  refine reaches_else ?_ h
  have : (if c then release e act sc s else (true, s)).1 = true := by
    split
    · exact hr ‹_›
    · rfl
  rw [this]
  exact Bool.false_ne_true

theorem gangs_openEntry {act sectors : List Nat} {o : Nat × State} (h : openEntry e act sectors s = o) : o.2.gangs = s.gangs := by
  cases h
  rfl

end

end Sys2Proof.Machine
end
section
/-! PROOF. Word atomics complete (R122, R325 to R327): after its checks and its release an atomic retires and sends one request for each executing fibre
to the home. -/
namespace Sys2Proof.Machine

/-! ### Word atomics -/

/-- The operand of a lane: an increment has none. -/
def atomicOperand (op : Nat) (f : F2) (x : Fibre) : Quad × Bool := if op == 8 then (0, false) else readSrc x (dataSrc f.ty f.b)

/-- What a compare-and-swap compares with. -/
def atomicCompare (op : Nat) (f : F2) (x : Fibre) : Quad × Bool := if op == 7 then readSrc x (dataSrc f.ty f.c) else (0, false)

/-- The registers of an atomic beside its destination and its address. -/
def atomicUses (op : Nat) (f : F2) : List RegUse :=
  (if op == 8 then [] else srcUse (dataSrc f.ty f.b)) ++ (if op == 7 then srcUse (dataSrc f.ty f.c) else idxUse f)

theorem execAtomic_completes {op : Nat} {f : F2} {s : State} {e : Env} (hi : Issues false s e) (hlive : Live e) (ht : e.sl.txn = none)
    (hregs : RegsOk e (executing f.h e) (dstUse (laneDst f.ty f.d) ++ [(f.a.toNat, 2)] ++ atomicUses op f))
    (hclean : ∀ fid ∈ executing f.h e, globalFaults s e.g.ctx (globalAddr f (getFibre e.g fid)).1 (accBytes f.ty) 3
        ((globalAddr f (getFibre e.g fid)).2 || (atomicOperand op f (getFibre e.g fid)).2 || (atomicCompare op f (getFibre e.g fid)).2) = [] ∧
      homeSeen s e.core e.g.ctx (iaOf s e.g.ctx (globalAddr f (getFibre e.g fid)).1 3) true = false)
    (hlog : logReady s e (executing f.h e) e.g.ctx
      ((sortBy lane (executing f.h e)).map (fun fid => iaOf s e.g.ctx (globalAddr f (getFibre e.g fid)).1 3 / 128)) = true)
    (hacq : acquiresDone s e.gid (executing f.h e) = true) (hflush : f.ord ≠ 0 → flushDone s e.g (slabOf e.core) (executing f.h e) = true)
    (hrel : f.ord.getLsbD 1 = true → (release e (executing f.h e) f.sc s).1 = true) :
    ∃ t, execAtomic op f s = .next t ∧ StandAt e (fun _ => nextPc e.pc) t ∧ MemoryKept s t ∧
      Requests e (executing f.h e) (fun fid r => r.kind = .atomic op ∧ r.phase = .toHome ∧ r.va = (globalAddr f (getFibre e.g fid)).1 ∧
        r.data = (atomicOperand op f (getFibre e.g fid)).1 ∧ r.cmp = (atomicCompare op f (getFibre e.g fid)).1) { s with reqs := [] } t := by
  refine reaches_issue hi (reaches_forbidInTxn ht ?_)
  refine reaches_regs (by simpa only [atomicUses, List.append_assoc] using hregs) (reaches_causes (fun a ha => ?_) ?_)
  · obtain ⟨fid, hf, rfl⟩ := List.mem_map.mp ha
    exact (hclean fid (mem_sortBy.mp hf)).1
  rw [List.map_map, List.map_map]
  refine reaches_ready hlog hacq (reaches_orPoison (fun a ha => ?_) (reaches_flushed hflush (reaches_optRelease hrel ?_)))
  · obtain ⟨fid, hf, rfl⟩ := List.mem_map.mp ha
    exact (hclean fid (mem_sortBy.mp hf)).2
  have hsteady : Steady s (if f.ord.getLsbD 1 = true then release e (executing f.h e) f.sc s else (true, s)).2 := steady_optRelease
  have halive := alive_optRelease (hlive.alive hi.env) hrel
  generalize hopen : openEntry e (executing f.h e) _ _ = o
  obtain ⟨hstand, hmem⟩ := Completed.closeEntry (completed_accesses (s1 := { o.2 with ids := o.2.ids + 1 })
    (hsteady.trans (steady_openEntry hopen)).memory
    ((halive.of_gangs (gangs_openEntry hopen)).of_gangs rfl) 1 (loadWindow f o.2.ids (executing f.h e)) _
    (fun _ _ => steady_of_cacheBlind fun _ hp => startAtomic_part hp ..)
    (fun _ _ => startAtomic_part (p := State.gangs) (fun _ _ _ _ _ _ => rfl) ..)) e.key o.1
  refine reaches_next ⟨hstand, hmem, Requests.closeEntry ?_ _ _⟩
  exact requests_of_parts (fun _ _ h => h) (fun u fid => ⟨_, reqParts_startAtomic _ u, rfl, rfl, rfl, rfl, rfl, rfl, rfl, rfl⟩)
    (fun fid hf => mem_sortBy.mpr hf) s _

/-- Settles O23: each form is the shared meaning at its operation. -/
theorem atomicsComplete : Obligations.AtomicsComplete := by
  unfold Obligations.AtomicsComplete
  intro sends one data none_
  exact ⟨fun _ _ _ hi hlive ht => execAtomic_completes (op := 0) hi hlive ht, fun _ _ _ hi hlive ht => execAtomic_completes (op := 1) hi hlive ht,
    fun _ _ _ hi hlive ht => execAtomic_completes (op := 2) hi hlive ht, fun _ _ _ hi hlive ht => execAtomic_completes (op := 3) hi hlive ht,
    fun _ _ _ hi hlive ht => execAtomic_completes (op := 4) hi hlive ht, fun _ _ _ hi hlive ht => execAtomic_completes (op := 5) hi hlive ht,
    fun _ _ _ hi hlive ht => execAtomic_completes (op := 6) hi hlive ht, fun _ _ _ hi hlive ht => execAtomic_completes (op := 7) hi hlive ht,
    fun _ _ _ hi hlive ht => execAtomic_completes (op := 8) hi hlive ht⟩

end Sys2Proof.Machine
end
section
/-! PROOF. TASKTAKE over a poisoned image sector (R122, R333, R340): the statement's premises exclude poison in the image for TASKPOST only, and the
model's TASKTAKE raises POISON for it too, so that its fibre does not retire. -/
namespace Sys2Proof.Machine

/-- A gang of one fibre whose scratchpad is one sector of 128 bytes, poisoned. -/
def poisonedImageGang : Gang :=
  { Gang.init with fibres := [(0, Fibre.init)], kernel := { Kernel.init with spad := 128 }, scratchPoison := [0] }

def poisonedImageSlot : Slot := { Slot.init with fids := [0] }

/-- That fibre has the issue slot, and a window shows its context the first 2 MiB of its IAs for reading and writing. -/
def poisonedImageState : State := { State.reset with
  cur := some (0, 0), slots := [(0, poisonedImageSlot)], gangs := [(0, poisonedImageGang)],
  ctxs := [(0, { Ctx.init with windows := [(0, 0x8000000000000015, 0, 0x107)] })] }

def poisonedImageEnv : Env := { core := 0, key := 0, sl := poisonedImageSlot, gid := 0, g := poisonedImageGang, fids := [0], pc := 0 }

/-- Header at VA 0, image at offset 0. -/
def takeAtZero : F5 := { h := { gp := 0, gn := false, la := 0 }, d := 0, a := 0, b := 0, c := 0, ord := 0, sc := 0, sp := 0, mod := 0, low := 0 }

theorem issues_poisonedImage : Issues false poisonedImageState poisonedImageEnv := ⟨by decide, rfl, by decide⟩

theorem executing_takeAtZero : executing takeAtZero.h poisonedImageEnv = [0] := by decide

/-- The lane raises POISON, and its fibre stays where it is. -/
theorem pc_takeAtZero : ∃ t, exec (.tasktake takeAtZero) poisonedImageState = .next t ∧ (fibreAt t 0 0).pc = 0 := ⟨_, rfl, by decide⟩

/-- Refutes O32: a TASKTAKE whose image lies in a poisoned scratchpad sector meets every premise and does not retire. -/
theorem not_taskQueueInstructionsComplete : ¬ Obligations.TaskQueueInstructionsComplete := by
  unfold Obligations.TaskQueueInstructionsComplete
  rintro ⟨-, htake, -⟩
  have hstands := htake takeAtZero poisonedImageState poisonedImageEnv issues_poisonedImage (by unfold Live; decide) ⟨rfl, by unfold GuardsClean; decide⟩
  rw [executing_takeAtZero] at hstands
  obtain ⟨t, hexec, hstand, -⟩ := hstands (by unfold RegsOk; decide) (by unfold SourcesClean; decide)
    (fun fid hf => by
      cases List.mem_singleton.mp hf
      exact ⟨by decide, ⟨0, by decide, by decide⟩, fun _ => ⟨by decide, by decide, fun h => (nomatch h)⟩⟩)
    (by decide) (by decide) (fun h => absurd rfl h) (fun h => absurd h (by decide))
  obtain ⟨t', hexec', hpc⟩ := pc_takeAtZero
  cases hexec.symm.trans hexec'
  exact absurd (hpc.symm.trans (hstand 0 (List.mem_singleton_self 0))) (by decide)

end Sys2Proof.Machine
end
section
/-! PROOF. Prefetch, region maintenance, exchange stores and fences complete (R116, R200, R317, R318, R321 to R324, R328, R329): none of them changes a byte
of memory or of a live scratchpad bank. -/
namespace Sys2Proof.Machine

/-! ### What a gang holds beside its fibres -/

section
variable {α : Type} {q : Gang → α} (hq : ∀ g fs, q { g with fibres := fs } = q g)
include hq

theorem beside_mapFibres (s : State) (gid : Nat) (fn : Nat → Fibre → Fibre) (k : Nat) :
    q (getGang (setGang s gid (mapFibres (getGang s gid) fn)) k) = q (getGang s k) := by
  by_cases hk : k = gid
  · rw [hk, getGang_setGang]
    exact hq _ _
  · rw [getGang_setGang_ne _ _ hk]

theorem beside_retire (e : Env) (u : Nat) (wr : Nat → Wr) (win : Nat → Option Window) (pc : Nat → W64) (s : State) (k : Nat) :
    q (getGang (retire e u wr win pc s) k) = q (getGang s k) :=
  beside_mapFibres hq s e.gid (fun fid f => if e.fids.contains fid then retireFibre (wr fid) (win fid) (pc fid) f else f) k

theorem beside_release {e : Env} {fids : List Nat} {sc : BitVec 2} {s : State} (hr : (release e fids sc s).1 = true) (k : Nat) :
    q (getGang (release e fids sc s).2 k) = q (getGang s k) := by
  have hgangs : ∀ {t u : State}, t.gangs = u.gangs → q (getGang t k) = q (getGang u k) := fun h => by rw [getGang, h]; rfl
  unfold release at hr ⊢
  dsimp only at hr ⊢
  split
  · rfl
  rw [if_neg ‹_›] at hr
  split
  · rw [if_pos ‹_›] at hr
    cases hr
  rw [if_neg ‹_›] at hr
  split
  · rfl
  split
  · exact hgangs (gangs_wcFlush ..)
  split
  · split
    · exact beside_mapFibres hq ..
    · rfl
  split
  · exact hgangs (gangs_releaseCaches ..)
  · exact (beside_mapFibres hq ..).trans (hgangs (gangs_releaseCaches ..))

end

theorem getGang_of_gangs {s t : State} (h : t.gangs = s.gangs) (k : Nat) : getGang t k = getGang s k := by
  rw [getGang, h]
  rfl

/-- The instruction has retired, and the scratchpad of the wave's gang is as it was. -/
def CompletedQuietly (e : Env) (s t : State) : Prop :=
  StandAt e (fun _ => nextPc e.pc) t ∧ MemoryKept s t ∧ (getGang t e.gid).scratch = e.g.scratch

section
variable {e : Env} {s s1 t : State}

/-- The retirement after changes that leave fibres, memory and the scratchpad. -/
theorem quietly_retirePlain (hm : MemoryKept s s1) (ha : Alive e s1) (hscr : (getGang s1 e.gid).scratch = e.g.scratch) (u : Nat) :
    CompletedQuietly e s (retirePlain e u s1) :=
  ⟨standAt_retire_alive ha u _ _ _, hm.trans (retired_retirePlain e u s1).memory, (beside_retire (q := Gang.scratch) (fun _ _ => rfl) ..).trans hscr⟩

theorem quietly_retirePlain_here (hi : Issues false s e) (hlive : Live e) (u : Nat) : CompletedQuietly e s (retirePlain e u s) :=
  quietly_retirePlain (.refl s) (hlive.alive hi.env) (by rw [gang_of_envOf hi.env]) u

theorem CompletedQuietly.of_gangs (h : CompletedQuietly e s s1) (hg : t.gangs = s1.gangs) (hm : MemoryKept s1 t) : CompletedQuietly e s t := by
  obtain ⟨hstand, hmem, hscr⟩ := h
  exact ⟨hstand.of_gangs hg, hmem.trans hm, by rw [getGang_of_gangs hg, hscr]⟩

end

/-! ### Loads leave their core -/

section
variable {α : Type} {p : State → α} (hp : CacheBlind p) (hc : ∀ s c v, p (setCore s c v) = p s)
include hp hc

theorem startLoad_part (r : Req) (s : State) : p (startLoad r s) = p s := by
  have hmiss : p (perfEvent r.core 5 1 (if r.kind = .prefetch then s else wcFlush r.core (fun w => w.ctx == r.ctx && w.sector == r.ia / 128) s)) =
      p s := by
    refine (hc _ _ _).trans ?_
    split
    · rfl
    · exact wcFlush_part hp ..
  unfold startLoad
  dsimp only
  split
  · rw [addReq_part hp, l1Hit_part hp]
  generalize perfEvent r.core 5 1 _ = s1 at hmiss ⊢
  split
  · rw [addReq_part hp, sliceTouch_part hp, hmiss]
  · rw [addReq_part hp, hmiss]

end

theorem gangs_startLoad (r : Req) (s : State) : (startLoad r s).gangs = s.gangs :=
  startLoad_part (p := State.gangs) (fun _ _ _ _ _ _ => rfl) (fun _ _ _ => rfl) r s

/-! ### Prefetch and region maintenance -/

section
variable {e : Env} {s : State} {f : F2}

theorem pref_completes (hi : Issues false s e) (hlive : Live e) (hregs : RegsOk e (executing f.h e) ([(f.a.toNat, 2)] ++ idxUse f))
    (hlog : ∀ sectors, logReady s e (executing f.h e) e.g.ctx sectors = true) (hacq : acquiresDone s e.gid (executing f.h e) = true) :
    Reaches (execPref f s) (CompletedQuietly e s) := by
  refine reaches_issue hi (reaches_regs hregs ?_)
  dsimp only
  split
  · exact reaches_next (quietly_retirePlain_here hi hlive 1)
  refine reaches_ready (hlog _) hacq ?_
  generalize hopen : openEntry e (executing f.h e) _ s = o
  have hgangs := gangs_openEntry hopen
  refine reaches_next (CompletedQuietly.of_gangs (s1 := retirePlain e 1 o.2) ?_
    ((gangs_closeEntry ..).trans (foldl_part State.gangs (fun s _ => gangs_startLoad _ s) _ _))
    ((Steady.foldl (fun s _ => steady_startLoad _ s) _ _).memory.trans (steady_closeEntry ..).memory))
  exact quietly_retirePlain (steady_openEntry hopen).memory ((hlive.alive hi.env).of_gangs hgangs)
    (by rw [getGang_of_gangs hgangs, gang_of_envOf hi.env]) 1

/-- The caches of a core over a region, before the retirement. -/
theorem cacheBlind_region {α : Type} {p : State → α} (hp : CacheBlind p) (core : Nat) (q : Nat → Nat → Bool) (drop : Bool) (s : State) :
    p (if drop = true then maintain core q drop (if drop = true then blockIf core (fun r => q r.ctx (r.ia / 128)) s else s)
      else wcFlush core (fun w => q w.ctx w.sector) (maintain core q drop (if drop = true then blockIf core (fun r => q r.ctx (r.ia / 128)) s else s))) =
    p s := by
  cases drop with
  | false => rw [if_neg Bool.false_ne_true, wcFlush_part hp, maintain_part hp, if_neg Bool.false_ne_true]
  | true => rw [if_pos rfl, maintain_part hp, if_pos rfl, blockIf_part hp]

theorem regionOp_completes (drop : Bool) (hi : Issues false s e) (hlive : Live e)
    (hregs : RegsOk e (executing f.h e) ([(f.a.toNat, 2), (f.b.toNat, 1)] ++ idxUse f))
    (hreqs : ∀ r ∈ s.reqs, r.gang = e.gid → r.fid ∈ executing f.h e → r.kind ≠ .probe ∧ r.kind ≠ .store) :
    Reaches (regionOp f drop s) (CompletedQuietly e s) := by
  refine reaches_issue hi (reaches_regs hregs ?_)
  dsimp only
  split
  · exact reaches_next (quietly_retirePlain_here hi hlive 1)
  refine reaches_else ?_ (reaches_next ?_)
  · rw [List.any_eq_true]
    rintro ⟨r, hr, hrest⟩
    simp only [Bool.and_eq_true, Bool.or_eq_true, beq_iff_eq, List.contains_eq_mem, decide_eq_true_eq] at hrest
    obtain ⟨⟨⟨hgang, hfid⟩, hkind⟩, -⟩ := hrest
    obtain ⟨hprobe, hstore⟩ := hreqs r hr hgang hfid
    exact hkind.elim hprobe hstore
  · generalize hu : (if drop = true then _ else _ : State) = u
    have hpart : ∀ {α : Type} (p : State → α), CacheBlind p → p u = p s := fun p hp => hu ▸ cacheBlind_region hp ..
    have hgangs : u.gangs = s.gangs := hpart State.gangs fun _ _ _ _ _ _ => rfl
    obtain ⟨hstand, hmem, hscr⟩ := quietly_retirePlain (steady_of_cacheBlind hpart).memory ((hlive.alive hi.env).of_gangs hgangs)
      (by rw [getGang_of_gangs hgangs, gang_of_envOf hi.env]) 1
    refine ⟨fun fid hf => ?_, hmem, ?_⟩
    · rw [← hstand fid hf, fibreAt, getGang_setGang]
      exact getFibre_mapFibres_part (fun _ _ => by split <;> rfl) fid
    · rw [getGang_setGang]
      exact hscr

end

/-! ### Fences -/

section
variable {e : Env} {s : State} {act : List Nat}

theorem flushDone_of_none {g : Gang} (slab : Nat) (h : ∀ fid ∈ act, (getFibre g fid).flushWait = none) : flushDone s g slab act = true := by
  rw [flushDone, Bool.not_eq_true', List.any_eq_false]
  intro fid hf
  rw [h fid hf]
  exact Bool.false_ne_true

/-- A fence of fibres with nothing under way retires once its release is performed. -/
theorem fenceParts_completes (hi : Issues false s e) (hlive : Live e) (hidle : ∀ fid ∈ act, hasReq s e.gid fid = false ∧ (getFibre e.g fid).flushWait = none)
    {rel acq : Bool} {sc : BitVec 2} (hrel : rel = true → (release e act sc s).1 = true) {after : State → State}
    (hafter : ∀ u, Steady u (after u)) (halive : ∀ u, Alive e u → Alive e (after u))
    (hscr : ∀ u, (getGang (after u) e.gid).scratch = (getGang u e.gid).scratch) :
    Reaches (fenceParts e act rel acq sc after s) (CompletedQuietly e s) := by
  refine reaches_else ?_ ?_
  · rw [List.any_eq_true]
    rintro ⟨fid, hf, hreq⟩
    rw [(hidle fid hf).1] at hreq
    cases hreq
  have hr : (if rel then release e act sc s else (flushDone s e.g (slabOf e.core) act, wcFlush e.core (fun _ => true) s)).1 = true ∧
      Alive e (if rel then release e act sc s else (flushDone s e.g (slabOf e.core) act, wcFlush e.core (fun _ => true) s)).2 ∧
      (getGang (if rel then release e act sc s else (flushDone s e.g (slabOf e.core) act, wcFlush e.core (fun _ => true) s)).2 e.gid).scratch =
        e.g.scratch := by
    have hs := hlive.alive hi.env
    rw [← gang_of_envOf hi.env]
    cases rel with
    | true => exact ⟨hrel rfl, hs.release (hrel rfl), beside_release (q := Gang.scratch) (fun _ _ => rfl) (hrel rfl) _⟩
    | false => exact ⟨flushDone_of_none _ fun fid hf => gang_of_envOf hi.env ▸ (hidle fid hf).2, hs.of_gangs (gangs_wcFlush ..),
        congrArg Gang.scratch (getGang_of_gangs (gangs_wcFlush ..) _)⟩
  have hsteady : Steady s (if rel then release e act sc s else (flushDone s e.g (slabOf e.core) act, wcFlush e.core (fun _ => true) s)).2 :=
    .ite_snd (steady_release ..) (steady_wcFlush ..)
  dsimp only
  generalize (if rel then release e act sc s else _ : Bool × State) = r at hr hsteady ⊢
  obtain ⟨hdone, hr, hscratch⟩ := hr
  refine reaches_else (by rw [hdone]; decide) (reaches_next ?_)
  have hacq : (if acq then acquireEffect e.core sc r.2 else r.2).gangs = r.2.gangs := by
    split
    · exact acquireEffect_part (p := State.gangs) (fun _ _ _ _ _ _ => rfl) ..
    · rfl
  exact quietly_retirePlain ((hsteady.trans (.ite (steady_acquireEffect ..) (.refl _))).trans (hafter _)).memory (halive _ (hr.of_gangs hacq))
    (by rw [hscr, getGang_of_gangs hacq, hscratch]) 1

theorem fenceParts_completes_alone (hi : Issues false s e) (hlive : Live e)
    (hidle : ∀ fid ∈ act, hasReq s e.gid fid = false ∧ (getFibre e.g fid).flushWait = none)
    {rel acq : Bool} {sc : BitVec 2} (hrel : rel = true → (release e act sc s).1 = true) :
    Reaches (fenceParts e act rel acq sc id s) (CompletedQuietly e s) :=
  fenceParts_completes hi hlive hidle hrel Steady.refl (fun _ h => h) fun _ => rfl

theorem fence_completes {f : F2} (hi : Issues false s e) (hlive : Live e) (ht : e.sl.txn = none)
    (hidle : ∀ fid ∈ executing f.h e, hasReq s e.gid fid = false ∧ (getFibre e.g fid).flushWait = none)
    (hrel : f.ord.getLsbD 1 = true → (release e (executing f.h e) f.sc s).1 = true) : Reaches (execFence f s) (CompletedQuietly e s) := by
  refine reaches_issue hi (reaches_forbidInTxn ht ?_)
  split
  · exact reaches_next (quietly_retirePlain_here hi hlive 1)
  · exact fenceParts_completes_alone hi hlive hidle hrel

/-- The engine class that a FENCEX orders from, and the one that it orders to. -/
theorem fencex_completes {f : F2} (hi : Issues false s e) (hlive : Live e) (ht : e.sl.txn = none)
    (hidle : ∀ fid ∈ executing f.h e, hasReq s e.gid fid = false ∧ (getFibre e.g fid).flushWait = none)
    (hsame : f.off.toNat % 8 = f.off.toNat / 16 % 8 → (release e (executing f.h e) f.sc s).1 = true)
    (hfrom : f.off.toNat % 8 = 0 → f.off.toNat / 16 % 8 ≠ 0 → (release e (executing f.h e) (if f.sc = 0 then 1 else f.sc) s).1 = true)
    (hbusy : f.off.toNat % 8 ≠ f.off.toNat / 16 % 8 → f.off.toNat / 16 % 8 ≠ 0 → engineBusy s e.gid (f.off.toNat % 8) = false) :
    Reaches (execFencex f s) (CompletedQuietly e s) := by
  refine reaches_issue hi (reaches_forbidInTxn ht ?_)
  dsimp only
  split
  · exact reaches_next (quietly_retirePlain_here hi hlive 1)
  split
  next hab => exact fenceParts_completes_alone hi hlive hidle fun _ => hsame hab
  next hab =>
  split
  next ha => exact fenceParts_completes_alone hi hlive hidle fun _ => hfrom ha fun hb => hab (ha.trans hb.symm)
  split
  next =>
    refine fenceParts_completes (rel := false) (after := seeEngine (f.off.toNat % 8) e.gid) hi hlive hidle (fun h => (nomatch h))
      (fun _ => steady_setGang_beside rfl) (fun u h fid hf => ?_) fun u => ?_
    · rw [seeEngine, getGang_setGang]
      exact h fid hf
    · rw [seeEngine, getGang_setGang]
  next hb =>
    refine reaches_else ?_ (fenceParts_completes_alone (rel := false) hi hlive hidle fun h => (nomatch h))
    rw [hbusy hab hb]
    exact Bool.false_ne_true

end

/-! ### Exchange stores -/

/-- The gangs' scratchpads, and where an exchange address leads, do not depend on the shadow banks. -/
structure SameBanks (s t : State) : Prop where
  crews : t.crews = s.crews
  gid : ∀ g, (getGang t g).gid = (getGang s g).gid
  scratch : ∀ g, (getGang t g).scratch = (getGang s g).scratch

section
variable {e : Env} {s t : State}

theorem SameBanks.trans {u : State} (h : SameBanks s t) (h' : SameBanks t u) : SameBanks s u :=
  ⟨h'.crews.trans h.crews, fun g => (h'.gid g).trans (h.gid g), fun g => (h'.scratch g).trans (h.scratch g)⟩

theorem sameBanks_retirePlain (e : Env) (u : Nat) (s : State) : SameBanks s (retirePlain e u s) :=
  ⟨rfl, beside_retire (q := Gang.gid) (fun _ _ => rfl) e u _ _ _ s, beside_retire (q := Gang.scratch) (fun _ _ => rfl) e u _ _ _ s⟩

theorem getGang_shadowWrite (target off : Nat) (bs : List Byte) (poison : Bool) (count : Option Word) (s : State) :
    getGang (shadowWrite target off bs poison count s) target = { getGang s target with
      shadow := writeBytes (getGang s target).shadow off bs
      shadowMarks := noteLines ((List.range bs.length).map (off + ·)) (getGang s target).shadowMarks
      shadowPoison := if poison then insertNat (off / 128) (getGang s target).shadowPoison else (getGang s target).shadowPoison
      xcounts := match count with
        | none => (getGang s target).xcounts
        | some c => (getGang s target).xcounts ++ [{ off := c.toNat, bytes := bs.length }] } := getGang_setGang ..

theorem sameBanks_shadowWrite (target off : Nat) (bs : List Byte) (poison : Bool) (count : Option Word) (s : State) :
    SameBanks s (shadowWrite target off bs poison count s) := by
  have hpart : ∀ {α : Type} (q : Gang → α), (∀ g a b c d, q { g with shadow := a, shadowMarks := b, shadowPoison := c, xcounts := d } = q g) →
      ∀ g, q (getGang (shadowWrite target off bs poison count s) g) = q (getGang s g) := fun q hq g => by
    by_cases hg : g = target
    · rw [hg, getGang_shadowWrite]
      exact hq ..
    · exact congrArg q (getGang_setGang_ne _ _ hg)
  exact ⟨rfl, hpart Gang.gid fun _ _ _ _ _ => rfl, hpart Gang.scratch fun _ _ _ _ _ => rfl⟩

theorem SameBanks.exchangeTarget (h : SameBanks s t) (crew xa : Nat) : exchangeTarget t crew xa = exchangeTarget s crew xa := by
  rw [Machine.exchangeTarget, Machine.exchangeTarget, getCrew, h.crews]
  exact congrArg (fun p => (getCrew s crew).live.find? p) (funext fun g => by rw [h.gid g])

/-- The memory of the machine and its scratchpads stand, and the shadow bank of the gang that is named takes a lone fibre's bytes. -/
theorem exchangeStore_completes {f : F2} {counted : Bool} (hi : Issues false s e) (ht : e.sl.txn = none)
    (hregs : RegsOk e (executing f.h e) ([(f.a.toNat, 1)] ++ srcUse (dataSrc f.ty f.b) ++ idxUse f ++ (if counted then [(f.d.toNat, 1)] else [])))
    (hclean : ∀ fid ∈ executing f.h e, exchangeFaults s e.g (shortAddr f (getFibre e.g fid)).1.toNat (accBytes f.ty)
      (if counted then some (readReg (getFibre e.g fid) f.d.toNat).1 else none) = [])
    (hacq : acquiresDone s e.gid (executing f.h e) = true) :
    ∃ t, exchangeStore f counted s = .next t ∧ (MemoryKept s t ∧ (getGang t e.gid).scratch = e.g.scratch) ∧ ∀ fid g, executing f.h e = [fid] →
      exchangeTarget s e.g.crew (shortAddr f (getFibre e.g fid)).1.toNat = some g →
      (getGang t g).shadow = writeBytes (getGang s g).shadow ((shortAddr f (getFibre e.g fid)).1.toNat % 2 ^ 24)
        (bytesOfNat (accBytes f.ty) (readSrc (getFibre e.g fid) (dataSrc f.ty f.b)).1.toNat) := by
  refine reaches_issue hi (reaches_forbidInTxn ht (reaches_regs hregs (reaches_causes hclean ?_)))
  refine reaches_else (by rw [hacq]; exact Bool.false_ne_true) (reaches_next ⟨⟨?_, ?_⟩, fun fid g hact hg => ?_⟩)
  · refine (retired_retirePlain e 1 s).memory.trans (Steady.foldl (fun s fid => ?_) _ _).memory
    dsimp only
    cases exchangeTarget s e.g.crew (shortAddr f (getFibre e.g fid)).1.toNat with
    | none => exact .refl s
    | some g => exact steady_shadowWrite ..
  · refine (SameBanks.scratch (s := s) ?_ e.gid).trans (congrArg Gang.scratch (gang_of_envOf hi.env))
    refine List.foldlRecOn (motive := SameBanks s) _ _ (sameBanks_retirePlain e 1 s) fun u hu fid _ => ?_
    dsimp only
    cases exchangeTarget u e.g.crew (shortAddr f (getFibre e.g fid)).1.toNat with
    | none => exact hu
    | some g => exact hu.trans (sameBanks_shadowWrite ..)
  · rw [hact]
    dsimp only [sortBy, List.foldr, insertBy, List.foldl]
    rw [(sameBanks_retirePlain e 1 s).exchangeTarget, hg]
    dsimp only
    rw [getGang_shadowWrite]
    exact congrArg (writeBytes · _ _) (beside_retire (q := Gang.shadow) (fun _ _ => rfl) e 1 _ _ _ s g)

end

/-- Settles O25: each instruction retires, and what it does before and after its retirement is neither memory nor a scratchpad. -/
theorem otherMemoryInstructionsComplete : Obligations.OtherMemoryInstructionsComplete := by
  unfold Obligations.OtherMemoryInstructionsComplete
  intro quiet region exchange fence released
  exact ⟨fun _ _ _ hi hlive hregs hlog hacq => pref_completes hi hlive hregs hlog hacq,
    fun _ _ _ hi hlive hregs hreqs => regionOp_completes false hi hlive hregs hreqs,
    fun _ _ _ hi hlive hregs hreqs => regionOp_completes true hi hlive hregs hreqs,
    fun _ _ _ hi ht hregs hclean hacq => exchangeStore_completes hi ht hregs hclean hacq,
    fun _ _ _ hi ht hregs hclean hacq => exchangeStore_completes hi ht hregs hclean hacq,
    fun _ _ _ hi hlive ht hidle hrel => fence_completes hi hlive ht hidle hrel,
    fun _ _ _ hi hlive ht hidle ⟨hsame, hfrom, hbusy⟩ => fencex_completes hi hlive ht hidle hsame hfrom hbusy⟩

end Sys2Proof.Machine
end
section
/-! PROOF. Loads complete (R122, R147 to R149, R311, R314, R316, R320): outside a transaction a request for each executing fibre leaves its core, or holds the
scratchpad's value; inside one the read set takes the lines. -/
namespace Sys2Proof.Machine

/-! ### LD outside a transaction -/

/-- A load adds one request, and leaves those before as they are. -/
theorem reqs_startLoad (r : Req) (s : State) : ∃ x, (startLoad r s).reqs = s.reqs ++ [x] ∧ x.gang = r.gang ∧ x.fid = r.fid ∧ x.pc = r.pc ∧
    x.kind = r.kind ∧ x.va = r.va ∧ x.bytes = r.bytes ∧ x.d = r.d := by
  have hmiss : (perfEvent r.core 5 1 (if r.kind = .prefetch then s else wcFlush r.core (fun w => w.ctx == r.ctx && w.sector == r.ia / 128) s)).reqs =
      s.reqs := by
    show (if r.kind = .prefetch then s else wcFlush r.core (fun w => w.ctx == r.ctx && w.sector == r.ia / 128) s).reqs = s.reqs
    split
    · rfl
    · exact reqs_wcFlush ..
  unfold startLoad
  dsimp only
  split
  · exact ⟨_, congrArg (· ++ [_]) (reqs_l1Hit ..), rfl, rfl, rfl, rfl, rfl, rfl, rfl⟩
  generalize perfEvent r.core 5 1 _ = s1 at hmiss ⊢
  split
  · exact ⟨_, congrArg (· ++ [_]) hmiss, rfl, rfl, rfl, rfl, rfl, rfl, rfl⟩
  · exact ⟨_, congrArg (· ++ [_]) hmiss, rfl, rfl, rfl, rfl, rfl, rfl, rfl⟩

theorem reqs_openEntry {e : Env} {act sectors : List Nat} {s : State} {o : Nat × State} (h : openEntry e act sectors s = o) : o.2.reqs = s.reqs := by
  cases h
  rfl

section
variable {f : F2} {s : State} {e : Env} (hi : Issues false s e) (hlive : Live e)
include hi hlive

theorem ld_completes (ht : e.sl.txn = none)
    (hregs : RegsOk e (executing f.h e) (dstUse (laneDst f.ty f.d) ++ [(f.a.toNat, 2)] ++ idxUse f))
    (hclean : ∀ fid ∈ executing f.h e, globalFaults s e.g.ctx (globalAddr f (getFibre e.g fid)).1 (accBytes f.ty) 1
      (f.ord != 0 && (globalAddr f (getFibre e.g fid)).2) = [])
    (hlog : logReady s e (executing f.h e) e.g.ctx
      ((executing f.h e).map (fun fid => iaOf s e.g.ctx (globalAddr f (getFibre e.g fid)).1 1 / 128)) = true)
    (hacq : acquiresDone s e.gid (executing f.h e) = true)
    (hord : f.ord ≠ 0 → flushDone s e.g (slabOf e.core) (executing f.h e) = true ∧ ∀ fid ∈ executing f.h e,
      seenPoison s e.core e.g.ctx (iaOf s e.g.ctx (globalAddr f (getFibre e.g fid)).1 1) (accBytes f.ty) f.pol f.ord f.sc false = false) :
    ∃ t, execLd f s = .next t ∧ StandAt e (fun _ => nextPc e.pc) t ∧ MemoryKept s t ∧
      Requests e (executing f.h e) (fun fid r => r.kind = .load ∧ r.va = (globalAddr f (getFibre e.g fid)).1 ∧ r.bytes = accBytes f.ty ∧
        r.d = f.d.toNat) s t := by
  refine reaches_issue hi (reaches_regs hregs (reaches_causes (fun fid hf => ?_) ?_))
  · rw [ht]
    simpa using hclean fid hf
  rw [ht]
  dsimp only [loadGlobal]
  rw [List.map_map, List.map_map]
  refine reaches_ready hlog hacq (reaches_flushed (fun h => (hord h).1) (reaches_orPoison (fun a ha => ?_) ?_))
  · obtain ⟨fid, hf, rfl⟩ := List.mem_map.mp ha
    by_cases h0 : f.ord = 0
    · simp [h0]
    · exact Bool.and_eq_false_iff.mpr (.inr ((hord h0).2 fid hf))
  generalize hopen : openEntry e (executing f.h e) _ s = o
  obtain ⟨hstand, hmem⟩ := Completed.closeEntry (completed_accesses (s1 := { o.2 with ids := o.2.ids + 1 }) (steady_openEntry hopen).memory
    (((hlive.alive hi.env).of_gangs (gangs_openEntry hopen)).of_gangs rfl) 1 (loadWindow f o.2.ids (executing f.h e)) _
    (fun u _ => steady_startLoad _ u) (fun u _ => gangs_startLoad _ u)) e.key o.1
  refine reaches_next ⟨hstand, hmem, Requests.closeEntry ?_ _ _⟩
  exact requests_of_added (fun u fid => reqs_startLoad _ u) (reqs_openEntry hopen)

end

/-! ### The read set (R147, R148) -/

/-- A transaction with the scratchpad lines of its read set at the versions `v`, and room for so many more. -/
structure ScratchReads (v : Nat → Word) (tx : Txn) (n : Nat) : Prop where
  room : (tx.reads.filter (fun r => r.scratch)).length + n ≤ 16
  current : ∀ r ∈ tx.reads, r.scratch = true → r.version = v r.line

/-- One transaction is the other with more lines in its read set. -/
structure ReadsGrow (tx tx1 : Txn) : Prop where
  writes : tx1.writes = tx.writes
  levels : tx1.levels = tx.levels
  reads : ∀ r ∈ tx.reads, r ∈ tx1.reads

theorem ReadsGrow.trans {a b c : Txn} (h : ReadsGrow a b) (h' : ReadsGrow b c) : ReadsGrow a c :=
  ⟨h'.writes.trans h.writes, h'.levels.trans h.levels, fun r hr => h'.reads r (h.reads r hr)⟩

/-- The line stands in the read set with the version it has. -/
def LineRead (v : Nat → Word) (tx : Txn) (l : Nat) : Prop := ∃ r ∈ tx.reads, r.scratch = true ∧ r.line = l ∧ r.version = v l

section
variable {v : Nat → Word} {tx : Txn} {n : Nat}

theorem noteRead_fits (l : Nat) (h : ScratchReads v tx (n + 1)) :
    ∃ tx1, noteRead tx true l (v l) = .ok tx1 ∧ ReadsGrow tx tx1 ∧ ScratchReads v tx1 n ∧ LineRead v tx1 l := by
  obtain ⟨hroom, hcurrent⟩ := h
  have hscratch : tx.reads.filter (fun r => r.scratch == true) = tx.reads.filter (fun r => r.scratch) := by simp only [beq_true]
  unfold noteRead
  split
  next r hr =>
    have hmem := List.mem_of_find?_eq_some hr
    have hkey := List.find?_some hr
    simp only [beq_true, Bool.and_eq_true, beq_iff_eq] at hkey
    obtain ⟨hs, hl⟩ := hkey
    have hv : r.version = v l := hl ▸ hcurrent r hmem hs
    rw [if_pos hv]
    exact ⟨tx, rfl, ⟨rfl, rfl, fun _ hr => hr⟩, ⟨by omega, hcurrent⟩, r, hmem, hs, hl, hv⟩
  next =>
    dsimp only
    rw [hscratch, if_neg (by simp only [if_true]; omega)]
    refine ⟨_, rfl, ⟨rfl, rfl, fun r hr => List.mem_append_left _ hr⟩, ⟨?_, fun r hr hs => ?_⟩, _, List.mem_append_right _ (List.mem_singleton_self _),
      rfl, rfl, rfl⟩
    · simp only [List.filter_append, List.length_append, List.filter_cons_of_pos, List.filter_nil, List.length_singleton]
      omega
    · rcases List.mem_append.mp hr with hr | hr
      · exact hcurrent r hr hs
      · cases List.mem_singleton.mp hr
        rfl

/-- Scratchpad lines that fit join the read set at their versions. -/
theorem noteReads_fits (lines : List Nat) (h : ScratchReads v tx lines.length) :
    ∃ tx1, noteReads true (lines.map (fun l => (l, v l))) tx = .ok tx1 ∧ ReadsGrow tx tx1 ∧ ∀ l ∈ lines, LineRead v tx1 l := by
  induction lines generalizing tx with
  | nil => exact ⟨tx, rfl, ⟨rfl, rfl, fun _ hr => hr⟩, fun _ hl => (nomatch hl)⟩
  | cons l lines ih =>
    obtain ⟨tx1, hok, hgrow, hfit, hl⟩ := noteRead_fits l h
    obtain ⟨tx2, hok', hgrow', hlines⟩ := ih hfit
    refine ⟨tx2, ?_, hgrow.trans hgrow', fun k hk => ?_⟩
    · rw [List.map_cons, noteReads, hok]
      exact hok'
    · rcases List.mem_cons.mp hk with rfl | hk
      · obtain ⟨r, hr, hrest⟩ := hl
        exact ⟨r, hgrow'.reads r hr, hrest⟩
      · exact hlines k hk

end

/-! ### Scratchpad loads -/

section
variable {e : Env} {s u : State}

/-- The results of a scratchpad load wait in requests for their replies. -/
theorem scratchReply_completes (hm : MemoryKept s u) (ha : Alive e u) (hu : u.reqs = s.reqs) (f : F2) (d : Ty × Nat) (l : List Nat)
    (val : Nat → Quad) (poi : Nat → Bool) (wr : Nat → Wr) (act : List Nat) {t : State}
    (ht : t = scratchReply e f d (l.map (fun fid => (fid, val fid, poi fid))) wr act u) :
    StandAt e (fun _ => nextPc e.pc) t ∧ MemoryKept s t ∧
      Requests e l (fun fid r => r.phase = .reply ∧ r.d = d.2 ∧ r.value = val fid) s t := by
  subst ht
  have hdone := completed_accesses (s1 := { u with ids := u.ids + 1 }) (hm.trans ⟨rfl, rfl, rfl⟩) (ha.of_gangs rfl) 1
    (fun fid => if act.contains fid then some (newWindow u.ids f.h.la.toNat (wr fid) true) else none)
    (l.map (fun fid => (fid, val fid, poi fid))) (send := fun s v => addReq { baseReq e f 0 u.ids (retire e 1 (fun _ => Wr.none)
      (fun fid => if act.contains fid then some (newWindow u.ids f.h.la.toNat (wr fid) true) else none) (fun _ => nextPc e.pc)
      { u with ids := u.ids + 1 }) with kind := .scratch, phase := .reply, ty := d.1, d := d.2, fid := v.1, value := v.2.1, poison := v.2.2 } s)
    (fun s _ => steady_addReq _ s) (fun _ _ => rfl)
  exact ⟨hdone.1, hdone.2, requests_of_added (fun u fid => ⟨_, rfl, rfl, rfl, rfl, rfl, rfl, rfl⟩) hu⟩

theorem getSlot_scratchReply (f : F2) (d : Ty × Nat) (vals : List (Nat × Quad × Bool)) (wr : Nat → Wr) (act : List Nat) (u : State) :
    (getSlot (scratchReply e f d vals wr act u) e.key).txn = (getSlot u e.key).txn := by
  unfold scratchReply
  dsimp only
  refine (foldl_part (fun s : State => (getSlot s e.key).txn) (fun _ _ => ?_) vals _).trans ?_
  · rfl
  · rw [getSlot_retire]
    rfl

/-- What a transaction that reads the scratchpad leaves: the retirement, and its lines in the read set. -/
theorem txnScratchReply_completes {tx tx1 : Txn} (halive : Alive e s) (hgrow : ReadsGrow tx tx1) {lines : List Nat}
    (hlines : ∀ l ∈ lines, LineRead (scratchVersion s e.gid) tx1 l) (f : F2) (d : Ty × Nat) (l : List Nat) (val : Nat → Quad) (poi : Nat → Bool)
    (wr : Nat → Wr) (act : List Nat) {t : State}
    (ht : t = scratchReply e f d (l.map (fun fid => (fid, val fid, poi fid))) wr act (setTxn e.key tx1 s)) :
    StandAt e (fun _ => nextPc e.pc) t ∧ MemoryKept s t ∧ ReadsJoined s t e tx lines ∧
      Requests e l (fun fid r => r.phase = .reply ∧ r.d = d.2 ∧ r.value = val fid) s t := by
  obtain ⟨hstand, hmem, hreqs⟩ := scratchReply_completes (s := s) (u := setTxn e.key tx1 s) ⟨rfl, rfl, rfl⟩ (halive.of_gangs rfl) rfl f d l val poi wr act ht
  refine ⟨hstand, hmem, ⟨tx1, ?_, hgrow.writes, hgrow.levels, hgrow.reads, hlines⟩, hreqs⟩
  rw [ht, getSlot_scratchReply, setTxn, getSlot_setSlot]

end

theorem bytesOfNat_one (v : Nat) : bytesOfNat 1 v = [BitVec.ofNat 8 v] := rfl

/-- A byte of the scratchpad as the wave sees it inside its transaction. -/
theorem overlay_byte (w : KMap Byte) (a v : Nat) : BitVec.ofNat 8 (overlay w a 1 v) = (kget? w a).getD (BitVec.ofNat 8 v) := by
  rw [overlay, bytesOfNat_one]
  simp [natOfBytes]

/-- The sector of no plane's byte is poisoned, in the scratchpad or in the buffer. -/
theorem planePoison_nil {g : Gang} {tx : Txn} {t : Ty} {off l : Nat}
    (h : ∀ p < planes t, scratchPoisonAt g (off + p * 2048 + l) = false ∧ (off + p * 2048 + l) / 128 ∉ tx.writes.scrPoison) :
    planePoison g (some tx) t (off + l) = [] := by
  unfold planePoison
  rw [List.map_eq_nil_iff, List.filter_eq_nil_iff]
  intro o ho
  obtain ⟨p, hp, rfl⟩ := List.mem_map.mp ho
  obtain ⟨hscratch, hbuffer⟩ := h p (List.mem_range.mp hp)
  rw [Nat.add_right_comm] at hscratch hbuffer
  simp [hscratch, hbuffer, bufferedPoison]

section
variable {f : F2} {s : State} {e : Env} (hi : Issues false s e) (hlive : Live e)
include hi hlive

theorem lds_completes (ht : e.sl.txn = none)
    (hregs : RegsOk e (executing f.h e) (dstUse (laneDst f.ty f.d) ++ [(f.a.toNat, 1)] ++ idxUse f))
    (hclean : ∀ fid ∈ executing f.h e, scratchFaults e.g (shortAddr f (getFibre e.g fid)).1.toNat (accBytes f.ty) false
      (f.ord != 0 && (shortAddr f (getFibre e.g fid)).2) = [] ∧ (f.ord ≠ 0 → scratchPoisonAt e.g (shortAddr f (getFibre e.g fid)).1.toNat = false))
    (hacq : acquiresDone s e.gid (executing f.h e) = true) (hflush : f.ord ≠ 0 → flushDone s e.g (slabOf e.core) (executing f.h e) = true) :
    ∃ t, execLds f s = .next t ∧ StandAt e (fun _ => nextPc e.pc) t ∧ MemoryKept s t ∧
      Requests e (executing f.h e) (fun fid r => r.phase = .reply ∧ r.d = f.d.toNat ∧
        r.value = BitVec.ofNat 128 (scratchRead s e.gid (shortAddr f (getFibre e.g fid)).1.toNat (accBytes f.ty))) s t := by
  refine reaches_issue hi (reaches_regs hregs (reaches_causes (fun fid hf => ?_) ?_))
  · obtain ⟨hfaults, hpoison⟩ := hclean fid hf
    rw [ht]
    by_cases h0 : f.ord = 0
    · simpa [h0] using hfaults
    · simpa [h0, hpoison h0, bufferedPoison] using hfaults
  unfold loadScratch
  dsimp only
  rw [ht]
  refine reaches_else ?_ ?_
  · by_cases h0 : f.ord = 0
    · simp [hacq, h0]
    · simp [hacq, hflush h0]
  rw [List.map_map]
  exact reaches_next (scratchReply_completes (.refl s) (hlive.alive hi.env) rfl f _ _ _ _ _ _ rfl)

theorem txnLds_completes {tx : Txn} (ht : e.sl.txn = some tx)
    (hregs : RegsOk e (executing f.h e) (dstUse (laneDst f.ty f.d) ++ [(f.a.toNat, 1)] ++ idxUse f))
    (hclean : ∀ fid ∈ executing f.h e, scratchFaults e.g (shortAddr f (getFibre e.g fid)).1.toNat (accBytes f.ty) false
        (shortAddr f (getFibre e.g fid)).2 = [] ∧
      scratchPoisonAt e.g (shortAddr f (getFibre e.g fid)).1.toNat = false ∧ (shortAddr f (getFibre e.g fid)).1.toNat / 128 ∉ tx.writes.scrPoison)
    (hacq : acquiresDone s e.gid (executing f.h e) = true) (hfit : ReadsFit s e tx (executing f.h e).length) :
    ∃ t, execLds f s = .next t ∧ StandAt e (fun _ => nextPc e.pc) t ∧ MemoryKept s t ∧
      ReadsJoined s t e tx ((executing f.h e).map (fun fid => (shortAddr f (getFibre e.g fid)).1.toNat / 256)) ∧
      Requests e (executing f.h e) (fun fid r => r.phase = .reply ∧ r.d = f.d.toNat ∧ r.value = BitVec.ofNat 128 (natOfBytes
        ((bytesOfNat (accBytes f.ty) (scratchRead s e.gid (shortAddr f (getFibre e.g fid)).1.toNat (accBytes f.ty))).zipIdx.map
          (fun b => (kget? tx.writes.scr ((shortAddr f (getFibre e.g fid)).1.toNat + b.2)).getD b.1)))) s t := by
  refine reaches_issue hi (reaches_regs hregs (reaches_causes (fun fid hf => ?_) ?_))
  · obtain ⟨hfaults, hpoison, hbuffered⟩ := hclean fid hf
    rw [ht]
    simpa [hpoison, hbuffered, bufferedPoison] using hfaults
  unfold loadScratch
  dsimp only
  rw [ht]
  refine reaches_else (by simp [hacq]) ?_
  rw [List.map_map, List.map_map]
  obtain ⟨tx1, hok, hgrow, hlines⟩ := noteReads_fits (v := scratchVersion s e.gid) (tx := tx)
    ((executing f.h e).map (fun fid => (shortAddr f (getFibre e.g fid)).1.toNat / 256)) (by rw [List.length_map]; exact ⟨hfit.1, hfit.2⟩)
  rw [List.map_map] at hok
  dsimp only
  generalize hr : noteReads true _ tx = r
  cases hr.symm.trans hok
  exact reaches_next (txnScratchReply_completes (hlive.alive hi.env) hgrow hlines _ _ _ _ _ _ _ rfl)

theorem ldpl_completes (ht : e.sl.txn = none) (hregs : RegsOk e (executing f.h e) ([(f.d.toNat, 2), (f.a.toNat, 1)] ++ idxUse f))
    (hclean : ∀ fid ∈ executing f.h e, planeFaults e.g f.ty (shortAddr f (getFibre e.g fid)).1.toNat = [])
    (hacq : acquiresDone s e.gid (executing f.h e) = true) :
    ∃ t, execLdpl f s = .next t ∧ StandAt e (fun _ => nextPc e.pc) t ∧ MemoryKept s t ∧
      Requests e (executing f.h e) (fun fid r => r.phase = .reply ∧ r.d = f.d.toNat ∧
        r.value = (unplane ((List.range (planes f.ty)).map (fun p =>
          BitVec.ofNat 8 (scratchRead s e.gid ((shortAddr f (getFibre e.g fid)).1.toNat + p * 2048 + lane fid) 1)))).zeroExtend 128) s t := by
  refine reaches_issue hi (reaches_regs hregs (reaches_causes (fun fid hf => ?_) ?_))
  · rw [ht, hclean fid hf]
    rfl
  refine reaches_else (by simp [hacq]) ?_
  dsimp only
  rw [ht]
  exact reaches_next (scratchReply_completes (.refl s) (hlive.alive hi.env) rfl f _ _ _ _ _ _ rfl)

theorem txnLdpl_completes {tx : Txn} (ht : e.sl.txn = some tx)
    (hregs : RegsOk e (executing f.h e) ([(f.d.toNat, 2), (f.a.toNat, 1)] ++ idxUse f))
    (hclean : ∀ fid ∈ executing f.h e, planeFaults e.g f.ty (shortAddr f (getFibre e.g fid)).1.toNat = [] ∧
      (shortAddr f (getFibre e.g fid)).2 = false ∧
      ∀ p < planes f.ty, scratchPoisonAt e.g ((shortAddr f (getFibre e.g fid)).1.toNat + p * 2048 + lane fid) = false ∧
        ((shortAddr f (getFibre e.g fid)).1.toNat + p * 2048 + lane fid) / 128 ∉ tx.writes.scrPoison)
    (hacq : acquiresDone s e.gid (executing f.h e) = true) (hfit : ReadsFit s e tx ((executing f.h e).length * planes f.ty)) :
    ∃ t, execLdpl f s = .next t ∧ StandAt e (fun _ => nextPc e.pc) t ∧ MemoryKept s t ∧
      ReadsJoined s t e tx ((executing f.h e).map (fun fid => (List.range (planes f.ty)).map (fun p =>
        ((shortAddr f (getFibre e.g fid)).1.toNat + p * 2048 + lane fid) / 256))).flatten ∧
      Requests e (executing f.h e) (fun fid r => r.phase = .reply ∧ r.d = f.d.toNat ∧
        r.value = (unplane ((List.range (planes f.ty)).map (fun p =>
          (kget? tx.writes.scr ((shortAddr f (getFibre e.g fid)).1.toNat + p * 2048 + lane fid)).getD
            (BitVec.ofNat 8 (scratchRead s e.gid ((shortAddr f (getFibre e.g fid)).1.toNat + p * 2048 + lane fid) 1))))).zeroExtend 128) s t := by
  refine reaches_issue hi (reaches_regs hregs (reaches_causes (fun fid hf => ?_) ?_))
  · obtain ⟨hfaults, haddr, hpoison⟩ := hclean fid hf
    rw [ht, hfaults, planePoison_nil hpoison]
    simp [haddr]
  refine reaches_else (by simp [hacq]) ?_
  dsimp only
  rw [ht]
  have hlength : ((executing f.h e).map (fun fid => (List.range (planes f.ty)).map (fun p =>
      ((shortAddr f (getFibre e.g fid)).1.toNat + p * 2048 + lane fid) / 256))).flatten.length = (executing f.h e).length * planes f.ty := by
    simp [List.length_flatten, Function.comp_def]
  obtain ⟨tx1, hok, hgrow, hlines⟩ := noteReads_fits (v := scratchVersion s e.gid) (tx := tx) _ (by rw [hlength]; exact ⟨hfit.1, hfit.2⟩)
  dsimp only
  generalize hr : noteReads true _ tx = r
  cases hr.symm.trans hok
  refine reaches_next ?_
  simp only [← overlay_byte]
  exact txnScratchReply_completes (hlive.alive hi.env) hgrow hlines f _ _ _ _ _ _ rfl

end

end Sys2Proof.Machine
end
section
/-! PROOF. Transactional global reads (R147 to R149): a read leaves for its home with what the wave has buffered of it, and the reply's line joins the read
set or closes the transaction. -/
namespace Sys2Proof.Machine

/-! ### The wave's own bytes -/

/-- The low bytes of a quad are those of the number it was made from. -/
theorem ofNat_byte_quad (v : Nat) {i : Nat} (hi : i < 16) : BitVec.ofNat 8 ((BitVec.ofNat 128 v).toNat / 2 ^ (8 * i)) = BitVec.ofNat 8 (v / 2 ^ (8 * i)) := by
  apply BitVec.eq_of_toNat_eq
  rw [BitVec.toNat_ofNat, BitVec.toNat_ofNat, BitVec.toNat_ofNat, show 2 ^ 128 = 2 ^ (8 * i) * 2 ^ (128 - 8 * i) by rw [← pow_add]; congr 1; omega,
    Nat.mod_mul_right_div_self]
  exact Nat.mod_mod_of_dvd _ (pow_dvd_pow 2 (by omega))

/-- The bits of a mask that is made bit by bit. -/
theorem getLsbD_foldl_setBit {k : Nat} (b : Nat → Bool) (n : Nat) (m : BitVec k) {j : Nat} (hj : j < n) (hk : j < k) :
    ((List.range n).foldl (fun m i => setBit m i (b i)) m).getLsbD j = b j := by
  induction n with
  | zero => cases hj
  | succ n ih =>
    rw [List.range_succ, List.foldl_append, List.foldl_cons, List.foldl_nil]
    by_cases h : j = n
    · rw [h] at hk ⊢
      exact getLsbD_setBit_same _ _ hk
    · rw [getLsbD_setBit_ne _ _ h]
      exact ih (by omega)

/-- A request's mask names the buffered bytes, and its data holds them. -/
theorem bufferedBytes_byte (w : KMap Byte) (a n : Nat) {i : Nat} (hn : i < n) (hi : i < 16) :
    (bufferedBytes w a n).2.getLsbD i = (kget? w (a + i)).isSome ∧
      BitVec.ofNat 8 ((bufferedBytes w a n).1.toNat / 2 ^ (8 * i)) = (kget? w (a + i)).getD 0 := by
  refine ⟨getLsbD_foldl_setBit (fun i => (kget? w (a + i)).isSome) n 0 hn (by omega), ?_⟩
  rw [bufferedBytes, ofNat_byte_quad _ hi, natOfBytes_byte _ (by simpa using hn)]
  simp

/-! ### LD inside a transaction -/

/-- The core's own dirty bytes go first. -/
theorem reqParts_txnSend (r : Req) (core ctx ia : Nat) (drop : Bool) (s : State) :
    reqParts (addReq r (cleanSector core ctx ia drop s)) = reqParts s ++ [reqPart r] :=
  (reqParts_addReq r _).trans (congrArg (· ++ [reqPart r]) (cleanSector_reqs fillBlind_reqPart ..))

section
variable {f : F2} {s : State} {e : Env}

theorem txnLd_completes {tx : Txn} (hi : Issues false s e) (hlive : Live e) (ht : e.sl.txn = some tx)
    (hregs : RegsOk e (executing f.h e) (dstUse (laneDst f.ty f.d) ++ [(f.a.toNat, 2)] ++ idxUse f))
    (hclean : ∀ fid ∈ executing f.h e, globalFaults s e.g.ctx (globalAddr f (getFibre e.g fid)).1 (accBytes f.ty) 1
        (globalAddr f (getFibre e.g fid)).2 = [] ∧ isPeer (iaOf s e.g.ctx (globalAddr f (getFibre e.g fid)).1 1) = false ∧
      iaOf s e.g.ctx (globalAddr f (getFibre e.g fid)).1 1 / 128 ∉ tx.writes.globPoison ∧
      homeSeen s e.core e.g.ctx (iaOf s e.g.ctx (globalAddr f (getFibre e.g fid)).1 1) false = false)
    (hclear : fibresClear s e (executing f.h e)
      ((executing f.h e).map (fun fid => iaOf s e.g.ctx (globalAddr f (getFibre e.g fid)).1 1 / 128)) = true) :
    ∃ t, execLd f s = .next t ∧ StandAt e (fun _ => nextPc e.pc) t ∧ MemoryKept s t ∧ (getSlot t e.key).txn = some tx ∧
      Requests e (executing f.h e) (fun fid r => r.kind = .txnRead ∧ r.phase = .toHome ∧ r.va = (globalAddr f (getFibre e.g fid)).1 ∧
        r.ia = iaOf s e.g.ctx (globalAddr f (getFibre e.g fid)).1 1 ∧ r.bytes = accBytes f.ty ∧ r.d = f.d.toNat ∧
        ∀ i < accBytes f.ty, i < 16 → let own := kget? tx.writes.glob (iaOf s e.g.ctx (globalAddr f (getFibre e.g fid)).1 1 + i)
          r.cmp.getLsbD i = own.isSome ∧ BitVec.ofNat 8 (r.data.toNat / 2 ^ (8 * i)) = own.getD 0) { s with reqs := [] } t := by
  refine reaches_issue hi (reaches_regs hregs (reaches_causes (fun fid hf => ?_) ?_))
  · rw [ht]
    simpa using (hclean fid hf).1
  rw [ht]
  dsimp only [loadTxn]
  rw [List.map_map, List.map_map]
  refine reaches_else (by rw [Bool.not_eq_true, Bool.not_eq_false']; exact hclear) (reaches_else ?_ (reaches_orPoison (fun a ha => ?_) ?_))
  · rw [List.any_map, List.any_eq_true]
    rintro ⟨fid, hf, hpeer⟩
    exact Bool.false_ne_true ((hclean fid hf).2.1.symm.trans hpeer)
  · obtain ⟨fid, hf, rfl⟩ := List.mem_map.mp ha
    obtain ⟨-, -, hbuffered, hseen⟩ := hclean fid hf
    simpa [hbuffered] using hseen
  have hblind : ∀ {α : Type} {p : State → α}, CacheBlind p → ∀ (r : Req) (ia : Nat) (u : State),
      p (addReq r (cleanSector e.core e.g.ctx ia false u)) = p u := fun hp r ia u => (addReq_part hp ..).trans (cleanSector_part hp ..)
  refine reaches_next ?_
  obtain ⟨hstand, hmem⟩ := completed_accesses (s := s) (s1 := { s with ids := s.ids + 1 }) (.refl s) ((hlive.alive hi.env).of_gangs rfl) 1
    (loadWindow f s.ids (executing f.h e)) _ (fun u _ => steady_of_cacheBlind fun _ hp => hblind hp ..)
    (fun u _ => hblind (p := State.gangs) (fun _ _ _ _ _ _ => rfl) ..)
  refine ⟨hstand, hmem, ?_, requests_of_parts (fun _ _ h => h) (fun u fid => ?_) (fun _ hf => hf) s _⟩
  · refine (foldl_part (fun s : State => (getSlot s e.key).txn) (fun u a => ?_) _ _).trans ?_
    · exact hblind (p := fun s : State => (getSlot s e.key).txn) (fun _ _ _ _ _ _ => rfl) ..
    · rw [getSlot_retire]
      exact (congrArg Slot.txn (slot_of_envOf hi.env).1).trans ht
  · exact ⟨_, reqParts_txnSend .., rfl, rfl, rfl, rfl, rfl, rfl, rfl, rfl, rfl, fun i hn h16 => bufferedBytes_byte _ _ _ hn h16⟩

end

/-! ### The reply of a transactional read -/

theorem length_bytesOfNat (n v : Nat) : (bytesOfNat n v).length = n := by
  induction n generalizing v with
  | zero => rfl
  | succ n ih => rw [bytesOfNat, List.length_cons, ih]

theorem getElem_bytesOfNat (n v i : Nat) (h : i < (bytesOfNat n v).length) : (bytesOfNat n v)[i] = BitVec.ofNat 8 (v / 2 ^ (8 * i)) := by
  induction n generalizing v i with
  | zero => cases h
  | succ n ih =>
    cases i with
    | zero => rw [Nat.mul_zero, Nat.pow_zero, Nat.div_one]; rfl
    | succ i =>
      refine (ih (v / 256) i _).trans (congrArg _ ?_)
      rw [Nat.div_div_eq_div_mul, show 8 * (i + 1) = 8 + 8 * i by omega, Nat.pow_add]

/-- The bytes of a transactional read: the wave's own, and the home's for the others. -/
theorem overBuffered_eq (r : Req) : overBuffered r = natOfBytes ((List.range r.bytes).map (fun i =>
    BitVec.ofNat 8 ((if r.cmp.getLsbD i then r.data else r.value).toNat / 2 ^ (8 * i)))) := by
  refine congrArg natOfBytes (List.ext_getElem (by simp [length_bytesOfNat]) fun i hi hi' => ?_)
  simp only [List.getElem_map, List.getElem_zipIdx, List.getElem_range, getElem_bytesOfNat, Nat.zero_add]
  split <;> rfl

theorem dropClean_part {α : Type} {p : State → α} (hp : CacheBlind p) (core ctx ia : Nat) (s : State) : p (dropClean core ctx ia s) = p s := by
  have hl1 : ∀ (s : State) v, p { s with l1 := v } = p s := fun s v => hp s s.ids s.slabs v s.wcb s.reqs
  unfold dropClean
  split
  · rfl
  · dsimp only
    generalize setSectorOfLine _ ia _ = l1
    split
    · exact (hl1 _ _).trans (handOver_part hp ..)
    · exact (l1Put_part hp ..).trans (handOver_part hp ..)

theorem mergeStamp_part {α : Type} {p : State → α} (hp : CacheBlind p) (slab : Nat) (w : List Nat) (s : State) : p (mergeStamp slab w s) = p s :=
  hp s s.ids _ s.l1 s.wcb s.reqs

section
variable {r : Req} {s : State}

/-- The slot whose wave a reply is for. -/
abbrev replyKey (r : Req) : Nat := slotKey r.core r.slot

theorem txnReply_eq {tx : Txn} (hopen : (getSlot s (replyKey r)).txn = some tx) (hgang : (getSlot s (replyKey r)).gang = r.gang)
    (hfid : r.fid ∈ (getSlot s (replyKey r)).fids) (hpoison : r.sectorPoison = false) (hca : r.ca % 4 = 0) :
    ∃ u, (∀ {α : Type} (p : State → α), CacheBlind p → p u = p s) ∧
      (∀ c, noteRead tx false r.image r.version = .error c → txnReply r s =
        deliver r (BitVec.ofNat 128 (r.value.toNat % 2 ^ (8 * r.bytes))) r.poison (abortTxn r.core (replyKey r) r.gang c 0 u)) ∧
      (∀ tx1, noteRead tx false r.image r.version = .ok tx1 → txnReply r s =
        deliver r (BitVec.ofNat 128 (overBuffered r)) r.poison (setTxn (replyKey r) tx1 u)) := by
  have hslot : ∀ u : State, (∀ {α : Type} (p : State → α), CacheBlind p → p u = p s) → getSlot u (replyKey r) = getSlot s (replyKey r) :=
    fun u hu => hu (fun s => getSlot s (replyKey r)) fun _ _ _ _ _ _ => rfl
  have hblind : ∀ {α : Type} (p : State → α), CacheBlind p → p (if isPeer r.ia then s else dropClean r.core r.ctx r.ia
      (blockIf r.core (fun x => x.phase == .reply && x.ctx == r.ctx && x.ia / 128 == r.ia / 128) s)) = p s := fun p hp => by
    split
    · rfl
    · exact (dropClean_part hp ..).trans (blockIf_part hp ..)
  refine ⟨_, hblind, ?_⟩
  unfold txnReply
  dsimp only
  generalize (if isPeer r.ia then s else dropClean r.core r.ctx r.ia _ : State) = u at hblind ⊢
  have hu := hslot u hblind
  rw [hu, hopen]
  dsimp only
  rw [if_neg (by simp [hgang, hfid]), hpoison, if_neg Bool.false_ne_true, if_neg (by simp [hca])]
  exact ⟨fun c hc => by rw [hc], fun tx1 hok => by rw [hok]⟩

end

/-! ### Results that are delivered -/

section
variable {r : Req} {raw : Quad} {poison : Bool} {s : State}

theorem memoryKept_setFibre (gid fid : Nat) (fn : Fibre → Fibre) (s : State) : MemoryKept s (setFibre gid fid fn s) := by
  unfold setFibre
  split
  · exact .refl s
  · exact ⟨rfl, rfl, rfl⟩

theorem memoryKept_deliver (r : Req) (raw : Quad) (poison : Bool) (s : State) : MemoryKept s (deliver r raw poison s) := by
  unfold deliver
  dsimp only
  split
  · split
    · exact .refl s
    · exact ⟨rfl, rfl, rfl⟩
  · exact memoryKept_setFibre ..

theorem getSlot_setFibre (gid fid : Nat) (fn : Fibre → Fibre) (s : State) (k : Nat) : getSlot (setFibre gid fid fn s) k = getSlot s k := by
  unfold setFibre
  split <;> rfl

/-- A result that arrives leaves the wave's transaction as it is. -/
theorem txn_deliver : (getSlot (deliver r raw poison s) (replyKey r)).txn = (getSlot s (replyKey r)).txn := by
  unfold deliver
  dsimp only
  split
  · split
    · rfl
    · rw [getSlot_setSlot]
  · rw [getSlot_setFibre]

/-- A gang that holds a fibre is there. -/
theorem gang_of_fibre {gid fid : Nat} (h : (kget? (getGang s gid).fibres fid).isSome = true) : (kget? s.gangs gid).isSome = true := by
  rw [getGang, kget] at h
  cases hg : kget? s.gangs gid with
  | none => rw [hg] at h; cases h
  | some g => rfl

theorem fibreAt_deliver (hfid : r.fid ≠ 1024) (hf : (kget? (getGang s r.gang).fibres r.fid).isSome = true) :
    fibreAt (deliver r raw poison s) r.gang r.fid = fillWindow (fibreAt s r.gang r.fid) r.window (loadWr r.ty r.d raw poison).regs 0 := by
  rw [deliver, if_neg hfid]
  exact fibreAt_setFibre (gang_of_fibre hf) hf _

/-- The transaction of the slot is over. -/
theorem txn_abortTxn (core key gid cause code : Nat) (s : State) : (getSlot (abortTxn core key gid cause code s) key).txn = none := by
  unfold abortTxn
  split
  next h => exact h
  next tx h =>
    unfold closeTxn
    dsimp only
    rw [h]
    dsimp only
    rw [toTable_part (fun s : State => (getSlot s key).txn) fun _ _ _ => rfl, getSlot_setGang, getSlot_setSlot]

theorem memoryKept_abortTxn (core key gid cause code : Nat) (s : State) : MemoryKept s (abortTxn core key gid cause code s) :=
  memoryKept_of_bytes (abortTxn_part (fun _ _ _ => rfl) (fun _ _ _ => rfl) (fun _ _ _ => rfl) core key gid cause code s)

theorem memoryKept_endReq (r : Req) (s : State) : MemoryKept s (closeEntry (replyKey r) r.entry (dropReq r s)) :=
  MemoryKept.trans (t := dropReq r s) ⟨rfl, rfl, rfl⟩ (steady_closeEntry ..).memory

theorem txn_closeEntry (key entry : Nat) (s : State) : (getSlot (closeEntry key entry s) key).txn = (getSlot s key).txn := by
  unfold closeEntry
  split
  · rfl
  · rw [getSlot_setSlot]

/-- The reply of a transactional read, after the stamp's merge, is the read's own. -/
theorem execMemoryReply_txnRead {rid : Nat} (hfind : s.reqs.find? (fun r => r.id == rid && r.phase == .reply && r.kind != .probe) = some r)
    (hkind : r.kind = .txnRead) (hord : r.ord = 0) :
    execMemoryReply rid s = .next (closeEntry (replyKey r) r.entry (dropReq r (txnReply r (mergeStamp (slabOf r.core) r.stamp s)))) := by
  unfold execMemoryReply policyDrop
  rw [hfind]
  dsimp only
  rw [hkind, hord]
  simp

end

/-- A reply joins the read set with its line's version, or closes the transaction. -/
theorem txnReadReply {s : State} {rid : Nat} {r : Req} {tx : Txn}
    (hfind : s.reqs.find? (fun r => r.id == rid && r.phase == .reply && r.kind != .probe) = some r) (hkind : r.kind = .txnRead) (hord : r.ord = 0)
    (hopen : (getSlot s (replyKey r)).txn = some tx) (hgang : (getSlot s (replyKey r)).gang = r.gang)
    (hfid : r.fid ∈ (getSlot s (replyKey r)).fids) (hpoison : r.sectorPoison = false) (hca : r.ca % 4 = 0) :
    ∃ t, execMemoryReply rid s = .next t ∧ MemoryKept s t ∧
      (∀ c, noteRead tx false r.image r.version = .error c → (getSlot t (replyKey r)).txn = none) ∧
      (∀ tx1, noteRead tx false r.image r.version = .ok tx1 → (getSlot t (replyKey r)).txn = some tx1 ∧ (r.fid ≠ 1024 →
        (kget? (getGang s r.gang).fibres r.fid).isSome = true → fibreAt t r.gang r.fid = fillWindow (fibreAt s r.gang r.fid) r.window
          (loadWr r.ty r.d (BitVec.ofNat 128 (overBuffered r)) r.poison).regs 0)) := by
  have hstamp : ∀ {α : Type} (p : State → α), CacheBlind p → p (mergeStamp (slabOf r.core) r.stamp s) = p s := fun p hp => mergeStamp_part hp ..
  have hslot := hstamp (fun s => getSlot s (replyKey r)) fun _ _ _ _ _ _ => rfl
  obtain ⟨u, hu, haborts, hjoins⟩ := txnReply_eq (r := r) (s := mergeStamp (slabOf r.core) r.stamp s) (by rw [hslot, hopen]) (by rw [hslot, hgang])
    (by rw [hslot]; exact hfid) hpoison hca
  have hmem : MemoryKept s u := (steady_of_cacheBlind fun p hp => (hu p hp).trans (hstamp p hp)).memory
  have hgangs : u.gangs = s.gangs := (hu State.gangs fun _ _ _ _ _ _ => rfl).trans (hstamp State.gangs fun _ _ _ _ _ _ => rfl)
  refine ⟨_, execMemoryReply_txnRead hfind hkind hord, ?_, fun c hc => ?_, fun tx1 hok => ⟨?_, fun hne hf => ?_⟩⟩
  · refine MemoryKept.trans ?_ (memoryKept_endReq ..)
    cases hnote : noteRead tx false r.image r.version with
    | error c => exact haborts c hnote ▸ hmem.trans ((memoryKept_abortTxn ..).trans (memoryKept_deliver ..))
    | ok tx1 => exact hjoins tx1 hnote ▸ hmem.trans (MemoryKept.trans ⟨rfl, rfl, rfl⟩ (memoryKept_deliver _ _ _ (setTxn (replyKey r) tx1 u)))
  · rw [txn_closeEntry, haborts c hc]
    exact txn_deliver.trans (txn_abortTxn ..)
  · rw [txn_closeEntry, hjoins tx1 hok]
    exact txn_deliver.trans (by rw [setTxn, getSlot_setSlot])
  · have hgang' : ∀ k, getGang u k = getGang s k := getGang_of_gangs hgangs
    rw [fibreAt, getGang_of_gangs (gangs_closeEntry ..), hjoins tx1 hok]
    refine (fibreAt_deliver hne (s := setTxn (replyKey r) tx1 u) ((congrArg (fun g : Gang => (kget? g.fibres r.fid).isSome) (hgang' _)).trans hf)).trans ?_
    exact congrArg (fun g => fillWindow (getFibre g r.fid) _ _ _) (hgang' r.gang)

/-- Settles O21: the loads outside a transaction and inside it, and the reply of a transactional read. -/
theorem loadsComplete : Obligations.LoadsComplete := by
  unfold Obligations.LoadsComplete
  intro addr off
  refine ⟨fun _ _ _ hi hlive ht hregs hclean hlog hacq hord => ld_completes hi hlive ht hregs hclean hlog hacq hord,
    fun _ _ _ hi hlive ht hregs hclean hacq hflush => lds_completes hi hlive ht hregs hclean hacq hflush,
    fun _ _ _ hi hlive ht hregs hclean hacq => ldpl_completes hi hlive ht hregs hclean hacq,
    fun _ _ _ _ hi hlive ht hregs => fun hclean hclear => txnLd_completes hi hlive ht hregs hclean hclear,
    fun s rid r tx hfind hkind hord => ?_,
    fun _ _ _ _ hi hlive ht hregs hclean hacq hfit => txnLds_completes hi hlive ht hregs hclean hacq hfit,
    fun _ _ _ _ hi hlive ht hregs => fun hclean hacq hfit => txnLdpl_completes hi hlive ht hregs hclean hacq hfit⟩
  intro key sl hopen hgang hfid hpoison hca
  obtain ⟨t, hexec, hmem, haborts, hjoins⟩ := txnReadReply hfind hkind hord hopen hgang hfid hpoison hca
  refine ⟨t, hexec, hmem, ?_⟩
  rw [← overBuffered_eq]
  dsimp only
  unfold noteRead at haborts hjoins
  cases hfound : tx.reads.find? (fun x => x.scratch == false && x.line == r.image) with
  | some x =>
    rw [hfound] at haborts hjoins
    dsimp only at haborts hjoins ⊢
    split
    next hv => exact hjoins tx (if_pos hv)
    next hv => exact haborts _ (if_neg hv)
  | none =>
    rw [hfound] at haborts hjoins
    dsimp only at haborts hjoins ⊢
    split
    next hroom => exact hjoins _ (if_neg (by simpa using hroom))
    next hfull => exact haborts _ (if_pos (by simpa using hfull))

end Sys2Proof.Machine
end
section
/-! PROOF. A transactional ST whose line takes the L1 way of a line that its own transaction buffers (R90, R147, R149): the eviction aborts the transaction
with WCAP, and the write set, which holds two lines, is gone. -/
namespace Sys2Proof.Machine

/-- A transaction that buffers a store to line 64. -/
def ownLineTxn : Txn :=
  { beginPc := 0, abortPc := 0, levels := [], reads := [], writes := { TxnWrites.empty with globLines := [64] }, held := [], active := [0],
    arrived := [], checked := 0, sets := [] }

/-- Its gang of one fibre holds every granule of its cluster's scratchpads, so that each set of the core's L1 has 16 ways. -/
def ownLineGang : Gang := { Gang.init with fibres := [(0, Fibre.init)], granules := 1024 }

def ownLineSlot : Slot := { Slot.init with fids := [0], txn := some ownLineTxn }

/-- The 16 lines of set 0, the transaction's in way 0; all are as old. -/
def fullSet : List L1Line := (List.range 16).map fun i =>
  { ctx := 0, line := 64 * (i + 1), way := i, rr := 7, lo := L1Sector.blank, hi := L1Sector.blank }

/-- The fibre has the issue slot. Its context maps the first 2 MiB of its IAs to the first of device memory, through a table at 0x1000. -/
def ownLineState : State := { State.reset with
  cur := some (0, 0), slots := [(0, ownLineSlot)], gangs := [(0, ownLineGang)], cores := [(0, { Core.init with gangs := [0] })],
  mem := [(0x1000, 0x01), (0x1001, 0x20), (0x2000, 0x01), (0x2001, 0x30), (0x3000, 0x0F)], l1 := [(0, fullSet)],
  ctxs := [(0, { Ctx.init with root := 0x1000, windows := [(0, 0x8000000000000015, 0, 0x107)] })] }

def ownLineEnv : Env := { core := 0, key := 0, sl := ownLineSlot, gid := 0, g := ownLineGang, fids := [0], pc := 0 }

/-- A store of 32 bits to VA 0, in line 0. -/
def storeAtZero : F2 := {
  h := { gp := 0, gn := false, la := 0 }, d := 0, a := 0, b := 0, c := 0, ty := .n32, sp := 0, rd := 0, pol := 0, ord := 0, sc := 0, ix := false,
  ixs := 0, off := 0 }

theorem issues_ownLine : Issues false ownLineState ownLineEnv := ⟨by decide, rfl, by decide⟩

theorem executing_storeAtZero : executing storeAtZero.h ownLineEnv = [0] := by decide

theorem translate_ownLine : translate ownLineState 0 0 true true = .ok {
    ctx := 0, first := 0, log := 21, held := false, pa := 0, ca := 0, tier := false, key := 0, u := true, w := true, entry := 0x3000 } := by decide

/-- The store's line evicts line 64, and the transaction is closed. -/
theorem txn_storeAtZero : ∃ t, exec (.st storeAtZero) ownLineState = .next t ∧ (getSlot t 0).txn = none := ⟨_, rfl, by decide +kernel⟩

/-- Refutes O22: a transactional ST whose write set holds 2 lines aborts, because the L1 has no way for its line but that of the transaction's other
line. The clause bounds the lines of the write set only, not what the L1 can hold of them. -/
theorem not_storesComplete : ¬ Obligations.StoresComplete := by
  unfold Obligations.StoresComplete
  rintro ⟨-, -, -, htxn, -⟩
  have hbuffers := htxn storeAtZero ownLineState ownLineEnv ownLineTxn issues_ownLine (by unfold Live; decide) rfl
  rw [executing_storeAtZero] at hbuffers
  obtain ⟨t, hexec, -, -, ⟨tx1, htx1, -⟩, -⟩ := hbuffers (by unfold RegsOk; decide)
    (fun fid hf => by
      cases List.mem_singleton.mp hf
      exact ⟨by decide, by decide, _, translate_ownLine, rfl⟩)
    (by decide) (by decide)
  obtain ⟨t', hexec', hnone⟩ := txn_storeAtZero
  cases hexec.symm.trans hexec'
  cases hnone.symm.trans htx1

end Sys2Proof.Machine
end
section
/-! PROOF. Events of the memory system: ticks, delivery reports, writes on their way, and the homes (R104 to R110, R114, R216, R218). -/
namespace Sys2Proof.Machine

/-! ### Ticks and reports (R104, R107) -/

theorem tick_completes {s : State} (h : ∀ b ∈ s.slabs, ∀ m ∈ b.2.inq, s.tick ≤ m.tick) : execTick s = .next { s with tick := s.tick + 1, phase := 0 } := by
  refine if_neg ?_
  rw [List.any_eq_true]
  rintro ⟨b, hb, hm⟩
  obtain ⟨m, hm, hlt⟩ := List.any_eq_true.mp hm
  exact absurd (of_decide_eq_true hlt) (by have := h b hb m hm; omega)

/-- A home that is three ticks behind an agent may hear of one tick more. -/
theorem mayReport_of_behind {s : State} {a home : Nat} (ht : s.tick < 2 ^ 56) (h : vget (stableOf s home) a + 3 ≤ s.tick) :
    mayReport s a home = true := by
  rw [mayReport, tick56, Nat.mod_eq_of_lt ht, Nat.mod_eq_of_lt (show vget (stableOf s home) a + 1 < 2 ^ 56 by omega)]
  have hdist : s.tick + 2 ^ 56 - (vget (stableOf s home) a + 1) = (s.tick - (vget (stableOf s home) a + 1)) + 2 ^ 56 := by omega
  rw [hdist, Nat.add_mod_right, Nat.mod_eq_of_lt (by omega)]
  exact decide_eq_true (by omega)

theorem deliveryReport_completes {s : State} {a home : Nat} (ha : a < 5) (hh : home < 256) (ht : s.tick < 2 ^ 56)
    (h : vget (stableOf s home) a + 3 ≤ s.tick) : execDeliveryReport { agent := a, home := some home } s =
      .next { s with stable := kset s.stable home (vset (stableOf s home) a (vget (stableOf s home) a + 1)) } := by
  have hhomes : [home].filter (fun h => decide (h < 256) && mayReport s a h) = [home] :=
    List.filter_cons_of_pos (by rw [mayReport_of_behind ht h, decide_eq_true hh]; rfl)
  unfold execDeliveryReport
  dsimp only
  rw [hhomes, if_neg (by simpa using ha)]
  simp only [List.foldl_cons, List.foldl_nil, reportAt]
  rw [Nat.mod_eq_of_lt (by omega)]

/-! ### Writes on their way -/

theorem getSlab_setSlab (s : State) (slab : Nat) (b : Slab) : getSlab (setSlab s slab b) slab = b := by
  rw [getSlab, setSlab, kget_kset_same]

theorem coreSideForward_completes {s : State} {slab : Nat} {m : WriteMsg} {rest : List WriteMsg} (hm : (getSlab s slab).inq = m :: rest) :
    ∃ t, execCoreSideForward slab s = .next t ∧ MemoryKept s t ∧ (∀ x ∈ s.held, x ∈ t.held) ∧
      { m with stamp := vOf s slab, tick := s.tick } ∈ t.held ∧ m ∉ (getSlab t slab).inq := by
  unfold execCoreSideForward
  dsimp only
  rw [hm]
  refine ⟨_, rfl, ⟨rfl, rfl, rfl⟩, fun x hx => List.mem_append_left _ hx, ?_, ?_⟩
  · refine List.mem_append_right _ (List.mem_map_of_mem (List.mem_filter.mpr ⟨List.mem_cons_self .., ?_⟩))
    simp
  · refine (congrArg (fun b : Slab => m ∉ b.inq) (getSlab_setSlab s slab _)).mpr ?_
    simp

theorem homeApplyWrite_completes {s : State} {home a : Nat} {m : WriteMsg} (hfirst : firstHeld s home a = some m) (happl : applicable s m = true)
    (hreset : s.mgmt.resetting = false) (hgroup : m.kind.grouped = false) (hop : isOp m.kind = false) :
    execHomeApplyWrite home a s = .next (applyOne m s) := by
  have hfault : groupFault s m = none := by
    unfold groupFault
    split
    next h => rw [h] at hgroup; cases hgroup
    · rfl
  unfold execHomeApplyWrite
  rw [hfirst]
  dsimp only
  rw [hgroup, happl, hop, hreset, if_neg Bool.false_ne_true, if_neg (by simp), if_neg (by simp [hfault])]
  rfl

theorem coreSideCopyExpiry_completes {s : State} {slab : Nat} {c : SliceCopy} (hc : c ∈ (getSlab s slab).copies)
    (hhome : slabOfHome (homeOf (c.sector * 128)) ≠ slab) :
    ∃ t, execCoreSideCopyExpiry slab c.ctx (c.sector / 2) s = .next t ∧ MemoryKept s t ∧ c ∉ (getSlab t slab).copies := by
  have hgoes : (c.ctx == c.ctx && c.sector / 2 == c.sector / 2 && slabOfHome (homeOf (c.sector * 128)) != slab) = true := by
    simpa using hhome
  unfold execCoreSideCopyExpiry
  dsimp only
  rw [if_pos (List.any_eq_true.mpr ⟨c, hc, hgoes⟩)]
  refine ⟨_, rfl, ⟨rfl, rfl, rfl⟩, ?_⟩
  rw [getSlab_setSlab, List.mem_filter, hgoes]
  exact fun h => Bool.false_ne_true h.2

theorem writeAcknowledgement_completes {s : State} {wid : Nat} {m : WriteMsg} (hfind : s.applied.find? (fun m => m.id == wid) = some m) :
    ∃ t, execWriteAcknowledgement wid s = .next t ∧ MemoryKept s t ∧ (∀ x ∈ t.applied, x.id ≠ wid) ∧
      ∀ rid, m.kind = .store rid → ∀ x ∈ t.reqs, x.id ≠ rid := by
  have happlied : ∀ x ∈ s.applied.filter (fun x => x.id != wid), x.id ≠ wid := fun x hx => by simpa using (List.mem_filter.mp hx).2
  unfold execWriteAcknowledgement
  rw [hfind]
  dsimp only
  split
  next id hkind =>
    split
    next hnone =>
      refine ⟨_, rfl, ⟨rfl, rfl, rfl⟩, happlied, fun rid hrid x hx => ?_⟩
      cases hkind.symm.trans hrid
      simpa using List.find?_eq_none.mp hnone x hx
    next r hr =>
      refine ⟨_, rfl, MemoryKept.trans ⟨rfl, rfl, rfl⟩ (memoryKept_endReq r { s with applied := s.applied.filter (fun x => x.id != wid) }), ?_,
        fun rid hrid x hx => ?_⟩
      · unfold closeEntry
        split
        · exact happlied
        · exact happlied
      · cases hkind.symm.trans hrid
        have hid : r.id = id := by simpa using List.find?_some hr
        rw [reqs_closeEntry] at hx
        simpa [hid] using (List.mem_filter.mp hx).2
  next hother =>
    exact ⟨_, rfl, ⟨rfl, rfl, rfl⟩, happlied, fun rid hrid => absurd hrid (hother rid)⟩

theorem hostMemoryWrite_completes {s : State} {pa : Nat} {data : List Byte} (hdata : data ≠ []) (hsector : pa % 128 + data.length ≤ 128)
    (hpa : pa < 2 ^ 48) : ∃ m, execHostMemoryWrite pa data s =
      .next { s with ids := s.ids + 1, bridge := vset s.bridge 4 (tick56 s), held := s.held ++ [m] } ∧ m.agent = 4 ∧ m.phys = true ∧
      m.sector = pa / 128 ∧ m.mask = byteMask (pa % 128) data.length ∧ m.data = natSector (natOfBytes data) (pa % 128) data.length ∧
      m.stamp = vset s.bridge 4 (tick56 s) := by
  unfold execHostMemoryWrite
  rw [if_neg (by simp [hdata]; omega)]
  exact ⟨_, rfl, rfl, rfl, rfl, rfl, rfl, rfl⟩

end Sys2Proof.Machine
end
section
/-! PROOF. Homes that answer, replies and faults that reach their cores (R106, R109, R121, R216 to R220, R239), and O40. -/
namespace Sys2Proof.Machine

/-! ### Homes -/

/-- A request that is put in place of one with its identifier is there. -/
theorem mem_putReq {x r : Req} {s : State} (hr : r ∈ s.reqs) (hid : r.id = x.id) : x ∈ (putReq x s).reqs :=
  List.mem_map.mpr ⟨r, hr, if_pos hid⟩

theorem setAccessed_reqs (l : Leaf) (s : State) : (setAccessed l s).reqs = s.reqs := by
  unfold setAccessed
  split <;> rfl

theorem setAccessed_held (l : Leaf) (s : State) : (setAccessed l s).held = s.held := by
  unfold setAccessed
  split <;> rfl

theorem sliceFill_reqs (slab ctx sector : Nat) (d : BitVec 1024) (poison : Bool) (stamp : List Nat) (writer rr : Nat) (s : State) :
    (sliceFill slab ctx sector d poison stamp writer rr s).reqs = s.reqs := by
  unfold sliceFill
  dsimp only
  split
  · rfl
  · unfold slicePut
    dsimp only
    split <;> rfl

section
variable {s : State} {rid : Nat} {r : Req} (hfind : s.reqs.find? (fun r => r.id == rid && r.phase == .toHome) = some r)
  (hreset : s.mgmt.resetting = false) (hpeer : isPeer r.ia = false)
include hfind

theorem id_of_toHome : r.id = rid ∧ r ∈ s.reqs := by
  have h := List.find?_some hfind
  rw [Bool.and_eq_true, beq_iff_eq] at h
  exact ⟨h.1, List.mem_of_find?_eq_some hfind⟩

include hreset in
theorem homeServe_read (hkind : r.kind = .load) (hready : readReady s r = true) : execHomeServe rid none s = serveRead r s := by
  unfold execHomeServe
  dsimp only
  rw [hfind]
  dsimp only
  rw [if_neg (by simp [hreset]), hkind, if_neg (by exact Bool.false_ne_true), if_pos hready]

include hreset in
theorem homeServe_op {op : Nat} (hkind : r.kind = .atomic op) : execHomeServe rid none s = serveOp r s := by
  unfold execHomeServe
  dsimp only
  rw [hfind]
  dsimp only
  rw [if_neg (by simp [hreset]), hkind, if_pos (by rfl)]

include hreset hpeer

theorem homeServe_load (hkind : r.kind = .load) (hready : readReady s r = true) {l : Leaf} (hl : translate s r.ctx r.ia true false = .ok l) :
    ∃ t, execHomeServe rid none s = .next t ∧ ∃ x ∈ t.reqs, x.id = rid ∧ x.phase = .reply ∧ x.value =
      BitVec.ofNat 128 (sectorNat (homeSector (touchLine (l.pa / 256) (setAccessed l s)) l) (r.ia % 128) r.bytes) := by
  obtain ⟨hid, hmem⟩ := id_of_toHome hfind
  rw [homeServe_read hfind hreset hkind hready]
  unfold serveRead spotOf
  rw [hpeer, hkind, if_neg Bool.false_ne_true, show (ReqKind.load == ReqKind.probe) = false from rfl, hl]
  dsimp only
  rw [if_neg (by simp)]
  refine ⟨_, rfl, _, mem_putReq (r := r) ?_ rfl, hid, rfl, rfl⟩
  have htouch : (touchLine (l.pa / 256) (setAccessed l s)).reqs = s.reqs :=
    (touchLine_part (p := State.reqs) (fun _ _ _ _ _ _ _ _ _ => rfl) ..).trans (setAccessed_reqs l s)
  split
  · rw [sliceFill_reqs, htouch]
    exact hmem
  · rw [htouch]
    exact hmem

theorem homeServe_fault (hkind : r.kind = .load) (hready : readReady s r = true) {y : Nat} (hy : translate s r.ctx r.ia true false = .error y) :
    ∃ t, execHomeServe rid none s = .next t ∧ MemoryKept s t ∧ ∃ x ∈ t.reqs, x.id = rid ∧ x.phase = .faulted y := by
  obtain ⟨hid, hmem⟩ := id_of_toHome hfind
  rw [homeServe_read hfind hreset hkind hready]
  unfold serveRead spotOf
  rw [hpeer, hkind, if_neg Bool.false_ne_true, show (ReqKind.load == ReqKind.probe) = false from rfl, hy]
  dsimp only
  rw [if_neg (by simp)]
  exact ⟨_, rfl, ⟨rfl, rfl, rfl⟩, _, mem_putReq hmem rfl, hid, rfl⟩

end

/-- A part of the machine that a home's write of a place leaves as it is. -/
theorem spotWrite_part {α : Type} {p : State → α} (hp : WakeBlind p) (hmem : ∀ s m k po st, p { s with mem := m, sectorKeys := k, poison := po, stamps := st } = p s)
    (hleaf : ∀ l s, p (setAccessed l s) = p s) (hpeer : ∀ s m po, p { s with peerMem := m, peerPoison := po } = p s)
    (q : Spot) (bs : List Byte) (poison : Bool) (agent : Nat) (stamp : List Nat) (s : State) : p (spotWrite q bs poison agent stamp s) = p s := by
  cases q with
  | peer k => exact hpeer s _ _
  | page l =>
    refine (hleaf l _).trans ?_
    unfold leafWrite homeWrite
    dsimp only
    rw [dropCopies_part hp, dropCopies_part hp]
    cases hf : homeFenced s (l.pa / 128) with
    | false => exact (storeSector_part hp _ _ _ _ _ _ _ _ hf).trans (hmem s _ _ _ _)
    | true =>
      unfold storeSector
      dsimp only
      rw [if_pos hf]

/-- An atomic at its home answers the bytes that it finds, and its own part of the machine stands. -/
theorem atomicServe_answer (op : Nat) (r : Req) (p : Spot) (stamp : List Nat) (s : State) :
    (atomicServe op r p stamp s).2 = { r with
      phase := .reply, value := BitVec.ofNat 128 (natOfBytes (spotBytes s p r.bytes)), stamp := spotStamp s p, sectorPoison := spotPoison s p } := by
  unfold atomicServe
  dsimp only
  split
  · rfl
  · split <;> rfl

theorem atomicServe_part {α : Type} {q : State → α} (hq : WakeBlind q)
    (hmem : ∀ s m k po st, q { s with mem := m, sectorKeys := k, poison := po, stamps := st } = q s) (hleaf : ∀ l s, q (setAccessed l s) = q s)
    (hpeer : ∀ s m po, q { s with peerMem := m, peerPoison := po } = q s) (op : Nat) (r : Req) (p : Spot) (stamp : List Nat) (s : State) :
    q (atomicServe op r p stamp s).1 = q s := by
  unfold atomicServe
  dsimp only
  split
  · rfl
  · split
    · rfl
    · exact spotWrite_part hq hmem hleaf hpeer ..

theorem homeServe_atomic {s : State} {rid op : Nat} {r : Req} {m : WriteMsg} {l : Leaf}
    (hfind : s.reqs.find? (fun r => r.id == rid && r.phase == .toHome) = some r) (hkind : r.kind = .atomic op) (hmsg : opMsg s rid = some m)
    (hready : opReady s r m = true) (hreset : s.mgmt.resetting = false) (hpeer : isPeer r.ia = false)
    (hl : translate s r.ctx r.ia true true = .ok l) {s1 : State}
    (hs1 : s1 = spotTouch (.page l) { s with held := s.held.filter (fun x => x.id != m.id) }) :
    ∃ t, execHomeServe rid none s = .next t ∧ (∀ x ∈ t.held, x.id ≠ m.id) ∧ ∃ x ∈ t.reqs, x.id = rid ∧ x.phase = .reply ∧
      x.value = BitVec.ofNat 128 (natOfBytes (leafBytes s1 l r.bytes)) ∧ x.sectorPoison = poisonedAt s1 (l.pa / 128) := by
  obtain ⟨hid, hmem⟩ := id_of_toHome hfind
  rw [homeServe_op hfind hreset hkind]
  unfold serveOp spotOf
  rw [hid, hmsg]
  dsimp only
  rw [hready, hpeer, if_neg Bool.false_ne_true, hl]
  dsimp only
  rw [if_neg (by simp), hkind]
  dsimp only
  rw [← hs1]
  have hreqs : s1.reqs = s.reqs := hs1 ▸ (touchLine_part (p := State.reqs) (fun _ _ _ _ _ _ _ _ _ => rfl) ..).trans (setAccessed_reqs ..)
  have hheld : s1.held = s.held.filter (fun x => x.id != m.id) :=
    hs1 ▸ (touchLine_part (p := State.held) (fun _ _ _ _ _ _ _ _ _ => rfl) ..).trans (setAccessed_held ..)
  have hreqs' := (atomicServe_part (q := State.reqs) (fun _ _ _ _ _ _ _ _ _ => rfl) (fun _ _ _ _ _ => rfl) setAccessed_reqs (fun _ _ _ => rfl) op r
    (.page l) m.stamp s1).trans hreqs
  have hheld' := (atomicServe_part (q := State.held) (fun _ _ _ _ _ _ _ _ _ => rfl) (fun _ _ _ _ _ => rfl) setAccessed_held (fun _ _ _ => rfl) op r
    (.page l) m.stamp s1).trans hheld
  rw [atomicServe_answer]
  refine ⟨_, rfl, fun x hx => ?_, _, mem_putReq (r := r) ?_ rfl, hid, rfl, rfl, rfl⟩
  · have hx' : x ∈ (atomicServe op r (.page l) m.stamp s1).1.held := by
      revert hx
      unfold putReq
      dsimp only
      split <;> exact id
    rw [hheld', List.mem_filter] at hx'
    simpa using hx'.2
  · split
    · exact hreqs' ▸ hmem
    · exact hreqs' ▸ hmem

/-! ### Replies -/

theorem policyDrop_reqs (r : Req) (s : State) : (policyDrop r s).reqs = s.reqs := by
  unfold policyDrop
  split <;> rfl

section
variable {s : State} {rid : Nat} {r : Req} (hfind : s.reqs.find? (fun r => r.id == rid && r.phase == .reply && r.kind != .probe) = some r)
include hfind

/-- The reply ends its request. -/
theorem memoryReply_ends : ∃ t, execMemoryReply rid s = .next t ∧ ∀ x ∈ t.reqs, x.id ≠ rid := by
  have hid : r.id = rid := by
    have h := List.find?_some hfind
    simp only [Bool.and_eq_true, beq_iff_eq] at h
    exact h.1.1
  unfold execMemoryReply
  rw [hfind]
  dsimp only
  refine ⟨_, rfl, ?_⟩
  generalize hu : closeEntry (slotKey r.core r.slot) r.entry (dropReq r _) = u
  have hdropped : ∀ n ∈ u.reqs.map Req.id, n ≠ rid := by
    rw [← hu, reqs_closeEntry]
    rintro n hn rfl
    obtain ⟨x, hx, hxid⟩ := List.mem_map.mp hn
    have h := (List.mem_filter.mp hx).2
    rw [hxid, hid] at h
    simp at h
  have hacquire : ∀ core sc, (acquireEffect core sc u).reqs.map Req.id = u.reqs.map Req.id := fun core sc =>
    acquireEffect_reqs (q := Req.id) (fun _ _ _ _ => rfl) core sc u
  rw [policyDrop_reqs]
  refine fun x hx => hdropped x.id ?_
  split at hx
  · exact List.mem_map_of_mem hx
  · split at hx
    · split at hx
      · exact List.mem_map_of_mem hx
      · exact hacquire r.core 1 ▸ List.mem_map_of_mem hx
    · exact hacquire r.core r.sc ▸ List.mem_map_of_mem hx

theorem execMemoryReply_scratch (hkind : r.kind = .scratch) (hord : r.ord = 0) : execMemoryReply rid s =
    .next (closeEntry (replyKey r) r.entry (dropReq r (deliver r r.value r.poison (mergeStamp (slabOf r.core) r.stamp s)))) := by
  unfold execMemoryReply policyDrop
  rw [hfind]
  dsimp only
  rw [hkind, hord]
  simp

theorem memoryReply_completes : ∃ t, execMemoryReply rid s = .next t ∧ (∀ x ∈ t.reqs, x.id ≠ rid) ∧ (r.kind = .scratch → r.fid ≠ 1024 → r.ord = 0 →
    (kget? (getGang s r.gang).fibres r.fid).isSome = true →
    fibreAt t r.gang r.fid = fillWindow (fibreAt s r.gang r.fid) r.window (loadWr r.ty r.d r.value r.poison).regs 0) := by
  obtain ⟨t, hexec, hids⟩ := memoryReply_ends hfind
  refine ⟨t, hexec, hids, fun hkind hne hord hf => ?_⟩
  cases hexec.symm.trans (execMemoryReply_scratch hfind hkind hord)
  rw [fibreAt, getGang_of_gangs (gangs_closeEntry ..)]
  exact fibreAt_deliver hne (s := mergeStamp (slabOf r.core) r.stamp s) hf

end

/-! ### Replies of write probes -/

theorem memoryKept_of_cacheBlind {s t : State} (h : ∀ {α : Type} (p : State → α), CacheBlind p → p t = p s) : MemoryKept s t :=
  (steady_of_cacheBlind h).memory

theorem memoryKept_policyDrop (r : Req) (s : State) : MemoryKept s (policyDrop r s) := by
  unfold policyDrop
  split
  · exact ⟨rfl, rfl, rfl⟩
  · exact .refl s

theorem memoryKept_addAsync (gid fid cause : Nat) (val : W64) (s : State) : MemoryKept s (addAsync gid fid cause val s) := by
  unfold addAsync
  split
  · exact .refl s
  · exact ⟨rfl, rfl, rfl⟩

theorem memoryKept_trapFailure (e : Env) (cause : Nat) (s : State) : MemoryKept s (trapFailure e cause s) :=
  MemoryKept.trans (t := report _ s) ⟨rfl, rfl, rfl⟩ (steady_failTask ..).memory

theorem memoryKept_poisonReply (r : Req) (s : State) : MemoryKept s (poisonReply r s) := by
  unfold poisonReply
  split
  · split
    · exact (memoryKept_logError (.refl s)).trans (memoryKept_trapFailure ..)
    · exact .refl s
  · exact (memoryKept_setFibre ..).trans (memoryKept_addAsync ..)

theorem l1Confirm_part {α : Type} {p : State → α} (hp : CacheBlind p) (core ctx ia : Nat) (s : State) : p (l1Confirm core ctx ia s) = p s := by
  unfold l1Confirm
  split
  · rfl
  · exact l1Put_part hp ..

theorem wcStore_part {α : Type} {p : State → α} (hp : CacheBlind p) (core ctx ia n d : Nat) (poison : Bool) (s : State) :
    p (wcStore core ctx ia n d poison s) = p s := by
  have hwcb : ∀ (s : State) w, p { s with wcb := w } = p s := fun s w => hp s s.ids s.slabs s.l1 w s.reqs
  unfold wcStore
  dsimp only
  split
  · exact hwcb ..
  generalize hroom : (if (kget s.wcb core []).length < 8 then s else _ : State) = u
  have hu : p u = p s := by
    rw [← hroom]
    split
    · rfl
    split
    · exact (pushWrite_part hp ..).trans (hwcb ..)
    · rfl
  split
  · exact (hwcb ..).trans hu
  · exact (wcFlush_part hp ..).trans ((hwcb ..).trans hu)

/-- A line that enters the L1 may abort a transaction whose buffered line it evicts (R149). -/
theorem memoryKept_l1Alloc (core ctx ia rr : Nat) (s : State) : MemoryKept s (l1Alloc core ctx ia rr s) := by
  have hp : CacheBlind bytesAndMgmt := fun _ _ _ _ _ _ => rfl
  unfold l1Alloc
  split
  · exact .refl s
  dsimp only
  split
  · exact ⟨rfl, rfl, rfl⟩
  split
  · exact .refl s
  · exact memoryKept_of_bytes ((loseLine_part hp ..).trans (evictBuffered_part (fun _ _ _ => rfl) (fun _ _ _ => rfl) (fun _ _ _ => rfl) ..))

theorem writeProbeReply_completes {s : State} {rid : Nat} {r : Req}
    (hfind : s.reqs.find? (fun r => r.id == rid && r.phase == .reply && r.kind == .probe) = some r)
    (hfirst : ∀ x ∈ s.reqs, x.kind = .probe → x.entry = r.entry → x.ia / 128 = r.ia / 128 → r.id ≤ x.id) :
    ∃ t, execWriteProbeReply rid s = .next t ∧ MemoryKept s t := by
  have hend : ∀ {u : State}, MemoryKept s u → Reaches (.next (closeEntry (slotKey r.core r.slot) r.entry (dropReq r u))) (MemoryKept s) :=
    fun h => reaches_next (h.trans (memoryKept_endReq r _))
  have hsend : ∀ {u : State} (x : Req), MemoryKept s u → Reaches (.next (sendStore x (putReq x u))) (MemoryKept s) :=
    fun {u} x h => reaches_next (h.trans (MemoryKept.trans (t := putReq x u) ⟨rfl, rfl, rfl⟩
      (memoryKept_of_cacheBlind fun _ hp => sendStore_part hp x _)))
  unfold execWriteProbeReply
  rw [hfind]
  dsimp only
  rw [if_neg (by
    rw [List.any_eq_true]
    rintro ⟨x, hx, h⟩
    simp only [Bool.and_eq_true, beq_iff_eq, decide_eq_true_eq] at h
    obtain ⟨⟨⟨⟨hkind, hentry⟩, -⟩, hsector⟩, hlt⟩ := h
    exact absurd (hfirst x hx hkind hentry hsector) (by omega))]
  split
  · exact hend ((memoryKept_of_cacheBlind fun _ hp => dropClean_part hp ..).trans (memoryKept_poisonReply ..))
  have hdrop := memoryKept_policyDrop r s
  generalize policyDrop r s = u at hdrop ⊢
  split
  · split
    · exact hsend _ hdrop
    · refine hend (hdrop.trans ((memoryKept_l1Alloc r.core r.ctx r.ia (insertion r.rd r.pol) u).trans ?_))
      split
      · exact memoryKept_of_cacheBlind fun _ hp => (l1Hit_part hp ..).trans ((l1Confirm_part hp ..).trans (l1Merge_part hp ..))
      · exact memoryKept_of_cacheBlind fun _ hp => (l1Confirm_part hp ..).trans (l1Merge_part hp ..)
  · exact hend (hdrop.trans (memoryKept_of_cacheBlind fun _ hp => wcStore_part hp ..))
  · exact hsend _ hdrop

/-! ### Faults (R218 to R220) -/

/-- A lane of the report parks, unless it is parked already. -/
def parkedFibre (fids : List Nat) (park : Park) (k : Nat) (x : Fibre) : Fibre := if fids.contains k && x.park == .no then { x with park := park } else x

theorem park_parkedFibre {fids : List Nat} {k : Nat} (hk : k ∈ fids) (park : Park) (x : Fibre) :
    (parkedFibre fids park k x).park = if x.park = .no then park else x.park := by
  rw [parkedFibre, List.contains_iff_mem.mpr hk, Bool.true_and]
  by_cases hx : x.park = .no
  · rw [if_pos hx, if_pos (by rw [hx]; rfl)]
  · rw [if_neg hx, if_neg (by simpa using hx)]

theorem loggedAccessFault_completes {s : State} {rid why : Nat} {r : Req}
    (hfind : s.reqs.find? (fun r => r.id == rid && r.seq == 0 && (match r.phase with | .faulted _ => true | _ => false)) = some r)
    (hphase : r.phase = .faulted why) (hfid : r.fid ≠ 1024) (hkind : r.kind ≠ .txnRead) :
    ∃ t, execLoggedAccessFault rid s = .next t ∧ MemoryKept s t ∧ ((kget? (getGang s r.gang).fibres r.fid).isSome = true →
        (fibreAt t r.gang r.fid).park = (if (fibreAt s r.gang r.fid).park = .no then .fault s.seq (r.fva.getD r.va) false
          else (fibreAt s r.gang r.fid).park)) ∧
      ∃ p, t.faultsOut = s.faultsOut ++ [p] ∧ p.seq = s.seq ∧ p.kind = 1 ∧ p.why = why ∧ p.va = r.fva.getD r.va ∧ p.pc = r.pc ∧ p.ctx = r.ctx := by
  have hseq : r.seq = 0 := by
    have h := List.find?_some hfind
    simp only [Bool.and_eq_true, beq_iff_eq] at h
    exact h.1.2
  have hmine : r.fid ∈ (s.reqs.filter (fun x => x.entry == r.entry && x.seq == 0 && (match x.phase with | .faulted _ => true | _ => false))).map (·.fid) :=
    List.mem_map_of_mem (List.mem_filter.mpr ⟨List.mem_of_find?_eq_some hfind, by simp [hseq, hphase]⟩)
  unfold execLoggedAccessFault
  generalize hx : s.reqs.find? _ = x
  cases hx.symm.trans hfind
  dsimp only
  rw [if_neg hfid, if_neg hkind, hphase]
  refine ⟨_, rfl, ⟨rfl, rfl, rfl⟩, fun hf => ?_, _, rfl, rfl, rfl, rfl, rfl, rfl, rfl⟩
  rw [fibreAt, getGang_setGang]
  exact (congrArg Fibre.park (getFibre_mapFibres _ (parkedFibre _ (.fault s.seq (r.fva.getD r.va) false)) _ hf)).trans (park_parkedFibre hmine _ _)

/-- Settles O40: each event of the memory system, by the lemma of its meaning. -/
theorem memoryEventsComplete : Obligations.MemoryEventsComplete := by
  unfold Obligations.MemoryEventsComplete
  exact ⟨fun _ h => tick_completes h, fun _ _ _ ha hh ht h => deliveryReport_completes ha hh ht h, fun _ _ _ _ hm => coreSideForward_completes hm,
    fun _ _ _ _ hfirst happl hreset hgroup hop => homeApplyWrite_completes hfirst happl hreset hgroup hop,
    fun _ _ _ hfind hready hreset hpeer hkind => ⟨fun _ hl => homeServe_load hfind hreset hpeer hkind hready hl,
      fun _ hy => homeServe_fault hfind hreset hpeer hkind hready hy⟩,
    fun _ _ _ _ _ _ hfind hkind hmsg hready hreset hpeer hl => homeServe_atomic hfind hkind hmsg hready hreset hpeer hl rfl,
    fun _ _ _ hc hhome => coreSideCopyExpiry_completes hc hhome, fun _ _ _ hfind => memoryReply_completes hfind,
    fun _ _ _ hfind hfirst => writeProbeReply_completes hfind hfirst,
    fun _ _ _ _ hfind hphase hfid hkind => loggedAccessFault_completes hfind hphase hfid hkind,
    fun _ _ _ hfind => writeAcknowledgement_completes hfind, fun _ _ _ hdata hsector hpa => hostMemoryWrite_completes hdata hsector hpa⟩

end Sys2Proof.Machine
end
section
/-! PROOF. Parts of the machine that reads and the steps of a quarry unit leave alone (R83, R105, R106, R125): A bits, leaves, and what agents have heard of
each other's writes change, no more. -/
namespace Sys2Proof.Machine

/-- A part of the machine that does not see device memory with its A bits, the leaves that homes hold, what agents have heard, or the writes on
their way. -/
def ReadBlind {β : Type} (p : State → β) : Prop := ∀ s m l b w h, p { s with mem := m, leaves := l, slabs := b, bridge := w, held := h } = p s

/-- A step that is performed leaves a part of the machine as it was. -/
structure StepKeeps {α β : Type} (p : State → β) (m : QM α) : Prop where
  kept : ∀ s x t, m s = .ok (x, t) → p t = p s

section
variable {α β γ : Type} {p : State → β}

namespace StepKeeps

theorem pure (x : α) : StepKeeps p (Pure.pure x : QM α) := ⟨fun _ _ _ h => by cases h; rfl⟩

theorem throw (b : Blocked) : StepKeeps p (MonadExcept.throw b : QM α) := ⟨fun _ _ _ h => by cases h⟩

/-- A step that begins by looking at the state. -/
theorem look {f : State → QM α} (h : ∀ s x t, f s s = .ok (x, t) → p t = p s) : StepKeeps p (MonadState.get >>= f) := ⟨h⟩

theorem bind {m : QM α} {f : α → QM γ} (hm : StepKeeps p m) (hf : ∀ x, StepKeeps p (f x)) : StepKeeps p (m >>= f) where
  kept s y t h := by
    obtain ⟨x, u, hx, hy⟩ := bind_ok h
    exact ((hf x).kept u y t hy).trans (hm.kept s x u hx)

end StepKeeps

/-- A run of steps, each of which leaves the part as it was when its result is in order. -/
theorem mapM_part {f : α → QM γ} {P : γ → Prop} (hf : ∀ a s y t, f a s = .ok (y, t) → P y → p t = p s) (l : List α) {s t : State} {ys : List γ}
    (h : l.mapM f s = .ok (ys, t)) (hys : ∀ y ∈ ys, P y) : p t = p s := by
  induction l generalizing s ys with
  | nil => cases h; rfl
  | cons a l ih =>
    rw [List.mapM_cons] at h
    obtain ⟨y, u, hy, h⟩ := bind_ok h
    obtain ⟨zs, v, hzs, h⟩ := bind_ok h
    cases h
    obtain ⟨hPy, hPzs⟩ := List.forall_mem_cons.mp hys
    exact (ih hzs hPzs).trans (hf a s y u hy hPy)

end

/-- The writes that a slice forwards are in no memory yet. -/
theorem memoryKept_drainSlice (slab : Nat) (s : State) : MemoryKept s (drainSlice slab s) := by
  unfold drainSlice
  dsimp only
  split <;> exact ⟨rfl, rfl, rfl⟩

section
variable {β : Type} {p : State → β} (hp : ReadBlind p)
include hp

theorem setAccessed_part (l : Leaf) (s : State) : p (setAccessed l s) = p s := by
  unfold setAccessed
  split
  · rfl
  · exact hp ..

theorem touchPage_part (ctx ia : Nat) (write : Bool) (s : State) : p (touchPage ctx ia write s) = p s := by
  unfold touchPage
  split
  · rfl
  split
  · exact setAccessed_part hp ..
  · rfl

theorem agentMerge_part (a : Nat) (w : List Nat) (s : State) : p (agentMerge a w s) = p s := by
  unfold agentMerge
  split
  · exact hp s s.mem s.leaves s.slabs _ s.held
  · exact hp s s.mem s.leaves _ s.bridge s.held

theorem spotSeen_part (a : Spot) (s : State) : p (spotSeen a s) = p s := by
  cases a with
  | page l => exact setAccessed_part hp l s
  | peer k => rfl

theorem keepReads_part (a : Nat) (seen s : State) : p (keepReads a seen s) = p s :=
  (agentMerge_part hp ..).trans (foldl_part p (fun s _ => setAccessed_part hp _ s) _ s)

theorem drainSlice_part (slab : Nat) (s : State) : p (drainSlice slab s) = p s := by
  unfold drainSlice
  dsimp only
  split
  · rfl
  · exact hp s s.mem s.leaves _ s.bridge _

theorem freezeUnit_part (u : UnitEnv) (s : State) : p (freezeUnit u s) = p s := by
  unfold freezeUnit
  split
  · exact hp s s.mem s.leaves s.slabs _ s.held
  · exact hp s s.mem s.leaves _ s.bridge s.held

theorem thawUnit_part (u : UnitEnv) (s t : State) : p (thawUnit u s t) = p t := by
  unfold thawUnit
  dsimp only
  split
  · split
    · exact hp t t.mem t.leaves t.slabs _ _
    · exact hp t t.mem t.leaves t.slabs _ t.held
  · exact hp t t.mem t.leaves _ t.bridge t.held

theorem heard_part (q : Nat) (op : QOp) (s : State) : p (heard q op s) = p s := by
  unfold heard
  split
  · rfl
  split
  · exact agentMerge_part hp ..
  · exact agentMerge_part hp ..
  · rfl

/-! ### Steps that read -/

theorem stepKeeps_unitGet (u : UnitEnv) (kernel : Bool) (va : W64) (n : Nat) : StepKeeps p (unitGet u kernel va n) := .look fun s x t h => by
  cases hspot : unitSpot s u.ctx va pathVec kernel false (vecFault s va false) with
  | error b => rw [hspot] at h; cases h
  | ok r =>
    rw [hspot] at h
    dsimp only at h
    split at h
    · cases h
    split at h
    · cases h
    · cases h
      exact (agentMerge_part hp ..).trans (spotSeen_part hp ..)

theorem stepKeeps_unitSectors (u : UnitEnv) (kernel : Bool) (va : W64) (n : Nat) : StepKeeps p (unitSectors u kernel va n) := by
  induction n generalizing va with
  | zero => exact .pure _
  | succ n ih => exact .bind (stepKeeps_unitGet hp ..) fun _ => .bind (ih _) fun _ => .pure _

theorem stepKeeps_qenv (q : Nat) (u : UnitEnv) : StepKeeps p (qenv q u) := by
  have hdesc : ∀ va, StepKeeps p (readDesc u va) := fun va => .bind (stepKeeps_unitSectors hp ..) fun b => by
    split
    · exact .look fun _ _ _ h => by cases h
    · exact .pure _
  exact .look fun s => (StepKeeps.bind (hdesc _) fun _ => .pure _).kept s

theorem stepKeeps_sweepBlocks (e : QEnv) : StepKeeps p (sweepBlocks e) := by
  have hentry : ∀ i, StepKeeps p (readEntry e i) := fun i => .bind (stepKeeps_unitGet hp ..) fun b => by
    split
    · exact .look fun _ _ _ h => by cases h
    · exact .pure _
  have hall : ∀ n, StepKeeps p (allEntries e n) := fun n => by
    induction n with
    | zero => exact .pure _
    | succ n ih => exact .bind ih fun _ => .bind (hentry _) fun _ => .pure _
  exact .bind (hall _) fun _ => .pure _

theorem unitRun_part {α : Type} {u : UnitEnv} {m : QM α} {s t : State} {x : α} (h : unitRun u m s = .ok (x, t)) :
    ∃ v, m (freezeUnit u s) = .ok (x, v) ∧ p t = p v ∧ p (freezeUnit u s) = p s := by
  unfold unitRun at h
  split at h
  next hv =>
    cases h
    exact ⟨_, hv, thawUnit_part hp .., freezeUnit_part hp ..⟩
  · cases h

/-- The check of a header that is in order is a read (R351). -/
theorem sweepCheck_part {u : UnitEnv} {g : Gang} {va : W64} {s t : State} {k : Kernel} (h : sweepCheck u g va s = .ok (.ok k, t)) : p t = p s := by
  unfold sweepCheck at h
  split at h
  · cases h
  split at h
  · cases h
  · cases h
  next hread =>
    obtain ⟨-, rfl⟩ := Prod.mk.inj (Except.ok.inj h)
    exact (stepKeeps_unitSectors hp ..).kept _ _ _ hread

/-- A QSWEEP at its place whose headers are in order has read them and the live blocks (R351). -/
theorem sweepRead_part {q : Nat} {op : QOp} {g : Gang} {hs : List (Nat × W64)} {s t : State} {checks : List (Nat × W64 × SweepCheck)}
    {bs : List SweepBlock} (h : sweepRead q op g hs s = .ok ((checks, bs), t)) (hok : ∀ c ∈ checks, ∃ k, c.2.2 = .ok k) : p t = p s := by
  unfold sweepRead at h
  obtain ⟨_, s1, hheard, h⟩ := bind_ok h
  cases hheard
  obtain ⟨_, _, hget, h⟩ := bind_ok h
  cases hget
  obtain ⟨v, h, ht, hfreeze⟩ := unitRun_part hp h
  obtain ⟨cs, w, hchecks, h⟩ := bind_ok h
  have hblocks : cs = checks ∧ p v = p w := by
    split at h
    · obtain ⟨e, x, he, h⟩ := bind_ok h
      obtain ⟨bs, y, hbs, h⟩ := bind_ok h
      cases h
      exact ⟨rfl, ((stepKeeps_sweepBlocks hp e).kept _ _ _ hbs).trans ((stepKeeps_qenv hp ..).kept _ _ _ he)⟩
    · cases h
      exact ⟨rfl, rfl⟩
  obtain ⟨rfl, hv⟩ := hblocks
  have hmap : p w = p (freezeUnit _ (heard q op s)) := mapM_part (fun a u y t hy hPy => by
    obtain ⟨c, x, hc, h⟩ := bind_ok hy
    cases h
    obtain ⟨k, rfl⟩ := hPy
    exact sweepCheck_part hp hc) _ hchecks hok
  exact ht.trans (hv.trans (hmap.trans (hfreeze.trans (heard_part hp ..))))

end

end Sys2Proof.Machine
end

section
/-! PROOF. Quarry instructions complete (R125, R344 to R351): QKEY at once, the instructions with a place in the quarry order once their release is
performed, QSWEEP at its place; and O33. -/
namespace Sys2Proof.Machine

/-! ### Steps that join a quarry's order (R125) -/

@[simp] theorem getQuarry_setQuarry (s : State) (q : Nat) (v : Quarry) : getQuarry (setQuarry s q v) q = v := kget_kset_same ..

theorem getQuarry_of_quarries {s t : State} (h : t.quarries = s.quarries) (q : Nat) : getQuarry t q = getQuarry s q := by
  rw [getQuarry, h]
  rfl

/-- A quarry that is bound takes a step as its last. -/
theorem pushQOp_bound {s : State} {q : Nat} (h : (getQuarry s q).desc ≠ 0) (op : QOp) :
    pushQOp q op s = setQuarry s q { getQuarry s q with ops := (getQuarry s q).ops ++ [op] } := by
  unfold pushQOp
  rw [getQuarry, kget] at h ⊢
  cases hq : kget? s.quarries q with
  | none =>
    rw [hq] at h
    exact absurd rfl h
  | some v =>
    rw [hq] at h
    exact if_neg h

/-- Steps that join one after the other stand behind those that wait, in their order. -/
theorem ops_pushQOps {α : Type} (op : α → QOp) (l : List α) {s : State} {q : Nat} (h : (getQuarry s q).desc ≠ 0) :
    (getQuarry (l.foldl (fun s a => pushQOp q (op a) s) s) q).ops = (getQuarry s q).ops ++ l.map op := by
  induction l generalizing s with
  | nil => exact (List.append_nil _).symm
  | cons a l ih =>
    rw [List.foldl_cons, pushQOp_bound h, ih (by rwa [getQuarry_setQuarry]), getQuarry_setQuarry, List.map_cons, List.append_assoc, List.singleton_append]

theorem desc_of_bound {s : State} {g : Gang} {q : Nat} (h : boundQuarry s g = some q) : (getQuarry s q).desc ≠ 0 := by
  unfold boundQuarry at h
  dsimp only at h
  split at h
  next hc =>
    cases h
    obtain ⟨-, -, hdesc⟩ := hc
    exact hdesc
  · cases h

/-- A release that is performed leaves what sees neither caches nor gangs. -/
theorem performedRelease_part {α : Type} {p : State → α} (hp : CacheBlind p) (hg : ∀ s g v, p (setGang s g v) = p s) {e : Env} {fids : List Nat}
    {sc : BitVec 2} {s : State} (hr : (release e fids sc s).1 = true) : p (release e fids sc s).2 = p s := by
  unfold release at hr ⊢
  dsimp only at hr ⊢
  split
  · rfl
  rw [if_neg ‹_›] at hr
  split
  · rw [if_pos ‹_›] at hr
    cases hr
  rw [if_neg ‹_›] at hr
  split
  · rfl
  split
  · exact wcFlush_part hp ..
  split
  · split
    · exact hg ..
    · rfl
  split
  · exact releaseCaches_part hp ..
  · exact (hg ..).trans (releaseCaches_part hp ..)

/-! ### The shared checks (R126, R344) -/

theorem poisonTraps_nil {h : Hdr} {e : Env} {act : List Nat} {srcs : List Src} (hg : GuardsClean h e) (hs : SourcesClean h e act srcs) :
    poisonTraps h e act srcs = [] := by
  rw [poisonTraps, List.map_eq_nil_iff, List.filter_eq_nil_iff]
  intro fid hf
  simp only [hg fid hf, Bool.false_or, Bool.and_eq_true, List.any_eq_true, List.contains_iff_mem, not_and, not_exists]
  intro hact r hr
  rw [(hs fid hact).2 r hr]
  exact Bool.false_ne_true

section
variable {f : F5} {uses : List RegUse} {srcs : List Src} {more : Env → List Nat → Raised} {go : Nat → Env → List Nat → State → Out}
variable {s : State} {e : Env} {q : Nat} (hi : Issues false s e) (hp : Plain f.h e) (hregs : RegsOk e (executing f.h e) uses)
  (hclean : SourcesClean f.h e (executing f.h e) srcs) (hmore : more e (executing f.h e) = []) (hq : boundQuarry s e.g = some q)
include hi hp hregs hclean hmore hq

/-- With a bound quarry and operands in order a quarry instruction acts for its executing fibres by rising lane; where none executes it only
retires. -/
theorem execQuarryMore_runs : execQuarryMore f uses srcs more go s = match executing f.h e with
    | [] => .next (retirePlain e 5 s)
    | act@(_ :: _) => go q e (sortBy lane act) s := by
  rw [execQuarryMore, issue_runs hi, forbidInTxn_none hp.txn, regTraps_nil hregs, orTrap_nil, hmore, poisonTraps_nil hp.clean hclean, hq]
  dsimp only [List.append_nil, List.nil_append, orTrap]
  cases executing f.h e <;> rfl

theorem execQuarryMore_acts (hact : executing f.h e ≠ []) : execQuarryMore f uses srcs more go s = go q e (sortBy lane (executing f.h e)) s := by
  rw [execQuarryMore_runs hi hp hregs hclean hmore hq]
  generalize executing f.h e = act at hact
  cases act with
  | nil => exact absurd rfl hact
  | cons a act => rfl

end

/-! ### QKEY (R345) -/

/-- A pair among the clean registers that a retirement writes. -/
theorem readPair_retireFibre_regs {rs : List (Nat × Word × Bool)} {n : Nat} {v : W64} {fl : Word} (hd : (rs.map (·.1)).Nodup)
    (hn : pairWr n v false ⊆ rs) (pc : W64) (x : Fibre) :
    readPair (retireFibre { regs := rs, preds := [], flags := fl } none pc x) n = (v, false) := by
  have hlow := readReg_retireFibre_regs pc x (fl := fl) hd (hn (List.mem_cons_self ..)) rfl
  have hhigh := readReg_retireFibre_regs pc x (fl := fl) hd (hn (List.mem_cons_of_mem _ (List.mem_cons_self ..))) rfl
  rw [readPair_eq, hlow, hhigh, append_halves]
  rfl

section
variable {f : F5} {s : State} {e : Env} {q : Nat}

/-- The key and the status that a QKEY writes. -/
def qkeyWrites (f : F5) (r : W64 × Nat) : List (Nat × Word × Bool) := pairWr f.d.toNat r.1 false ++ [(f.b.toNat, BitVec.ofNat 32 r.2, false)]

theorem nodup_qkeyWrites (hd : f.b ≠ f.d) (hd1 : f.b.toNat ≠ f.d.toNat + 1) (r : W64 × Nat) : ((qkeyWrites f r).map (·.1)).Nodup := by
  have : f.d.toNat ≠ f.b.toNat := fun h => hd (BitVec.eq_of_toNat_eq h.symm)
  simp only [qkeyWrites, pairWr, List.map_cons, List.map_nil, List.cons_append, List.nil_append, List.nodup_cons, List.mem_cons,
    List.not_mem_nil, or_false, List.nodup_nil, and_true, not_or, not_false_eq_true]
  omega

theorem execQkey_completes (form : Nat) (hi : Issues false s e) (hlive : Live e) (hp : Plain f.h e)
    (hregs : RegsOk e (executing f.h e) [(f.d.toNat, 2), (f.b.toNat, 1), (f.a.toNat, 2)]) (hd : f.b ≠ f.d) (hd1 : f.b.toNat ≠ f.d.toNat + 1)
    (hclean : SourcesClean f.h e (executing f.h e) [.pair f.a.toNat]) (hq : boundQuarry s e.g = some q) :
    ∃ t, execQkey form f s = .next t ∧ StandAt e (fun _ => nextPc e.pc) t ∧ OutsideKept s t ∧ ∀ fid ∈ executing f.h e,
      let r := qkey (getQuarry s q).dim (getQuarry s q).depth form (f.mod.toNat / 4 % 8) (readPair (getFibre e.g fid) f.a.toNat).1
      readPair (fibreAt t e.gid fid) f.d.toNat = (r.1, false) ∧ readReg (fibreAt t e.gid fid) f.b.toNat = (BitVec.ofNat 32 r.2, false) := by
  rw [execQkey, execQuarry, execQuarryMore_runs hi hp hregs hclean rfl hq]
  split
  next hnone => exact ⟨_, rfl, standAt_retire 5 _ _ _ hi.env hlive, outsideKept_retire .., fun fid hf => by rw [hnone] at hf; cases hf⟩
  next hact =>
  refine ⟨_, rfl, standAt_retire 5 _ _ _ hi.env hlive, outsideKept_retire .., fun fid hf => ?_⟩
  dsimp only
  rw [fibreAt_retire_live 5 _ _ _ hi.env hlive (List.mem_of_mem_filter hf), if_pos (List.contains_iff_mem.mpr (mem_sortBy.mpr (hact ▸ hf)))]
  exact ⟨readPair_retireFibre_regs (nodup_qkeyWrites hd hd1 _) (List.subset_append_left ..) _ _,
    readReg_retireFibre_regs _ _ (nodup_qkeyWrites hd hd1 _) (List.mem_append_right _ (List.mem_singleton_self _)) rfl⟩

end

/-! ### Instructions with a place in the order (R344, R346 to R350) -/

/-- The third operand of a quarry instruction's step. -/
def qArg (kind : QKind) (f : F5) (x : Fibre) : W64 :=
  match kind with
  | .cost => (readPair x f.c.toNat).1
  | _ => (readReg x f.c.toNat).1.zeroExtend 64

/-- The step that a quarry instruction hands to the quarry for a fibre. -/
def qStepOf (kind : QKind) (f : F5) (e : Env) (wid fid : Nat) : QOp :=
  .instr kind e.gid fid wid f.d.toNat f.b.toNat (readPair (getFibre e.g fid) f.a.toNat).1 (qArg kind f (getFibre e.g fid)) e.g.kernel.version

theorem execQStep_enters {kind : QKind} {f : F5} {uses : List RegUse} {srcs : List Src} {s : State} {e : Env} {q : Nat} (hi : Issues false s e)
    (hp : Plain f.h e) (hregs : RegsOk e (executing f.h e) uses) (hclean : SourcesClean f.h e (executing f.h e) srcs)
    (hq : boundQuarry s e.g = some q) (hact : executing f.h e ≠ []) (hr : (release e (sortBy lane (executing f.h e)) 1 s).1 = true) :
    ∃ t wid, execQStep kind f uses srcs s = .next (serveQuarry q t) ∧ MemoryKept s t ∧
      (getQuarry t q).ops = (getQuarry s q).ops ++ (sortBy lane (executing f.h e)).map (qStepOf kind f e wid) := by
  rw [execQStep, execQuarry, execQuarryMore_acts hi hp hregs hclean rfl hq hact]
  generalize sortBy lane (executing f.h e) = act at hr
  have hquarries : (drainSlice (slabOf e.core) (release e act 1 s).2).quarries = s.quarries :=
    (drainSlice_part (p := State.quarries) (fun _ _ _ _ _ _ => rfl) ..).trans
      (performedRelease_part (p := State.quarries) (fun _ _ _ _ _ _ => rfl) (fun _ _ _ => rfl) hr)
  have hmem := (steady_release e act 1 s).memory.trans (memoryKept_drainSlice (slabOf e.core) _)
  dsimp only
  rw [if_neg (by rw [hr]; exact Bool.false_ne_true)]
  generalize drainSlice (slabOf e.core) (release e act 1 s).2 = s1 at hquarries hmem ⊢
  refine ⟨_, s1.ids, rfl, hmem.trans ((retired_retire e 5 _ _ { s1 with ids := s1.ids + 1 }).memory.trans
    (Steady.foldl (fun u _ => steady_pushQOp q _ u) act _).memory), ?_⟩
  rw [← getQuarry_of_quarries hquarries q]
  exact ops_pushQOps (qStepOf kind f e s1.ids) act (getQuarry_of_quarries hquarries q ▸ desc_of_bound hq)

/-! ### QSWEEP (R351) -/

section
variable {q : Nat} {e : Env} {s s1 : State}

/-- A sweep that is placed changes the quarries' orders, the launches and the fault records, no more. -/
theorem placeSweep_part {α : Type} {p : State → α}
    (hp : ∀ s a b c d l, p { s with quarries := a, seq := b, faultsOut := c, ids := d, launches := l } = p s) (q ctx : Nat) (k : Kernel) (completion : W64)
    (blocks : List SweepBlock) (s : State) : p (placeSweep q ctx k completion blocks s) = p s := by
  have hfin : ∀ u, p (if completion = 0 then u else pushQOp q (.done completion) u) = p u := fun u => by
    unfold pushQOp
    split
    · rfl
    split
    · rfl
    split
    · rfl
    · exact hp u _ u.seq u.faultsOut u.ids u.launches
  unfold placeSweep
  dsimp only
  split
  · exact (hfin _).trans (hp s s.quarries _ _ s.ids s.launches)
  split
  · exact hfin s
  · exact hp s s.quarries s.seq s.faultsOut _ _

/-- The sweep of a kernel that can fit, with its live blocks (R49, R351). -/
theorem placeSweep_launch {ctx : Nat} {k : Kernel} {completion : W64} {blocks : List SweepBlock} (hfits : neverFits s k = false) (hblocks : blocks ≠ []) :
    ∃ l, kget? (placeSweep q ctx k completion blocks s).launches s.ids = some l ∧ l.kernel = k ∧ l.sweep = true ∧ l.blocks = blocks ∧
      l.left = blocks.length ∧ l.ctx = ctx := by
  unfold placeSweep
  dsimp only
  rw [if_neg (by rw [hfits]; exact Bool.false_ne_true), if_neg (by rwa [List.isEmpty_iff])]
  exact ⟨_, kget?_kset_same .., rfl, rfl, rfl, rfl, rfl⟩

/-- Whether a kernel can fit depends on what is fenced. -/
theorem neverFits_of_mgmt {t : State} (h : t.mgmt = s.mgmt) (k : Kernel) : neverFits t k = neverFits s k := by
  have hfenced : isFenced t = isFenced s := funext₂ fun _ _ => by rw [isFenced, h, isFenced]
  have husable : clusterUsable t = clusterUsable s := funext fun _ => by rw [clusterUsable, hfenced, clusterUsable]
  rw [neverFits, hfenced, husable, neverFits]

/-- The sweeps of the lanes whose headers are in order, one after the other. -/
def placeSweeps (q ctx : Nat) (cva : Nat → W64) (blocks : List SweepBlock) (checks : List (Nat × W64 × SweepCheck)) (s : State) : State :=
  checks.foldl (fun s c => match c.2.2 with | .ok k => placeSweep q ctx k (cva c.1) blocks s | _ => s) s

theorem placeSweeps_part {α : Type} {p : State → α}
    (hp : ∀ s a b c d l, p { s with quarries := a, seq := b, faultsOut := c, ids := d, launches := l } = p s) (q ctx : Nat) (cva : Nat → W64)
    (blocks : List SweepBlock) (checks : List (Nat × W64 × SweepCheck)) (s : State) : p (placeSweeps q ctx cva blocks checks s) = p s :=
  foldl_part p (fun s c => by
    split
    · exact placeSweep_part hp ..
    · rfl) _ s

/-- The machine when a QSWEEP has taken its place: its step is over (R351). -/
def sweepOver (q : Nat) (s : State) : State := endStep q (setQuarry s q { getQuarry s q with ops := (getQuarry s q).ops.drop 1 })

theorem sweepOver_part {α : Type} {p : State → α} (hp : ReadBlind p) (hq : ∀ s q v, p (setQuarry s q v) = p s) (q : Nat) (s : State) :
    p (sweepOver q s) = p s := (drainSlice_part hp ..).trans ((hq ..).trans (hq ..))

theorem memoryKept_sweepOver (q : Nat) (s : State) : MemoryKept s (sweepOver q s) := memoryKept_drainSlice ..

variable {op : QOp} {act : List Nat} {hva cva : Nat → W64} {checks : List (Nat × W64 × SweepCheck)} {bs : List SweepBlock}
  (hread : sweepRead q op e.g (act.map (fun fid => (fid, hva fid))) s = .ok ((checks, bs), s1)) (hok : ∀ c ∈ checks, ∃ k, c.2.2 = .ok k)
include hread hok

theorem sweepStep_places : sweepStep q op e act hva cva s =
    .next (serveQuarry q (quarryAcquire q e.gid (placeSweeps q e.g.ctx cva bs checks (retirePlain e 5 (sweepOver q s1))))) := by
  have hnone : sweepTraps checks = [] := List.filterMap_eq_nil_iff.mpr fun c hc => by
    obtain ⟨k, hk⟩ := hok c hc
    rw [hk]
  unfold sweepStep
  dsimp only
  rw [hread]
  dsimp only
  rw [hnone, orTrap_nil]
  rfl

theorem sweepStep_completes (hi : Issues false s e) :
    ∃ t, sweepStep q op e act hva cva s = .next (serveQuarry q (quarryAcquire q e.gid t)) ∧ MemoryKept s1 t ∧
      (Live e → StandAt e (fun _ => nextPc e.pc) t) ∧
      ∀ fid va k, checks = [(fid, va, .ok k)] → neverFits s1 k = false → bs ≠ [] → ∃ l, kget? t.launches s1.ids = some l ∧
        l.kernel = k ∧ l.sweep = true ∧ l.blocks = bs ∧ l.left = bs.length ∧ l.ctx = e.g.ctx := by
  have hgangs : (sweepOver q s1).gangs = s.gangs := (sweepOver_part (p := State.gangs) (fun _ _ _ _ _ _ => rfl) (fun _ _ _ => rfl) q s1).trans
    (sweepRead_part (p := State.gangs) (fun _ _ _ _ _ _ => rfl) hread hok)
  refine ⟨_, sweepStep_places hread hok, ?_, fun hlive => ?_, fun fid va k hc hfits hbs => ?_⟩
  · refine (memoryKept_sweepOver q s1).trans ((retired_retirePlain e 5 _).memory.trans ⟨?_, ?_, ?_⟩)
    · exact placeSweeps_part (p := State.mem) (fun _ _ _ _ _ _ => rfl) ..
    · exact placeSweeps_part (p := State.hostMem) (fun _ _ _ _ _ _ => rfl) ..
    · exact placeSweeps_part (p := State.peerMem) (fun _ _ _ _ _ _ => rfl) ..
  · exact (standAt_retire_alive ((hlive.alive hi.env).of_gangs hgangs) 5 _ _ _).of_gangs
      (placeSweeps_part (p := State.gangs) (fun _ _ _ _ _ _ => rfl) ..)
  · subst hc
    have hretire : ∀ u : State, (retirePlain e 5 u).ids = u.ids ∧ (retirePlain e 5 u).mgmt = u.mgmt := fun _ => ⟨rfl, rfl⟩
    have hids : (retirePlain e 5 (sweepOver q s1)).ids = s1.ids :=
      (hretire _).1.trans (sweepOver_part (p := State.ids) (fun _ _ _ _ _ _ => rfl) (fun _ _ _ => rfl) q s1)
    have hmgmt : (retirePlain e 5 (sweepOver q s1)).mgmt = s1.mgmt :=
      (hretire _).2.trans (sweepOver_part (p := State.mgmt) (fun _ _ _ _ _ _ => rfl) (fun _ _ _ => rfl) q s1)
    rw [← neverFits_of_mgmt hmgmt] at hfits
    rw [← hids]
    exact placeSweep_launch hfits hbs

end

section
variable {f : F5} {s : State} {e : Env} {q : Nat}

/-- The place that a QSWEEP has in the quarry's order (R351). -/
def sweepPlace (f : F5) (e : Env) : QOp :=
  let act := sortBy lane (executing f.h e)
  .sweep e.gid act ((act.map (fun fid => (readPair (getFibre e.g fid) f.a.toNat).1)).filter (fun h => h.toNat % 256 == 0))

section
variable (hi : Issues false s e) (hp : Plain f.h e) (hregs : RegsOk e (executing f.h e) [(f.a.toNat, 2), (f.c.toNat, 2)])
  (hclean : SourcesClean f.h e (executing f.h e) [.pair f.a.toNat, .pair f.c.toNat]) (hq : boundQuarry s e.g = some q) (hact : executing f.h e ≠ [])
  (hcva : ∀ fid ∈ executing f.h e, (readPair (getFibre e.g fid) f.c.toNat).1.toNat % 8 = 0)
include hi hp hregs hclean hq hact hcva

theorem execQsweep_runs : execQsweep f s =
    let act := sortBy lane (executing f.h e)
    if !(getQuarry s q).ops.contains (sweepPlace f e) then
      .next (if (release e act 2 s).1 then serveQuarry q (pushQOp q (sweepPlace f e) (dropSweeps e.gid act (release e act 2 s).2)) else (release e act 2 s).2)
    else if (getQuarry s q).stall.isSome ∨ (getQuarry s q).ops.head? ≠ some (sweepPlace f e) then .next (serveQuarry q s)
    else sweepStep q (sweepPlace f e) e act (fun fid => (readPair (getFibre e.g fid) f.a.toNat).1)
      (fun fid => (readPair (getFibre e.g fid) f.c.toNat).1) s := by
  have haligned : ((executing f.h e).filter (fun fid => decide ((readPair (getFibre e.g fid) f.c.toNat).1.toNat % 8 ≠ 0))).map
      (fun fid => (fid, 4, (readPair (getFibre e.g fid) f.c.toNat).1)) = [] := by
    rw [List.map_eq_nil_iff, List.filter_eq_nil_iff]
    exact fun fid hf => by rw [hcva fid hf]; decide
  rw [execQsweep]
  dsimp only
  rw [execQuarryMore_acts hi hp hregs hclean haligned hq hact]
  dsimp only [sweepPlace]
  rfl

theorem execQsweep_enters (hnew : (getQuarry s q).ops.contains (sweepPlace f e) = false) (hr : (release e (sortBy lane (executing f.h e)) 2 s).1 = true) :
    execQsweep f s = .next (serveQuarry q (pushQOp q (sweepPlace f e) (dropSweeps e.gid (sortBy lane (executing f.h e))
      (release e (sortBy lane (executing f.h e)) 2 s).2))) := by
  rw [execQsweep_runs hi hp hregs hclean hq hact hcva]
  dsimp only
  rw [hnew, hr]
  rfl

theorem execQsweep_completes {checks : List (Nat × W64 × SweepCheck)} {bs : List SweepBlock} {s1 : State} (hstall : (getQuarry s q).stall = none)
    (hhead : (getQuarry s q).ops.head? = some (sweepPlace f e))
    (hread : sweepRead q (sweepPlace f e) e.g ((sortBy lane (executing f.h e)).map (fun fid => (fid, (readPair (getFibre e.g fid) f.a.toNat).1))) s =
      .ok ((checks, bs), s1)) (hok : ∀ c ∈ checks, ∃ k, c.2.2 = .ok k) :
    ∃ t, execQsweep f s = .next (serveQuarry q (quarryAcquire q e.gid t)) ∧ MemoryKept s1 t ∧ (Live e → StandAt e (fun _ => nextPc e.pc) t) ∧
      ∀ fid va k, checks = [(fid, va, .ok k)] → neverFits s1 k = false → bs ≠ [] → ∃ l, kget? t.launches s1.ids = some l ∧
        l.kernel = k ∧ l.sweep = true ∧ l.blocks = bs ∧ l.left = bs.length ∧ l.ctx = e.g.ctx := by
  rw [execQsweep_runs hi hp hregs hclean hq hact hcva]
  dsimp only
  rw [List.contains_iff_mem.mpr (List.mem_of_head? hhead), hstall, hhead, if_neg (by decide), if_neg (by simp)]
  exact sweepStep_completes hread hok hi

end

end

/-- Settles O33: QKEY and the instructions with a place by their shared meanings, QSWEEP when it takes its place and when its place has come. -/
theorem quarryInstructionsComplete : Obligations.QuarryInstructionsComplete := by
  unfold Obligations.QuarryInstructionsComplete
  intro key steps pair three word
  exact ⟨fun _ _ _ _ hi hlive hp hregs hd hd1 hclean hq => execQkey_completes 0 hi hlive hp hregs hd hd1 hclean hq,
    fun _ _ _ _ hi hlive hp hregs hd hd1 hclean hq => execQkey_completes 1 hi hlive hp hregs hd hd1 hclean hq,
    fun _ _ _ _ hi hlive hp hregs hd hd1 hclean hq => execQkey_completes 2 hi hlive hp hregs hd hd1 hclean hq,
    fun _ _ _ _ hi hp hregs hclean hq hact hr => execQStep_enters (kind := .find) hi hp hregs hclean hq hact hr,
    fun _ _ _ _ hi hp hregs hclean hq hact hr => execQStep_enters (kind := .owner) hi hp hregs hclean hq hact hr,
    fun _ _ _ _ hi hp hregs hclean hq hact hr => execQStep_enters (kind := .refine) hi hp hregs hclean hq hact hr,
    fun _ _ _ _ hi hp hregs hclean hq hact hr => execQStep_enters (kind := .coarsen) hi hp hregs hclean hq hact hr,
    fun _ _ _ _ hi hp hregs hclean hq hact hr => execQStep_enters (kind := .cost) hi hp hregs hclean hq hact hr,
    fun _ _ _ _ hi hp hregs hclean hq hact hr => execQStep_enters (kind := .rebal) hi hp hregs hclean hq hact hr,
    fun _ _ _ _ hi hp hregs hclean hq hact hr => execQStep_enters (kind := .gen) hi hp hregs hclean hq hact hr,
    fun _ _ _ _ hi hp hregs hclean hq hact hcva => ⟨fun hnew hr => execQsweep_enters hi hp hregs hclean hq hact hcva hnew hr,
      fun _ _ _ hstall hhead hread hok => execQsweep_completes hi hp hregs hclean hq hact hcva hstall hhead hread hok⟩⟩

end Sys2Proof.Machine
end

section
/-! PROOF. The copy engine's own steps (R203, R208, R209): a command starts, a piece lands or leaves for its home, a piece that cannot be read stalls its
command. -/
namespace Sys2Proof.Machine

section
variable {s : State} {core p : Nat} {c : CopyCmd}

/-- The engine's command after a change of it: it is still the first of its queue. -/
theorem headCopy_putCopy {c1 : CopyCmd} (h : headCopy s core = some c) (hid : c.id = c1.id) : headCopy (putCopy core c1 s) core = some c1 := by
  rw [headCopy] at h
  rw [headCopy, putCopy, getCore_setCore, List.head?_map, h, Option.map_some, if_pos hid]

theorem headCopy_of_cores {t : State} (h : t.cores = s.cores) : headCopy t core = headCopy s core := by
  rw [headCopy, getCore, h]
  rfl

/-- COPY_COMMAND_START: the command has started with its indices read (R203). -/
theorem copyCommandStart_completes (hhead : headCopy s core = some c) (hstarted : c.started = false) :
    ∃ t, execCopyCommandStart core s = .next t ∧ MemoryKept s t ∧
      ∃ c1, headCopy t core = some c1 ∧ c1.started = true ∧ c1.id = c.id ∧ c1.bytes = c.bytes ∧ c1.left = c.left := by
  unfold execCopyCommandStart
  rw [hhead]
  dsimp only
  rw [if_neg (by rw [hstarted]; exact Bool.false_ne_true)]
  exact ⟨_, rfl, ⟨rfl, rfl, rfl⟩, _, headCopy_putCopy hhead rfl, rfl, rfl, rfl, rfl⟩

/-- The engine's command of a core has a piece that has not moved, and nothing ends or stalls it. -/
structure PieceWaits (s : State) (core : Nat) (c : CopyCmd) (p : Nat) : Prop where
  head : headCopy s core = some c
  started : c.started = true
  piece : p ∈ copyPieces c
  notLanded : p ∉ c.landed
  notLost : kget? c.lost p = none
  notSent : ∀ x ∈ c.sent, x.1 ≠ p
  notStalled : c.stall = none
  notEnding : c.ending = none

/-- A piece that lands now: it is written to the scratchpad, or leaves for its home. -/
def movePiece (s : State) (core : Nat) (c : CopyCmd) (p : Nat) (v : Piece) : Option Nat → State
  | none => landPiece core { c with poisoned := c.poisoned || v.poison } p v.count (scratchPiece c.gang p v (copyServed core (mergeSources core c p s)))
  | some ia => pushWrite (slabOf core) { WriteMsg.blank with
      ctx := (getGang s c.gang).ctx, sector := ia / 128, mask := v.mask, data := v.data, poison := v.poison, kind := .engine c.id }
      (putCopy core { c with poisoned := c.poisoned || v.poison, sent := c.sent ++ [(p, ia / 128)] } (copyServed core (mergeSources core c p s)))

/-- COPY_SECTOR_LAND of a piece that has not moved, in the turn of its queue (R203, R208). -/
theorem copySectorLand_moves {v : Piece} {dest : Option Nat} (hw : PieceWaits s core c p) (hreset : s.mgmt.resetting = false)
    (hquiet : readsQuiet s core c p = true) (hturn : copyTurnOf s core = true) (hdata : pieceData s c p = .ok v) (hdest : pieceDest s c p = .ok dest) :
    execCopySectorLand core p s = .next (movePiece s core c p v dest) := by
  obtain ⟨hhead, hstarted, hpiece, hlanded, hlost, hsent, hstall, hending⟩ := hw
  have hfind : c.sent.find? (fun x => x.1 == p) = none := List.find?_eq_none.mpr fun x hx => by simpa using hsent x hx
  unfold execCopySectorLand
  rw [hhead]
  dsimp only
  rw [if_neg (by simp [hstarted, hpiece, hlanded]), hlost, if_neg (by simp), hfind]
  dsimp only
  rw [if_neg (by simp [hreset, hstall, hending, hquiet, hturn]), hdata, hdest]
  cases dest <;> rfl

/-- A write that leaves stands in its slab's slice (R105). -/
theorem pushWrite_sends (slab : Nat) (m : WriteMsg) (s : State) :
    { m with id := s.ids, agent := slab, tick := s.tick } ∈ (getSlab (pushWrite slab m s) slab).inq := by
  have hslab : (getSlab (pushWrite slab m s) slab).inq = (getSlab s slab).inq ++ [{ m with id := s.ids, agent := slab, tick := s.tick }] :=
    congrArg Slab.inq (kget_kset_same ..)
  rw [hslab]
  exact List.mem_append_right _ (List.mem_singleton_self _)

/-- The write of a piece that has left for its home. -/
theorem movePiece_sent (v : Piece) (ia : Nat) : ∃ m ∈ (getSlab (movePiece s core c p v (some ia)) (slabOf core)).inq,
    m.sector = ia / 128 ∧ m.mask = v.mask ∧ m.data = v.data ∧ m.poison = v.poison ∧ m.kind = .engine c.id :=
  ⟨_, pushWrite_sends .., rfl, rfl, rfl, rfl, rfl⟩

/-- What translates the pages of a piece's reads leaves the rest (R83). -/
theorem touchSources_part {β : Type} {q : State → β} (hq : ReadBlind q) (c : CopyCmd) (p : Nat) (s : State) : q (touchSources c p s) = q s := by
  unfold touchSources
  split
  · rfl
  · refine foldl_part q (fun s r => ?_) _ s
    split
    · rfl
    · exact touchPage_part hq ..

/-- COPY_FAULT of a piece that cannot be read: the command stalls and the fault is reported (R209). -/
theorem copyFault_reports {x : W64 × Nat} (hw : PieceWaits s core c p) (hdata : pieceData s c p = .error x) :
    ∃ t, execCopyFault core p s = .next t ∧ MemoryKept (touchSources c p s) t ∧ (∃ c1, headCopy t core = some c1 ∧ c1.stall = some s.seq) ∧
      ∃ r, t.faultsOut = s.faultsOut ++ [r] ∧ r.kind = 2 ∧ r.why = x.2 ∧ r.va = x.1 ∧ r.ident = c.ident ∧ r.seq = s.seq := by
  obtain ⟨hhead, hstarted, hpiece, hlanded, hlost, hsent, hstall, hending⟩ := hw
  have hseq : (touchSources c p s).seq = s.seq := touchSources_part (q := State.seq) (fun _ _ _ _ _ _ => rfl) c p s
  have hout : (touchSources c p s).faultsOut = s.faultsOut := touchSources_part (q := State.faultsOut) (fun _ _ _ _ _ _ => rfl) c p s
  have hcores : (touchSources c p s).cores = s.cores := touchSources_part (q := State.cores) (fun _ _ _ _ _ _ => rfl) c p s
  unfold execCopyFault
  rw [hhead]
  dsimp only
  rw [if_neg (by simp [hstarted, hpiece, hlanded, hstall, hending]), hlost]
  dsimp only
  rw [if_neg (by simpa using fun y hy => hsent (p, y) hy rfl), hdata]
  dsimp only
  rw [← hseq, ← hout]
  exact ⟨_, rfl, ⟨rfl, rfl, rfl⟩, ⟨_, headCopy_putCopy ((headCopy_of_cores hcores).trans hhead) rfl, rfl⟩, _, rfl, rfl, rfl, rfl, rfl, rfl⟩

end

end Sys2Proof.Machine
end

section
/-! PROOF. The steps of migration and the faults of a quarry unit (R126, R140 to R143), and O43. -/
namespace Sys2Proof.Machine

/-! ### Migration (R140) -/

/-- What is written back of a payload leaves what does not see the caches (R382). -/
theorem flushPayload_part {α : Type} {p : State → α} (hp : CacheBlind p) (ctx : Nat) (va : W64) (len : Nat) (s : State) :
    p (flushPayload ctx va len s) = p s :=
  (foldl_part p (fun s _ => wcFlush_part hp _ _ s) _ _).trans (foldl_part p (fun s _ => maintain_part hp _ _ _ s) _ s)

section
variable {q : Nat} {k : W64} {s s1 : State} {m : Migration}

theorem migStart_copies (hm : (getQuarry s q).mig = some m) (h : migStart q k s = .ok (true, s1)) :
    (getQuarry s1 q).mig = some { m with copying := m.copying ++ [{ key := k, done := 0, stall := none }] } := by
  unfold migStart at h
  obtain ⟨_, _, hget, h⟩ := bind_ok h
  cases hget
  dsimp only at h
  rw [hm] at h
  obtain ⟨v, h, ht, -⟩ := unitRun_part (p := fun s : State => s.quarries) (fun _ _ _ _ _ _ => rfl) h
  obtain ⟨e, s2, -, h⟩ := bind_ok h
  obtain ⟨r, s3, -, h⟩ := bind_ok h
  cases r with
  | none => cases h
  | some x =>
    dsimp only at h
    split at h
    · cases h
    obtain ⟨_, s4, hs4, h⟩ := bind_ok h
    cases hs4
    cases h
    rw [getQuarry_of_quarries ht, getQuarry_of_quarries (flushPayload_part (p := State.quarries) (fun _ _ _ _ _ _ => rfl) ..), getQuarry_setQuarry]

/-- The copies that are under way after a sector, or after the last. -/
theorem migLand_copies (hm : (getQuarry s q).mig = some m) (h : migLand q k s = .ok (true, s1)) :
    ∃ c ∈ m.copying, c.key = k ∧ c.stall = none ∧
      ((getQuarry s1 q).mig = some { m with copying := m.copying.filter (·.key != k) ++ [{ c with done := c.done + 1 }] } ∨
        (getQuarry s1 q).mig = some { m with copying := m.copying.filter (·.key != k) }) := by
  unfold migLand at h
  obtain ⟨_, _, hget, h⟩ := bind_ok h
  cases hget
  dsimp only at h
  rw [hm] at h
  dsimp only at h
  generalize hfind : m.copying.find? (fun c => c.key == k && c.stall.isNone) = r at h
  cases r with
  | none => cases h
  | some c =>
  dsimp only at h
  have hc := List.find?_some hfind
  simp only [Bool.and_eq_true, beq_iff_eq, Option.isNone_iff_eq_none] at hc
  obtain ⟨hkey, hstall⟩ := hc
  refine ⟨c, List.mem_of_find?_eq_some hfind, hkey, hstall, ?_⟩
  obtain ⟨v, h, ht, -⟩ := unitRun_part (p := fun s : State => s.quarries) (fun _ _ _ _ _ _ => rfl) h
  rw [getQuarry_of_quarries ht]
  obtain ⟨e, s2, -, h⟩ := bind_ok h
  obtain ⟨r, s3, -, h⟩ := bind_ok h
  cases r with
  | none =>
    cases h
    rw [getQuarry_setQuarry]
    exact .inr rfl
  | some x =>
    dsimp only at h
    split at h
    · obtain ⟨_, s4, -, h⟩ := bind_ok h
      cases h
      rw [getQuarry_setQuarry]
      exact .inl rfl
    split at h
    · cases h
    · obtain ⟨_, s4, -, h⟩ := bind_ok h
      cases h
      rw [getQuarry_setQuarry]
      exact .inr rfl

theorem migComplete_ends (hm : (getQuarry s q).mig = some m) (h : migComplete q s = .ok (true, s1)) :
    (getQuarry s1 q).mig = none ∧ (getQuarry s1 q).released = [] ∧ (getQuarry s1 q).doneGen = (getQuarry s q).gen := by
  unfold migComplete at h
  obtain ⟨_, _, hget, h⟩ := bind_ok h
  cases hget
  dsimp only at h
  rw [hm] at h
  obtain ⟨v, h, ht, -⟩ := unitRun_part (p := fun s : State => s.quarries) (fun _ _ _ _ _ _ => rfl) h
  rw [getQuarry_of_quarries ht]
  obtain ⟨e, s2, -, h⟩ := bind_ok h
  obtain ⟨es, s3, -, h⟩ := bind_ok h
  split at h
  · cases h
  obtain ⟨_, s4, -, h⟩ := bind_ok h
  obtain ⟨_, s5, -, h⟩ := bind_ok h
  obtain ⟨_, s6, -, h⟩ := bind_ok h
  obtain ⟨_, s7, -, h⟩ := bind_ok h
  cases h
  dsimp only [pushFront]
  rw [getQuarry_setQuarry, getQuarry_setQuarry]
  exact ⟨rfl, rfl, rfl⟩

end

/-! ### Faults (R126, R142, R143) -/

section
variable {q : Nat} {s : State}

/-- The report of a quarry that stalls, or of a copy of it. -/
def quarryReport (q : Nat) (va : W64) (why acc : Nat) (s : State) : FaultRec :=
  { FaultRec.blank with kind := 3, why := why, acc := acc, ctx := q / 8, unit := 36 * quarrySlab s q, va := va, ref := .quarry q, seq := s.seq, time := timer s }

theorem quarryStall_reports (va : W64) (why acc a : Nat) (seen : State) :
    (getQuarry (quarryStall q va why acc (keepReads a seen s)) q).stall = some (va, why, s.seq) ∧
      (quarryStall q va why acc (keepReads a seen s)).faultsOut = s.faultsOut ++ [quarryReport q va why acc (keepReads a seen s)] := by
  have hseq : (keepReads a seen s).seq = s.seq := keepReads_part (p := State.seq) (fun _ _ _ _ _ _ => rfl) ..
  have hout : (keepReads a seen s).faultsOut = s.faultsOut := keepReads_part (p := State.faultsOut) (fun _ _ _ _ _ _ => rfl) ..
  rw [quarryStall, getQuarry_setQuarry, ← hseq, ← hout]
  exact ⟨rfl, rfl⟩

theorem copyStall_reports (key va : W64) (why acc : Nat) :
    (getQuarry (copyStall q key va why acc s) q).stall = (getQuarry s q).stall ∧
      (∀ m, (getQuarry (copyStall q key va why acc s) q).mig = some m → ∀ c ∈ m.copying, c.key = key → c.stall = some s.seq) ∧
      (copyStall q key va why acc s).faultsOut = s.faultsOut ++ [quarryReport q va why acc s] := by
  rw [copyStall, getQuarry_setQuarry]
  refine ⟨rfl, fun m hm c hc hkey => ?_, rfl⟩
  obtain ⟨m0, -, rfl⟩ := Option.map_eq_some_iff.mp hm
  obtain ⟨c0, -, rfl⟩ := List.mem_map.mp hc
  split at hkey
  next h => rw [if_pos h]
  next h => exact absurd hkey h

/-- A quarry whose step meets an access fault stalls and reports it (R143). -/
theorem quarryAccessFault_stalls {s0 seen : State} {va : W64} {why acc : Nat}
    (h : quarryBlocked (serveQuarry q s0) q = some (.access va why acc seen)) :
    execQuarryAccessFault q s0 = .next (quarryStall q va why acc (keepReads (quarrySlab (serveQuarry q s0) q) seen (serveQuarry q s0))) := by
  unfold execQuarryAccessFault
  dsimp only
  rw [h]

/-- A migration copy that meets an access fault stalls alone (R142). -/
theorem quarryAccessFault_stallsCopy {s0 : State} {key va : W64} {why acc : Nat} (h : quarryBlocked (serveQuarry q s0) q = some (.copy key va why acc)) :
    execQuarryAccessFault q s0 = .next (copyStall q key va why acc (serveQuarry q s0)) := by
  unfold execQuarryAccessFault
  dsimp only
  rw [h]

/-- A step of the unit meets a malformed structure or poison: the cause that it raises, the VA, and the state after its reads (R126). -/
def MeetsCorruption (s : State) (q : Nat) (va : W64) (cause : Nat) (seen : State) : Prop :=
  (quarryBlocked s q = some (.corrupt va seen) ∧ cause = 12) ∨ (quarryBlocked s q = some (.poison va seen) ∧ cause = 14)

/-- The machine when the instruction at the head of a quarry's order has failed: its place is given up, its window closes without a result, and the
cause is pending for its lane (R126). -/
def instructionFailed (q gid fid w cause : Nat) (va : W64) (rest : List QOp) (seen s : State) : State :=
  pendLanes gid [fid] cause va (dropResult gid fid w (endStep q (keepReads (quarrySlab s q) seen (setQuarry s q { getQuarry s q with ops := rest }))))

theorem quarryCorruption_fails {s0 seen : State} {va : W64} {cause : Nat} (h : MeetsCorruption (serveQuarry q s0) q va cause seen) {kind : QKind}
    {gid fid w d b : Nat} {k a : W64} {v : Nat} {rest : List QOp}
    (hops : (getQuarry (serveQuarry q s0) q).ops = .instr kind gid fid w d b k a v :: rest) :
    execQuarryCorruption q s0 = .next (serveQuarry q (quarryAcquire q gid (instructionFailed q gid fid w cause va rest seen (serveQuarry q s0)))) := by
  unfold execQuarryCorruption
  dsimp only
  rcases h with ⟨h, rfl⟩ | ⟨h, rfl⟩
  · rw [h, hops]
    rfl
  · rw [h, hops]
    rfl

theorem quarryCorruption_stalls {s0 seen : State} {va : W64} {cause : Nat} (h : MeetsCorruption (serveQuarry q s0) q va cause seen)
    (hops : (getQuarry (serveQuarry q s0) q).ops = []) :
    execQuarryCorruption q s0 = .next (quarryStall q va 0 0 (keepReads (quarrySlab (serveQuarry q s0) q) seen (serveQuarry q s0))) := by
  unfold execQuarryCorruption
  dsimp only
  rcases h with ⟨h, rfl⟩ | ⟨h, rfl⟩
  · rw [h, hops]
  · rw [h, hops]

/-- The wave of an instruction that has failed has a pending cause more, and the quarry goes on with the steps behind it. -/
theorem instructionFailed_pends {gid : Nat} {g : Gang} (hg : kget? s.gangs gid = some g) (fid w cause : Nat) (va : W64) (rest : List QOp) (seen : State) :
    (getQuarry (instructionFailed q gid fid w cause va rest seen s) q).ops = rest ∧
      (getGang (instructionFailed q gid fid w cause va rest seen s) gid).asyncs =
        g.asyncs ++ [{ fid := fid, cause := cause, val := va, lanes := laneMask [fid], seq := none }] := by
  have hops : (getQuarry (endStep q (keepReads (quarrySlab s q) seen (setQuarry s q { getQuarry s q with ops := rest }))) q).ops = rest := by
    rw [endStep, getQuarry_of_quarries (drainSlice_part (p := State.quarries) (fun _ _ _ _ _ _ => rfl) ..), getQuarry_setQuarry,
      getQuarry_of_quarries (keepReads_part (p := State.quarries) (fun _ _ _ _ _ _ => rfl) ..), getQuarry_setQuarry]
  have hgangs : (endStep q (keepReads (quarrySlab s q) seen (setQuarry s q { getQuarry s q with ops := rest }))).gangs = s.gangs :=
    (drainSlice_part (p := State.gangs) (fun _ _ _ _ _ _ => rfl) ..).trans (keepReads_part (p := State.gangs) (fun _ _ _ _ _ _ => rfl) ..)
  unfold instructionFailed
  generalize endStep q _ = u at hops hgangs ⊢
  rw [dropResult, hgangs, hg]
  dsimp only [pendLanes]
  rw [setGang_gangs, kget?_kset_same]
  refine ⟨hops, ?_⟩
  rw [getGang_setGang]
  rfl

end

/-- Settles O43: the engine's steps by what waits in its queue, those of migration by what a step that is performed leaves of the migration, the
faults by what blocks the quarry. -/
theorem copyAndQuarryEventsComplete : Obligations.CopyAndQuarryEventsComplete := by
  unfold Obligations.CopyAndQuarryEventsComplete
  intro works
  have hworks : ∀ {s core c p}, works s core c p → PieceWaits s core c p :=
    fun ⟨hhead, hstarted, hpiece, hlanded, hlost, hsent, hstall, hending⟩ => ⟨hhead, hstarted, hpiece, hlanded, hlost, hsent, hstall, hending⟩
  refine ⟨fun _ _ _ hhead hstarted => copyCommandStart_completes hhead hstarted, fun s core c p v hw hreset hquiet hturn hdata => ⟨fun hdest => ?_,
    fun ia hdest => ?_⟩, fun _ _ _ _ _ hw hdata => copyFault_reports (hworks hw) hdata, fun s0 q k => ?_, fun s0 q => ⟨?_, ?_, ?_⟩⟩
  · exact copySectorLand_moves (hworks hw) hreset hquiet hturn hdata hdest
  · exact ⟨_, copySectorLand_moves (hworks hw) hreset hquiet hturn hdata hdest, movePiece_sent v ia⟩
  · intro s hreset hstall hops m s1 hm
    have hreset0 : s0.mgmt.resetting = false := by rwa [mgmt_serveQuarry] at hreset
    exact ⟨fun h => ⟨quarryStep_performs hreset0 hstall hops h rfl, migStart_copies hm h⟩,
      fun h => ⟨quarryStep_performs hreset0 hstall hops h rfl, migLand_copies hm h⟩,
      fun h => ⟨quarryStep_performs hreset0 hstall hops h rfl, migComplete_ends hm h⟩⟩
  · intro va why acc seen h
    obtain ⟨hstall, hout⟩ := quarryStall_reports va why acc _ seen
    exact ⟨_, quarryAccessFault_stalls h, hstall, _, hout, rfl, rfl, rfl, rfl, rfl⟩
  · intro key va why acc h
    obtain ⟨hstall, hcopy, hout⟩ := copyStall_reports key va why acc
    exact ⟨_, quarryAccessFault_stallsCopy h, hstall, hcopy, _, hout, rfl, rfl, rfl, rfl, rfl⟩
  · intro va cause seen h
    refine ⟨fun kind gid fid w d b k a v rest g hops hg => ?_, fun hops => ?_⟩
    · exact ⟨_, quarryCorruption_fails h hops, instructionFailed_pends hg ..⟩
    · obtain ⟨hstall, hout⟩ := quarryStall_reports va 0 0 _ seen
      exact ⟨_, quarryCorruption_stalls h hops, hstall, _, hout, rfl, rfl, rfl⟩

end Sys2Proof.Machine
end

section
/-! PROOF. The end of a transaction and traps (R149, R153, R155, R222, R224): what an abort leaves, and the cause that a trap takes; O16 and O28. -/
namespace Sys2Proof.Machine

/-! ### A transaction that closes (R152, R153) -/

/-- A pinned fibre once its transaction is closed. -/
def txnOver (t : Txn) (pc : Option W64) (st : Option (Word → Word)) (x : Fibre) : Fibre :=
  { x with
    txstatus := st.elim x.txstatus (· x.txstatus)
    pc := pc.getD x.pc
    joins := if pc.isSome then without x.joins t.sets else x.joins }

/-- Its gang: a wave that goes back to a label leaves the join sets of the transaction too. -/
def txnOverGang (ps : List Nat) (t : Txn) (pc : Option W64) (st : Option (Word → Word)) (g : Gang) : Gang :=
  let g1 := mapFibres g (fun fid x => if ps.contains fid then txnOver t pc st x else x)
  if pc.isSome then leaveTxnSets ps t g1 else g1

theorem getFibre_txnOverGang {ps : List Nat} {t : Txn} (pc : Option W64) (st : Option (Word → Word)) {g : Gang} {fid : Nat} (hf : fid ∈ ps)
    (hl : (kget? g.fibres fid).isSome = true) : getFibre (txnOverGang ps t pc st g) fid = txnOver t pc st (getFibre g fid) := by
  have hmap : getFibre (mapFibres g (fun fid x => if ps.contains fid then txnOver t pc st x else x)) fid = txnOver t pc st (getFibre g fid) := by
    rw [getFibre_mapFibres _ _ fid hl, if_pos (List.contains_iff_mem.mpr hf)]
  unfold txnOverGang
  split <;> exact hmap

section
variable {core key gid : Nat} {pc : Option W64} {st : Option (Word → Word)} {s : State}

theorem closeTxn_eq {t : Txn} (ht : (getSlot s key).txn = some t) : closeTxn core key gid pc st s =
    toTable core gid t.held .ready (setGang (setSlot s key { getSlot s key with fids := pinned (getSlot s key) t, txn := none }) gid
      (txnOverGang (pinned (getSlot s key) t) t pc st (getGang s gid))) := by
  rw [closeTxn, ht]
  cases pc <;> cases st <;> rfl

/-- A transaction that closes changes its gang, its slot and the table of its core. -/
theorem closeTxn_part {α : Type} {p : State → α} (hg : ∀ s g v, p (setGang s g v) = p s) (hs : ∀ s k v, p (setSlot s k v) = p s)
    (hc : ∀ s c v, p (setCore s c v) = p s) : p (closeTxn core key gid pc st s) = p s := by
  cases ht : (getSlot s key).txn with
  | none => rw [closeTxn, ht]
  | some t => rw [closeTxn_eq ht, toTable_part p hc, hg, hs]

theorem memoryKept_closeTxn : MemoryKept s (closeTxn core key gid pc st s) :=
  ⟨closeTxn_part (p := State.mem) (fun _ _ _ => rfl) (fun _ _ _ => rfl) (fun _ _ _ => rfl),
    closeTxn_part (p := State.hostMem) (fun _ _ _ => rfl) (fun _ _ _ => rfl) (fun _ _ _ => rfl),
    closeTxn_part (p := State.peerMem) (fun _ _ _ => rfl) (fun _ _ _ => rfl) (fun _ _ _ => rfl)⟩

variable {t : Txn} (ht : (getSlot s key).txn = some t)
include ht

theorem getSlot_closeTxn :
    getSlot (closeTxn core key gid pc st s) key = { getSlot s key with fids := pinned (getSlot s key) t, txn := none } := by
  rw [closeTxn_eq ht, toTable_part (getSlot · key) (fun _ _ _ => rfl), getSlot_setGang, getSlot_setSlot]

theorem getGang_closeTxn : getGang (closeTxn core key gid pc st s) gid = txnOverGang (pinned (getSlot s key) t) t pc st (getGang s gid) := by
  rw [closeTxn_eq ht, toTable_part (getGang · gid) (fun _ _ _ => rfl), getGang_setGang]

/-- Of its gang the fibres change, and the join sets. -/
theorem gang_closeTxn {α : Type} {q : Gang → α} (hq : ∀ g f j, q { g with fibres := f, joinSets := j } = q g) :
    q (getGang (closeTxn core key gid pc st s) gid) = q (getGang s gid) := by
  rw [getGang_closeTxn ht, txnOverGang]
  split
  · exact hq (getGang s gid) _ _
  · exact hq (getGang s gid) _ (getGang s gid).joinSets

theorem fibreAt_closeTxn {fid : Nat} (hf : fid ∈ pinned (getSlot s key) t) (hl : (kget? (getGang s gid).fibres fid).isSome = true) :
    fibreAt (closeTxn core key gid pc st s) gid fid = txnOver t pc st (fibreAt s gid fid) := by
  rw [fibreAt, getGang_closeTxn ht, getFibre_txnOverGang _ _ hf hl]
  rfl

/-- An abort closes the transaction at the abort label (R153). -/
theorem abortTxn_eq (cause code : Nat) : abortTxn core key gid cause code s =
    closeTxn core key gid (some t.abortPc) (some (fun w => txWord code (w.getLsbD 7) t.levels.length cause)) s := by
  rw [abortTxn, ht]

end

/-- Settles O28: an abort is the close of the transaction at its abort label, which writes in the pinned fibres what is stated and touches no memory. -/
theorem abortDiscardsWrites : Obligations.AbortDiscardsWrites := by
  unfold Obligations.AbortDiscardsWrites
  intro s core key gid cause code tx ht
  dsimp only
  rw [abortTxn_eq ht]
  refine ⟨memoryKept_closeTxn, ?_, gang_closeTxn ht fun _ _ _ => rfl, fun fid hf hl => fibreAt_closeTxn ht hf hl⟩
  rw [getSlot_closeTxn ht]

/-! ### The cause that is taken (R224) -/

/-- Of the causes raised together the lowest is taken, with its lanes and the value of the lowest of them. -/
theorem pickCause_least {r : Raised} {x : Nat × Nat × W64} (hx : x ∈ r) (hle : ∀ y ∈ r, x.2.1 ≤ y.2.1)
    (hlane : ∀ y ∈ r, y.2.1 = x.2.1 → y ≠ x → lane x.1 < lane y.1) :
    pickCause r = some (x.2.1, (r.filter (fun y => y.2.1 == x.2.1)).map (·.1), x.2.2) := by
  obtain ⟨a, ha⟩ := leastBy_isSome (fun x : Nat × Nat × W64 => x.2.1) (List.ne_nil_of_mem hx)
  obtain ⟨har, hmin⟩ := leastBy_spec ha
  have hcause : a.2.1 = x.2.1 := Nat.le_antisymm (hmin x hx) (hle a har)
  have hxs : x ∈ r.filter (fun y => y.2.1 == x.2.1) := List.mem_filter.mpr ⟨hx, beq_self_eq_true _⟩
  obtain ⟨b, hb⟩ := leastBy_isSome (fun y : Nat × Nat × W64 => lane y.1) (List.ne_nil_of_mem hxs)
  obtain ⟨hbs, hlow⟩ := leastBy_spec hb
  obtain ⟨hbr, hbc⟩ := List.mem_filter.mp hbs
  obtain rfl : b = x := by
    by_contra hne
    exact absurd (hlow x hxs) (Nat.not_le.mpr (hlane b hbr (eq_of_beq hbc) hne))
  rw [pickCause, ha]
  dsimp only
  rw [hcause, hb]

/-! ### A trap inside a transaction (R155) -/

/-- A trap in a transaction enters the handler of the aborted wave, with the abort label as its PC. -/
theorem takeTrap_txn {s : State} {e : Env} {tx : Txn} (ht : e.sl.txn = some tx) {fid c : Nat} {v : W64} (hu : e.sl.handler = none)
    (hq : windowsRunning e = false) : takeTrap e [(fid, c, v)] s =
      .next (enterHandler e c false (laneMask [fid]) v tx.abortPc (abortTxn e.core e.key e.gid 8 0 s)) := by
  have hpick : pickCause [(fid, c, v)] = some (c, [fid], v) := by simp [pickCause, leastBy]
  rw [takeTrap, hpick]
  dsimp only
  rw [hu, hq, ht]
  rfl

/-- The wave's slot holds the transaction. -/
theorem txn_of_envOf {s : State} {e : Env} {tx : Txn} (he : envOf s = some e) (ht : e.sl.txn = some tx) : (getSlot s e.key).txn = some tx :=
  (congrArg Slot.txn (slot_of_envOf he).1).trans ht

/-- A fibre at the entry of its handler, but for the release that it had begun. -/
theorem fibre_enterHandler {α : Type} {p : Fibre → α} (hp : ∀ x, p { x with relWait := none } = p x) {e : Env} {cause : Nat} {async : Bool}
    {lanes : Word} {val pc : W64} {s : State} (hb : (getGang s e.gid).handlerBase ≠ 0) (fid : Nat) :
    p (fibreAt (enterHandler e cause async lanes val pc s) e.gid fid) = p (fibreAt s e.gid fid) := by
  rw [enterHandler_eq hb, fibreAt, getGang_setSlot, getGang_setGang]
  exact getFibre_mapFibres_part (fun k x => by split <;> [exact hp x; rfl]) fid

/-- The aborted wave in its handler. -/
theorem trapped_txn {s : State} {e : Env} {tx : Txn} (he : envOf s = some e) (ht : e.sl.txn = some tx) {c : Nat} {lanes : Word} {v : W64}
    (hb : e.g.handlerBase ≠ 0) : let t := enterHandler e c false lanes v tx.abortPc (abortTxn e.core e.key e.gid 8 0 s)
    (getSlot t e.key).txn = none ∧ (getSlot t e.key).trappc = tx.abortPc ∧ (getSlot t e.key).trapcause = BitVec.ofNat 32 c ∧
      (getSlot t e.key).handler.isSome = true ∧ ∀ fid ∈ pinned e.sl tx, (kget? e.g.fibres fid).isSome = true →
        (fibreAt t e.gid fid).pc = tx.abortPc ∧ ∃ co, (fibreAt t e.gid fid).txstatus = txWord 0 co tx.levels.length 8 := by
  have hslot := txn_of_envOf he ht
  have hbase : (getGang (abortTxn e.core e.key e.gid 8 0 s) e.gid).handlerBase ≠ 0 := by
    rw [abortTxn_eq hslot, gang_closeTxn hslot (q := Gang.handlerBase) fun _ _ _ => rfl, gang_of_envOf he]
    exact hb
  refine ⟨?_, ?_, ?_, ?_, fun fid hf hl => ?_⟩
  · rw [enterHandler_eq hbase, getSlot_setSlot, handlerSlot, abortTxn_eq hslot, getSlot_closeTxn hslot]
  · rw [enterHandler_eq hbase, getSlot_setSlot, handlerSlot]
  · rw [enterHandler_eq hbase, getSlot_setSlot, handlerSlot]
    rfl
  · rw [enterHandler_eq hbase, getSlot_setSlot, handlerSlot]
    rfl
  · rw [fibre_enterHandler (p := Fibre.pc) (fun _ => rfl) hbase, fibre_enterHandler (p := Fibre.txstatus) (fun _ => rfl) hbase,
      abortTxn_eq hslot, fibreAt_closeTxn hslot (by rwa [(slot_of_envOf he).1]) (by rwa [gang_of_envOf he])]
    exact ⟨rfl, _, rfl⟩

/-- Settles O16: the lowest cause is the one that the choice of R224 finds, and inside a transaction the handler is that of the aborted wave. -/
theorem takingATrap : Obligations.TakingATrap := by
  unfold Obligations.TakingATrap
  refine ⟨fun s e r x hc hx hle hlane => takeTrap_trapped hc (pickCause_least hx hle hlane), fun s e tx fid c v he hu hq ht hb => ?_⟩
  exact ⟨_, takeTrap_txn ht hu hq, trapped_txn he ht hb⟩

end Sys2Proof.Machine
end

section
/-! PROOF. Instructions that a transaction forbids (R150): each asks first whether one is open, so it aborts it with cause 6 before anything else; O29. -/
namespace Sys2Proof.Machine

/-- The body of a form that asks first whether a transaction is open. -/
def AsksFirst (body : Env → List Nat → State → Out) : Prop := ∀ e act s, ∃ k, body e act s = forbidInTxn e act s k

section
variable {s : State} {e : Env} {tx : Txn}

theorem forbidInTxn_aborts {act : List Nat} {k : Out} (ht : e.sl.txn = some tx) (hact : act ≠ []) :
    forbidInTxn e act s k = .next (abortTxn e.core e.key e.gid 6 0 s) := by
  cases act with
  | nil => exact absurd rfl hact
  | cons fid fids =>
    unfold forbidInTxn
    rw [ht]

variable {h : Hdr} {sc : Env → Handler → Out} {body : Env → List Nat → State → Out}

theorem issue_forbidden (hb : AsksFirst body) (hi : Issues false s e) (ht : e.sl.txn = some tx) (hact : executing h e ≠ []) :
    issue h false s sc body = .next (abortTxn e.core e.key e.gid 6 0 s) := by
  rw [issue_runs hi]
  obtain ⟨k, hk⟩ := hb e (executing h e) s
  rw [hk, forbidInTxn_aborts ht hact]

/-- The same once the windows have closed (R240). -/
theorem issue_forbidden_closed (hb : AsksFirst body) (hi : Issues true s e) (ht : e.sl.txn = some tx) (hact : executing h (closedEnv e) ≠ []) :
    issue h true s sc body = .next (abortTxn e.core e.key e.gid 6 0 (closedState e s)) := by
  rw [issue_waits hi]
  obtain ⟨k, hk⟩ := hb (closedEnv e) (executing h (closedEnv e)) (closedState e s)
  rw [hk]
  exact forbidInTxn_aborts (e := closedEnv e) ht hact

end

section
variable {f : F5} {s : State} {e : Env} {tx : Txn} (hi : Issues false s e) (ht : e.sl.txn = some tx) (hact : executing f.h e ≠ [])
include hi ht hact

/-- Sync words (R333). -/
theorem execSync_forbidden (uses : List RegUse) (srcs : List Src) (go : Env → List Nat → State → Out) :
    execSync f uses srcs go s = .next (abortTxn e.core e.key e.gid 6 0 s) := by
  unfold execSync
  exact issue_forbidden (fun _ _ _ => ⟨_, rfl⟩) hi ht hact

theorem execSwinit_forbidden : execSwinit f s = .next (abortTxn e.core e.key e.gid 6 0 s) := by
  unfold execSwinit
  exact execSync_forbidden hi ht hact ..

theorem execSwexpect_forbidden : execSwexpect f s = .next (abortTxn e.core e.key e.gid 6 0 s) := by
  unfold execSwexpect
  exact execSync_forbidden hi ht hact ..

theorem execSwarrive_forbidden : execSwarrive f s = .next (abortTxn e.core e.key e.gid 6 0 s) := by
  unfold execSwarrive
  exact execSync_forbidden hi ht hact ..

/-- Task queues (R333). -/
theorem execQueue_forbidden (kind : ReqKind) (image result : Bool) :
    execQueue kind f image result s = .next (abortTxn e.core e.key e.gid 6 0 s) := by
  unfold execQueue
  exact issue_forbidden (fun _ _ _ => ⟨_, rfl⟩) hi ht hact

/-- SBSET (R342). -/
theorem execSbset_forbidden : execSbset f s = .next (abortTxn e.core e.key e.gid 6 0 s) := by
  unfold execSbset
  exact issue_forbidden (fun _ _ _ => ⟨_, rfl⟩) hi ht hact

/-- Quarry instructions (R344). -/
theorem execQuarryMore_forbidden (uses : List RegUse) (srcs : List Src) (more : Env → List Nat → Raised)
    (go : Nat → Env → List Nat → State → Out) : execQuarryMore f uses srcs more go s = .next (abortTxn e.core e.key e.gid 6 0 s) := by
  unfold execQuarryMore
  exact issue_forbidden (fun _ _ _ => ⟨_, rfl⟩) hi ht hact

theorem execQkey_forbidden (form : Nat) : execQkey form f s = .next (abortTxn e.core e.key e.gid 6 0 s) := by
  unfold execQkey execQuarry
  exact execQuarryMore_forbidden hi ht hact ..

theorem execQStep_forbidden (kind : QKind) (uses : List RegUse) (srcs : List Src) :
    execQStep kind f uses srcs s = .next (abortTxn e.core e.key e.gid 6 0 s) := by
  unfold execQStep execQuarry
  exact execQuarryMore_forbidden hi ht hact ..

theorem execQsweep_forbidden : execQsweep f s = .next (abortTxn e.core e.key e.gid 6 0 s) := by
  unfold execQsweep
  exact execQuarryMore_forbidden hi ht hact ..

end

section
variable {f : F4} {s : State} {e : Env} {tx : Txn} (hi : Issues false s e) (ht : e.sl.txn = some tx) (hact : executing f.h e ≠ [])
include hi ht hact

/-- Instructions that act once for their wave (R353). -/
theorem execOnce_forbidden (u : Nat) (dst : Bool) (srcs : List Src) (ready : Env → State → Bool) (checks : Env → Nat → State → Raised)
    (go : Env → List Nat → Nat → State → Out) : execOnce f u dst srcs ready checks go s = .next (abortTxn e.core e.key e.gid 6 0 s) := by
  unfold execOnce
  exact issue_forbidden (fun _ _ _ => ⟨_, rfl⟩) hi ht hact

theorem execBlock_forbidden (u : Nat) (dst : Bool) (ready : Env → State → Bool) (checks : Env → Nat → List Byte → State → List Check)
    (go : Env → List Nat → Nat → List Byte → State → Out) :
    execBlock f u dst ready checks go s = .next (abortTxn e.core e.key e.gid 6 0 s) := by
  unfold execBlock
  exact execOnce_forbidden hi ht hact ..

/-- The matrix engine's and the haulway's instructions (R356 to R362). -/
theorem execMxcfg_forbidden : execMxcfg f s = .next (abortTxn e.core e.key e.gid 6 0 s) := by
  unfold execMxcfg
  exact execOnce_forbidden hi ht hact ..

theorem execMxop_forbidden : execMxop f s = .next (abortTxn e.core e.key e.gid 6 0 s) := by
  unfold execMxop
  exact execBlock_forbidden hi ht hact ..

theorem queueDrain_forbidden (disps : List Nat) : queueDrain f disps s = .next (abortTxn e.core e.key e.gid 6 0 s) := by
  unfold queueDrain
  exact execBlock_forbidden hi ht hact ..

theorem execHchain_forbidden : execHchain f s = .next (abortTxn e.core e.key e.gid 6 0 s) := by
  unfold execHchain
  exact execBlock_forbidden hi ht hact ..

theorem execHdrain_forbidden : execHdrain f s = .next (abortTxn e.core e.key e.gid 6 0 s) := by
  unfold execHdrain
  exact execBlock_forbidden hi ht hact ..

theorem execHfree_forbidden : execHfree f s = .next (abortTxn e.core e.key e.gid 6 0 s) := by
  unfold execHfree
  exact execOnce_forbidden hi ht hact ..

/-- The copy engine's instructions (R363, R364). -/
theorem execCopy_forbidden (kind : CopyKind) : execCopy kind f s = .next (abortTxn e.core e.key e.gid 6 0 s) := by
  unfold execCopy
  exact execBlock_forbidden hi ht hact ..

theorem execCpycan_forbidden : execCpycan f s = .next (abortTxn e.core e.key e.gid 6 0 s) := by
  unfold execCpycan
  exact execOnce_forbidden hi ht hact ..

/-- HSENDV (R361). -/
theorem execHsendv_forbidden : execHsendv f s = .next (abortTxn e.core e.key e.gid 6 0 s) := by
  unfold execHsendv
  exact issue_forbidden (fun _ _ _ => ⟨_, rfl⟩) hi ht hact

end

section
variable {f : F2} {s : State} {e : Env} {tx : Txn} (hi : Issues false s e) (ht : e.sl.txn = some tx) (hact : executing f.h e ≠ [])
include hi ht hact

/-- Exchange stores (R317, R318). -/
theorem exchangeStore_forbidden (counted : Bool) : exchangeStore f counted s = .next (abortTxn e.core e.key e.gid 6 0 s) := by
  unfold exchangeStore
  exact issue_forbidden (fun _ _ _ => ⟨_, rfl⟩) hi ht hact

/-- Word atomics (R325). -/
theorem execAtomic_forbidden (op : Nat) : execAtomic op f s = .next (abortTxn e.core e.key e.gid 6 0 s) := by
  unfold execAtomic
  exact issue_forbidden (fun _ _ _ => ⟨_, rfl⟩) hi ht hact

/-- Fences (R328, R329). -/
theorem execFence_forbidden : execFence f s = .next (abortTxn e.core e.key e.gid 6 0 s) := by
  unfold execFence
  exact issue_forbidden (fun _ _ _ => ⟨_, rfl⟩) hi ht hact

theorem execFencex_forbidden : execFencex f s = .next (abortTxn e.core e.key e.gid 6 0 s) := by
  unfold execFencex
  exact issue_forbidden (fun _ _ _ => ⟨_, rfl⟩) hi ht hact

end

section
variable {f : F3} {s : State} {e : Env} {tx : Txn} (hi : Issues true s e) (ht : e.sl.txn = some tx) (hact : executing f.h (closedEnv e) ≠ [])
include hi ht hact

/-- Barriers (R304, R305). -/
theorem execBar_forbidden : execBar f s = .next (abortTxn e.core e.key e.gid 6 0 (closedState e s)) := by
  unfold execBar
  exact issue_forbidden_closed (fun _ _ _ => ⟨_, rfl⟩) hi ht hact

theorem execBarx_forbidden : execBarx f s = .next (abortTxn e.core e.key e.gid 6 0 (closedState e s)) := by
  unfold execBarx
  exact issue_forbidden_closed (fun _ _ _ => ⟨_, rfl⟩) hi ht hact

/-- SPAWN, QUIT and YIELD (R301 to R303). -/
theorem execSpawn_forbidden : execSpawn f s = .next (abortTxn e.core e.key e.gid 6 0 (closedState e s)) := by
  unfold execSpawn
  exact issue_forbidden_closed (fun _ _ _ => ⟨_, rfl⟩) hi ht hact

theorem execQuit_forbidden : execQuit f s = .next (abortTxn e.core e.key e.gid 6 0 (closedState e s)) := by
  unfold execQuit
  exact issue_forbidden_closed (fun _ _ _ => ⟨_, rfl⟩) hi ht hact

theorem execYield_forbidden : execYield f s = .next (abortTxn e.core e.key e.gid 6 0 (closedState e s)) := by
  unfold execYield
  exact issue_forbidden_closed (fun _ _ _ => ⟨_, rfl⟩) hi ht hact

end

/-- Settles O29: every form is an issue that asks first whether a transaction is open. -/
theorem forbiddenInTransaction : Obligations.ForbiddenInTransaction := by
  unfold Obligations.ForbiddenInTransaction
  dsimp only
  simp only [List.forall_mem_cons, List.not_mem_nil, false_implies, implies_true, and_true]
  refine ⟨fun f => ?_, fun f => ?_, fun f => ?_, fun f => ?_⟩
  · exact ⟨fun _ _ _ => execBar_forbidden, fun _ _ _ => execBarx_forbidden, fun _ _ _ => execSpawn_forbidden, fun _ _ _ => execQuit_forbidden,
      fun _ _ _ => execYield_forbidden⟩
  · have hxst := fun counted s e tx hi ht ha => exchangeStore_forbidden (f := f) (s := s) (e := e) (tx := tx) hi ht ha counted
    have hatomic := fun op s e tx hi ht ha => execAtomic_forbidden (f := f) (s := s) (e := e) (tx := tx) hi ht ha op
    exact ⟨hxst false, hxst true, hatomic 0, hatomic 1, hatomic 2, hatomic 3, hatomic 4, hatomic 5, hatomic 6, hatomic 7, hatomic 8,
      fun _ _ _ => execFence_forbidden, fun _ _ _ => execFencex_forbidden⟩
  · have hdrain := fun disps s e tx hi ht ha => queueDrain_forbidden (f := f) (s := s) (e := e) (tx := tx) hi ht ha disps
    have hcopy := fun kind s e tx hi ht ha => execCopy_forbidden (f := f) (s := s) (e := e) (tx := tx) hi ht ha kind
    exact ⟨fun _ _ _ => execMxcfg_forbidden, fun _ _ _ => execMxop_forbidden, hdrain _, hcopy _, hcopy _, hcopy _, hcopy _,
      fun _ _ _ => execCpycan_forbidden, fun _ _ _ => execHchain_forbidden, hdrain _, fun _ _ _ => execHsendv_forbidden, hdrain _,
      fun _ _ _ => execHdrain_forbidden, fun _ _ _ => execHfree_forbidden⟩
  · have hqueue := fun kind image result s e tx hi ht ha => execQueue_forbidden (f := f) (s := s) (e := e) (tx := tx) hi ht ha kind image result
    have hkey := fun form s e tx hi ht ha => execQkey_forbidden (f := f) (s := s) (e := e) (tx := tx) hi ht ha form
    have hstep := fun kind uses srcs s e tx hi ht ha => execQStep_forbidden (f := f) (s := s) (e := e) (tx := tx) hi ht ha kind uses srcs
    exact ⟨fun _ _ _ => execSwinit_forbidden, fun _ _ _ => execSwexpect_forbidden, fun _ _ _ => execSwarrive_forbidden, hqueue _ _ _,
      hqueue _ _ _, hqueue _ _ _, fun _ _ _ => execSbset_forbidden, hkey _, hkey _, hkey _, hstep _ _ _, hstep _ _ _, hstep _ _ _,
      hstep _ _ _, hstep _ _ _, hstep _ _ _, hstep _ _ _, fun _ _ _ => execQsweep_forbidden⟩

end Sys2Proof.Machine
end

section
/-! PROOF. Sync words (R163, R164, R333, R336, R337): the fields of a word and the end of its phase, and what the three instructions write; O30 and O31. -/
namespace Sys2Proof.Machine

/-! ### The end of a phase (R164) -/

/-- A field above the low part of a word is a field of the high part. -/
theorem extractLsb'_append_above {v w : Nat} (hi : BitVec v) (lo : BitVec w) (k n : Nat) :
    (hi ++ lo).extractLsb' (w + k) n = hi.extractLsb' k n := by
  rw [BitVec.extractLsb'_append_eq_of_le (Nat.le_add_right w k), Nat.add_sub_cancel_left]

/-- Settles O31: the five fields of the word are what the test reads. -/
theorem syncPhaseEnds : Obligations.SyncPhaseEnds := by
  unfold Obligations.SyncPhaseEnds
  intro gen bt bc at_ ac
  have hgen : (bc ++ bt ++ ac ++ at_ ++ gen).extractLsb' 0 32 = gen := BitVec.extractLsb'_append_eq_right
  have hat : (bc ++ bt ++ ac ++ at_ ++ gen).extractLsb' 32 16 = at_ :=
    (extractLsb'_append_above (bc ++ bt ++ ac ++ at_) gen 0 16).trans BitVec.extractLsb'_append_eq_right
  have hac : (bc ++ bt ++ ac ++ at_ ++ gen).extractLsb' 48 16 = ac :=
    ((extractLsb'_append_above (bc ++ bt ++ ac ++ at_) gen 16 16).trans (extractLsb'_append_above (bc ++ bt ++ ac) at_ 0 16)).trans
      BitVec.extractLsb'_append_eq_right
  have hbt : (bc ++ bt ++ ac ++ at_ ++ gen).extractLsb' 64 32 = bt :=
    ((extractLsb'_append_above (bc ++ bt ++ ac ++ at_) gen 32 32).trans ((extractLsb'_append_above (bc ++ bt ++ ac) at_ 16 32).trans
      (extractLsb'_append_above (bc ++ bt) ac 0 32))).trans BitVec.extractLsb'_append_eq_right
  have hbc : (bc ++ bt ++ ac ++ at_ ++ gen).extractLsb' 96 32 = bc :=
    ((extractLsb'_append_above (bc ++ bt ++ ac ++ at_) gen 64 32).trans ((extractLsb'_append_above (bc ++ bt ++ ac) at_ 48 32).trans
      (extractLsb'_append_above (bc ++ bt) ac 32 32))).trans BitVec.extractLsb'_append_eq_left
  unfold endPhase
  dsimp only
  rw [hgen, hat, hac, hbt, hbc]

/-! ### The word in its scratchpad (R163) -/

theorem scratch_wakeScratch (gid off g : Nat) (s : State) : (getGang (wakeScratch gid off s) g).scratch = (getGang s g).scratch :=
  gang_wakeAll (q := Gang.scratch) (fun _ _ => rfl) ..

/-- The bytes of a scratchpad after a write. -/
theorem scratch_scratchWrite (gid off : Nat) (bs : List Byte) (s : State) :
    (getGang (scratchWrite gid off bs s) gid).scratch = writeBytes (getGang s gid).scratch off bs := by
  unfold scratchWrite
  dsimp only
  rw [foldl_part (fun s => (getGang s gid).scratch) fun s l => scratch_wakeScratch gid (l * 256) gid s, getGang_setGang]

/-- A wave's sync word is written after its instruction has retired, over the scratchpad that the instruction found. -/
theorem scratch_syncWrite_retired (e : Env) (u off : Nat) (w : Quad) (s : State) :
    (getGang (syncWrite e.gid off w (retirePlain e u s)) e.gid).scratch = writeBytes (getGang s e.gid).scratch off (bytesOfNat 16 w.toNat) := by
  rw [syncWrite, scratch_scratchWrite, retirePlain, getGang_retire]
  rfl

theorem syncRead_retirePlain (e : Env) (u off : Nat) (s : State) : syncRead (retirePlain e u s) e.gid off = syncRead s e.gid off := by
  rw [syncRead, retirePlain, getGang_retire]
  rfl

theorem memoryKept_syncWrite (gid off : Nat) (w : Quad) (s : State) : MemoryKept s (syncWrite gid off w s) := (calm_scratchWrite ..).memory

/-- Updates of words one after the other, each of the word as it then is. -/
def syncUpdates {α : Type} (gid : Nat) (off : α → Nat) (up : α → Quad → Quad) (l : List α) (s : State) : State :=
  l.foldl (fun s a => syncWrite gid (off a) (up a (syncRead s gid (off a))) s) s

section
variable {α : Type} (e : Env) (off : α → Nat) (up : α → Quad → Quad) (s : State)

theorem memoryKept_syncUpdates (l : List α) : MemoryKept s (syncUpdates e.gid off up l (retirePlain e 5 s)) :=
  (memoryKept_retirePlain e 5 s).trans (List.foldlRecOn (motive := MemoryKept (retirePlain e 5 s)) l _ (.refl _)
    fun _ ht _ _ => ht.trans (memoryKept_syncWrite ..))

/-- One word's update after the retirement, over what the instruction found. -/
theorem scratch_syncUpdates_one (a : α) : (getGang (syncUpdates e.gid off up [a] (retirePlain e 5 s)) e.gid).scratch =
    writeBytes (getGang s e.gid).scratch (off a) (bytesOfNat 16 (up a (syncRead s e.gid (off a))).toNat) := by
  rw [← syncRead_retirePlain e 5 (off a) s]
  exact scratch_syncWrite_retired ..

end

/-- A release that is performed leaves of the wave's gang what does not depend on the state of its fibres. -/
theorem gang_performedRelease {α : Type} {q : Gang → α} (hq : ∀ g fn, q (mapFibres g fn) = q g) {e : Env} {fids : List Nat} {sc : BitVec 2} {s : State}
    (hr : (release e fids sc s).1 = true) : q (getGang (release e fids sc s).2 e.gid) = q (getGang s e.gid) := by
  have hflush : ∀ c p, q (getGang (wcFlush c p s) e.gid) = q (getGang s e.gid) := fun c p =>
    congrArg q (wcFlush_part (p := (getGang · e.gid)) (fun _ _ _ _ _ _ => rfl) c p s)
  have hclean : ∀ c, q (getGang (releaseCaches c s) e.gid) = q (getGang s e.gid) := fun c =>
    congrArg q (releaseCaches_part (p := (getGang · e.gid)) (fun _ _ _ _ _ _ => rfl) c s)
  unfold release at hr ⊢
  dsimp only at hr ⊢
  split
  · rfl
  rw [if_neg ‹_›] at hr
  split
  · rw [if_pos ‹_›] at hr
    cases hr
  rw [if_neg ‹_›] at hr
  split
  · rfl
  split
  · exact hflush ..
  split
  · split
    · rw [getGang_setGang, hq]
    · rfl
  split
  · exact hclean ..
  · rw [getGang_setGang, hq]
    exact hclean ..

/-! ### The instructions (R336, R337) -/

/-- What O30 says of an instruction that has one executing fibre. -/
def SyncWritten (f : F5) (e : Env) (new : Fibre → Quad → Quad) (s : State) (r : Out) : Prop :=
  ∃ t, r = .next t ∧ MemoryKept s t ∧ ∀ fid, executing f.h e = [fid] →
    (getGang t e.gid).scratch = writeBytes e.g.scratch (shortAddr5 f (getFibre e.g fid))
      (bytesOfNat 16 (new (getFibre e.g fid) (syncRead s e.gid (shortAddr5 f (getFibre e.g fid)))).toNat)

/-- Updates of the words of the executing fibres by rising lane. -/
theorem syncWritten_updates {f : F5} {s : State} {e : Env} (he : envOf s = some e) (new : Fibre → Quad → Quad) :
    SyncWritten f e new s (.next (syncUpdates e.gid (fun fid => shortAddr5 f (getFibre e.g fid)) (fun fid => new (getFibre e.g fid))
      (sortBy lane (executing f.h e)) (retirePlain e 5 s))) := by
  refine ⟨_, rfl, memoryKept_syncUpdates .., fun fid hact => ?_⟩
  rw [hact, ← gang_of_envOf he]
  exact scratch_syncUpdates_one ..

/-- The words of the executing fibres can be used, and there is nothing to wait for. -/
structure SyncReady (f : F5) (s : State) (e : Env) (srcs : List Reg) : Prop where
  issues : Issues false s e
  plain : Plain f.h e
  regs : RegsOk e (executing f.h e) (srcs.map (fun r => (r.toNat, 1)))
  clean : SourcesClean f.h e (executing f.h e) (srcs.map (fun r => Src.reg r.toNat))
  word : ∀ fid ∈ executing f.h e, syncFaults e.g (shortAddr5 f (getFibre e.g fid)) = []
  acquired : acquiresDone s e.gid (executing f.h e) = true
  flushed : f.ord ≠ 0 → flushDone s e.g (slabOf e.core) (executing f.h e) = true

/-- The updates are made then. -/
theorem execSync_runs {f : F5} {s : State} {e : Env} {srcs : List Reg} (h : SyncReady f s e srcs) (go : Env → List Nat → State → Out) :
    execSync f (srcs.map (fun r => (r.toNat, 1))) (srcs.map (fun r => Src.reg r.toNat)) go s = go e (sortBy lane (executing f.h e)) s := by
  have hcauses : (executing f.h e).filterMap (fun fid => lowest fid (syncFaults e.g (shortAddr5 f (getFibre e.g fid)))) = [] :=
    List.filterMap_eq_nil_iff.mpr fun fid hf => by rw [h.word fid hf]; rfl
  have hready : (!acquiresDone s e.gid (executing f.h e) || (f.ord != 0 && !flushDone s e.g (slabOf e.core) (executing f.h e))) = false := by
    by_cases hord : f.ord = 0
    · simp [h.acquired, hord]
    · simp [h.acquired, h.flushed hord]
  rw [execSync, issue_runs h.issues, forbidInTxn_none h.plain.txn, regTraps_nil h.regs, orTrap_nil, poisonTraps_nil h.plain.clean h.clean, hcauses,
    List.append_nil, orTrap_nil, hready]
  rfl

section
variable {f : F5} {s : State} {e : Env}

theorem execSwinit_writes (h : SyncReady f s e [f.a, f.b, f.c]) :
    SyncWritten f e (fun x w => syncInit w ((readReg x f.b.toNat).1.truncate 16) (readReg x f.c.toNat).1) s (execSwinit f s) := by
  rw [show execSwinit f s = _ from execSync_runs h _]
  exact syncWritten_updates h.issues.env _

theorem execSwexpect_writes (h : SyncReady f s e [f.a, f.b]) :
    SyncWritten f e (fun x w => syncExpect w (readReg x f.b.toNat).1.toNat) s (execSwexpect f s) := by
  rw [show execSwexpect f s = _ from execSync_runs h _]
  exact syncWritten_updates h.issues.env _

end

/-- What a SWARRIVE does once its release is performed. -/
def arrived (f : F5) (e : Env) (act : List Nat) (s : State) : State :=
  let offs := act.map (fun fid => shortAddr5 f (getFibre e.g fid))
  let s1 := syncUpdates e.gid id (fun off w => syncArrive w (offs.count off)) (noteLines offs []) (retirePlain e 5 s)
  if f.ord.getLsbD 0 ∧ f.sc ≠ 0 ∧ !act.isEmpty then acquireEffect e.core 1 s1 else s1

theorem memoryKept_arrived (f : F5) (e : Env) (act : List Nat) (s : State) : MemoryKept s (arrived f e act s) := by
  unfold arrived
  dsimp only
  split
  · exact (memoryKept_syncUpdates ..).trans (calm_acquireEffect ..).memory
  · exact memoryKept_syncUpdates ..

/-- One arrival at one word. -/
theorem scratch_arrived_one (f : F5) (e : Env) (fid : Nat) (s : State) : (getGang (arrived f e [fid] s) e.gid).scratch =
    writeBytes (getGang s e.gid).scratch (shortAddr5 f (getFibre e.g fid))
      (bytesOfNat 16 (syncArrive (syncRead s e.gid (shortAddr5 f (getFibre e.g fid))) 1).toNat) := by
  have hone : noteLines ([fid].map (fun fid => shortAddr5 f (getFibre e.g fid))) [] = [shortAddr5 f (getFibre e.g fid)] := rfl
  have hcount : ([fid].map (fun fid => shortAddr5 f (getFibre e.g fid))).count (shortAddr5 f (getFibre e.g fid)) = 1 := List.count_singleton_self ..
  have hupdate := scratch_syncUpdates_one e id (fun off w => syncArrive w (([fid].map (fun fid => shortAddr5 f (getFibre e.g fid))).count off)) s
    (shortAddr5 f (getFibre e.g fid))
  rw [id, hcount] at hupdate
  unfold arrived
  dsimp only
  rw [hone]
  split
  · rw [acquireEffect_part (p := (getGang · e.gid)) fun _ _ _ _ _ _ => rfl]
    exact hupdate
  · exact hupdate

/-- SWARRIVE after its release. -/
theorem syncWritten_arrived {f : F5} {s : State} {e : Env} (he : envOf s = some e)
    (hrel : f.ord.getLsbD 1 = true → (scratchRelease e (sortBy lane (executing f.h e)) f.sc s).1 = true) :
    SyncWritten f e (fun _ w => syncArrive w 1) s
      (let r := if f.ord.getLsbD 1 then scratchRelease e (sortBy lane (executing f.h e)) f.sc s else (true, s)
       if !r.1 then .next r.2 else .next (arrived f e (sortBy lane (executing f.h e)) r.2)) := by
  have hr : (if f.ord.getLsbD 1 then scratchRelease e (sortBy lane (executing f.h e)) f.sc s else (true, s)).1 = true := by
    split
    · exact hrel ‹_›
    · rfl
  have hscratch : (getGang (if f.ord.getLsbD 1 then scratchRelease e (sortBy lane (executing f.h e)) f.sc s else (true, s)).2 e.gid).scratch =
      (getGang s e.gid).scratch := by
    split
    · exact gang_performedRelease (q := Gang.scratch) (fun _ _ => rfl) (hrel ‹_›)
    · rfl
  have hmem : MemoryKept s (if f.ord.getLsbD 1 then scratchRelease e (sortBy lane (executing f.h e)) f.sc s else (true, s)).2 := by
    split
    · exact (steady_release ..).memory
    · exact .refl s
  dsimp only
  rw [hr]
  generalize (if f.ord.getLsbD 1 then scratchRelease e (sortBy lane (executing f.h e)) f.sc s else (true, s)).2 = u at hscratch hmem
  refine ⟨_, rfl, hmem.trans (memoryKept_arrived ..), fun fid hact => ?_⟩
  rw [hact, ← gang_of_envOf he]
  refine (scratch_arrived_one f e fid u).trans ?_
  rw [syncRead, hscratch, ← gang_of_envOf he]
  rfl

theorem execSwarrive_writes {f : F5} {s : State} {e : Env} (h : SyncReady f s e [f.a])
    (hrel : f.ord.getLsbD 1 = true → (scratchRelease e (sortBy lane (executing f.h e)) f.sc s).1 = true) :
    SyncWritten f e (fun _ w => syncArrive w 1) s (execSwarrive f s) := by
  rw [show execSwarrive f s = _ from execSync_runs h _]
  exact syncWritten_arrived h.issues.env hrel

/-- Settles O30: SWINIT and SWEXPECT update the words of their lanes in turn, SWARRIVE each distinct word once its release is performed. -/
theorem syncInstructionsComplete : Obligations.SyncInstructionsComplete := by
  unfold Obligations.SyncInstructionsComplete
  refine ⟨fun f s e hi hp hregs hclean hword hacq hflush _ => ?_, fun f s e hi hp hregs hclean hword hacq hflush _ => ?_,
    fun f s e hi hp hregs hclean hword hacq hflush hrel => ?_⟩
  · exact execSwinit_writes ⟨hi, hp, hregs, hclean, hword, hacq, hflush⟩
  · exact execSwexpect_writes ⟨hi, hp, hregs, hclean, hword, hacq, hflush⟩
  · exact execSwarrive_writes ⟨hi, hp, hregs, hclean, hword, hacq, hflush⟩ hrel

end Sys2Proof.Machine
end

section
/-! PROOF. Levels of a transaction (R146, R147, R156, R334, R335): TBEGIN starts one or opens a level, TORELSE opens one with an alternative; O26. -/
namespace Sys2Proof.Machine

/-! ### The transaction in its slot -/

@[simp] theorem getSlot_setTxn (key : Nat) (t : Txn) (s : State) : getSlot (setTxn key t s) key = { getSlot s key with txn := some t } :=
  getSlot_setSlot ..

theorem memoryKept_setTxn (key : Nat) (t : Txn) (s : State) : MemoryKept s (setTxn key t s) := ⟨rfl, rfl, rfl⟩

/-! ### Opening (R147, R334) -/

section
variable (e : Env) (s : State)

/-- A transaction that starts has its first level, and holds nothing. -/
theorem startTxn_starts (act : List Nat) (target : W64) : ∃ t, startTxn e act target s = .next t ∧ MemoryKept s t ∧
    ∃ tx, (getSlot t e.key).txn = some tx ∧ tx.beginPc = e.pc ∧ tx.abortPc = target ∧ tx.levels.length = 1 ∧ tx.reads = [] ∧
      tx.writes = TxnWrites.empty ∧ tx.held = without e.fids act ∧ tx.active = act :=
  ⟨_, rfl, (memoryKept_retirePlain e 5 s).trans (memoryKept_setTxn ..), _, congrArg Slot.txn (getSlot_setTxn ..), rfl, rfl, rfl, rfl, rfl, rfl, rfl⟩

/-- A level opens up to the fourth, with the writes so far as its checkpoint; a fifth aborts with NEST. -/
theorem openLevel_opens (tx : Txn) (alt : Option W64) :
    (tx.levels.length < 4 → ∃ t, openLevel e tx alt s = .next t ∧ ∃ l, (getSlot t e.key).txn = some { tx with levels := l :: tx.levels } ∧
      l.alt = alt ∧ l.taken = false ∧ l.checkpoint = tx.writes) ∧
    (4 ≤ tx.levels.length → openLevel e tx alt s = .next (abortTxn e.core e.key e.gid 5 0 s)) := by
  refine ⟨fun h => ⟨_, if_neg (Nat.not_le.mpr h), _, congrArg Slot.txn (getSlot_setTxn ..), rfl, rfl, rfl⟩, fun h => if_pos h⟩

end

section
variable {f : F5} {s : State} {e : Env} (hi : Issues true s e)
include hi

/-- TBEGIN with a good label. -/
theorem execTbegin_runs (hg : GuardsClean f.h (closedEnv e)) (hact : executing f.h (closedEnv e) ≠ [])
    (hlabel : GoodTarget (closedState e s) e (target5 e.pc f)) :
    execTbegin f s =
      let seen := targetsSeen e (executing f.h (closedEnv e)) (fun _ => target5 e.pc f) (closedState e s)
      match e.sl.txn with
      | none => startTxn (closedEnv e) (executing f.h (closedEnv e)) (target5 e.pc f) seen
      | some t => openLevel (closedEnv e) t none seen := by
  have hempty : (executing f.h (closedEnv e)).isEmpty = false := by simpa using hact
  have htrap : targetTrap (closedState e s) (closedEnv e).g.ctx (target5 (closedEnv e).pc f) = none := hlabel.1
  rw [execTbegin, issue_waits hi]
  simp only [hempty, htrap, guardPoison_nil hg, Bool.false_eq_true, if_false, List.append_nil, orTrap_nil]
  exact needTargets_good (e := closedEnv e) fun _ _ => hlabel.2

/-- TORELSE of a transaction whose running path holds every pinned fibre. -/
theorem execTorelse_runs {tx : Txn} (ht : e.sl.txn = some tx) (hall : e.fids.length = (pinned e.sl tx).length)
    (hlabel : GoodTarget (closedState e s) e (target5 e.pc f)) : execTorelse f s =
      openLevel (closedEnv e) tx (some (target5 e.pc f)) (targetsSeen e e.fids (fun _ => target5 e.pc f) (closedState e s)) := by
  have ht' : (closedEnv e).sl.txn = some tx := ht
  have hlen : ¬ (closedEnv e).fids.length < (pinned (closedEnv e).sl tx).length := Nat.not_lt.mpr (Nat.le_of_eq hall.symm)
  have htrap : targetTrap (closedState e s) (closedEnv e).g.ctx (target5 (closedEnv e).pc f) = none := hlabel.1
  rw [execTorelse, issue_waits hi]
  rw [ht']
  dsimp only
  rw [if_neg hlen, htrap]
  exact needTargets_good (e := closedEnv e) fun _ _ => hlabel.2

end

/-- Settles O26: with a good label TBEGIN starts a transaction or opens a level, and TORELSE opens one with its alternative. -/
theorem transactionsOpen : Obligations.TransactionsOpen := by
  unfold Obligations.TransactionsOpen
  refine ⟨fun f s e hi hp hact hlabel => ?_, fun f s e tx hi hg ht hact hlabel => ?_, fun f s e tx hi ht hall hlabel => ?_⟩
  · have hrun := execTbegin_runs hi hp.clean hact hlabel
    rw [show e.sl.txn = none from hp.txn] at hrun
    rw [show exec (.tbegin f) s = _ from hrun]
    exact startTxn_starts ..
  · have hrun := execTbegin_runs hi hg hact hlabel
    rw [ht] at hrun
    rw [show exec (.tbegin f) s = _ from hrun]
    exact openLevel_opens ..
  · rw [show exec (.torelse f) s = _ from execTorelse_runs hi ht hall hlabel]
    exact openLevel_opens ..

end Sys2Proof.Machine
end

section
/-! PROOF. A sleeping wave whose line is written wakes (R158, R159): its clause of O27. -/
namespace Sys2Proof.Machine

/-! ### One wave that wakes -/

section
variable {s : State} {k : Nat}

/-- Its entry goes; the other entries, and no new ones, stand. -/
theorem sleepers_wakeSleeper (k : Nat) (s : State) : ∀ q ∈ (wakeSleeper k s).sleepers, q ∈ s.sleepers :=
  (calm_wakeSleeper k s).sleepers

theorem kget?_wakeSleeper_ne {j : Nat} (h : j ≠ k) : kget? (wakeSleeper k s).sleepers j = kget? s.sleepers j := by
  unfold wakeSleeper
  split
  · rfl
  · exact (kget?_kdel_ne _ h).trans (by split <;> rfl)

theorem wakes_wakeSleeper (k : Nat) (s : State) : ∀ w ∈ (wakeSleeper k s).wakes, w ∈ s.wakes := by
  intro w hw
  unfold wakeSleeper at hw
  split at hw
  · exact hw
  · have hw' := List.mem_of_mem_filter hw
    split at hw' <;> exact hw'

/-- A gang with no wave of that number keeps its fibres. -/
theorem kget?_gangs_wakeSleeper {g : Nat} (h : ∀ p, kget? s.sleepers k = some p → p.gang ≠ g) :
    kget? (wakeSleeper k s).gangs g = kget? s.gangs g := by
  unfold wakeSleeper
  split
  · rfl
  next p hp =>
    dsimp only
    split
    · exact kget?_kset_ne _ _ _ _ (h p hp).symm
    · rfl

theorem getGang_of_same_entry {s t : State} {g : Nat} (h : kget? t.gangs g = kget? s.gangs g) : getGang t g = getGang s g := by
  rw [getGang, kget, h]
  rfl

/-- The wave itself: no entry and no registration is left, and its fibres stand at the outermost TBEGIN with cause WOKEN. -/
theorem wakeSleeper_wakes {p : Sleeper} (hp : kget? s.sleepers k = some p) (hg : (kget? s.gangs p.gang).isSome = true) :
    kget? (wakeSleeper k s).sleepers k = none ∧ (∀ w ∈ (wakeSleeper k s).wakes, w.who ≠ .wave k) ∧
      (∀ q ∈ (wakeSleeper k s).sleepers, q.1 ≠ k) ∧
      ∀ fid ∈ p.fids, (kget? (getGang s p.gang).fibres fid).isSome = true →
        (fibreAt (wakeSleeper k s) p.gang fid).pc = p.beginPc ∧ (fibreAt (wakeSleeper k s) p.gang fid).txstatus = txWord 0 p.coarse 0 12 := by
  obtain ⟨g, hg⟩ := Option.isSome_iff_exists.mp hg
  have hget : getGang s p.gang = g := getGang_of_kget? hg
  unfold wakeSleeper
  rw [hp]
  dsimp only
  rw [hg]
  dsimp only
  refine ⟨kget?_kdel_same .., fun w hw hwho => ?_, fun q hq => ?_, fun fid hf hl => ?_⟩
  · have := (List.mem_filter.mp hw).2
    rw [hwho] at this
    simp at this
  · simpa using (List.mem_filter.mp hq).2
  · have hfibre := getFibre_mapFibres g (fun fid f => if p.fids.contains fid then
      { f with pc := p.beginPc, txstatus := txWord 0 p.coarse 0 12 } else f) fid (hget ▸ hl)
    rw [if_pos (List.contains_iff_mem.mpr hf)] at hfibre
    have hstate : ∀ v c w m, fibreAt { setCore (setGang s p.gang v) p.core c with sleepers := m, wakes := w } p.gang fid = getFibre v fid :=
      fun v c w m => congrArg (getFibre · fid) (getGang_setGang s p.gang v)
    rw [hstate, hfibre]
    exact ⟨rfl, rfl⟩

end

/-! ### Many that wake -/

/-- A wave sleeps, alone of its gang, and some of the gang's fibres live. -/
structure SleepsAlone (sid : Nat) (p : Sleeper) (live : Nat → Prop) (s : State) : Prop where
  entry : kget? s.sleepers sid = some p
  gang : (kget? s.gangs p.gang).isSome = true
  alone : ∀ q ∈ s.sleepers, q.1 ≠ sid → q.2.gang ≠ p.gang
  live : ∀ fid, live fid → (kget? (getGang s p.gang).fibres fid).isSome = true

/-- The wave is awake, and no other of its gang sleeps. -/
structure Awake (sid : Nat) (p : Sleeper) (live : Nat → Prop) (s : State) : Prop where
  entry : kget? s.sleepers sid = none
  wakes : ∀ w ∈ s.wakes, w.who ≠ .wave sid
  alone : ∀ q ∈ s.sleepers, q.2.gang ≠ p.gang
  fibres : ∀ fid ∈ p.fids, live fid → (fibreAt s p.gang fid).pc = p.beginPc ∧ (fibreAt s p.gang fid).txstatus = txWord 0 p.coarse 0 12

section
variable {sid k : Nat} {p : Sleeper} {live : Nat → Prop} {s : State}

theorem SleepsAlone.wakes (h : SleepsAlone sid p live s) : Awake sid p live (wakeSleeper sid s) := by
  obtain ⟨hentry, hwakes, hgone, hfibres⟩ := wakeSleeper_wakes h.entry h.gang
  exact ⟨hentry, hwakes, fun q hq => h.alone q (sleepers_wakeSleeper sid s q hq) (hgone q hq), fun fid hf hl => hfibres fid hf (h.live fid hl)⟩

theorem SleepsAlone.other (h : SleepsAlone sid p live s) (hk : k ≠ sid) : SleepsAlone sid p live (wakeSleeper k s) := by
  have hgang := kget?_gangs_wakeSleeper (k := k) fun q hq => h.alone (k, q) (kget?_mem hq) hk
  exact ⟨(kget?_wakeSleeper_ne hk.symm).trans h.entry, hgang ▸ h.gang, fun q hq => h.alone q (sleepers_wakeSleeper k s q hq),
    fun fid hl => getGang_of_same_entry hgang ▸ h.live fid hl⟩

theorem Awake.other (h : Awake sid p live s) (k : Nat) : Awake sid p live (wakeSleeper k s) := by
  have hgang := getGang_of_same_entry (kget?_gangs_wakeSleeper (k := k) fun q hq => h.alone (k, q) (kget?_mem hq))
  refine ⟨?_, fun w hw => h.wakes w (wakes_wakeSleeper k s w hw), fun q hq => h.alone q (sleepers_wakeSleeper k s q hq), fun fid hf hl => ?_⟩
  · by_cases hk : k = sid
    · subst hk
      rw [wakeSleeper, h.entry]
      exact h.entry
    · exact (kget?_wakeSleeper_ne (Ne.symm hk)).trans h.entry
  · rw [fibreAt, hgang]
    exact h.fibres fid hf hl

theorem wakeAll_cons (w : WakeReg) (ws : List WakeReg) (s : State) : wakeAll (w :: ws) s = wakeAll ws (wakeAll [w] s) := rfl

theorem Awake.wakeAll (h : Awake sid p live s) (ws : List WakeReg) : Awake sid p live (wakeAll ws s) := by
  induction ws generalizing s with
  | nil => exact h
  | cons w ws ih =>
    rw [wakeAll_cons]
    refine ih ?_
    unfold Machine.wakeAll
    rw [List.foldl_cons, List.foldl_nil]
    split
    · exact h.other _
    · exact ⟨h.entry, h.wakes, h.alone, h.fibres⟩

/-- A wave that one of the registrations names is awake after them all. -/
theorem SleepsAlone.wakeAll (h : SleepsAlone sid p live s) {ws : List WakeReg} (hw : ∃ w ∈ ws, w.who = .wave sid) :
    Awake sid p live (wakeAll ws s) := by
  induction ws generalizing s with
  | nil =>
    obtain ⟨w, hw, -⟩ := hw
    cases hw
  | cons w ws ih =>
    rw [wakeAll_cons]
    have hone : Machine.wakeAll [w] s = match w.who with
      | .wave k => wakeSleeper k s
      | .queue q => { s with queues := kmod s.queues q Queue.init (fun x => { x with signalled := x.signalled + 1 }) } := rfl
    by_cases hwho : w.who = .wave sid
    · rw [hone, hwho]
      exact h.wakes.wakeAll ws
    · have hrest : ∃ w ∈ ws, w.who = .wave sid := by
        obtain ⟨v, hv, hvs⟩ := hw
        rcases List.mem_cons.mp hv with rfl | hv
        · exact absurd hvs hwho
        · exact ⟨v, hv, hvs⟩
      refine ih ?_ hrest
      rw [hone]
      split
      next k hk => exact h.other fun hks => hwho (hks ▸ hk)
      next => exact ⟨h.entry, h.gang, h.alone, h.live⟩

end

/-- A write of a line wakes the wave that is registered on it. -/
theorem wakeLine_wakes {s : State} {sid home line : Nat} {p : Sleeper} {live : Nat → Prop} (h : SleepsAlone sid p live s)
    (hw : ∃ w ∈ s.wakes, w.who = .wave sid ∧ w.place = .home home ∧ (w.line = none ∨ w.line = some line)) :
    Awake sid p live (wakeLine home line s) := by
  obtain ⟨w, hmem, hwho, hplace, hline⟩ := hw
  refine h.wakeAll ⟨w, List.mem_filter.mpr ⟨hmem, ?_⟩, hwho⟩
  rcases hline with hline | hline <;> simp [hplace, hline]

end Sys2Proof.Machine
end

section
/-! PROOF. TABORT and the retries (R153, R156 to R160, R335): an alternative, a retry that begins again at once, and a wave that falls asleep with every line of
its read set registered. -/
namespace Sys2Proof.Machine

/-! ### The noted issue -/

section
variable (e : Env) (u : Nat) (s : State)

@[simp] theorem getSlot_noteIssue : getSlot (noteIssue e u s) e.key = issuedSlot s e := by rw [noteIssue_eq, getSlot, kget_kset_same]

theorem memoryKept_noteIssue : MemoryKept s (noteIssue e u s) := ⟨rfl, rfl, rfl⟩

/-- The wave's slot still holds its transaction. -/
theorem txn_noteIssue {t : Txn} (ht : (getSlot s e.key).txn = some t) : (getSlot (noteIssue e u s) e.key).txn = some t := by
  rw [getSlot_noteIssue]
  exact ht

theorem pinned_noteIssue (t : Txn) : pinned (getSlot (noteIssue e u s) e.key) t = pinned (getSlot s e.key) t := by
  rw [getSlot_noteIssue]
  rfl

end

/-! ### An alternative that is taken (R156) -/

/-- The state of a wave that a retry sends to an alternative. -/
def alternativeTaken (e : Env) (t : Txn) (l : TxnLevel) (ls : List TxnLevel) (s : State) : State :=
  let ps := pinned e.sl t
  setTxn e.key { t with levels := { l with taken := true } :: ls, writes := l.checkpoint, active := ps, arrived := [], sets := [] }
    (setGang (noteIssue e 5 s) e.gid (leaveTxnSets ps t (mapFibres (getGang s e.gid) (fun fid f => if ps.contains fid then
      bumpProgress { f with pc := l.alt.getD f.pc, joins := without f.joins t.sets } else f))))

section
variable {e : Env} {t : Txn} {s : State}

theorem retry_alternative {l : TxnLevel} {ls : List TxnLevel} (h : dropToAlternative t.levels = l :: ls) (limit : Option Nat) :
    retry e t limit s = .next (alternativeTaken e t l ls s) := by
  unfold retry
  rw [h]
  rfl

theorem fibreAt_alternativeTaken (l : TxnLevel) (ls : List TxnLevel) {fid : Nat} (hf : fid ∈ pinned e.sl t)
    (hl : (kget? (getGang s e.gid).fibres fid).isSome = true) : (fibreAt (alternativeTaken e t l ls s) e.gid fid).pc =
      l.alt.getD (fibreAt s e.gid fid).pc := by
  have hfibre := getFibre_mapFibres (getGang s e.gid) (fun fid f => if (pinned e.sl t).contains fid then
    bumpProgress { f with pc := l.alt.getD f.pc, joins := without f.joins t.sets } else f) fid hl
  rw [if_pos (List.contains_iff_mem.mpr hf)] at hfibre
  rw [alternativeTaken, setTxn, fibreAt, getGang_setSlot, getGang_setGang]
  exact (congrArg Fibre.pc hfibre).trans rfl

/-- A retry with an untaken alternative restores its checkpoint and goes to it. -/
theorem retry_takes {l : TxnLevel} {ls : List TxnLevel} (h : dropToAlternative t.levels = l :: ls) (limit : Option Nat) :
    ∃ u, retry e t limit s = .next u ∧ MemoryKept s u ∧
      (∃ t', (getSlot u e.key).txn = some t' ∧ t'.writes = l.checkpoint ∧ t'.levels = { l with taken := true } :: ls ∧ t'.reads = t.reads) ∧
      ∀ fid ∈ pinned e.sl t, (kget? (getGang s e.gid).fibres fid).isSome = true → ∀ a, l.alt = some a → (fibreAt u e.gid fid).pc = a := by
  refine ⟨_, retry_alternative h limit, ⟨rfl, rfl, rfl⟩, ⟨_, congrArg Slot.txn (getSlot_setTxn ..), rfl, rfl, rfl⟩, fun fid hf hl a ha => ?_⟩
  rw [fibreAt_alternativeTaken l ls hf hl, ha]
  rfl

end

/-! ### Registrations (R157, R159) -/

/-- The table that a line of a read set is registered in. -/
def readPlace (cluster : Nat) (r : TxnRead) : Place := if r.scratch then .cluster cluster else .home (homeOf (r.line * 256))

/-- That table has no entry left for the line. -/
def tableFull (cluster : Nat) (r : TxnRead) (s : State) : Bool :=
  decide ((if r.scratch then 256 else 1024) ≤ (s.wakes.filter (fun w => w.place == readPlace cluster r && w.line.isSome)).length)

def registration (cluster gid sid : Nat) (r : TxnRead) (s : State) : WakeReg :=
  { place := readPlace cluster r, line := if tableFull cluster r s then none else some r.line, bank := r.line % 16, gang := gid, who := .wave sid }

/-- One line is registered. -/
def withRegistration (cluster gid sid : Nat) (r : TxnRead) (s : State) : State :=
  let s1 := { s with wakes := s.wakes ++ [registration cluster gid sid r s] }
  if tableFull cluster r s then perfEvent (getGang s gid).core 7 1 s1 else s1

section
variable {cluster gid sid : Nat} {rs : List TxnRead} {s : State} {co : Bool}

theorem registerReads_cons (r : TxnRead) : registerReads cluster gid sid (r :: rs) s co =
    registerReads cluster gid sid rs (withRegistration cluster gid sid r s) (co || tableFull cluster r s) := rfl

theorem wakes_withRegistration (r : TxnRead) :
    (withRegistration cluster gid sid r s).wakes = s.wakes ++ [registration cluster gid sid r s] := by
  unfold withRegistration
  dsimp only
  split <;> rfl

/-- Registrations grow the wake table, and may count an event of a core. -/
theorem registerReads_part {α : Type} {p : State → α} (hw : ∀ s w, p { s with wakes := w } = p s) (hc : ∀ s c v, p (setCore s c v) = p s) :
    p (registerReads cluster gid sid rs s co).1 = p s := by
  induction rs generalizing s co with
  | nil => rfl
  | cons r rs ih =>
    have hone : p (withRegistration cluster gid sid r s) = p s := by
      unfold withRegistration
      dsimp only
      split
      · exact (hc ..).trans (hw ..)
      · exact hw ..
    rw [registerReads_cons, ih, hone]

theorem registerReads_wakes {w : WakeReg} (h : w ∈ s.wakes) : w ∈ (registerReads cluster gid sid rs s co).1.wakes := by
  induction rs generalizing s co with
  | nil => exact h
  | cons r rs ih =>
    rw [registerReads_cons]
    refine ih ?_
    rw [wakes_withRegistration]
    exact List.mem_append_left _ h

theorem registerReads_coarse (h : co = true) : (registerReads cluster gid sid rs s co).2 = true := by
  induction rs generalizing s co with
  | nil => exact h
  | cons r rs ih =>
    rw [registerReads_cons]
    exact ih (by rw [h, Bool.true_or])

/-- Every line of the read set is registered, by its number or coarsely. -/
theorem registerReads_all : ∀ r ∈ rs, ∃ w ∈ (registerReads cluster gid sid rs s co).1.wakes, w.who = .wave sid ∧ w.place = readPlace cluster r ∧
    (w.line = some r.line ∨ (w.line = none ∧ (registerReads cluster gid sid rs s co).2 = true)) := by
  induction rs generalizing s co with
  | nil => exact fun r hr => absurd hr List.not_mem_nil
  | cons r rs ih =>
    rw [registerReads_cons]
    refine List.forall_mem_cons.mpr ⟨?_, ih⟩
    have hmem : registration cluster gid sid r s ∈ (withRegistration cluster gid sid r s).wakes := by
      rw [wakes_withRegistration]
      exact List.mem_append_right _ (List.mem_singleton_self _)
    refine ⟨_, registerReads_wakes hmem, rfl, rfl, ?_⟩
    cases hfull : tableFull cluster r s with
    | true => exact .inr ⟨by rw [registration, hfull]; rfl, registerReads_coarse (Bool.or_true co)⟩
    | false => exact .inl (by rw [registration, hfull]; rfl)

end

/-! ### A final retry (R157 to R160) -/

/-- The wave falls asleep: `s` is the machine in which its issue has been noted. -/
def fellAsleep (e : Env) (t : Txn) (limit : Option Nat) (s : State) : State :=
  let r := registerReads (clusterOf e.core) e.gid s.ids t.reads { s with ids := s.ids + 1 } false
  let u := toTable e.core e.gid (pinned e.sl t) (.asleep s.ids) (leaveSlot e.key (pinned e.sl t) (closeTxn e.core e.key e.gid (some t.beginPc) none r.1))
  { u with sleepers := kset u.sleepers s.ids { core := e.core, gang := e.gid, fids := pinned e.sl t, beginPc := t.beginPc, abortPc := t.abortPc,
                                               reads := t.reads, limit := limit.map (· + now s), start := now s, coarse := r.2, levels := t.levels.length } }

section
variable {e : Env} {t : Txn} {s : State} (limit : Option Nat) (hlast : dropToAlternative t.levels = [])
include hlast

theorem retry_final : retry e t limit s = finalRetry e t limit s := by
  unfold retry
  rw [hlast]

/-- The retry of an empty read set aborts. -/
theorem retry_empty (hr : t.reads = []) : retry e t limit s = .next (abortTxn e.core e.key e.gid 13 0 (noteIssue e 5 s)) := by
  rw [retry_final limit hlast, finalRetry, hr]
  rfl

section
variable (hr : t.reads ≠ []) (hserved : validationServed (noteIssue e 5 s) (slabOf e.core) t = true)
include hr hserved

/-- A version has changed, or the home of a line is fenced: the transaction begins again at once. -/
theorem retry_again (h : validates (noteIssue e 5 s) e.gid t = false ∨ readsFenced (noteIssue e 5 s) t = true) :
    retry e t limit s =
      .next (closeTxn e.core e.key e.gid (some t.beginPc) (some (fun _ => txWord 0 false 0 12)) (noteIssue e 5 s)) := by
  have hreads : t.reads.isEmpty = false := by simpa using hr
  have hagain : (!validates (noteIssue e 5 s) e.gid t || readsFenced (noteIssue e 5 s) t) = true := by
    rcases h with h | h <;> simp [h]
  rw [retry_final limit hlast, finalRetry]
  dsimp only
  rw [hreads, hserved, hagain]
  rfl

theorem retry_sleeps (hv : validates (noteIssue e 5 s) e.gid t = true) (hf : readsFenced (noteIssue e 5 s) t = false) :
    retry e t limit s = .next (fellAsleep e t limit (noteIssue e 5 s)) := by
  have hreads : t.reads.isEmpty = false := by simpa using hr
  rw [retry_final limit hlast, finalRetry]
  dsimp only
  rw [hreads, hserved, hv, hf]
  rfl

end

end

section
variable {e : Env} {t : Txn} {s : State} (ht : (getSlot s e.key).txn = some t)
include ht

/-- The wave whose transaction begins again, or sleeps until it does. -/
theorem fibreAt_closeTxn_begin (st : Option (Word → Word)) {fid : Nat} (hf : fid ∈ pinned (getSlot s e.key) t)
    (hl : (kget? (getGang s e.gid).fibres fid).isSome = true) :
    (fibreAt (closeTxn e.core e.key e.gid (some t.beginPc) st s) e.gid fid).pc = t.beginPc := by
  rw [fibreAt_closeTxn ht hf hl]
  rfl

end

section
variable {e : Env} {t : Txn} {s : State} {limit : Option Nat}

theorem fellAsleep_part {α : Type} {p : State → α} (hg : ∀ s g v, p (setGang s g v) = p s) (hs : ∀ s k v, p (setSlot s k v) = p s)
    (hc : ∀ s c v, p (setCore s c v) = p s) (hw : ∀ s w, p { s with wakes := w } = p s) (hi : ∀ s i, p { s with ids := i } = p s)
    (hz : ∀ s z, p { s with sleepers := z } = p s) : p (fellAsleep e t limit s) = p s := by
  unfold fellAsleep
  dsimp only
  rw [hz, toTable_part p hc, leaveSlot, hs, closeTxn_part hg hs hc, registerReads_part hw hc, hi]

theorem memoryKept_fellAsleep : MemoryKept s (fellAsleep e t limit s) :=
  ⟨fellAsleep_part (p := State.mem) (fun _ _ _ => rfl) (fun _ _ _ => rfl) (fun _ _ _ => rfl) (fun _ _ => rfl) (fun _ _ => rfl) (fun _ _ => rfl),
    fellAsleep_part (p := State.hostMem) (fun _ _ _ => rfl) (fun _ _ _ => rfl) (fun _ _ _ => rfl) (fun _ _ => rfl) (fun _ _ => rfl) (fun _ _ => rfl),
    fellAsleep_part (p := State.peerMem) (fun _ _ _ => rfl) (fun _ _ _ => rfl) (fun _ _ _ => rfl) (fun _ _ => rfl) (fun _ _ => rfl) (fun _ _ => rfl)⟩

/-- The machine once the read set is registered. -/
theorem getSlot_registered (k : Nat) : getSlot (registerReads (clusterOf e.core) e.gid s.ids t.reads { s with ids := s.ids + 1 } false).1 k =
    getSlot s k :=
  registerReads_part (p := (getSlot · k)) (fun _ _ => rfl) (fun _ _ _ => rfl)

theorem getGang_registered (g : Nat) : getGang (registerReads (clusterOf e.core) e.gid s.ids t.reads { s with ids := s.ids + 1 } false).1 g =
    getGang s g :=
  registerReads_part (p := (getGang · g)) (fun _ _ => rfl) (fun _ _ _ => rfl)

/-- Its entry, and every line of its read set registered. -/
theorem fellAsleep_registers : ∃ p, kget? (fellAsleep e t limit s).sleepers s.ids = some p ∧ p.gang = e.gid ∧ p.fids = pinned e.sl t ∧
    p.beginPc = t.beginPc ∧ p.abortPc = t.abortPc ∧ p.reads = t.reads ∧ p.limit = limit.map (· + now s) ∧
    ∀ r ∈ t.reads, ∃ w ∈ (fellAsleep e t limit s).wakes, w.who = .wave s.ids ∧
      w.place = (if r.scratch then .cluster (clusterOf e.core) else .home (homeOf (r.line * 256))) ∧
      (w.line = some r.line ∨ (w.line = none ∧ p.coarse = true)) := by
  refine ⟨_, kget?_kset_same .., rfl, rfl, rfl, rfl, rfl, rfl, fun r hr => ?_⟩
  have hwakes : (fellAsleep e t limit s).wakes = (registerReads (clusterOf e.core) e.gid s.ids t.reads { s with ids := s.ids + 1 } false).1.wakes := by
    unfold fellAsleep
    dsimp only
    rw [toTable_part State.wakes (fun _ _ _ => rfl), leaveSlot, setSlot_wakes,
      closeTxn_part (p := State.wakes) (fun _ _ _ => rfl) (fun _ _ _ => rfl) (fun _ _ _ => rfl)]
  rw [hwakes]
  exact registerReads_all r hr

/-- Its fibres wait in the table of their core. -/
theorem fellAsleep_table (hne : pinned e.sl t ≠ []) :
    ∃ b ∈ (getCore (fellAsleep e t limit s) e.core).table, b.gang = e.gid ∧ b.fids = pinned e.sl t ∧ b.wait = .asleep s.ids :=
  mem_toTable _ _ hne

variable (ht : (getSlot s e.key).txn = some t)
include ht

/-- Its slot and its fibres. -/
theorem getSlot_fellAsleep : getSlot (fellAsleep e t limit s) e.key =
    { getSlot s e.key with fids := without (pinned (getSlot s e.key) t) (pinned e.sl t), txn := none } := by
  have hslot := getSlot_registered (e := e) (t := t) (s := s) e.key
  unfold fellAsleep
  dsimp only
  refine (toTable_part (getSlot · e.key) (fun _ _ _ => rfl) ..).trans ?_
  rw [leaveSlot, getSlot_setSlot, getSlot_closeTxn (hslot ▸ ht), hslot]

theorem fibreAt_fellAsleep {fid : Nat} (hf : fid ∈ pinned (getSlot s e.key) t) (hl : (kget? (getGang s e.gid).fibres fid).isSome = true) :
    (fibreAt (fellAsleep e t limit s) e.gid fid).pc = t.beginPc := by
  have hslot := getSlot_registered (e := e) (t := t) (s := s) e.key
  have hgang := getGang_registered (e := e) (t := t) (s := s) e.gid
  refine Eq.trans ?_ (fibreAt_closeTxn_begin (hslot ▸ ht) none (hslot ▸ hf) (hgang ▸ hl))
  unfold fellAsleep
  exact congrArg Fibre.pc (toTable_part (fibreAt · e.gid fid) (fun _ _ _ => rfl) ..)

end

end Sys2Proof.Machine
end

section
/-! PROOF. The commit at the outermost TEND (R151, R152): the writes leave for their homes together, and the transaction is closed. -/
namespace Sys2Proof.Machine

/-! ### Writes in a slice (R105) -/

/-- The writes that a slice holds stand there still. -/
def InqKept (slab : Nat) (s t : State) : Prop := ∀ m ∈ (getSlab s slab).inq, m ∈ (getSlab t slab).inq

section
variable {slab : Nat} {s t u : State}

theorem InqKept.of_slabs (h : t.slabs = s.slabs) : InqKept slab s t := fun m hm => by
  rw [getSlab, h]
  exact hm

theorem InqKept.trans (h : InqKept slab s t) (h' : InqKept slab t u) : InqKept slab s u := fun m hm => h' m (h m hm)

theorem InqKept.foldl {α : Type} {f : State → α → State} (h : ∀ s a, InqKept slab s (f s a)) (l : List α) (s : State) : InqKept slab s (l.foldl f s) :=
  List.foldlRecOn (motive := InqKept slab s) l f (fun _ hm => hm) fun t ht a _ => ht.trans (h t a)

theorem inqKept_pushWrite (b : Nat) (m : WriteMsg) : InqKept slab s (pushWrite b m s) := by
  intro x hx
  by_cases hb : slab = b
  · subst hb
    have hslab : (getSlab (pushWrite slab m s) slab).inq = (getSlab s slab).inq ++ [{ m with id := s.ids, agent := slab, tick := s.tick }] :=
      congrArg Slab.inq (kget_kset_same ..)
    rw [hslab]
    exact List.mem_append_left _ hx
  · have hslab : getSlab (pushWrite b m s) slab = getSlab s slab := kget_kset_ne _ _ _ _ _ hb
    rw [hslab]
    exact hx

theorem inqKept_sendDirty (core ctx sector : Nat) (v : L1Sector) : InqKept slab s (sendDirty core ctx sector v s) := by
  unfold sendDirty
  split
  · exact .of_slabs rfl
  · exact inqKept_pushWrite _ _

theorem slabs_handOver (k ctx sector : Nat) (v : L1Sector) (s : State) : (handOver k ctx sector v s).slabs = s.slabs := by
  unfold handOver
  split <;> rfl

theorem inqKept_loseLine (k : Nat) (l : L1Line) : InqKept slab s (loseLine k l s) :=
  (InqKept.of_slabs ((slabs_handOver ..).trans (slabs_handOver ..))).trans ((inqKept_sendDirty _ _ _ _).trans (inqKept_sendDirty _ _ _ _))

theorem inqKept_cleanAll (core : Nat) (drop : Bool) : InqKept slab s (cleanAll core drop s) := by
  have hlines : ∀ (s : State) (k : Nat) (v : KMap (List L1Line)) (ls : List L1Line),
      InqKept slab s { ls.foldl (fun s l => loseLine k l s) s with l1 := v } := fun s k v ls =>
    (InqKept.foldl (fun _ _ => inqKept_loseLine _ _) ls s).trans (.of_slabs rfl)
  unfold cleanAll
  dsimp only
  split
  · exact (InqKept.foldl (fun s k => hlines s k _ _) _ s).trans (.of_slabs rfl)
  · exact InqKept.foldl (fun s k => hlines s k _ _) _ s

/-- An acquire at scope s writes back, so that writes join those of the slice (R101). -/
theorem inqKept_acquireEffect (core : Nat) : InqKept slab s (acquireEffect core 1 s) := inqKept_cleanAll core true

/-- Writes sent one after the other are in the slice. -/
theorem inq_pushWrites {α : Type} (msg : α → WriteMsg) (slab : Nat) {l : List α} {a : α} (ha : a ∈ l) (s : State) :
    ∃ m ∈ (getSlab (l.foldl (fun s a => pushWrite slab (msg a) s) s) slab).inq,
      m.sector = (msg a).sector ∧ m.mask = (msg a).mask ∧ m.data = (msg a).data ∧ m.kind = (msg a).kind := by
  induction l generalizing s with
  | nil => cases ha
  | cons b bs ih =>
    rcases List.mem_cons.mp ha with rfl | ha
    · exact ⟨_, InqKept.foldl (fun _ _ => inqKept_pushWrite _ _) bs _ _ (pushWrite_sends slab (msg a) s), rfl, rfl, rfl, rfl⟩
    · exact ih ha _

end

/-! ### What a commit does (R151) -/

theorem walkLooks_part {β : Type} {p : State → β} (hp : ReadBlind p) (looks : List (WriteMsg × Except Nat Leaf)) (s : State) :
    p (walkLooks looks s) = p s :=
  foldl_part p (fun s x => by split <;> [exact setAccessed_part hp ..; rfl]) looks s

/-- The scratchpad writes wake waves, and write no memory. -/
theorem calm_commitScratch (gid : Nat) (w : TxnWrites) (s : State) : Calm s (commitScratch gid w s) := by
  unfold commitScratch
  refine Calm.foldl (fun s line => ?_) _ s
  dsimp only
  refine .trans ?_ (calm_wakeScratch ..)
  exact calm_setGang_beside rfl rfl rfl rfl

theorem slabs_wakeSleeper (k : Nat) (s : State) : (wakeSleeper k s).slabs = s.slabs := by
  unfold wakeSleeper
  split
  · rfl
  · dsimp only
    split <;> rfl

theorem slabs_wakeAll (ws : List WakeReg) (s : State) : (wakeAll ws s).slabs = s.slabs :=
  foldl_part State.slabs (fun s w => by split <;> [exact slabs_wakeSleeper ..; rfl]) ws s

theorem slabs_commitScratch (gid : Nat) (w : TxnWrites) (s : State) : (commitScratch gid w s).slabs = s.slabs := by
  unfold commitScratch
  refine foldl_part State.slabs (fun s line => ?_) _ s
  exact slabs_wakeAll ..

/-- The writes have left and the copies that the wave may not use are gone; `seen` is the machine after the walks of the pages. -/
def commitSent (e : Env) (t : Txn) (looks : List (WriteMsg × Except Nat Leaf)) (seen : State) : State :=
  acquireEffect e.core 1 (commitScratch e.gid t.writes
    (looks.foldl (fun s x => pushWrite (slabOf e.core) { x.1 with leaf := x.2.toOption } s) { seen with ids := seen.ids + 1 }))

/-- The TEND retires, and the transaction is closed. -/
def committed (e : Env) (t : Txn) (u : State) : State :=
  closeTxn e.core e.key e.gid none none (retirePlain { e with fids := pinned e.sl t } 5 u)

section
variable {e : Env} {t : Txn} {s : State}

theorem calm_commitSent (looks : List (WriteMsg × Except Nat Leaf)) : Calm s (commitSent e t looks s) := by
  have hpush : Calm s (looks.foldl (fun s x => pushWrite (slabOf e.core) { x.1 with leaf := x.2.toOption } s) { s with ids := s.ids + 1 }) :=
    .trans (t := { s with ids := s.ids + 1 }) (calm_of_same rfl rfl rfl (.refl _) fun _ h => h)
      (Calm.foldl (fun _ _ => calm_of_cacheBlind fun _ hp => pushWrite_part hp ..) _ _)
  exact (hpush.trans (calm_commitScratch ..)).trans (calm_acquireEffect ..)

theorem commitSent_sends {looks : List (WriteMsg × Except Nat Leaf)} {x : WriteMsg × Except Nat Leaf} (hx : x ∈ looks) :
    ∃ m ∈ (getSlab (commitSent e t looks s) (slabOf e.core)).inq,
      m.sector = x.1.sector ∧ m.mask = x.1.mask ∧ m.data = x.1.data ∧ m.kind = x.1.kind := by
  obtain ⟨m, hm, hfields⟩ := inq_pushWrites (fun x : WriteMsg × Except Nat Leaf => { x.1 with leaf := x.2.toOption }) (slabOf e.core) hx
    { s with ids := s.ids + 1 }
  exact ⟨m, (InqKept.of_slabs (slabs_commitScratch ..)).trans (inqKept_acquireEffect e.core) m hm, hfields⟩

theorem memoryKept_committed : MemoryKept s (committed e t s) := (memoryKept_retirePlain ..).trans memoryKept_closeTxn

theorem slabs_committed : (committed e t s).slabs = s.slabs :=
  (closeTxn_part (p := State.slabs) (fun _ _ _ => rfl) (fun _ _ _ => rfl) fun _ _ _ => rfl).trans
    (retire_part (p := State.slabs) (fun _ _ _ => rfl) (fun _ _ _ => rfl) (fun _ _ _ => rfl) ..)

variable (ht : (getSlot s e.key).txn = some t)
include ht

theorem txn_retirePlain : (getSlot (retirePlain { e with fids := pinned e.sl t } 5 s) e.key).txn = some t :=
  (congrArg Slot.txn (getSlot_retirePlain { e with fids := pinned e.sl t } s 5)).trans ht

theorem txn_committed : (getSlot (committed e t s) e.key).txn = none := by
  rw [committed, getSlot_closeTxn (txn_retirePlain ht)]

theorem pc_committed (hs : (getSlot s e.key).fids = e.sl.fids) {fid : Nat} (hf : fid ∈ pinned e.sl t)
    (hl : (kget? (getGang s e.gid).fibres fid).isSome = true) : (fibreAt (committed e t s) e.gid fid).pc = nextPc e.pc := by
  have hslot := getSlot_retirePlain { e with fids := pinned e.sl t } s 5
  have hmine : fid ∈ pinned (getSlot (retirePlain { e with fids := pinned e.sl t } 5 s) e.key) t := by
    rw [pinned, show (getSlot (retirePlain { e with fids := pinned e.sl t } 5 s) e.key).fids = (getSlot s e.key).fids from (congrArg Slot.fids hslot).trans rfl, hs]
    exact hf
  have hlive : (kget? (getGang (retirePlain { e with fids := pinned e.sl t } 5 s) e.gid).fibres fid).isSome = true := by
    rw [show getGang (retirePlain { e with fids := pinned e.sl t } 5 s) e.gid = _ from getGang_retire .., kget?_mapFibres, Option.isSome_map]
    exact hl
  rw [committed, fibreAt_closeTxn (txn_retirePlain ht) hmine hlive]
  exact congrArg Fibre.pc (fibreAt_retire (e := { e with fids := pinned e.sl t }) 5 _ _ _ hf hl)

end

/-! ### A commit that succeeds -/

/-- What lets the commit of a wave whose release has been performed succeed: clean data, versions as recorded, homes that can serve, and pages
that allow its writes and that no other commit holds. -/
structure MayCommit (e : Env) (t : Txn) (s : State) : Prop where
  globClean : t.writes.globPoison = []
  scrClean : t.writes.scrPoison = []
  served : validationServed s (slabOf e.core) t = true
  locks : locksServed s (slabOf e.core) (commitMsgs e.g.ctx 0 t.writes) = true
  valid : validates s e.gid t = true
  pages : ∀ x ∈ commitLooks s e.g.ctx s.ids t.writes, ∃ lf, x.2 = .ok lf ∧ commitHolds s (lf.pa / 256) = false

theorem commit_commits {e : Env} {t : Txn} {s : State} (hr : (release e (pinned e.sl t) 1 s).1 = true)
    (h : MayCommit e t (release e (pinned e.sl t) 1 s).2) :
    let u := (release e (pinned e.sl t) 1 s).2
    let looks := commitLooks u e.g.ctx u.ids t.writes
    commit e t s = .next (committed e t (commitSent e t looks (walkLooks looks u))) := by
  unfold commit
  dsimp only
  rw [hr]
  generalize (release e (pinned e.sl t) 1 s).2 = u at h ⊢
  obtain ⟨hglob, hscr, hserved, hlocks, hvalid, hpages⟩ := h
  generalize hlooks : commitLooks u e.g.ctx u.ids t.writes = looks at hpages ⊢
  have hseen : validates (walkLooks looks u) e.gid t = true :=
    (walkLooks_part (p := (validates · e.gid t)) (fun _ _ _ _ _ _ => rfl) looks u).trans hvalid
  rw [hglob, hscr, hserved, hlocks]
  refine (if_neg Bool.false_ne_true).trans ((if_neg Bool.false_ne_true).trans ((if_neg Bool.false_ne_true).trans ((if_neg ?held).trans ?_)))
  case held =>
    rw [List.any_eq_false.mpr fun x hx => ?_]
    · exact Bool.false_ne_true
    · obtain ⟨lf, hok, hfree⟩ := hpages x hx
      rw [hok]
      simp [hfree]
  rw [List.findSome?_eq_none_iff.mpr fun x hx => ?_, hseen]
  · rfl
  · obtain ⟨lf, hok, -⟩ := hpages x hx
    rw [hok]

end Sys2Proof.Machine
end

section
/-! PROOF. The wave once its open windows have closed, and a trap that is taken then (R155, R222, R239, R240). -/
namespace Sys2Proof.Machine

/-! ### The wave with its windows closed -/

/-- A window that stays open is one that was open. -/
theorem mem_windows_closeWindows {x : Fibre} {w : Window} (hw : w ∈ (closeWindows x).windows) : ∃ v ∈ x.windows, v.done = w.done := by
  unfold closeWindows settle at hw
  dsimp only at hw
  rw [foldl_part (f := applyWindow) Fibre.windows fun y v => pokeAll_part (fun _ _ _ _ _ _ => rfl) y _] at hw
  obtain ⟨v, hv, rfl⟩ := List.mem_map.mp (List.mem_of_mem_filter hw)
  exact ⟨v, hv, rfl⟩

section
variable {s : State} {e : Env}

theorem pc_closedEnv (e : Env) (fid : Nat) : (getFibre (closedEnv e).g fid).pc = (getFibre e.g fid).pc :=
  closedEnv_part (p := Fibre.pc) (fun _ _ _ _ _ _ _ => rfl) e fid

theorem mem_windows_closedEnv {fid : Nat} {w : Window} (hw : w ∈ (getFibre (closedEnv e).g fid).windows) :
    ∃ v ∈ (getFibre e.g fid).windows, v.done = w.done := by
  by_cases hl : (kget? e.g.fibres fid).isSome = true
  · rw [closedEnv, getFibre_mapFibres _ _ _ hl] at hw
    split at hw
    · exact mem_windows_closeWindows hw
    · exact ⟨w, hw, rfl⟩
  · have hnone : kget? e.g.fibres fid = none := by simpa using hl
    have hsame : getFibre (closedEnv e).g fid = getFibre e.g fid := by
      rw [getFibre, getFibre, kget, kget, closedEnv, kget?_mapFibres, hnone]
      rfl
    exact ⟨w, hsame ▸ hw, rfl⟩

/-- No operation runs in the windows of a wave that may trap, closed or not. -/
theorem windowsRunning_closedEnv (h : windowsRunning e = false) : windowsRunning (closedEnv e) = false := by
  unfold windowsRunning at h ⊢
  refine List.any_eq_false.mpr fun fid hf hrun => List.any_eq_false.mp h fid hf ?_
  obtain ⟨hpark, hany⟩ := Bool.and_eq_true_iff.mp hrun
  obtain ⟨w, hw, hopen⟩ := List.any_eq_true.mp hany
  obtain ⟨v, hv, hdone⟩ := mem_windows_closedEnv hw
  refine Bool.and_eq_true_iff.mpr ⟨?_, List.any_eq_true.mpr ⟨v, hv, hdone ▸ hopen⟩⟩
  rwa [closedEnv_part (p := Fibre.park) (fun _ _ _ _ _ _ _ => rfl)] at hpark

/-- The same wave issues once its windows have closed. -/
theorem envOf_closedState (h : envOf s = some e) : envOf (closedState e s) = some (closedEnv e) := by
  have hgang := getGang_closedState e s
  have hpc := pc_closedEnv e
  unfold envOf at h ⊢
  rw [show (closedState e s).cur = s.cur from rfl]
  split at h
  · cases h
  · dsimp only at h ⊢
    rw [show getSlot (closedState e s) = getSlot s from rfl]
    split at h
    · cases h
    · cases h
      dsimp only at hgang hpc ⊢
      rw [hgang, hpc]
      rfl

theorem CanTrap.closed (h : CanTrap s e) : CanTrap (closedState e s) (closedEnv e) where
  env := envOf_closedState h.env
  user := h.user
  quiet := windowsRunning_closedEnv h.quiet
  plain := h.plain
  base := h.base

end

/-! ### ILLEGAL (R335) -/

theorem illegalHere_traps {s : State} {e : Env} (hc : CanTrap s e) {act : List Nat} (hact : act ≠ []) (i : Instr) :
    ∃ t, illegalHere i e act s = .next t ∧ Trapped e s t 2 (laneMask act) (illegalVal i) := by
  have hmem : ∀ x ∈ act.map (fun fid => (fid, 2, illegalVal i)), x.2 = (2, illegalVal i) := fun x hx => by
    obtain ⟨fid, -, rfl⟩ := List.mem_map.mp hx
    rfl
  obtain ⟨v, hv, hpick⟩ := pickCause_lowest (r' := []) (mt List.map_eq_nil_iff.mp hact) (fun x hx => congrArg Prod.fst (hmem x hx))
    fun x hx => absurd hx List.not_mem_nil
  rw [List.append_nil, List.map_map, congrArg Prod.snd (hmem v hv)] at hpick
  have hfids : act.map ((fun x : Nat × Nat × W64 => x.1) ∘ fun fid => (fid, 2, illegalVal i)) = act := List.map_id _
  rw [hfids] at hpick
  exact takeTrap_trapped hc hpick

end Sys2Proof.Machine
end

section
/-! PROOF. TEND, TABORT, TRETRY and TRETRYT inside a transaction and outside one (R151 to R160, R335); O27. -/
namespace Sys2Proof.Machine

/-! ### What a commit leaves (R151, R152) -/

section
variable {e : Env} {t : Txn} {s : State}

/-- The commit's writes leave no slot changed, and no fibre gone. -/
theorem slots_sent (hr : (release e (pinned e.sl t) 1 s).1 = true) (looks : List (WriteMsg × Except Nat Leaf)) :
    (commitSent e t looks (walkLooks looks (release e (pinned e.sl t) 1 s).2)).slots = s.slots :=
  calc (commitSent e t looks (walkLooks looks (release e (pinned e.sl t) 1 s).2)).slots
      = (walkLooks looks (release e (pinned e.sl t) 1 s).2).slots := (calm_commitSent looks).slots
    _ = (release e (pinned e.sl t) 1 s).2.slots := walkLooks_part (p := State.slots) (fun _ _ _ _ _ _ => rfl) ..
    _ = s.slots := performedRelease_part (p := State.slots) (fun _ _ _ _ _ _ => rfl) (fun _ _ _ => rfl) hr

theorem live_sent (hr : (release e (pinned e.sl t) 1 s).1 = true) (looks : List (WriteMsg × Except Nat Leaf)) (fid : Nat) :
    (kget? (getGang (commitSent e t looks (walkLooks looks (release e (pinned e.sl t) 1 s).2)) e.gid).fibres fid).isSome =
      (kget? (getGang s e.gid).fibres fid).isSome := by
  rw [(calm_commitSent looks).isSome, walkLooks_part (p := (getGang · e.gid)) (fun _ _ _ _ _ _ => rfl)]
  exact gang_performedRelease (q := fun g => (kget? g.fibres fid).isSome) (fun g fn => by rw [kget?_mapFibres, Option.isSome_map]) hr

theorem commit_closes (hs : getSlot s e.key = e.sl) (ht : e.sl.txn = some t) (hr : (release e (pinned e.sl t) 1 s).1 = true)
    (h : MayCommit e t (release e (pinned e.sl t) 1 s).2) :
    let u := (release e (pinned e.sl t) 1 s).2
    let looks := commitLooks u e.g.ctx u.ids t.writes
    ∃ v, commit e t s = .next v ∧ (getSlot v e.key).txn = none ∧ MemoryKept (walkLooks looks u) v ∧
      (∀ x ∈ looks, ∃ m ∈ (getSlab v (slabOf e.core)).inq,
        m.sector = x.1.sector ∧ m.mask = x.1.mask ∧ m.data = x.1.data ∧ m.kind = .commit u.ids) ∧
      ∀ fid ∈ pinned e.sl t, (kget? (getGang s e.gid).fibres fid).isSome = true → (fibreAt v e.gid fid).pc = nextPc e.pc := by
  intro u looks
  have hslot : getSlot (commitSent e t looks (walkLooks looks u)) e.key = e.sl := by
    rw [getSlot, slots_sent hr]
    exact hs
  have htxn : (getSlot (commitSent e t looks (walkLooks looks u)) e.key).txn = some t := (congrArg Slot.txn hslot).trans ht
  refine ⟨_, commit_commits hr h, txn_committed htxn, (calm_commitSent looks).memory.trans memoryKept_committed, fun x hx => ?_, fun fid hf hl => ?_⟩
  · obtain ⟨m, hm, hsector, hmask, hdata, hkind⟩ := commitSent_sends (e := e) (t := t) (s := walkLooks looks u) hx
    refine ⟨m, ?_, hsector, hmask, hdata, hkind.trans ?_⟩
    · rw [getSlab, slabs_committed]
      exact hm
    · obtain ⟨w, hw, rfl⟩ := List.mem_map.mp hx
      obtain ⟨sec, -, rfl⟩ := List.mem_map.mp hw
      rfl
  · exact pc_committed htxn (congrArg Slot.fids hslot) hf ((live_sent hr looks fid).trans hl)

end

/-! ### What a wave that falls asleep leaves (R157, R158) -/

section
variable {e : Env} {t : Txn} {s : State} (limit : Option Nat)

theorem fellAsleep_sleeps (ht : (getSlot s e.key).txn = some t) (hp : pinned (getSlot s e.key) t = pinned e.sl t) :
    (getSlot (fellAsleep e t limit s) e.key).txn = none ∧
      ∀ fid ∈ pinned e.sl t, fid ∉ (getSlot (fellAsleep e t limit s) e.key).fids ∧
        ((kget? (getGang s e.gid).fibres fid).isSome = true → (fibreAt (fellAsleep e t limit s) e.gid fid).pc = t.beginPc) := by
  refine ⟨congrArg Slot.txn (getSlot_fellAsleep ht), fun fid hf => ⟨?_, fibreAt_fellAsleep ht (hp ▸ hf)⟩⟩
  rw [getSlot_fellAsleep ht, hp]
  exact fun hmem => (mem_without.mp hmem).2 hf

end

/-! ### The instructions inside a transaction -/

/-- The wave's WAITLIMIT: that of the fibre that ELECT would choose (R160). -/
def waitLimit (h : Hdr) (e : Env) : Nat := (getFibre e.g ((sortBy lane (executing h (closedEnv e))).headD 0)).waitlimit.toNat

section
variable {f : F5} {s : State} {e : Env} {tx : Txn} (hi : Issues true s e)

/-- A fibre of the gang is one once the windows have closed. -/
theorem live_closedState {fid : Nat} (hl : (kget? e.g.fibres fid).isSome = true) :
    (kget? (getGang (closedState e s) e.gid).fibres fid).isSome = true := by
  rw [getGang_closedState, closedEnv, kget?_mapFibres, Option.isSome_map]
  exact hl

theorem memoryKept_noted : MemoryKept s (noteIssue (closedEnv e) 5 (closedState e s)) := memoryKept_closedState.trans (memoryKept_noteIssue ..)

include hi

theorem txn_closedState (ht : e.sl.txn = some tx) : (getSlot (closedState e s) e.key).txn = some tx :=
  (congrArg Slot.txn (getSlot_closedState hi.env)).trans ht

section
variable (ht : e.sl.txn = some tx)
include ht

section
variable (hall : e.fids.length = (pinned e.sl tx).length)
include hall

/-- The TEND of an inner level. -/
theorem execTend_inner {l1 l2 : TxnLevel} {ls : List TxnLevel} (hl : tx.levels = l1 :: l2 :: ls) : execTend f s =
    .next (setTxn e.key { tx with levels := l2 :: ls } (retirePlain (closedEnv e) 5 (closedState e s))) := by
  have ht' : (closedEnv e).sl.txn = some tx := ht
  have hlen : ¬ (closedEnv e).fids.length < (pinned (closedEnv e).sl tx).length := Nat.not_lt.mpr (Nat.le_of_eq hall.symm)
  rw [execTend, issue_waits hi, ht']
  dsimp only
  rw [if_neg hlen, hl]
  rfl

/-- The outermost TEND. -/
theorem execTend_outer {l : TxnLevel} (hl : tx.levels = [l]) : execTend f s = commit (closedEnv e) tx (closedState e s) := by
  have ht' : (closedEnv e).sl.txn = some tx := ht
  have hlen : ¬ (closedEnv e).fids.length < (pinned (closedEnv e).sl tx).length := Nat.not_lt.mpr (Nat.le_of_eq hall.symm)
  rw [execTend, issue_waits hi, ht']
  dsimp only
  rw [if_neg hlen, hl]

end

section
variable (hg : GuardsClean f.h (closedEnv e)) (hact : executing f.h (closedEnv e) ≠ [])
include hg

omit hi in
/-- No trap is raised by a wave in a transaction whose guards are clean. -/
theorem orTrap_inTxn (i : Instr) (k : Out) : orTrap (closedEnv e) (outsideTxn i (closedEnv e) (executing f.h (closedEnv e)) ++ guardPoison f.h (closedEnv e))
    (closedState e s) k = k := by
  rw [guardPoison_nil hg, outsideTxn, show (closedEnv e).sl.txn = some tx from ht]
  rfl

include hact

theorem execTabort_aborts : execTabort f s = .next (abortTxn e.core e.key e.gid 10 f.mod.toNat (noteIssue e 5 (closedState e s))) := by
  have ht' : (closedEnv e).sl.txn = some tx := ht
  rw [execTabort, issue_waits hi, orTrap_inTxn ht hg, if_neg (by simpa using hact), ht']
  rfl

theorem execTretry_retries : execTretry f s = retry (closedEnv e) tx none (closedState e s) := by
  have ht' : (closedEnv e).sl.txn = some tx := ht
  rw [execTretry, issue_waits hi, orTrap_inTxn ht hg, if_neg (by simpa using hact), ht']

theorem execTretryt_retries : execTretryt f s = retry (closedEnv e) tx (some (waitLimit f.h e)) (closedState e s) := by
  have ht' : (closedEnv e).sl.txn = some tx := ht
  rw [execTretryt, issue_waits hi, orTrap_inTxn ht hg, if_neg (by simpa using hact), ht', waitLimit,
    ← closedEnv_part (p := fun x => x.waitlimit) (fun _ _ _ _ _ _ _ => rfl) e]

/-- Both retries, but for the limit. -/
theorem exec_retries : ∀ i ∈ [Instr.tretry f, .tretryt f], ∃ limit, exec i s = retry (closedEnv e) tx limit (closedState e s) := by
  refine List.forall_mem_cons.mpr ⟨⟨_, execTretry_retries hi ht hg hact⟩, List.forall_mem_singleton.mpr ⟨_, execTretryt_retries hi ht hg hact⟩⟩

end

end

section
variable (ht : e.sl.txn = some tx) (hlast : dropToAlternative tx.levels = []) (hr : tx.reads ≠ [])
  (hserved : validationServed (noteIssue e 5 (closedState e s)) (slabOf e.core) tx = true)

include ht

/-- The wave's transaction, and its fibres, where the issue of a retry has been noted. -/
theorem txn_noted : (getSlot (noteIssue e 5 (closedState e s)) e.key).txn = some tx := txn_noteIssue e 5 _ (txn_closedState hi ht)

omit ht in
theorem pinned_noted : pinned (getSlot (noteIssue e 5 (closedState e s)) e.key) tx = pinned e.sl tx :=
  (pinned_noteIssue e 5 (closedState e s) tx).trans (congrArg (pinned · tx) (getSlot_closedState hi.env))

include hlast hr hserved

/-- A final retry that begins again at once. -/
theorem retry_begins_again (h : validates (noteIssue e 5 (closedState e s)) e.gid tx = false ∨ readsFenced (noteIssue e 5 (closedState e s)) tx = true)
    (limit : Option Nat) : ∃ t, retry (closedEnv e) tx limit (closedState e s) = .next t ∧ MemoryKept s t ∧ (getSlot t e.key).txn = none ∧
      ∀ fid ∈ pinned e.sl tx, (kget? e.g.fibres fid).isSome = true →
        (fibreAt t e.gid fid).pc = tx.beginPc ∧ (fibreAt t e.gid fid).txstatus = txWord 0 false 0 12 := by
  have htxn := txn_noted hi ht
  refine ⟨_, retry_again (e := closedEnv e) limit hlast hr hserved h, memoryKept_noted.trans memoryKept_closeTxn,
    congrArg Slot.txn (getSlot_closeTxn htxn), fun fid hf hl => ?_⟩
  have hfibre := fibreAt_closeTxn (core := e.core) (pc := some tx.beginPc) (st := some fun _ => txWord 0 false 0 12) htxn
    (pinned_noted hi ▸ hf) (live_closedState hl)
  exact ⟨congrArg Fibre.pc hfibre, congrArg Fibre.txstatus hfibre⟩

/-- A final retry that sleeps until a write of a line wakes it. -/
theorem retry_falls_asleep (hv : validates (noteIssue e 5 (closedState e s)) e.gid tx = true)
    (hf : readsFenced (noteIssue e 5 (closedState e s)) tx = false) (limit : Option Nat) :
    ∃ t, retry (closedEnv e) tx limit (closedState e s) = .next t ∧ MemoryKept s t ∧ (getSlot t e.key).txn = none ∧
      (∀ fid ∈ pinned e.sl tx, fid ∉ (getSlot t e.key).fids ∧ ((kget? e.g.fibres fid).isSome = true → (fibreAt t e.gid fid).pc = tx.beginPc)) ∧
      (pinned e.sl tx ≠ [] → ∃ b ∈ (getCore t e.core).table, b.gang = e.gid ∧ b.fids = pinned e.sl tx ∧ b.wait = .asleep s.ids) ∧
      ∃ p, kget? t.sleepers s.ids = some p ∧ p.gang = e.gid ∧ p.fids = pinned e.sl tx ∧ p.beginPc = tx.beginPc ∧ p.abortPc = tx.abortPc ∧
        p.reads = tx.reads ∧ p.limit = limit.map (· + now s) ∧ ∀ r ∈ tx.reads, ∃ w ∈ t.wakes, w.who = .wave s.ids ∧
          w.place = (if r.scratch then .cluster (clusterOf e.core) else .home (homeOf (r.line * 256))) ∧
          (w.line = some r.line ∨ (w.line = none ∧ p.coarse = true)) := by
  obtain ⟨hgone, hfibres⟩ := fellAsleep_sleeps (e := closedEnv e) limit (txn_noted (e := e) hi ht) (pinned_noted (e := e) hi)
  exact ⟨_, retry_sleeps (e := closedEnv e) limit hlast hr hserved hv hf, memoryKept_noted.trans memoryKept_fellAsleep, hgone,
    fun fid hf => ⟨(hfibres fid hf).1, fun hl => (hfibres fid hf).2 (live_closedState hl)⟩, fellAsleep_table, fellAsleep_registers⟩

end

end

/-! ### Outside a transaction (R335) -/

theorem exec_illegal {f : F5} {s : State} {e : Env} (hi : Issues true s e) (ht : e.sl.txn = none) (hg : GuardsClean f.h (closedEnv e))
    (hact : executing f.h (closedEnv e) ≠ []) : ∀ i ∈ [Instr.tend f, .tabort f, .tretry f, .tretryt f, .torelse f],
      exec i s = illegalHere i (closedEnv e) (executing f.h (closedEnv e)) (closedState e s) := by
  have ht' : (closedEnv e).sl.txn = none := ht
  have htrap : ∀ i k, orTrap (closedEnv e) (outsideTxn i (closedEnv e) (executing f.h (closedEnv e)) ++ guardPoison f.h (closedEnv e)) (closedState e s) k =
      illegalHere i (closedEnv e) (executing f.h (closedEnv e)) (closedState e s) := fun i k => by
    rw [guardPoison_nil hg, List.append_nil, outsideTxn, ht']
    exact orTrap_cons (mt List.map_eq_nil_iff.mp hact)
  simp only [List.forall_mem_cons, List.not_mem_nil, false_imp_iff, implies_true, and_true]
  refine ⟨?_, ?_, ?_, ?_, ?_⟩
  · rw [show exec (.tend f) s = execTend f s from rfl, execTend, issue_waits hi, ht']
  · rw [show exec (.tabort f) s = execTabort f s from rfl, execTabort, issue_waits hi, htrap]
  · rw [show exec (.tretry f) s = execTretry f s from rfl, execTretry, issue_waits hi, htrap]
  · rw [show exec (.tretryt f) s = execTretryt f s from rfl, execTretryt, issue_waits hi, htrap]
  · rw [show exec (.torelse f) s = execTorelse f s from rfl, execTorelse, issue_waits hi, ht']

/-- Settles O27: a TEND drops its level or commits, TABORT aborts, a retry takes an alternative, begins again or sleeps, and outside a transaction the
instructions trap. -/
theorem transactionsClose : Obligations.TransactionsClose := by
  unfold Obligations.TransactionsClose
  refine ⟨fun f s e tx l1 l2 ls hi ht hall hl => ?inner, fun f s e tx l hi ht hall hl hr hglob hscr hserved hlocks hvalid hpages => ?outer,
    fun f s e tx hi hg hact ht => ⟨?abort, fun l ls hl i hmem => ?alternative, fun hlast hreads i hmem => ?empty⟩,
    fun f s e tx hi hg hact ht hlast hreads hserved => ⟨fun h i hmem => ?again, fun hv hf x hx => ?sleeps⟩,
    fun s sid p home line hp hgang halone hw => ?wakes, fun f s e hi hc hg hact i hmem => ?illegal⟩
  case inner => exact ⟨_, execTend_inner hi ht hall hl, congrArg Slot.txn (getSlot_setTxn ..)⟩
  case outer =>
    obtain ⟨t, hrun, hgone, hmem, hsent, hpc⟩ := commit_closes (e := closedEnv e) (s := closedState e s) (getSlot_closedState (e := e) hi.env) ht hr
      ⟨hglob, hscr, hserved, hlocks, hvalid, hpages⟩
    exact ⟨t, (execTend_outer hi ht hall hl).trans hrun, hgone, hmem, hsent, fun _ fid hf hl => hpc fid hf (live_closedState hl)⟩
  case abort => exact execTabort_aborts hi ht hg hact
  case alternative =>
    obtain ⟨limit, hrun⟩ := exec_retries hi ht hg hact i hmem
    obtain ⟨t, hretry, hkept, htaken, hpc⟩ := retry_takes (e := closedEnv e) (s := closedState e s) hl limit
    exact ⟨t, hrun.trans hretry, hkept, htaken, fun fid hf hl => hpc fid hf (live_closedState hl)⟩
  case empty =>
    obtain ⟨limit, hrun⟩ := exec_retries hi ht hg hact i hmem
    exact hrun.trans (retry_empty limit hlast hreads)
  case again =>
    obtain ⟨limit, hrun⟩ := exec_retries hi ht hg hact i hmem
    rw [hrun]
    exact retry_begins_again hi ht hlast hreads hserved h limit
  case sleeps =>
    obtain ⟨limit, hrun, hlimit⟩ : ∃ limit, exec x.1 s = retry (closedEnv e) tx limit (closedState e s) ∧ x.2 = limit.map (· + now s) := by
      rcases List.mem_pair.mp hx with rfl | rfl
      · exact ⟨none, execTretry_retries hi ht hg hact, rfl⟩
      · exact ⟨some (waitLimit f.h e), execTretryt_retries hi ht hg hact, rfl⟩
    rw [hrun, hlimit]
    exact retry_falls_asleep hi ht hlast hreads hserved hv hf limit
  case wakes =>
    obtain ⟨hentry, hgone, -, hfibres⟩ := wakeLine_wakes (live := fun fid => (kget? (getGang s p.gang).fibres fid).isSome = true)
      ⟨hp, hgang, halone, fun _ hl => hl⟩ hw
    exact ⟨hentry, hgone, hfibres⟩
  case illegal =>
    rw [exec_illegal hi hc.plain hg hact i hmem]
    exact illegalHere_traps hc.closed hact i

end Sys2Proof.Machine
end
